-- ==== Sys2Proof/Word.lean ====
section
/-! DEFINITION. The word types of the GZ6400 and their plainest arithmetic. -/

namespace Sys2Proof

/-- A byte of a frame, a table or a memory. -/
abbrev Byte := BitVec 8

/-- A setter word (R277). -/
abbrev W40 := BitVec 40

/-- One accumulator part of a setter (R277, A48). -/
abbrev A48 := BitVec 48

/-- A setter instruction word (R295). -/
abbrev W64 := BitVec 64

end Sys2Proof
end

