-- ==== Sys2Proof/Config.lean ====
section
/-! DEFINITION. What one part fixes and the spec does not give, and the free values. A constant here has no body:
no proof can see a value of it, so a statement about it holds for every value. -/

namespace Sys2Proof

/-- OD 1080.04, the die ID of the part ("per part", R392). -/
opaque Config.dieId : BitVec 64

/-- A free value of at most 64 bits: the n-th value that the spec leaves open (log entry 3). -/
opaque Config.freeWord : Nat → BitVec 64

/-- The byte at an address of a memory whose contents a partition change left undefined; ranges are numbered (R251, R257, log entry 53). -/
opaque Config.freeByte : Nat → Nat → BitVec 8

/-- Contents of the setters' boot ROM, which the spec does not list (R284, log entry 24). -/
opaque Config.bootRom : Nat → BitVec 64

/-- What a data read of an unmapped P address returns, which the spec does not state (R284, log entry 24). -/
opaque Config.unmappedP : Nat → BitVec 64

/-- The bank (0-63) of a pseudo-channel that a physical HBM address falls in, which the spec does not state (log
entry 30). -/
opaque Config.hbmBank : Nat → Fin 64

/-- The row of its bank that a physical HBM address falls in, which the spec does not state (log entry 30). -/
opaque Config.hbmRow : Nat → Nat

/-- What a byte of the pack store, by its offset in the store, belongs to: the parity of its stick, the system input and the channel; the
spec does not state the store's layout (R258, log entry 49). -/
opaque Config.packPlace : Nat → Nat × Nat × Nat

/-- The least value of a transmit tap 0-4 (c-2 to c+2) in units of 1/64 of full swing, which the spec does not state (R75, log
entry 36). -/
opaque Config.tapMin : Nat → Int

/-- The greatest value of a transmit tap. -/
opaque Config.tapMax : Nat → Int

end Sys2Proof
end

