-- ==== Sys2Proof/Syntax.lean ====
section
/-! DEFINITION. The commands of the GZ6400 block: one constructor of `Instr` per row of the table of
operations and events, with the operands the rule gives it. A command is something that reaches the chip from
outside (a request, a frame, a block, an edge on a pin) or an event that the spec lists as one whole step. -/

namespace Sys2Proof

/-- One parallel move of a setter instruction (R296). -/
structure Move where
  en : Bool
  act : Fin 4
  w : Fin 64
  mode : Fin 8
  pi : Fin 8
  mi : Fin 8
  deriving DecidableEq, Repr

/-- The P-bus operand field of a MAC instruction (R298). -/
structure Pb where
  en : Bool
  pn : Fin 4
  inc : Bool
  deriving DecidableEq, Repr

/-- Operands of a MAC class instruction (R297). -/
structure MacOp where
  s : Bool
  acc : Fin 8
  wa : Fin 64
  wb : Fin 64
  pb : Pb
  x : Move
  y : Move
  deriving DecidableEq, Repr

/-- Operands of an ALU class instruction (R299). -/
structure AluOp where
  s : Bool
  wd : Fin 64
  wa : Fin 64
  wb : Fin 64
  x : Move
  y : Move
  deriving DecidableEq, Repr

/-- Operands of an accumulator class instruction (R300). -/
structure AccOp where
  s : Bool
  accd : Fin 8
  accs : Fin 8
  w : Fin 64
  sh : Fin 64
  x : Move
  y : Move
  deriving DecidableEq, Repr

/-- Operands of a far load or store (R302). -/
structure FarOp where
  space : Fin 4
  size : Fin 16
  w : Fin 64
  pn : Fin 16
  mn : Fin 16
  mode : Fin 4
  disp : BitVec 16
  deriving DecidableEq, Repr

/-- How the bus matrix answers a far access of a setter (R286). -/
inductive FarReply where
  /-- The target performed the access. -/
  | done
  /-- The read returned a poison indication (R270). -/
  | poison
  /-- The matrix refused the access (R322). -/
  | error
  deriving DecidableEq, Repr

/-- The outcome of the ECC check of one unit or word (R269). -/
inductive Ecc where
  | clean | corrected | uncorrectable
  deriving DecidableEq, Repr

/-- A request that a class issues to the HBM controller (R259, R260): class, write or read, partition-space address, bytes, a write's data
and whether they carry a poison indication, and the CLOSE page hint of a DMA descriptor (R261). -/
structure HbmUnit where
  cls : Fin 11
  write : Bool
  addr : Nat
  len : Nat
  data : List Byte
  poison : Bool
  close : Bool
  deriving DecidableEq, Repr

/-- Where an uncorrectable SRAM word lies (R253). -/
inductive SramPlace where
  | chase (half : Fin 2) (offset : Nat)
  | fengine (stream : Fin 1024)
  | equalizer (stream : Fin 1024) (channel : Nat)
  | weightStore (forme : Fin 4096)
  | ledger (slot : Nat)
  | trigger
  | ingest (stream : Fin 1024)
  | truss (bundle : Fin 256)
  | dma (channel : Fin 32)
  | output (stream : Fin 256)
  | resultBuffer (platen : Fin 64)
  | queueEntry (platen : Fin 64)
  | formeState (forme : Fin 4096)
  | segmentQueue (stream : Fin 1024)
  | reportRing
  | hbmQueue (stack : Fin 6) (pc : Fin 32)
  | stagingStore
  | mainWord (addr : Nat)
  deriving DecidableEq, Repr

/-- Who writes a register that both the dictionary and the control space reach: a session's request (0 = CAN or the
boot configuration, 1-8 = BDP), a setter, or debug (R322, R324). -/
inductive Requester where
  | session (k : Fin 9)
  | setter (n : Fin 8)
  | debug
  deriving DecidableEq, Repr

/-- One request at a bus-matrix target port: the master's number, a write's data or a read's length, the
byte address (R322, R323). -/
structure MatrixReq where
  master : Fin 12
  write : Bool
  addr : Nat
  len : Nat
  data : List Byte
  deriving DecidableEq, Repr

/-- The values read from one regulator in a PMBus poll (R422). -/
structure RegReading where
  reg : Fin 16
  voutMode : BitVec 8
  vout : BitVec 16
  iout : BitVec 32
  statusWord : BitVec 16
  temperature : BitVec 16
  deriving DecidableEq, Repr

/-- A received BDP datagram (R377) with the addresses it came from; the request code is the command's. -/
structure Bdp where
  version : BitVec 4
  auth : Bool
  more : Bool
  session : BitVec 16
  reqId : BitVec 32
  length : BitVec 16
  body : List Byte
  tag : List Byte
  v6 : Bool
  ip : List Byte
  port : BitVec 16
  mac : BitVec 48
  deriving DecidableEq, Repr

/-- The commands. -/
inductive Instr where
  /-- CMUL (R297): Complex multiply into an accumulator. -/
  | cmul (n : Fin 8) (o : MacOp)
  /-- CMAC (R297): Complex multiply-accumulate. -/
  | cmac (n : Fin 8) (o : MacOp)
  /-- CMSU (R297): Complex multiply-subtract. -/
  | cmsu (n : Fin 8) (o : MacOp)
  /-- CJMUL (R297): Conjugate complex multiply. -/
  | cjmul (n : Fin 8) (o : MacOp)
  /-- CJMAC (R297): Conjugate complex multiply-accumulate. -/
  | cjmac (n : Fin 8) (o : MacOp)
  /-- CJMSU (R297): Conjugate complex multiply-subtract. -/
  | cjmsu (n : Fin 8) (o : MacOp)
  /-- DMUL (R297): Dual real multiply. -/
  | dmul (n : Fin 8) (o : MacOp)
  /-- DMAC (R297): Dual real multiply-accumulate. -/
  | dmac (n : Fin 8) (o : MacOp)
  /-- DMSU (R297): Dual real multiply-subtract. -/
  | dmsu (n : Fin 8) (o : MacOp)
  /-- XMAC (R297): Cross dual multiply-accumulate. -/
  | xmac (n : Fin 8) (o : MacOp)
  /-- PMAC (R297): Power accumulate into the real part. -/
  | pmac (n : Fin 8) (o : MacOp)
  /-- ADD (R299): I40 add. -/
  | add (n : Fin 8) (o : AluOp)
  /-- SUB (R299): I40 subtract. -/
  | sub (n : Fin 8) (o : AluOp)
  /-- CADD (R299): Per-part add. -/
  | cadd (n : Fin 8) (o : AluOp)
  /-- CSUB (R299): Per-part subtract. -/
  | csub (n : Fin 8) (o : AluOp)
  /-- NEG (R299): I40 negate. -/
  | neg (n : Fin 8) (o : AluOp)
  /-- CONJ (R299): Negate the low part. -/
  | conj (n : Fin 8) (o : AluOp)
  /-- ABS (R299): I40 absolute value. -/
  | abs (n : Fin 8) (o : AluOp)
  /-- MIN (R299): I40 minimum. -/
  | min (n : Fin 8) (o : AluOp)
  /-- MAX (R299): I40 maximum. -/
  | max (n : Fin 8) (o : AluOp)
  /-- AND (R299): Bitwise and. -/
  | and (n : Fin 8) (o : AluOp)
  /-- OR (R299): Bitwise or. -/
  | or (n : Fin 8) (o : AluOp)
  /-- XOR (R299): Bitwise exclusive or. -/
  | xor (n : Fin 8) (o : AluOp)
  /-- NOT (R299): Bitwise not. -/
  | not (n : Fin 8) (o : AluOp)
  /-- ASR (R299): Arithmetic shift right. -/
  | asr (n : Fin 8) (o : AluOp)
  /-- LSR (R299): Logical shift right. -/
  | lsr (n : Fin 8) (o : AluOp)
  /-- ASL (R299): Arithmetic shift left with overflow. -/
  | asl (n : Fin 8) (o : AluOp)
  /-- CASR (R299): Per-part arithmetic shift right. -/
  | casr (n : Fin 8) (o : AluOp)
  /-- PACK (R299): Pack two low parts into one word. -/
  | pack (n : Fin 8) (o : AluOp)
  /-- UNPH (R299): Unpack and sign-extend the high part. -/
  | unph (n : Fin 8) (o : AluOp)
  /-- UNPL (R299): Unpack and sign-extend the low part. -/
  | unpl (n : Fin 8) (o : AluOp)
  /-- CMP (R299): Set the flags from A − B. -/
  | cmp (n : Fin 8) (o : AluOp)
  /-- MOV (R299): Copy a W register. -/
  | mov (n : Fin 8) (o : AluOp)
  /-- SWAP (R299): Exchange the two parts. -/
  | swap (n : Fin 8) (o : AluOp)
  /-- NORM (R299): Count redundant sign bits. -/
  | norm (n : Fin 8) (o : AluOp)
  /-- TST (R299): Set the flags from A and B. -/
  | tst (n : Fin 8) (o : AluOp)
  /-- CLRA (R300): Clear an accumulator. -/
  | clra (n : Fin 8) (o : AccOp)
  /-- LDAC (R300): Load an accumulator from a complex word. -/
  | ldac (n : Fin 8) (o : AccOp)
  /-- LDAR (R300): Load an accumulator from a real word. -/
  | ldar (n : Fin 8) (o : AccOp)
  /-- ADDA (R300): Add accumulators. -/
  | adda (n : Fin 8) (o : AccOp)
  /-- SUBA (R300): Subtract accumulators. -/
  | suba (n : Fin 8) (o : AccOp)
  /-- MOVA (R300): Copy an accumulator. -/
  | mova (n : Fin 8) (o : AccOp)
  /-- SRA (R300): Shift an accumulator right. -/
  | sra (n : Fin 8) (o : AccOp)
  /-- SLA (R300): Shift an accumulator left. -/
  | sla (n : Fin 8) (o : AccOp)
  /-- CONJA (R300): Conjugate an accumulator. -/
  | conja (n : Fin 8) (o : AccOp)
  /-- STC (R300): Store an accumulator as a C40 word. -/
  | stc (n : Fin 8) (o : AccOp)
  /-- STR (R300): Store an accumulator's real part. -/
  | str (n : Fin 8) (o : AccOp)
  /-- STI (R300): Store an accumulator's imaginary part. -/
  | sti (n : Fin 8) (o : AccOp)
  /-- NORMA (R300): Count an accumulator's redundant sign bits. -/
  | norma (n : Fin 8) (o : AccOp)
  /-- NEAR_ABSOLUTE_LOAD (R301): Load a word from X, Y or P space at an absolute address. -/
  | nearAbsoluteLoad (n : Fin 8) (space : Fin 4) (w : Fin 64) (addr : BitVec 17)
  /-- NEAR_ABSOLUTE_STORE (R301): Store a word to X or Y space at an absolute address. -/
  | nearAbsoluteStore (n : Fin 8) (space : Fin 4) (w : Fin 64) (addr : BitVec 17)
  /-- FAR_LOAD (R302): Issue a far load through the bus matrix, interlocking its destination. -/
  | farLoad (n : Fin 8) (o : FarOp)
  /-- FAR_STORE (R302): Post a far store through the bus matrix. -/
  | farStore (n : Fin 8) (o : FarOp)
  /-- FAR_LOAD_DATA (R286): A far load's data, or its bus fault, arrives and releases the interlock. -/
  | farLoadData (n : Fin 8) (w : Fin 64) (reply : FarReply)
  /-- IMMEDIATE_W (R303): Write an immediate to a W register. -/
  | immediateW (n : Fin 8) (reg : Fin 64) (imm : BitVec 40)
  /-- IMMEDIATE_P (R303): Write an immediate to a pointer register. -/
  | immediateP (n : Fin 8) (reg : Fin 64) (imm : BitVec 40)
  /-- IMMEDIATE_M (R303): Write an immediate to a modifier register. -/
  | immediateM (n : Fin 8) (reg : Fin 64) (imm : BitVec 40)
  /-- IMMEDIATE_CONTROL (R303): Write an immediate to a control register. -/
  | immediateControl (n : Fin 8) (reg : Fin 64) (imm : BitVec 40)
  /-- ADDP (R304): Add an immediate to a pointer. -/
  | addp (n : Fin 8) (d : Fin 16) (s : Fin 16) (imm : BitVec 32)
  /-- MODP (R304): Add a modifier step to a pointer. -/
  | modp (n : Fin 8) (d : Fin 16) (s : Fin 16)
  /-- ADDM (R304): Add an immediate to a modifier. -/
  | addm (n : Fin 8) (d : Fin 16) (s : Fin 16) (imm : BitVec 32)
  /-- CMPP (R304): Set the flags from a pointer difference. -/
  | cmpp (n : Fin 8) (d : Fin 16) (s : Fin 16)
  /-- REGISTER_MOVE (R304): Move between W, P, M and control registers. -/
  | registerMove (n : Fin 8) (dkind : Fin 4) (dreg : Fin 64) (skind : Fin 4) (sreg : Fin 64)
  /-- NOP (R305): No operation. -/
  | nop (n : Fin 8)
  /-- BR (R305): Conditional branch with two delay slots. -/
  | br (n : Fin 8) (cond : Fin 16) (target : BitVec 16)
  /-- BRI (R305): Conditional branch to a pointer. -/
  | bri (n : Fin 8) (cond : Fin 16) (pn : Fin 16)
  /-- CALL (R305): Conditional call that sets LR. -/
  | call (n : Fin 8) (cond : Fin 16) (target : BitVec 16)
  /-- CALLI (R305): Conditional call to a pointer. -/
  | calli (n : Fin 8) (cond : Fin 16) (pn : Fin 16)
  /-- RET (R305): Conditional return to LR. -/
  | ret (n : Fin 8) (cond : Fin 16)
  /-- RTI (R317): Return from an interrupt, restoring SR. -/
  | rti (n : Fin 8)
  /-- RPT (R310): Repeat the next instruction count times. -/
  | rpt (n : Fin 8) (src : Bool) (w : Fin 64) (count : BitVec 16)
  /-- LOOP (R311): Start a hardware loop, pushing the loop stack. -/
  | loop (n : Fin 8) (src : Bool) (rot : Fin 4) (w : Fin 64) (endAddr : BitVec 16) (count : BitVec 16)
  /-- LOOP_BACK (R311): The fetch of LPEND returns to LPSTART, counts down and rotates ROTOFF, or pops the loop. -/
  | loopBack (n : Fin 8)
  /-- IDLE (R316): Wait for a pending and enabled interrupt. -/
  | idle (n : Fin 8)
  /-- TRAP (R317): Take a software interrupt. -/
  | trap (n : Fin 8) (number : BitVec 8)
  /-- SYNC (R286): Wait until posted stores complete. -/
  | sync (n : Fin 8)
  /-- BREAK (R318): Halt the setter for the debugger. -/
  | brk (n : Fin 8)
  /-- INTERRUPT_ENTRY (R317): A pending, enabled interrupt is accepted and its vector entered. -/
  | interruptEntry (n : Fin 8)
  /-- FAULT_ENTRY (R318): A setter fault is taken, or the setter halts if FIP is set. -/
  | faultEntry (n : Fin 8) (cause : BitVec 8) (faddr : BitVec 40)
  /-- TIMER_COMPARE (R314): CYC_LO equals TCMP and the timer interrupt becomes pending. -/
  | timerCompare (n : Fin 8)
  /-- CYC_LO_READ (R281): Reading CYC_LO latches the high bits into CYC_HI. -/
  | cycLoRead (n : Fin 8) (dkind : Fin 4) (dreg : Fin 64)
  /-- DOORBELL (R324): A write to a setter's doorbell stores the inbound mailbox and makes source 0 pending. -/
  | doorbell (by_ : Requester) (n : Fin 8) (value : BitVec 32)
  /-- RUN_CONTROL (R321): A write of OD 4010+n.01 releases a setter into its boot ROM, or resets it. -/
  | runControl (sess : Fin 9) (n : Fin 8) (value : BitVec 8)
  /-- RESET_RELEASE (R450): Reset is released: the straps are latched, the SILL bring-up state begins and the APLL starts to lock. -/
  | resetRelease (nodeId : Fin 64) (twinSide : Fin 2) (bootSrc : Fin 4)
  /-- COLD_RESET_COMMAND (R448): Writing 0x0000_C55C to OD 5800.03 answers the request and schedules a whole-chip reset 100 µs later. -/
  | coldResetCommand (sess : Fin 9)
  /-- WARM_RESET_COMMAND (R449): Writing 0x0000_A55A to OD 5800.03 answers the request and schedules a reset of every domain except PD_SILL and PD_CLK. -/
  | warmResetCommand (sess : Fin 9)
  /-- HBM_FILL_COMPLETE (R450): HBM training and the zero fill finish and bring-up enters CONFIG. -/
  | hbmFillComplete (failedStacks : List (Fin 6))
  /-- BOOT_CONFIGURATION (R456): The boot configuration is read from SPI flash and its records are applied as session-0 writes and commits, ending in READY or CONFIG_FAILED. -/
  | bootConfiguration (flash : Option (List Byte))
  /-- FAULT_ACKNOWLEDGE (R464): Writing a SEQ to OD 5800.13 acknowledges every active record up to it and may release ATTN_L. -/
  | faultAcknowledge (sess : Fin 9) (seq : BitVec 32)
  /-- REGISTER_WRITE (R361): A write to an object that has no behaviour of its own is checked and takes effect when accepted, or is staged inside a transaction. -/
  | registerWrite (sess : Fin 9) (index : BitVec 16) (sub : BitVec 8) (data : List Byte)
  /-- CLEAR_COUNTERS (R85): Writing 1 to a clear-counters object zeroes the counters that its index lists. -/
  | clearCounters (sess : Fin 9) (index : BitVec 16) (sub : BitVec 8) (data : List Byte)
  /-- OPEN (R382): A BDP OPEN assigns a free session and returns the device nonce, or is refused with SESSION. -/
  | openSession (d : Bdp)
  /-- CLOSE (R382): A BDP CLOSE ends the session and rolls back any transaction it owns. -/
  | closeSession (d : Bdp)
  /-- KEEPALIVE (R382): A BDP KEEPALIVE restarts the session's timeout. -/
  | keepalive (d : Bdp)
  /-- READ (R379): A BDP READ returns an object's value, or one segment of a DOMAIN from the version fixed for the session. -/
  | read (d : Bdp)
  /-- WRITE (R379): A BDP WRITE writes a scalar, or one segment of a DOMAIN, which completes at the segment with MORE clear. -/
  | write (d : Bdp)
  /-- DESCRIBE (R378): A BDP DESCRIBE returns an object's type, access, mirror attribute, size and default. -/
  | describe (d : Bdp)
  /-- BEGIN (R366): A BEGIN opens the position's transaction, owned by the requesting session, or is refused with TXN_BUSY. -/
  | beginTxn (d : Bdp)
  /-- COMMIT (R368): A COMMIT, with or without a tick, starts validation of the open transaction. -/
  | commit (d : Bdp)
  /-- ROLLBACK (R370): A ROLLBACK discards the staging and closes the owner's transaction. -/
  | rollback (d : Bdp)
  /-- SESSION_TIMEOUT (R382): A session with no request for the session timeout is closed and its transaction is rolled back. -/
  | sessionTimeout (k : Fin 9)
  /-- PARTIAL_WRITE_TIMEOUT (R380): A partial DOMAIN write that waits 1 000 ms for its next segment is discarded. -/
  | partialWriteTimeout (k : Fin 9)
  /-- ARP_REQUEST (R376): MGT answers an ARP request for its own address. -/
  | arpRequest (target : BitVec 32) (senderIp : BitVec 32) (senderMac : BitVec 48)
  /-- NEIGHBOUR_SOLICITATION (R376): MGT answers an IPv6 neighbour solicitation for its own address. -/
  | neighbourSolicitation (target : List Byte) (senderIp : List Byte) (senderMac : BitVec 48)
  /-- ECHO_REQUEST (R376): MGT answers an ICMP or ICMPv6 echo request. -/
  | echoRequest (v6 : Bool) (target : List Byte) (senderIp : List Byte) (senderMac : BitVec 48) (payload : List Byte)
  /-- SDO_DOWNLOAD_INITIATE (R387): A CiA 301 SDO download initiate writes an object, expedited or segmented, and abandons any transfer in progress. -/
  | sdoDownloadInitiate (frame : List Byte)
  /-- SDO_UPLOAD_INITIATE (R387): A CiA 301 SDO upload initiate reads an object, expedited or segmented. -/
  | sdoUploadInitiate (frame : List Byte)
  /-- SDO_SEGMENT (R387): One segment of a segmented SDO transfer is exchanged and its toggle bit checked. -/
  | sdoSegment (frame : List Byte)
  /-- SDO_BLOCK_COMMAND (R387): An SDO block-transfer command is answered with abort 0x0504_0001. -/
  | sdoBlockCommand (frame : List Byte)
  /-- CAN_COMMIT_AT_TICK (R388): Writing a tick to OD 1200.11 commits session 0's transaction at that tick. -/
  | canCommitAtTick (tick : BitVec 64)
  /-- KEY_WRITE (R385): Writing the 16-byte key to OD 1400.02 makes it apply to every datagram handled after the response. -/
  | keyWrite (sess : Fin 9) (key : List Byte)
  /-- SLEEP_REQUEST (R424): A write to OD 5000.02 is checked and starts draining every domain in RUN towards SLEEP. -/
  | sleepRequest (sess : Fin 9) (kind : BitVec 8)
  /-- PMB_ALERT (R422): PMB_ALERT_L asserts: every configured regulator's STATUS_WORD is read and faults are logged, and it is also a wake source in SLEEP. -/
  | pmbAlert (words : List (Nat × Nat))
  /-- WAKE (R427): An enabled wake source is acted on: PD_HUB returns on the start clock and the device state becomes WAKING. -/
  | wake (startClockKHz : Nat)
  /-- RESUME (R427): Writing 1 to OD 5000.03 switches the hub to the cleaned clock, retrains the stacks and restores the domains to RUN. -/
  | resume (sess : Fin 9)
  /-- DOMAIN_STATE_REQUEST (R415): A write to OD 5100+d.02 requests IDLE or NAP, which starts a drain, or RUN, which returns the domain. -/
  | domainStateRequest (sess : Fin 9) (d : Fin 96) (value : BitVec 8)
  /-- DOMAIN_DRAIN_COMPLETE (R417): A draining domain is empty, so its clock stops and, for NAP or OFF, its supply moves. -/
  | domainDrainComplete (d : Fin 96)
  /-- OPERATING_POINT_REQUEST (R420): A write to OD 5000.10 is checked against R16 and starts the ordered voltage and clock change. -/
  | operatingPointRequest (sess : Fin 9) (value : BitVec 8)
  /-- VOUT_POLL (R420): A 20 µs READ_VOUT poll finds VDD_CORE within 10 mV of target, so the change proceeds to its next step. -/
  | voutPoll (millivolts : Nat)
  /-- HBM_RATE_CHANGE (R421): A write to OD 5000.12 puts each stack in turn through self-refresh, a rate change and full training. -/
  | hbmRateChange (sess : Fin 9) (value : BitVec 8)
  /-- PMBUS_POLL (R422): Every 100 ms every configured regulator is read into OD 5020+i. -/
  | pmbusPoll (readings : List RegReading)
  /-- CLEAR_FAULTS (R422): Writing OD 5020+i.08 sends PMBus CLEAR_FAULTS to the regulator. -/
  | clearFaults (sess : Fin 9) (i : Fin 16)
  /-- FREQUENCY_GATE_END (R398): A candidate's measurement gate ends: y_k is computed and the soft, hard and qualification checks are applied. -/
  | frequencyGateEnd (k : Fin 7) (raw : Int)
  /-- DWELL_EXPIRY (R399): A candidate stays above its hard threshold for the whole dwell and is disqualified. -/
  | dwellExpiry (k : Fin 7)
  /-- REF_EDGE_TIMEOUT (R394): No edge reaches the phase detector for 2 µs, so the REF pin candidate is lost. -/
  | refEdgeTimeout (k : Fin 7)
  /-- REF_EDGE_RETURN (R394): The next edge on a lost REF pin makes the candidate active again. -/
  | refEdgeReturn (k : Fin 7)
  /-- WAIT_TO_RESTORE_EXPIRY (R401): A WAITING candidate's wait-to-restore timer expires and the candidate becomes ELIGIBLE. -/
  | waitToRestoreExpiry (k : Fin 7)
  /-- ACQUIRE_LOCK (R403): Phase and frequency have held within limits for 1 s in ACQUIRING, and the clock state becomes LOCKED. -/
  | acquireLock (phasePs : Int) (freqPpt : Int)
  /-- VIEW_RATE_WRITE (R351): A rate write adjusts OFFSET so the view does not jump, or steers the DPLL for view 1 while PTP_S is selected. -/
  | viewRateWrite (sess : Fin 9) (v : Fin 4) (rate : BitVec 64)
  /-- VIEW_STEP (R351): A step write adds to a view's OFFSET, refused for view 0 when over 1 000 ns while data paths run. -/
  | viewStep (sess : Fin 9) (v : Fin 4) (step : Int)
  /-- VIEW_SET (R351): A set write replaces a view's OFFSET and RATE. -/
  | viewSet (sess : Fin 9) (v : Fin 4) (data : List Byte)
  /-- VIEW_UNCERTAINTY_WRITE (R351): A write of a view's uncertainty is stored and counts as a servo write. -/
  | viewUncertaintyWrite (sess : Fin 9) (v : Fin 4) (ns : BitVec 32)
  /-- SERVO_TIMEOUT (R352): No servo write arrives within the servo timeout and the view goes to HOLDOVER status. -/
  | servoTimeout (v : Fin 4)
  /-- TIME_READ_LATCH (R350): A read of a view's time latches its fraction for the paired read. -/
  | timeReadLatch (sess : Fin 9) (v : Fin 4)
  /-- PPS_IN_EDGE (R354): A rising PPS_IN edge captures the Local Counter with 16 fractional bits as a kind 0x3 pair entry. -/
  | ppsInEdge (frac : Nat)
  /-- PAIR_ARM (R353): Writing a tick to OD 4C00.11 arms one kind 0x2 pair entry, or is refused with LATE. -/
  | pairArm (sess : Fin 9) (tick : BitVec 64)
  /-- PTP_RECEIVE (R357): A PTP frame received on MGT or an output port is timestamped and copied to the receive ring, or dropped if the entry is still OWN. -/
  | ptpReceive (port : Fin 9) (frame : List Byte) (stampLc : Nat) (stampFrac : Nat)
  /-- PTP_TRANSMIT (R357): A transmit ring entry with OWN set is sent at the next frame boundary, timestamped, and released by clearing OWN. -/
  | ptpTransmit (port : Fin 9) (stampLc : Nat) (stampFrac : Nat)
  /-- LOS_ASSERT (R78): A lane's input stays below the LOS threshold for 1 µs and the lane goes to LISTEN, or counts in TEST. -/
  | losAssert (l : Fin 512)
  /-- LOS_CLEAR (R78): After 100 µs of signal LOS clears, which lets LISTEN proceed. -/
  | losClear (l : Fin 512)
  /-- LOL_ASSERT (R78): The CDR loses lock: a lane in LANE_UP goes to RELOCK, and bring-up states go to LISTEN. -/
  | lolAssert (l : Fin 512)
  /-- CDR_LOCK (R72): The lane CDR locks, advancing LISTEN, LOCK or RELOCK. -/
  | cdrLock (l : Fin 512)
  /-- COMMA_ALIGNMENT (R68): Four clean idle ordered sets give comma alignment and move ALIGN to CAPX. -/
  | commaAlignment (l : Fin 512) (inverted : Bool)
  /-- T_ALIGN_EXPIRY (R73): T_ALIGN expires in ALIGN and the lane returns to LISTEN. -/
  | tAlignExpiry (l : Fin 512)
  /-- CAP_MESSAGE (R74): A valid partner CAP arrives and is checked, setting ACK or sending the lane to MISMATCH. -/
  | capMessage (l : Fin 512) (message : List Byte)
  /-- CAP_EXCHANGE_DONE (R72): Eight CAPs with ACK have been sent and a partner ACK received, so the lane goes to SWITCH or LANE_UP. -/
  | capExchangeDone (l : Fin 512)
  /-- T_CAP_EXPIRY (R73): T_CAP expires in CAPX or STEP_WAIT and the lane goes to LISTEN or FALLBACK. -/
  | tCapExpiry (l : Fin 512)
  /-- T_QUIET_EXPIRY (R72): T_QUIET ends in SWITCH and the lane enters LOCK at the next rate. -/
  | tQuietExpiry (l : Fin 512)
  /-- T_LOCK_EXPIRY (R73): T_LOCK expires in LOCK and the lane goes to FALLBACK. -/
  | tLockExpiry (l : Fin 512)
  /-- TRAINING_FRAME (R75): A training frame's control and status fields are received, and coefficient requests are applied and answered. -/
  | trainingFrame (l : Fin 512) (control : BitVec 16) (controlBar : BitVec 16) (status : BitVec 16) (statusBar : BitVec 16)
  /-- RX_READY_EXCHANGE (R76): Both sides have sent and received RX_READY and the 16 further frames, so TRAIN moves to CONFIRM. -/
  | rxReadyExchange (l : Fin 512)
  /-- T_TRAIN_EXPIRY (R73): T_TRAIN expires in TRAIN and the lane goes to FALLBACK. -/
  | tTrainExpiry (l : Fin 512)
  /-- T_CONFIRM_EXPIRY (R76): The confirm window ends: the error check passes to STEP_WAIT or LANE_UP, or fails to FALLBACK. -/
  | tConfirmExpiry (l : Fin 512) (serHigh : Bool)
  /-- STEP_READY (R72): A STEP_READY block from the partner moves STEP_WAIT to SWITCH. -/
  | stepReady (l : Fin 512) (rate : Fin 16)
  /-- T_RELOCK_EXPIRY (R73): T_RELOCK expires in RELOCK and the lane goes to LISTEN. -/
  | tRelockExpiry (l : Fin 512)
  /-- LANE_RESTART (R77): Writing 1 to OD 2100+l.31 restores the lane's rates and sends it to LISTEN. -/
  | laneRestart (sess : Fin 9) (l : Fin 512)
  /-- TEST_MODE_WRITE (R83): A write of OD 2100+l.05 sets or clears a loopback or line test mode on a lane in no enabled bundle. -/
  | testModeWrite (sess : Fin 9) (l : Fin 512) (value : BitVec 8)
  /-- INJECT_ERROR (R84): Writing 1 to OD 2100+l.09 flips one bit of the PRBS generator output. -/
  | injectError (sess : Fin 9) (l : Fin 512)
  /-- UNCORRECTABLE_CODEWORD (R79): An uncorrectable RS codeword is counted as an error event towards the health limit. -/
  | uncorrectableCodeword (l : Fin 512)
  /-- SOF (R62): An SOF block opens a frame on its virtual lane and carries its length and first 4 bytes. -/
  | sof (l : Fin 512) (body : BitVec 56)
  /-- DATA_BLOCK (R63): A data block adds 8 bytes to the frame selected by the latest SOF or RESUME. -/
  | dataBlock (l : Fin 512) (bytes : List Byte)
  /-- RESUME_BLOCK (R63): A RESUME block continues the open frame of its virtual lane. -/
  | resumeBlock (l : Fin 512) (body : BitVec 56)
  /-- CREDIT (R65): A CREDIT block updates the cumulative credit totals granted by the partner. -/
  | credit (l : Fin 512) (body : BitVec 56)
  /-- STATUS (R66): A STATUS block reports the partner lane's state, and its QL is passed on after three equal values. -/
  | status (l : Fin 512) (body : BitVec 56)
  /-- MARKER (R58): A MARKER block is aligned by marker count for deskew, and late lanes are marked deskew-failed. -/
  | marker (l : Fin 512) (body : BitVec 56) (lag10ps : Nat)
  /-- MEMBERS (R59): A MEMBERS block announces the member mask that applies from the next marker period. -/
  | members (l : Fin 512) (row : Nat) (body : BitVec 56)
  /-- MARKER_PERIOD_START (R56): Row 0 of a marker period is reached: the announced membership takes effect and the bundle state is re-evaluated. -/
  | markerPeriodStart (b : Fin 256)
  /-- FRAME_START (R65): A virtual lane wins a slot with enough credit and the sender starts its next frame. -/
  | frameStart (b : Fin 256)
  /-- CREDIT_RETURN_INTERVAL (R65): The credit-return interval passes and the receiver sends a CREDIT block. -/
  | creditReturnInterval (b : Fin 256)
  /-- INGEST_FRAME (R91): A whole ingest frame is checked in order, duplicate-filtered and placed on its stream's tick axis. -/
  | ingestFrame (b : Fin 256) (frame : List Byte)
  /-- SAMPLE_RELEASE (R92): The sample at a stream's release point leaves, present or missing, through the DC blocker, unifier and coarse delay to the channelizer, the L0 detector and the transient writer. -/
  | sampleRelease (s : Fin 1024)
  /-- STALL_TIMEOUT (R93): No frame is accepted for the stall timeout, so the stream enters STALL with a DEGRADE. -/
  | stallTimeout (s : Fin 1024)
  /-- ROUTE_CHANGE_EFFECT (R491): A route change reaches its effect tick on its axis, marking spectra unsettled and sticks straddled. -/
  | routeChangeEffect (s : Fin 1024)
  /-- STREAM_DISABLE (R93): The release point or ingest front reaches the effect tick of a disabling change and the stream goes OFF. -/
  | streamDisable (s : Fin 1024)
  /-- DC_FREEZE (R103): A scheduled DC blocker freeze or release takes effect at its sample tick. -/
  | dcFreeze (s : Fin 1024)
  /-- DC_MEAN_WRITE (R103): A write of OD 9000+s.06 or .07 sets the DC mean of a frozen or bypassed stream, or is refused with STATE. -/
  | dcMeanWrite (sess : Fin 9) (s : Fin 1024) (imaginary : Bool) (value : Int)
  /-- SPECTRUM (R118): A filter frame completes and the slice makes the spectrum through the filter bank, FFT, kern, equalizer, SK sums and requantizer. -/
  | spectrum (s : Fin 1024)
  /-- STICK_END (R136): The last spectrum of a stick completes: SK tests, the frisket, the stick report and any SK capture. -/
  | stickEnd (s : Fin 1024)
  /-- DELAY_SEGMENT_WRITE (R124): A 48-byte delay segment enters the stream's kern queue, or is refused with SCHED_FULL. -/
  | delaySegmentWrite (sess : Fin 9) (s : Fin 1024) (record : List Byte)
  /-- CLEAR_SEGMENTS (R125): Writing OD 9000+s.47 empties the kern queue, including the current segment. -/
  | clearSegments (sess : Fin 9) (s : Fin 1024)
  /-- SK_CAPTURE_ARM (R132): Writing 1 to OD 2800.1B arms capture of the stream's next completed stick of SK values. -/
  | skCaptureArm (sess : Fin 9)
  /-- CREDIT_TIMEOUT (R154): A head frame waits the credit timeout without new credit and is discarded. -/
  | creditTimeout (b : Fin 256) (vl : Fin 3)
  /-- SAMPLE_FRAME (R155): A whole SAMPLE truss frame is checked, written into its galley half and marked in the receipt map. -/
  | sampleFrame (b : Fin 256) (frame : List Byte)
  /-- PEG_FRAME (R149): A whole PEG frame is checked and each of its pegs is judged for duplicates and passed to the log and the groups. -/
  | pegFrame (b : Fin 256) (frame : List Byte)
  /-- COMMIT_BEACON (R151): A received commit beacon is stored as the peer's latest beacon. -/
  | commitBeacon (b : Fin 256) (frame : List Byte)
  /-- TRIGGER_DECISION (R241): A received trigger decision is judged for duplicates and applied to the capture. -/
  | triggerDecision (b : Fin 256) (frame : List Byte)
  /-- HALF_LAYOUT_FIX (R160): The ingest front reaches a period's first spectrum: the half's epoch and layout are fixed and beacon epochs compared. -/
  | halfLayoutFix (h : Fin 2)
  /-- GALLEY_CLOSE (R161): The time-view tick reaches period end plus kerf: the half closes and unreceived places are counted missing. -/
  | galleyClose (h : Fin 2)
  /-- RECEIPT_MAP_CLEARED (R160): The receipt map clear after a release completes and the half opens FILLING for period n + 2. -/
  | receiptMapCleared (h : Fin 2)
  /-- IMPRESSION_END (R176): An impression's last sample passes and its results move to the result buffer, or the platen stalls. -/
  | impressionEnd (p : Fin 64)
  /-- IMPRESSION_COMPLETE (R187): A result buffer drains into the visibility accumulator, the proof or the ledger. -/
  | impressionComplete (p : Fin 64)
  /-- WEIGHT_BANK_WRITE (R198): A write of a weight bank is accepted into the standby bank or refused with STATE. -/
  | weightBankWrite (sess : Fin 9) (f : Fin 4096) (bank : Fin 2) (table : List Byte)
  /-- SWAP_REQUEST (R208): A tick written to OD 8000+f.23 enters the swap queue or replaces the waiting swap. -/
  | swapRequest (sess : Fin 9) (f : Fin 4096) (tick : BitVec 64)
  /-- SCARF_START (R209): A swap's effect spectrum, or the end of the running scarf, starts a cross-fade to the target bank. -/
  | scarfStart (f : Fin 4096)
  /-- SCARF_END (R209): A scarf's last sample passes and the target bank becomes active. -/
  | scarfEnd (f : Fin 4096)
  /-- SLOT_DRAIN (R205): A completed beam block whose output buffer has room is scaled and requantized from its ledger slot. -/
  | slotDrain (f : Fin 4096)
  /-- BEAM_BLOCK_RELEASE (R212): A scaled beam block is released in order to its output stream and the L1 trigger, freeing the slot. -/
  | beamBlockRelease (f : Fin 4096)
  /-- L0_WARMUP_END (R218): A stream's L0 warm-up count ends and the detector is armed. -/
  | l0WarmupEnd (s : Fin 1024)
  /-- L1_WARMUP_END (R229): A trigger beam's warm-up of 4 × 2^k_l samples ends. -/
  | l1WarmupEnd (tb : Fin 4096)
  /-- SOFT_PEG (R242): A 16-byte write to OD 3800.0D produces a SOFT peg. -/
  | softPeg (sess : Fin 9) (peg : List Byte)
  /-- SOFT_DECISION (R242): A 24-byte write to OD 3800.0E issues a soft decision, or is refused at a shadow. -/
  | softDecision (sess : Fin 9) (body : List Byte)
  /-- GROUP_TAKE_PEG (R237): A group's horizon reaches a held peg's tick: the peg is taken, old pegs drop and the group may fire. -/
  | groupTakePeg (g : Fin 256)
  /-- MACHINE_EVENT (R239): A machine takes a group event or timer expiry and runs the first matching transition. -/
  | machineEvent (m : Fin 64)
  /-- MACHINE_TIMER_EXPIRY (R239): A machine timer reaches its expiry tick and becomes an event. -/
  | machineTimerExpiry (m : Fin 64) (timer : Fin 4)
  /-- CAPTURE_READY (R246): The writer stores tick b′, the slot becomes READY and the capture record and report are written. -/
  | captureReady (k : Fin 8)
  /-- RELEASE_SLOT (R244): Writing 1 to OD 3800.51 + k frees the capture slot. -/
  | releaseSlot (sess : Fin 9) (k : Fin 8)
  /-- HOLD_LIMIT_EXPIRY (R244): A slot's hold limit expires and it is forced FREE with a NOTE. -/
  | holdLimitExpiry (k : Fin 8)
  /-- PEG_FRAME_SEND (R234): The PEG lane wins a slot with credit and a PEG frame of up to 16 queued pegs is started. -/
  | pegFrameSend (b : Fin 256)
  /-- HBM_REQUEST (R260): A pseudo-channel arbiter accepts one unit request of a class per cycle. -/
  | hbmRequest (stack : Fin 6) (pc : Fin 32) (offered : List HbmUnit)
  /-- HBM_READ_COMPLETE (R269): A unit read returns clean, corrected with write-back, or uncorrectable with poison. -/
  | hbmReadComplete (stack : Fin 6) (pc : Fin 32) (ecc : Ecc)
  /-- REFRESH (R263): A bank's refresh interval elapses and a per-bank refresh is issued or postponed. -/
  | refresh (stack : Fin 6) (pc : Fin 32) (bank : Fin 64)
  /-- OPEN_PAGE_TIMEOUT (R261): A bank idle for the open-page timeout closes its row. -/
  | openPageTimeout (stack : Fin 6) (pc : Fin 32) (bank : Fin 64)
  /-- RETRAIN_START (R264): The retrain interval or a temperature change starts a training pass of a stack. -/
  | retrainStart (stack : Fin 6) (temperature : Int)
  /-- TRAINING_STEP_END (R264): A training step ends, deferred V/F changes start, and a failed check retrains or fails the stack. -/
  | trainingStepEnd (stack : Fin 6) (ok : Bool)
  /-- SCRUB_READ (R269): The scrubber reads the next unit of a rank in service. -/
  | scrubRead (ecc : Ecc)
  /-- RETIRE (R272): Writing 1 to OD 3C10+r.05 retires a rank in service. -/
  | retire (sess : Fin 9) (r : Fin 18)
  /-- SRAM_UNCORRECTABLE (R253): An uncorrectable SRAM ECC error is counted, raises a DEGRADE and acts per partition. -/
  | sramUncorrectable (place : SramPlace)
  /-- FIRMWARE_IMAGE (R320): A firmware image is written into P-RAM while the setter is held in reset. -/
  | firmwareImage (sess : Fin 9) (n : Fin 8) (table : List Byte)
  /-- CONTROL_COUNTER_READ (R324): A control-space read of the Local Counter or the ingest front latches its high word. -/
  | controlCounterRead (which : BitVec 24)
  /-- MATRIX_ACCESS (R323): A bus-matrix piece of up to 256 bytes wins its target port and is performed. -/
  | matrixAccess (target : Fin 15) (offered : List MatrixReq)
  /-- DMA_START (R326): A START makes an IDLE channel load its descriptor. -/
  | dmaStart (by_ : Requester) (c : Fin 32)
  /-- DMA_ABORT (R330): An ABORT ends the channel after its piece in progress. -/
  | dmaAbort (by_ : Requester) (c : Fin 32)
  /-- DESCRIPTOR_LOADED (R327): A channel's descriptor read completes and is checked. -/
  | descriptorLoaded (c : Fin 32)
  /-- DMA_WATCHDOG (R330): A RUNNING channel moves no beat for the watchdog time and ends. -/
  | dmaWatchdog (c : Fin 32)
  /-- QUEUE_CONFIGURE (R332): A write of a completion queue's base or size resets its head, tail and SEQ. -/
  | queueConfigure (sess : Fin 9) (q : Fin 16) (sub : BitVec 8) (value : BitVec 32)
  /-- QUEUE_TAIL_WRITE (R331): A write of a completion queue's tail consumes records and frees entries. -/
  | queueTailWrite (by_ : Requester) (q : Fin 16) (value : BitVec 32)
  /-- PORT_UP (R335): The PCS and FEC lock on every lane and the port is UP. -/
  | portUp (p : Fin 8)
  /-- PORT_DOWN (R335): A port loses lock and goes DOWN with a DEGRADE. -/
  | portDown (p : Fin 8)
  /-- PORT_RECEIVE (R336): A frame received on an output port is dropped or copied to the PTP ring. -/
  | portReceive (p : Fin 8) (fcsOk : Bool) (frame : List Byte) (stampLc : Nat) (stampFrac : Nat)
  /-- READOUT_START (R345): A stream starts reading its next COMPLETE set or READY slot. -/
  | readoutStart (s : Fin 256)
  /-- READOUT_END (R345): The last record or row leaves and the set or slot becomes FREE. -/
  | readoutEnd (s : Fin 256)
  /-- FRAME_SLOT (R346): A port scheduler grants one output frame slot to a requesting stream. -/
  | frameSlot (p : Fin 8)
  /-- MAC_FRAME_BOUNDARY (R347): At a frame boundary the MAC starts a timed or an untimed frame, or idles. -/
  | macFrameBoundary (p : Fin 8)
  /-- HEARTBEAT (R433): A received HEARTBEAT updates the partner role and may drive SEEKING or dual-lead resolution. -/
  | heartbeat (b : Fin 256) (frame : List Byte)
  /-- HAND_OVER (R442): Writing 1 to OD 5400.14 at a lead sends HANDOVER for a period boundary. -/
  | handOver (sess : Fin 9)
  /-- HANDOVER (R442): A HANDOVER message schedules the role swap at tick H. -/
  | handover (b : Fin 256) (frame : List Byte)
  /-- MIRROR_WRITE (R436): A mirrored WRITE segment is received and applied at LAST. -/
  | mirrorWrite (b : Fin 256) (frame : List Byte)
  /-- MIRROR_COMMIT (R436): A mirrored COMMIT is validated and scheduled, or sends the shadow to JOINING. -/
  | mirrorCommit (b : Fin 256) (frame : List Byte)
  /-- PEGS (R437): Numbered pegs from the lead are sent on, logged, and matched against standby pegs. -/
  | pegs (b : Fin 256) (frame : List Byte)
  /-- SNAPSHOT (R440): A SNAPSHOT begin or end marker is received; at end the data paths are scheduled to start. -/
  | snapshot (b : Fin 256) (frame : List Byte)
  /-- BLOCK_LOCK (R76): The lane receiver reaches block lock after 64 consecutive valid sync headers, and at PAM4 also codeword lock, which starts the CONFIRM watch or returns RELOCK to LANE_UP. -/
  | blockLock (l : Fin 512)
  /-- CODE_VIOLATION (R68): An 8b/10b code violation on a Twiah-1 or bring-up lane is counted, counts towards the health limit, and four in sixteen code groups lose comma alignment. -/
  | codeViolation (l : Fin 512)
  /-- MGT_LINK_UP (R376): The MGT link comes up at 10GBASE-R or 1000BASE-X and OD 1100.02 reports it. -/
  | mgtLinkUp (baseR : Bool)
  /-- FAR_STORE_COMPLETE (R286): A posted far store of a setter completes, or is refused as a bus fault, which lets a waiting SYNC go on. -/
  | farStoreComplete (n : Fin 8) (reply : FarReply)
  /-- SAMPLE_PRELOAD (R485): The TAP SAMPLE/PRELOAD instruction selects the boundary register. -/
  | samplePreload (cells : List Bool)
  /-- BYPASS (R485): The BYPASS instruction, or any reserved instruction code, selects the bypass register. -/
  | bypass (code : BitVec 8)
  /-- TAP_TEST_EXIT (R486): The TAP leaves a pin-driving instruction: every lane not OFF goes to LISTEN and the MGT link restarts. -/
  | tapTestExit (code : BitVec 8)
  /-- SENSOR_READING (R488): A new reading of the hottest die sensor is compared with the warning, 95 °C and trip thresholds. -/
  | sensorReading (sensor : Fin 16) (q88 : Int)
  /-- WAKE_L_ASSERT (R426): WAKE_L is held low for at least 1 µs, which is a wake source. -/
  | wakeLAssert (heldNs : Nat)
  /-- DRAIN_TIMEOUT (R417): A domain that has not drained within the drain limit returns to RUN and the request fails with DRAIN_TIMEOUT. -/
  | drainTimeout (d : Fin 96)
  /-- DOMAIN_RETURN_COMPLETE (R418): A domain finishes returning from IDLE or NAP, and its clock-running bit becomes 1. -/
  | domainReturnComplete (d : Fin 96)
  /-- RETRY_HOLDOFF_EXPIRY (R73): The retry hold-off before LISTEN ends. -/
  | retryHoldoffExpiry (l : Fin 512)
  /-- INVALID_SYNC_HEADER (R55): A block with an invalid sync header is counted, discards the open frame and counts towards the health limit. -/
  | invalidSyncHeader (l : Fin 512)
  /-- UNKNOWN_CONTROL_BLOCK (R55): A control block of unknown type is counted and treated as IDLE. -/
  | unknownControlBlock (l : Fin 512) (type : BitVec 8)
  /-- PRBS_CHECKER_LOCK (R84): The PRBS checker locks after 64 consecutive error-free bits, or relocks by itself and counts the relock. -/
  | prbsCheckerLock (l : Fin 512)
  /-- PRBS_CHECKER_LOCK_LOSS (R84): The PRBS checker sees 512 errors in 1 024 bits and loses lock. -/
  | prbsCheckerLockLoss (l : Fin 512)
  /-- POWER_ON_RESET (R448): VDD_SILL falls below its threshold and the whole chip is reset, restarting the Local Counter and the sill count at 0. -/
  | powerOnReset
  /-- PWR_GOOD_LOW (R446): PWR_GOOD falls while the chip runs and causes a power-on reset that loses everything in flight. -/
  | pwrGoodLow
  /-- RESET_L_ASSERT (R448): RESET_L is driven low and holds the whole chip in reset. -/
  | resetLAssert
  /-- RESET_COMMAND_START (R448): The 100 µs after a reset command's response expire and the commanded reset begins. -/
  | resetCommandStart
  /-- SRAM_CLEAR_COMPLETE (R450): The SRAM and queue memory clear finishes and bring-up moves from SILL to CLOCK. -/
  | sramClearComplete
  /-- APLL_LOCK (R405): The APLL locks to the XO: the clock state goes from NO_CLOCK to FREE_RUN, REF_OUT starts and the hub takes the cleaned clock. -/
  | apllLock
  /-- XO_EDGE_TIMEOUT (R451): No XO_IN edge arrives within 1 ms of reset release, so the chip stays in CLOCK and raises a FAIL record. -/
  | xoEdgeTimeout
  /-- TAP_RESET (R448): TRST_L goes low and resets the JTAG TAP controller only. -/
  | tapReset
  /-- EXTEST (R485): The TAP EXTEST instruction lets the boundary register drive the pins. -/
  | extest
  /-- IDCODE (R485): The TAP IDCODE instruction selects the device identification register, 0x2640_0553. -/
  | idcode
  /-- CLAMP (R485): The TAP CLAMP instruction drives the pins from the boundary register and selects bypass. -/
  | clamp
  /-- HIGHZ (R485): The TAP HIGHZ instruction puts the pins in high impedance and selects bypass. -/
  | highz
  /-- EXTEST_PULSE (R485): The IEEE 1149.6 EXTEST_PULSE instruction tests the AC-coupled lanes. -/
  | extestPulse
  /-- EXTEST_TRAIN (R485): The IEEE 1149.6 EXTEST_TRAIN instruction tests the AC-coupled lanes with a pulse train. -/
  | extestTrain
  /-- COMMIT_VALIDATED (R41): Validation of a COMMIT ends: the commit is accepted into the commit schedule with the next commit sequence number, or it fails a check and the transaction stays open. -/
  | commitValidated
  /-- TRANSACTION_EFFECT (R42): The ingest front reaches a committed transaction's effect point: its changes take effect, it leaves the commit schedule and a transaction event report is sent. -/
  | transactionEffect
  /-- TRANSACTION_EXPIRED (R371): An open transaction exceeds its lifetime limit and is rolled back with an event report. -/
  | transactionExpired
  /-- SDO_SEGMENT_TIMEOUT (R387): A segmented transfer that waits 1 000 ms for its next segment is aborted with 0x0504_0000. -/
  | sdoSegmentTimeout
  /-- CAN_BUS_OFF (R386): The CAN controller enters bus-off, counts it and recovers under ISO 11898-1. -/
  | canBusOff
  /-- HEARTBEAT_PRODUCER (R389): The heartbeat timer expires and a CAN heartbeat carrying the bring-up or device state is sent. -/
  | heartbeatProducer
  /-- CAN_BEGIN (R388): Writing 1 to OD 1200.10 begins a transaction for session 0. -/
  | canBegin
  /-- CAN_COMMIT_NOW (R388): Writing 1 to OD 1200.12 commits session 0's transaction without a tick. -/
  | canCommitNow
  /-- CAN_ROLLBACK (R388): Writing 1 to OD 1200.13 rolls back session 0's transaction. -/
  | canRollback
  /-- SLEEP_ENTRY (R424): Every drain completes at c_s: the response and report are sent, HBM enters self-refresh and the domains move to SLEEP, or the sleep is abandoned on a latched wake. -/
  | sleepEntry
  /-- CAN_WAKE_FRAME (R426): A CAN frame on COB-ID 0x600 + node arrives in SLEEP; it wakes the chip and is not answered. -/
  | canWakeFrame
  /-- MGT_WAKE_DATAGRAM (R426): A UDP datagram to the BDP port arrives on MGT in SLEEP; it wakes the chip and is discarded. -/
  | mgtWakeDatagram
  /-- SILL_WAKE_TIMER (R426): The sill wake timer expires, counted from c_s, which is a wake source. -/
  | sillWakeTimer
  /-- OPERATING_POINT_TIMEOUT (R420): READ_VOUT has not reached its target 2 ms after VOUT_COMMAND: the change is abandoned with STATE and a DEGRADE. -/
  | operatingPointTimeout
  /-- HOLDOVER_LIMIT_EXPIRY (R405): The holdover limit passes in HOLDOVER and the state becomes HOLDOVER_EXPIRED. -/
  | holdoverLimitExpiry
  /-- HOLDOVER_RECOMPUTE (R408): Once per second in holdover the DPLL output offset is recomputed from the history and the curves. -/
  | holdoverRecompute
  /-- PPS_OUT_EDGE (R354): The PPS view passes a whole second plus the offset and PPS_OUT rises. -/
  | ppsOutEdge
  /-- PPS_OUT_WIDTH_END (R354): The PPS width ends and PPS_OUT falls. -/
  | ppsOutWidthEnd
  /-- PAIR_ENTRY (R353): The ingest front reaches an armed tick or a chase boundary and a tick and Local Counter pair is written. -/
  | pairEntry
  /-- TRANSIENT_RING_RESTART (R111): The delayed axis reaches the restart tick and the transient writer starts its ring under the new layout. -/
  | transientRingRestart
  /-- TRUSS_FRAMES_READY (R146): The last spectrum of a stick leaves every requantizer and the stick's truss frames become ready to send. -/
  | trussFramesReady
  /-- PERIOD_BEGIN (R170): The X-engine begins a period once its half is closed and the previous slab is staged, moving formes and sets. -/
  | periodBegin
  /-- SLAB_STAGED (R168): The stager finishes copying a slab into a chase half with its stick map. -/
  | slabStaged
  /-- IMPRESSION_DISPATCH (R183): The platen-queue arbiter grants a forme and its next imposition entry enters a platen queue. -/
  | impressionDispatch
  /-- PERIOD_COMPLETE (R170): All impressions and additions of a period are complete: the galley half is released and dumps may complete. -/
  | periodComplete
  /-- CAPTURE_FREEZE (R245): At the next spectrum the estimates selected by OD 3800.02 freeze or are released. -/
  | captureFreeze
  /-- MIGRATION_BLOCK (R274): One 8 KiB block of a retiring rank is copied to the target and translation follows it. -/
  | migrationBlock
  /-- MIGRATION_COMPLETE (R274): The copy finishes, the rank map points at the target and the source becomes RETIRED. -/
  | migrationComplete
  /-- DMA_BEAT (R329): At a hub cycle the ports go to the highest-ranked channels, which move one beat each. -/
  | dmaBeat
  /-- TWIN_HEARTBEAT_SEND (R434): The heartbeat interval passes and a HEARTBEAT is sent on TWIN CONTROL. -/
  | twinHeartbeatSend
  /-- START_TIMEOUT (R433): A SEEKING side hears no heartbeat within the start timeout and becomes LEAD. -/
  | startTimeout
  /-- TAKE_OVER (R441): The take-over timeout expires: the shadow becomes lead and issues its standby pegs and decisions. -/
  | takeOver
  /-- HANDOVER_TICK (R442): The time-view tick reaches H and the roles swap. -/
  | handoverTick
  /-- STANDBY_EXPIRY (R437): A standby peg or suppressed decision reaches its standby time unmatched and is discarded. -/
  | standbyExpiry
  /-- MGT_LINK_DOWN (R376): The MGT link goes down, OD 1100.02 reads 0, and in mode 0 the port may fall back to 1000BASE-X. -/
  | mgtLinkDown
  /-- HISTORY_WINDOW_FILLED (R407): The holdover history window fills in LOCKED since the last switch and OD 4800.13 becomes valid. -/
  | historyWindowFilled
  /-- JOINING_DATA_PATH_START (R440): The first chase period at least 20 ms after SNAPSHOT end begins, and the joining side starts its channelizer, truss, X-engine and triggers. -/
  | joiningDataPathStart
  deriving DecidableEq, Repr

end Sys2Proof
end

