-- ==== Sys2Proof/Machine/State.lean ====
section
/-! DEFINITION. The state of the GZ6400 block, as plain data, and its reset value.
Every register that the spec lists as an object of the dictionary lives in `Chip.obj` (scalars) or `Chip.dom`
(DOMAINs), keyed by index * 256 + subindex; an unlisted one holds its default (Machine/Objects.lean). What the chip
holds beside them has a structure per chapter. -/

namespace Sys2Proof.Machine

/-- A sparse map: an unlisted key reads as the map's default. Canonical when keys rise strictly and no entry equals
the default (`SMap.wf`); every operation of Machine/Ops.lean keeps that form. -/
abbrev SMap (α : Type) := List (Nat × α)

/-! ### The dictionary server (R359-R392) -/

/-- What an object holds: a scalar's bits, or a DOMAIN's bytes. -/
inductive Val where
  | num (n : Nat)
  | bytes (b : List Byte)
  deriving DecidableEq, Repr

/-- The open transaction (R366, R367): owner session, Local Counter at BEGIN, staged writes by rising key, and the
objects written directly into place inside it. -/
structure Txn where
  owner : Nat
  opened : Nat
  staged : List (Nat × Val)
  direct : List Nat
  deriving DecidableEq, Repr

/-- A committed transaction in the commit schedule (R42, R372): commit sequence number, session, effect spectrum, effect tick, the writes
that have still to take effect, the objects written into place (R367), that its effect tick has been reached, and the length in ticks of the
chase period under which its effect points are computed when it changes F or T itself, else 0 (R35). -/
structure Pending where
  seq : Nat
  owner : Nat
  spectrum : Nat
  tick : Nat
  writes : List (Nat × Val)
  direct : List Nat
  begun : Bool
  period : Nat
  deriving DecidableEq, Repr

/-- A DOMAIN write in progress in a session (R380). -/
structure PartialWrite where
  key : Nat
  bytes : List Byte
  since : Nat
  deriving DecidableEq, Repr

/-- A BDP session 1-8, or session 0 of CAN and the boot configuration (R382, R384). -/
structure Session where
  isOpen : Bool
  authorized : Bool
  nonceH : List Byte
  nonceD : List Byte
  /-- The last REQ_ID, and the header and body that answered it. -/
  lastId : Option (BitVec 32)
  lastReply : List Byte
  heard : Nat
  remote : List Byte
  part : Option PartialWrite
  /-- Versions fixed by segmented reads (R381): key and bytes. -/
  fixed : List (Nat × List Byte)
  /-- A transaction of this session expired and its next COMMIT or ROLLBACK gets EXPIRED (R371). -/
  expired : Bool
  /-- Repeats of the last request that arrived before its answer (R382). -/
  repeats : List Bdp
  deriving DecidableEq, Repr

/-- A request that waits while a COMMIT is validated (R382). -/
inductive Held where
  | bdp (op : Nat) (d : Bdp)
  | sdo (frame : List Byte)
  | write (sess key : Nat) (v : Val)
  deriving DecidableEq, Repr

/-- Who is answered when a request ends (R365): nobody, a session's single write, a BDP request, or an SDO transfer with the frame that
acknowledges it. -/
inductive Asker where
  | nobody
  | plain (sess key : Nat)
  | bdp (op : Nat) (d : Bdp)
  | sdo (reply : List Byte) (key : Nat)
  deriving DecidableEq, Repr

/-- A COMMIT under validation (R368, R41): session, tick if timed, and the request it answers. -/
structure Validating where
  sess : Nat
  tick : Option Nat
  asker : Asker
  deriving DecidableEq, Repr

/-- A CAN SDO segmented transfer (R387): direction, object, bytes, position, toggle, time of the last frame. -/
structure SdoTransfer where
  upload : Bool
  key : Nat
  bytes : List Byte
  expect : Option Nat
  pos : Nat
  toggle : Bool
  since : Nat
  deriving DecidableEq, Repr

/-- An 8b/10b code group before its coding: a control group K or a data group D, and its octet (R68). -/
structure CodeGroup where
  control : Bool
  octet : Byte
  deriving DecidableEq, Repr

/-- What a lane's transmitter sends while its state lasts (R72, R83): nothing; idle ordered sets; CAP messages back to back; the announcement of a
switch of rate as code groups, or 64 times as a block with its body, and then nothing; training frames with their control and status fields; IDLE or
STEP_READY blocks; the rows of its bundle, or Twiah-1 idle with status groups; the pattern of the generator, by code and user pattern; what the lane
receives. -/
inductive LaneSignal where
  | silent
  | idleSets
  | caps (message : List CodeGroup)
  | switchGroups (groups : List CodeGroup)
  | switchBlocks (body : Nat)
  | training (control status : Nat)
  | idleBlocks
  | stepReady (body : Nat)
  | rows
  | pattern (code user : Nat)
  | received
  deriving DecidableEq, Repr

/-- Something that has left a pin or a port of the chip. -/
inductive Sent where
  /-- Status answered to a request (R365): session, key, status. -/
  | status (sess key code : Nat)
  /-- A scalar or DOMAIN read by a request: session, key, value bytes. -/
  | value (sess key : Nat) (bytes : List Byte)
  /-- A UDP datagram from MGT: IPv6, IP address, port, MAC address, bytes (R376). -/
  | udp (v6 : Bool) (ip : List Byte) (port mac : Nat) (bytes : List Byte)
  /-- An ARP reply, neighbour advertisement or echo reply from MGT: kind, addresses, payload (R376). -/
  | mgt (kind : Nat) (own peer : List Byte) (mac : Nat) (payload : List Byte)
  /-- A CAN frame: identifier and data (R387, R389). -/
  | can (id : Nat) (data : List Byte)
  /-- A Twiah control block on a lane: type and body (R54). -/
  | block (lane type body : Nat)
  /-- A Twiah data block on a lane: 8 bytes (R55). -/
  | data (lane : Nat) (bytes : List Byte)
  /-- A Twiah-1 group of code groups on a lane (R68). -/
  | groups (lane : Nat) (g : List CodeGroup)
  /-- A lane's transmitter takes up a signal at a rate code (R72). -/
  | signal (lane rate : Nat) (x : LaneSignal)
  /-- A Twiah frame has started on a bundle and virtual lane (R62). -/
  | frame (bundle vl : Nat) (bytes : List Byte)
  /-- An output Ethernet frame on a port, launched or not (R340). -/
  | ether (port : Nat) (bytes : List Byte)
  /-- A PMBus command to a regulator address: command code and data (R422). -/
  | pmbus (addr cmd data : Nat)
  /-- What a target port of the bus matrix returned: done or refused, and the bytes read (R322). -/
  | matrix (port : Nat) (okay : Bool) (bytes : List Byte)
  /-- A unit that the HBM controller returned: class, physical address, data, poison indication (R269). -/
  | hbm (cls addr : Nat) (bytes : List Byte) (poison : Bool)
  /-- Data shifted out at TDO (R485). -/
  | tdo (bits : Nat) (count : Nat)
  deriving DecidableEq, Repr

/-- The record of a fault still active (R464): SEQ and severity. -/
structure ActiveFault where
  seq : Nat
  severity : Nat
  deriving DecidableEq, Repr

/-- The dictionary server's own state beside the objects. -/
structure Dict where
  txn : Option Txn
  schedule : List Pending
  validating : Option Validating
  held : List Held
  sessions : Vector Session 9
  sdo : Option SdoTransfer
  key : List Byte
  /-- The event ring, OD 1300.10: report n at n mod 256 (R383). -/
  ring : SMap (List Byte)
  deriving DecidableEq, Repr

/-- A session that was never opened (R382): its nonces count as 0 (R384). -/
def Session.free : Session :=
  ⟨false, false, List.replicate 8 0, List.replicate 8 0, none, [], 0, [], none, [], false, []⟩

/-- No transaction, no session open, no key (R385, R449). -/
def Dict.atReset : Dict := ⟨none, [], none, [], Vector.replicate 9 Session.free, none, [], []⟩

/-- The fault log (R462-R464). -/
structure FaultLog where
  /-- The ring, OD 5800.10: record n at n mod 1024. -/
  ring : SMap (List Byte)
  active : List ActiveFault
  deriving DecidableEq, Repr

/-! ### Setters (R277-R321) -/

/-- What a write still in the setter pipeline will change when it lands (R308). -/
inductive Landing where
  /-- Near load data for a physical W register. -/
  | load (w : Fin 64) (v : W40)
  /-- An ACC-class result for a physical W register (STC, STR, STI, NORMA). -/
  | store (w : Fin 64) (v : W40)
  /-- A MAC result for an accumulator. -/
  | mac (a : Fin 8) (re im : A48)
  /-- The flags Z, N, V of a MAC. -/
  | flags (z n v : Bool)
  deriving DecidableEq, Repr

/-- One entry of the pipeline: it lands when `left` further instructions have entered D (R308). -/
structure InFlight where
  left : Nat
  what : Landing
  deriving DecidableEq, Repr

/-- A branch whose delay slots are still to run (R309): whether it is taken, whether it is a return from interrupt (R317),
and whether it leaves the innermost loop when its target lies outside the body (R312). -/
structure Branch where
  target : BitVec 16
  slots : Nat
  taken : Bool
  rti : Bool
  pops : Bool
  deriving DecidableEq, Repr

/-- The repeat cache (R313): the loop body that it belongs to, whether it supplies that body, and the words copied. -/
structure RepeatCache where
  body : Option (BitVec 16 × BitVec 16)
  full : Bool
  words : List (BitVec 16 × W64)
  deriving DecidableEq, Repr

/-- A repeat cache that holds nothing. -/
def RepeatCache.empty : RepeatCache := ⟨none, false, []⟩

/-- One hardware loop: LPSTART, LPEND, LPCNT and its rotation step (R311). -/
structure HwLoop where
  start : BitVec 16
  last : BitVec 16
  count : BitVec 32
  rot : Fin 4
  deriving DecidableEq, Repr

/-- State of a setter, OD 4010+n.02 (R332). -/
inductive SetterMode where
  | off | reset | boot | running | idle | halted | bootFailed
  deriving DecidableEq, Repr

/-- A posted far store: space, address, bytes, and the store's P address (R286). -/
structure FarStore where
  space : Fin 4
  addr : BitVec 40
  bytes : List Byte
  pc : BitVec 16
  deriving DecidableEq, Repr

/-- A far load whose data has not arrived: space, physical register, SIZE code, address, and the load's P address (R286). -/
structure FarLoad where
  space : Fin 4
  w : Fin 64
  size : Fin 16
  addr : BitVec 40
  pc : BitVec 16
  deriving DecidableEq, Repr

/-- One setter core. -/
structure Setter where
  mode : SetterMode
  /-- W registers by physical number (R278). -/
  w : Vector W40 64
  /-- Real parts of the accumulators (R279). -/
  accR : Vector A48 8
  /-- Imaginary parts of the accumulators. -/
  accI : Vector A48 8
  p : Vector W40 16
  m : Vector (BitVec 32) 16
  /-- P address of the next instruction to enter D. -/
  pc : BitVec 16
  sr : BitVec 32
  mr : BitVec 32
  lr : BitVec 16
  rotoff : BitVec 5
  /-- The loop registers while no loop is active, and the innermost loop while one is. -/
  inner : HwLoop
  /-- A loop is active. -/
  looping : Bool
  /-- The loop stack: the loops that hold the innermost one, nearest first (at most 3). -/
  loopStack : List HwLoop
  /-- The instruction at LPEND has entered D and its loop-back is still to be decided. -/
  lpHit : Bool
  rptcnt : BitVec 16
  cache : RepeatCache
  branch : Option Branch
  /-- A REMAP change that fetches still have to reach: the new map and the fetches left (R283). -/
  remap : Option (Bool × Nat)
  /-- The fetch map in force. -/
  mapNow : Bool
  flight : List InFlight
  cyc : BitVec 64
  cycHi : BitVec 32
  fault : BitVec 32
  faddr : BitVec 40
  imask : BitVec 16
  iprio : BitVec 32
  tcmp : BitVec 32
  ivec : BitVec 16
  iret : BitVec 16
  isr : BitVec 32
  trapNo : BitVec 8
  vecTaken : BitVec 8
  fip : Bool
  /-- OD 4010+n.0B. -/
  faults : BitVec 32
  /-- OD 4010+n.09 and .0A: the last fault, which the registers above may have been rewritten over. -/
  lastFault : BitVec 32
  lastFaddr : BitVec 40
  bootStatus : BitVec 8
  inMail : BitVec 32
  outMail : BitVec 32
  farLoads : List FarLoad
  farStores : List FarStore
  /-- A SYNC waits for the posted stores. -/
  syncing : Bool
  xram : SMap W40
  yram : SMap W40
  pram : SMap W64
  deriving DecidableEq, Repr

/-- A setter held in reset (R281, R283, R315, R320); its memories keep their contents. -/
def Setter.resetKeep (x y : SMap W40) (p : SMap W64) : Setter :=
  { mode := .reset, w := Vector.replicate 64 0, accR := Vector.replicate 8 0, accI := Vector.replicate 8 0,
    p := Vector.replicate 16 0, m := Vector.replicate 16 0, pc := 0, sr := 0, mr := 0, lr := 0, rotoff := 0,
    inner := ⟨0, 0, 0, 0⟩, looping := false, loopStack := [], lpHit := false, rptcnt := 0, cache := .empty, branch := none,
    remap := none, mapNow := false, flight := [], cyc := 0, cycHi := 0, fault := 0, faddr := 0, imask := 0,
    iprio := 0, tcmp := 0xFFFFFFFF, ivec := 0x1F80, iret := 0, isr := 0, trapNo := 0, vecTaken := 0, fip := false,
    faults := 0, lastFault := 0, lastFaddr := 0, bootStatus := 0, inMail := 0, outMail := 0, farLoads := [],
    farStores := [], syncing := false, xram := x, yram := y, pram := p }

/-- A setter after a chip reset: state OFF code 0x0 (OD 4010+n.02, R332). -/
def Setter.atReset : Setter := { Setter.resetKeep [] [] [] with mode := .off }

/-! ### Ingest (R86-R113, R491) -/

/-- One sample on a tick axis: real and imaginary part as I16 words (R101), missing, invalid by the flag mask (R90),
and the flag-ring bits of the frame that brought it (R109). -/
structure Smp where
  re : Int
  im : Int
  missing : Bool
  invalid : Bool
  flags : Nat
  deriving DecidableEq, Repr

/-- A sample that was never received: 0, missing (R92). -/
def Smp.absent : Smp := ⟨0, 0, true, false, 0⟩

/-- Stream states (R93). -/
inductive StreamSt where
  | off | wait | run | stall
  deriving DecidableEq, Repr

/-- A change of a stream's row, or of its coarse delay, that waits for its tick (R100, R106, R491): the tick s_t × F, the
new row, and which axes have still to take it: where the stream enters, and the delayed axis. -/
structure RouteChange where
  tick : Nat
  row : List Byte
  entry : Bool
  delayed : Bool
  deriving DecidableEq, Repr

/-- A mark that samples carry through the delay line to the delayed axis (R123, R218, R491): the tick before the delay of the first sample
it holds for; a change of entry fields, of the unifier among them, and the sample format from there on; or the start of the stream. -/
structure EntryMark where
  tick : Nat
  change : Bool
  unifier : Bool
  start : Bool
  format : Nat
  deriving DecidableEq, Repr

/-- A change of the DC blocker that waits for its tick (R103): of the freeze by a capture, or of OD 9000+s.04. -/
structure DcChange where
  tick : Nat
  capture : Bool
  value : Nat
  deriving DecidableEq, Repr

/-- A pulse in progress (R223): its first tick, the last tick that met the threshold, samples since it opened, samples since the last
that met, the largest power and its tick, and the FLAGS of all its samples so far. -/
structure Pulse where
  first : Nat
  last : Nat
  count : Nat
  quiet : Nat
  peak : Nat
  peakTick : Nat
  flags : Nat
  deriving DecidableEq, Repr

/-- L0 detector of a stream (R218-R224): the filter's inputs and the Hilbert filter's inputs, newest first, samples of warm-up so far,
armed, the pulse in progress, and the granule of the last peg with the pegs made in it. -/
structure L0 where
  on : Bool
  hist : List Smp
  band : List Smp
  warm : Nat
  armed : Bool
  pulse : Option Pulse
  window : Nat
  made : Nat
  deriving DecidableEq, Repr

/-- A detector that is off. -/
def L0.atReset : L0 := ⟨false, [], [], 0, false, none, 0, 0⟩

/-- A delay segment (R124): effect spectrum, A0 to A3, PHASE0. -/
structure Segment where
  start : Nat
  a0 : Int
  a1 : Int
  a2 : Int
  a3 : Int
  phase : Nat
  deriving DecidableEq, Repr

/-- One ingest stream. -/
structure Stream where
  st : StreamSt
  /-- Duplicate state (R95): the highest accepted number, the map of H - 63 .. H, its frame's stamp; `none` when clear. -/
  dup : Option (Nat × Nat × Nat)
  release : Option Nat
  /-- Samples placed and not yet left, by own sample count. -/
  buf : SMap (Option Smp)
  /-- Highest own sample accepted, plus 1. -/
  highest : Nat
  /-- Local Counter at the last accepted frame. -/
  heard : Nat
  /-- Local Counter of the last tick-mismatch NOTE (R96). -/
  noted : Option Nat
  /-- Local Counter of the last residual NOTE (R127). -/
  residualNoted : Option Nat
  /-- The row in force where samples enter, and on the delayed axis (R491). -/
  rowIn : List Byte
  rowOut : List Byte
  changes : List RouteChange
  /-- Marks that have still to reach the delayed axis. -/
  entryMarks : List EntryMark
  /-- The sample format by the delayed tick from which it holds, newest first (R101, R491). -/
  formats : List (Nat × Nat)
  dcMode : Nat
  dcFrozen : Bool
  dcChanges : List DcChange
  /-- The unifier's history, by own sample count (R105). -/
  uni : SMap Smp
  /-- The last change of the unifier (R100): the row before it, its tick s_t × F, and the first own sample of the new history. -/
  rowOld : List Byte
  uniTick : Nat
  uniFrom : Nat
  /-- Next tick to be formed; `none` before the first. -/
  next : Option Nat
  /-- Unified samples, by tick before coarse delay (the delay line). -/
  line : SMap Smp
  /-- Delayed samples, by tick: the filter history (R118), and the ticks at which it starts empty, newest first (R100, R139). -/
  hist : SMap Smp
  cuts : List Nat
  /-- Next spectrum to make. -/
  spec : Nat
  /-- Spans of unsettled spectra (R123), and the effect spectra that set STRADDLE (R38). -/
  unsettled : List (Nat × Nat)
  straddle : List Nat
  /-- The delay segments that wait, by rising effect spectrum, and the current one (R125). -/
  segments : List Segment
  segment : Option Segment
  l0 : L0
  /-- Samples in the writer's staging blocks that the HBM controller has not accepted: tick and bytes (R110). -/
  staged : List (Nat × List Byte)
  deriving DecidableEq, Repr

/-- A stream that is OFF, with empty histories (R93, R97). -/
def Stream.atReset : Stream :=
  { st := .off, dup := none, release := none, buf := [], highest := 0, heard := 0, noted := none, residualNoted := none,
    rowIn := [], rowOut := [], changes := [], entryMarks := [], formats := [], dcMode := 1, dcFrozen := false, dcChanges := [], uni := [],
    rowOld := [], uniTick := 0, uniFrom := 0, next := none, line := [], hist := [], cuts := [], spec := 0, unsettled := [], straddle := [], segments := [],
    segment := none, l0 := L0.atReset, staged := [] }

/-- A layout of the transient ring (R107, R111): the tick it applies from, its base in partition space, row size S, rows R, and the
enabled streams with their formats. -/
structure Ring where
  from_ : Nat
  base : Nat
  rowSize : Nat
  rows : Nat
  layout : List (Nat × Nat)
  deriving DecidableEq, Repr

/-- The transient ring's writer (R107-R111): the layout in force, those before it, newest first, those of the restarts still to come, oldest
first, the flag ring (granule and flags by byte index), the highest tick stored, and the held rows it has entered. -/
structure TransientWriter where
  cur : Ring
  prev : List Ring
  next : List Ring
  flagRing : SMap (Nat × Nat)
  high : Option Nat
  paused : List Nat
  deriving DecidableEq, Repr

/-- A ring of no rows. -/
def Ring.none : Ring := ⟨0, 0, 0, 0, []⟩

/-- The writer with no ring. -/
def TransientWriter.atReset : TransientWriter := ⟨Ring.none, [], [], [], .none, []⟩

/-! ### Time (R348-R357) -/

/-- One time view (R350-R352): OFFSET in units of 2^-48 ns, RATE, the Local Counter of the last servo write, whether it
was advanced across SLEEP since, and the fraction latched by the last read of the time. -/
structure TimeView where
  offset : Int
  rate : BitVec 64
  written : Option Nat
  estimated : Bool
  latch : BitVec 32
  /-- HOLDOVER was entered by the servo timeout. -/
  expired : Bool
  deriving DecidableEq, Repr

/-- A view that is UNSET: OFFSET 0, RATE 1.0 (R350, R352, R358). -/
def TimeView.atReset : TimeView := ⟨0, 0x0001000000000000#64, none, false, 0, false⟩

/-- The rest of the time block: the view-0 tick that never goes backwards (R351), the armed pair (R353), PPS_OUT
(R354), and the latched high word of the Local Counter. -/
structure TimeBlock where
  views : Vector TimeView 4
  tickHeld : Nat
  armed : Option Nat
  ppsOut : Bool
  ppsFall : Nat
  /-- Last whole second of the PPS view, less its offset, that raised PPS_OUT. -/
  ppsSecond : Option Int
  /-- Entries written so far to the PTP receive and transmit rings (R357). -/
  ptpRx : Nat
  ptpTx : Nat
  /-- High words latched by control-space reads (R324): Local Counter, ingest front. -/
  latchLc : BitVec 32
  latchFront : BitVec 32
  deriving DecidableEq, Repr


/-! ### Memories (R249-R275) -/

/-- A byte memory by address: what was written, in canonical form, over what an unlisted byte reads as. That is 0 (log entry 5), or,
inside a range whose contents a partition change left undefined (R251, R257), the free byte of the range's number, newest range first. -/
structure ByteMem where
  cells : SMap Byte
  undef : List (Nat × Nat × Nat)
  deriving DecidableEq, Repr

/-- A memory in which every byte reads 0. -/
def ByteMem.zero : ByteMem := ⟨[], []⟩

/-- The byte memories: main SRAM by address (R249), the HBM stacks by physical rank * 12 GiB + offset in the rank
(R254, R256), the physical byte ranges written with POISON tags as a whole (R274, R275), and the 32-byte HBM units
whose tag differs from that (R268), by physical address / 32. -/
structure Mem where
  sram : ByteMem
  hbm : ByteMem
  lost : List (Nat × Nat)
  tag : SMap Bool
  deriving DecidableEq, Repr

/-- Memories with nothing listed: every byte reads 0 and no unit is poisoned (R450; log entry 5). -/
def Mem.atReset : Mem := ⟨ByteMem.zero, ByteMem.zero, [], []⟩

/-- A write unit accepted and not yet written to its stack (R262, R266): class, physical unit address, its 32 bytes,
whether they carry a poison indication (R269), and the CLOSE page hint (R261). -/
structure WriteUnit where
  cls : Nat
  addr : Nat
  data : List Byte
  poison : Bool
  close : Bool
  deriving DecidableEq, Repr

/-- A read unit accepted whose data has not returned: class and physical address; the CLOSE page hint (R261); the data and the poison
indication that it will return, as they stood when it was accepted; and that a queued write gave them (R266). -/
structure ReadUnit where
  cls : Nat
  addr : Nat
  close : Bool
  data : List Byte
  poison : Bool
  forwarded : Bool
  deriving DecidableEq, Repr

/-- A bank of a pseudo-channel: its open row, the Local Counter of its last access, its postponed refreshes (R261,
R263). -/
structure Bank where
  row : Option Nat
  used : Nat
  postponed : Nat
  deriving DecidableEq, Repr

/-- A pseudo-channel of a stack (R259-R263): the unit requests that wait by class, the waits of its eleven classes, its queues, the direction
of its bus, its banks. -/
structure PseudoChannel where
  classes : SMap (List HbmUnit)
  waits : List Nat
  reads : List ReadUnit
  writes : List WriteUnit
  writing : Bool
  banks : SMap Bank
  deriving DecidableEq, Repr

/-- An idle pseudo-channel. -/
def PseudoChannel.atReset : PseudoChannel := ⟨[], List.replicate 11 0, [], [], false, []⟩

/-- Training of a stack (R264, R265): the pseudo-channel of the pass in progress and its step 0-3, failures in a row,
when and at what temperature the last pass ended, that a rate change has started on it (R265), that one waits for the
end of the step, and that the stack has failed (R272). -/
structure StackTraining where
  pass : Option (Nat × Nat)
  failures : Nat
  lastPass : Nat
  lastTemp : Int
  changing : Bool
  deferred : Bool
  failed : Bool
  deriving DecidableEq, Repr

/-- A migration (R274): source and target rank, bytes copied, and whether the source's stack failed. -/
structure Migration where
  src : Nat
  dst : Nat
  copied : Nat
  lost : Bool
  deriving DecidableEq, Repr

/-- The HBM controller beside its objects (R254-R275): pseudo-channels by stack * 32 + number, stacks, the migration that
runs and the ranks that wait for one, corrected errors of each rank in the clock hour, the scrubber's position, and the
ranks of a failed stack. -/
structure HbmCtl where
  pcs : SMap PseudoChannel
  training : Vector StackTraining 6
  migration : Option Migration
  waiting : List Nat
  hourly : SMap Nat
  hour : Nat
  scrub : Nat
  deriving DecidableEq, Repr

/-- The controller with nothing queued, nothing migrating (R271). -/
def HbmCtl.atReset : HbmCtl :=
  ⟨[], Vector.replicate 6 ⟨none, 0, 0, 0, false, false, false⟩, none, [], [], 0, 0⟩

/-! ### The bus matrix and the DMA engine (R322-R331) -/

/-- A descriptor (R327). -/
structure Descriptor where
  src : Nat
  dst : Nat
  length : Nat
  chain : Bool
  record : Bool
  swap : Nat
  srcClose : Bool
  dstClose : Bool
  srcFixed : Bool
  dstFixed : Bool
  cq : Nat
  next : Nat
  tag : Nat
  deriving DecidableEq, Repr

/-- A DMA channel beside its objects (R326-R330): its descriptor and that descriptor's address, beats read and not yet
written with whether they carry poison, bytes read and written, hub cycles it has waited for a port, the port it holds,
whether a poisoned read occurred, the status it ends with after what it has still to write, that it reads no more, and the Local Counter at
which it took a port or moved a beat last. -/
structure DmaChannel where
  desc : Descriptor
  descAddr : Nat
  buffer : List (List Byte × Bool)
  read : Nat
  written : Nat
  waited : Nat
  port : Option (Fin 2)
  poison : Bool
  ending : Option Nat
  stop : Bool
  beat : Nat
  deriving DecidableEq, Repr

/-- A channel with no work. -/
def DmaChannel.atReset : DmaChannel :=
  ⟨⟨0, 0, 0, false, false, 0, false, false, false, false, 0, 0, 0⟩, 0, [], 0, 0, 0, none, false, none, false, 0⟩

/-- The waits of the masters at each target port of the matrix (R47, R323), by port * 16 + master; the channels; queues
with records dropped since the last one written (R331). -/
structure MatrixDma where
  waits : SMap Nat
  channels : SMap DmaChannel
  overflow : List Nat
  deriving DecidableEq, Repr


/-! ### Power (R415-R428) -/

/-- An operating-point change in progress (R420): the point asked for and the one it leaves, the Local Counter of the
VOUT_COMMAND, and who waits for the answer. -/
structure OpChange where
  target : Nat
  old : Nat
  since : Nat
  asker : Asker
  deriving DecidableEq, Repr

/-- An HBM rate change in progress (R421): the new rate and the stack whose turn it is. -/
structure RateChange where
  rate : Nat
  stack : Nat
  deriving DecidableEq, Repr

/-- A domain that drains on its own (R417): the state it goes to, who waits for the answer, and the Local Counter when it began. -/
structure Drain where
  dom : Nat
  target : Nat
  asker : Asker
  since : Nat
  deriving DecidableEq, Repr

/-- A SLEEP from its request to the resume (R423-R428): whether PD_CLK parks, who waits for the answer, the states that the domains held,
the wake sources latched, the Local Counter and XO count at which the time clock stopped, the Local Counter at the acceptance, and the XO
count at c_s. -/
structure SleepCtl where
  parks : Bool
  asker : Asker
  prev : List Nat
  latched : Nat
  stopped : Option (Nat × Nat)
  since : Nat
  entered : Nat
  deriving DecidableEq, Repr

/-- The power controller beside its objects: what is in progress, the Local Counter at the last block of 2^24 XO counts (R428), the
VOUT_MODE of each regulator that was read, and that a VDD_CORE regulator reported another mode (R422). -/
structure PowerCtl where
  op : Option OpChange
  rate : Option RateChange
  drains : List Drain
  sleep : Option SleepCtl
  mark : Option Nat
  modes : SMap (Option Nat)
  badMode : Bool
  deriving DecidableEq, Repr



/-! ### Reset and package (R446-R456, R485-R488) -/

/-- Reset beside its objects: a commanded reset that waits for its 100 µs, by its cause (R448), and the Local
Counter of its command; the XO count at the release (R450); that
XO_IN shows no edges (R451). -/
structure ResetCtl where
  command : Option Nat
  asked : Nat
  since : Nat
  noXo : Bool
  deriving DecidableEq, Repr

/-- The package logic: the instruction register and the boundary register of the TAP (R485), and which thermal records have been raised and not
yet fallen below (R488): the warning, 95 °C, the trip. -/
structure Package where
  ir : Nat
  boundary : List Bool
  warned : Bool
  hot : Bool
  tripped : Bool
  deriving DecidableEq, Repr

/-- IDCODE selected (R485), nothing raised. -/
def Package.atReset : Package := ⟨2, [], false, false, false⟩


/-! ### Reference clock (R393-R411) -/

/-- A candidate beside its objects (R394-R401): a REF pin has edges, a gate has ended since it became active, it is
disqualified by its hard threshold, gates are above that threshold since the given Local Counter, it has been qualified
since reset or enable. -/
structure Candidate where
  edges : Bool
  gated : Bool
  disq : Bool
  dwell : Option Nat
  known : Bool
  /-- Local Counter at which the running gate began (R398). -/
  gateAt : Nat
  /-- Local Counter at which the wait-to-restore timer of a WAITING candidate ends (R401). -/
  restore : Nat
  deriving DecidableEq, Repr

/-- A candidate after reset. -/
def Candidate.atReset : Candidate := ⟨false, false, false, none, false, 0, 0⟩

/-- The means of the last valid holdover history (R407): output offset in parts per 10^12, temperature in Q8.8, age in
hours. -/
structure History where
  y : Int
  theta : Int
  age : Nat
  deriving DecidableEq, Repr

/-- The DPLL and the selector beside their objects (R403-R408): the samples of the history window (Local Counter, output
offset, temperature, age), newest first; the Local Counter at which the clock state was entered, and at which the holdover offset was last
computed. -/
structure RefClock where
  cands : Vector Candidate 7
  history : Option History
  samples : List (Nat × Int × Int × Nat)
  since : Nat
  computed : Nat
  deriving DecidableEq, Repr

/-- No history, no candidate active. -/
def RefClock.atReset : RefClock := ⟨Vector.replicate 7 Candidate.atReset, none, [], 0, 0⟩

/-! ### Lanes and bundles (R50-R84) -/

/-- A lane beside its objects: detectors and locks (R72, R78), the exchange of CAP messages (R72, R74), the next
rate, training with the answer to the partner's last request (R75, R76), the CONFIRM check, error events of the last millisecond (R79), code violations
(R68), entries into LISTEN (R73), what its STATUS blocks carry and have carried (R66, R67), deskew and the announced index
(R58), PRBS (R84), the Local Counter when its state, hold-off or confirm window began (R73), the control field of its own training frames and
RX_READY (R75, R76), the time since its last Twiah-1 status group in units of 0.1 ns (R68), and when its checker locked (R84). -/
structure Lane where
  los : Bool
  cdr : Bool
  aligned : Bool
  locked : Bool
  gotCap : Bool
  gotAck : Bool
  next : Nat
  cm2 : Int
  cm1 : Int
  c0 : Int
  cp1 : Int
  cp2 : Int
  answer : Nat
  gotReady : Bool
  errors : Nat
  uncorr : Nat
  events : List Nat
  violations : List Nat
  entries : List Nat
  hold : Bool
  statusSeq : Nat
  fecSince : Nat
  uncorrSince : Bool
  qlSeen : Nat × Nat
  partnerUp : Bool
  partnerSkew : Bool
  skewed : Bool
  index : Nat
  prbsLocked : Bool
  flips : Nat
  since : Nat
  request : Nat
  ready : Bool
  groupTime : Nat
  prbsSince : Nat
  deriving DecidableEq, Repr

/-- A lane without signal: LOS asserted, nothing locked (log entry 34). -/
def Lane.atReset : Lane :=
  { los := true, cdr := false, aligned := false, locked := false, gotCap := false, gotAck := false, next := 0, cm2 := 0,
    cm1 := 0, c0 := 64, cp1 := 0, cp2 := 0, answer := 0, gotReady := false, errors := 0, uncorr := 0, events := [],
    violations := [], entries := [], hold := false, statusSeq := 0, fecSince := 0, uncorrSince := false, qlSeen := (0, 0),
    partnerUp := false, partnerSkew := false, skewed := false, index := 0, prbsLocked := false, flips := 0, since := 0,
    request := 0, ready := false, groupTime := 0, prbsSince := 0 }

/-- An open frame of a virtual lane at a receiver (R62, R63): length, bytes so far, and that it will be discarded when it is
complete. -/
structure OpenFrame where
  vl : Nat
  length : Nat
  bytes : List Byte
  drop : Bool
  deriving DecidableEq, Repr

/-- A frame that waits at a sender (R146): its bytes, the stick whose frame it is for a SAMPLE frame, and that it is a
forwarded ingest frame, which takes no SEQ (R150). -/
structure TxFrame where
  bytes : List Byte
  stick : Nat
  raw : Bool
  deriving DecidableEq, Repr

/-- A frame that a sender has started and not completed (R62, R63): its virtual lane and the bytes still to leave. -/
structure TxOpen where
  vl : Nat
  left : List Byte
  deriving DecidableEq, Repr

/-- A bundle beside its objects: the receiver's open frames and selection (R63), the index of the last stream block (R60),
whole frames that wait to be taken, the announced receive mask and which lane index gave each of its rows (R59), the transmit mask
announced for the next period and the marker count (R57, R59), credit granted, last sent, the partner's totals and units consumed by
virtual lane (R65), CONTROL frames, pegs and SAMPLE frames that wait to be sent (R146, R152, R234), block slots that SAMPLE has waited
(R48), frame counts by virtual lane since the bundle came up (R147), the last credit-timeout NOTE (R154), and the last SEQ received by
virtual lane (R157); the frames open at the sender and the virtual lane of the last SOF or RESUME sent (R63), the row of the marker period
that goes on, the members served in it and its age in units of 10 ps (R56), and the Local Counter when the wait of each virtual lane's head for
credit began (R154). -/
structure Bundle where
  opens : List OpenFrame
  sel : Option Nat
  lastIndex : Option Nat
  ready : List (Nat × List Byte)
  rxNext : Nat
  rxRow : List (Nat × Nat)
  txNext : Nat
  marker : Option Nat
  granted : List Nat
  sent : List Nat
  partner : Option (List Nat)
  consumed : List Nat
  control : List TxFrame
  waiting : List TxFrame
  pegs : List (List Byte)
  samples : List TxFrame
  sampleWait : Nat
  seqs : List Nat
  noted : Option Nat
  rxSeqs : List (Option Nat)
  tx : List TxOpen
  txSel : Option Nat
  row : Nat
  col : Nat
  rowTime : Nat
  creditAt : List Nat
  deriving DecidableEq, Repr

/-- A bundle with nothing received and nothing to send. -/
def Bundle.atReset : Bundle :=
  { opens := [], sel := none, lastIndex := none, ready := [], rxNext := 0, rxRow := [], txNext := 0, marker := none,
    granted := [0, 0, 0], sent := [0, 0, 0], partner := none, consumed := [0, 0, 0], control := [], waiting := [], pegs := [], samples := [],
    sampleWait := 0, seqs := [0, 0, 0], noted := none, rxSeqs := [none, none, none], tx := [], txSel := none,
    row := 0, col := 0, rowTime := 0, creditAt := [0, 0, 0] }


/-! ### Output frames (R333-R347) -/

/-- A built output frame (R340, R346): its stream, its bytes from destination address to FCS, its launch time when the stream
is timed, and that it entered the launch queue after it (R347, R49). -/
structure OutFrame where
  stream : Nat
  bytes : List Byte
  launch : Option Nat
  late : Bool
  deriving DecidableEq, Repr

/-- An output port beside its objects: the launch queue by rising launch time (R347), the untimed frame that the MAC starts next,
the frame slots that streams have waited (R47, R48), and that the MAC started a timed frame at its last frame boundary (R347). -/
structure OutPort where
  timed : List OutFrame
  next : Option OutFrame
  waits : SMap Nat
  behind : Bool
  deriving DecidableEq, Repr

/-- A port with nothing to send. -/
def OutPort.atReset : OutPort := ⟨[], none, [], false⟩


/-! ### Pegs, groups, machines, decisions, captures (R232-R246, R437, R438) -/

/-- A peg with the position that produced it (R232). -/
structure Peg where
  bytes : List Byte
  pos : Nat
  deriving DecidableEq, Repr

/-- A coincidence group (R237): the matching pegs that its horizon has not reached, the pegs it holds, oldest first, and the tick up
to which it has taken pegs; the ticks of new tables at which it drops the held ones (R240). -/
structure Group where
  waiting : List Peg
  held : List Peg
  taken : Nat
  clears : List Nat
  deriving DecidableEq, Repr

/-- A group with nothing held. -/
def Group.atReset : Group := ⟨[], [], 0, []⟩

/-- An event of a machine (R239): its tick, whether it is a timer's expiry, the group or timer, and the amplitude. -/
structure MachineEv where
  tick : Nat
  timer : Bool
  number : Nat
  amplitude : Nat
  deriving DecidableEq, Repr

/-- A trigger machine (R238-R240): its state, its mark, the expiry ticks of its timers, the events it has still to take, the tick
from which its table applies, and the ticks of new tables at which it restarts (R240). -/
structure TrigMachine where
  state : Nat
  mark : Nat
  timers : List (Option Nat)
  events : List MachineEv
  from_ : Nat
  restarts : List Nat
  deriving DecidableEq, Repr

/-- A machine without a table. -/
def TrigMachine.atReset : TrigMachine := ⟨0, 0, [none, none, none, none], [], 0, []⟩

/-- A decision (R241). -/
structure Decision where
  tick : Nat
  pre : Nat
  post : Nat
  machine : Nat
  code : Nat
  soft : Bool
  deriving DecidableEq, Repr

/-- A capture slot beside its state object (R243-R246): the decision, its source and MSG_ID, the window held, how it was clipped, and
the Local Counter and the hold limit at acceptance. -/
structure Slot where
  decision : Decision
  source : Nat
  msgId : Nat
  lo : Nat
  hi : Nat
  clippedPre : Bool
  clippedPost : Bool
  accepted : Nat
  limit : Nat
  deriving DecidableEq, Repr

/-- A span of ticks over which captures freeze the estimates of a selection (R245); open at its end while the freeze holds. -/
structure Freeze where
  first : Nat
  past : Option Nat
  sel : Nat
  deriving DecidableEq, Repr

/-- The trigger blocks beside their objects: the next peg SEQ and the next decision MSG_ID of the position (R233, R241), the peg log
by entry (R235), groups, machines, slots, freezes with those still to take effect (tick, and whether it freezes or
releases), the acceptance windows of received pegs by source position and of CONTROL messages by source position * 256 + TYPE (R156):
highest number and map, the slots in the order in which they became READY (R345), and the shadow's standby pegs and suppressed decisions with the Local Counter at which each was made (R437,
R438). -/
structure Trigger where
  seq : Nat
  msgId : Nat
  log : SMap (List Byte)
  groups : SMap Group
  machines : SMap TrigMachine
  slots : Vector (Option Slot) 8
  freezes : List Freeze
  freezeNext : List (Nat × Bool)
  pegsSeen : SMap (Option (Nat × Nat))
  controlSeen : SMap (Option (Nat × Nat))
  ready : List (Fin 8)
  standby : List (Peg × Nat)
  suppressed : List (Decision × Nat)
  deriving DecidableEq, Repr

/-- Nothing detected, nothing held. -/
def Trigger.atReset : Trigger :=
  { seq := 0, msgId := 0, log := [], groups := [], machines := [], slots := Vector.replicate 8 none, freezes := [],
    freezeNext := [], pegsSeen := [], controlSeen := [], ready := [], standby := [], suppressed := [] }

/-- Values of objects that a transaction replaced at an effect tick: what they held before it (R38). -/
structure Replaced where
  tick : Nat
  olds : List (Nat × Val)
  deriving DecidableEq, Repr

/-! ### Twin operation (R431-R444) -/

/-- A mirrored WRITE series in progress (R436): object, bytes so far, STAGED, COMMIT_SEQ. -/
structure MirrorPart where
  key : Nat
  bytes : List Byte
  staged : Bool
  seq : Nat
  deriving DecidableEq, Repr

/-- The twin logic beside its objects: the next MSG_ID by TYPE of mirror message (R150), the Local Counter of entry into SEEKING (R433),
the time-view tick of entry into LEAD (R436),
the Local Counter of the last heartbeat, the LEAD_SINCE and CONTRIBUTING that it carried, the tick at which a lead first heard its partner as
SHADOW, the mirrored WRITE in progress and the staged ones waiting for their COMMIT, a snapshot in progress, the tick of a hand-over (R442), that
this new lead waits for the old lead's last heartbeat, the chase period in which a joining side's data paths start and the run objects that it
starts there (R440). -/
structure Twin where
  ids : SMap Nat
  seekSince : Nat
  leadSince : Nat
  heard : Option Nat
  partnerSince : Nat
  partnerIn : Bool
  shadowFrom : Option Nat
  part : Option MirrorPart
  staged : List (Nat × Val)
  snapshot : Bool
  swapAt : Option Nat
  waiting : Bool
  startAt : Option Nat
  runs : List Nat
  deriving DecidableEq, Repr

/-- Untwinned. -/
def Twin.atReset : Twin :=
  { ids := [], seekSince := 0, leadSince := 0, heard := none, partnerSince := 0, partnerIn := false, shadowFrom := none, part := none,
    staged := [], snapshot := false, swapAt := none, waiting := false, startAt := none, runs := [] }


/-! ### The F slices (R114-R141, R492) -/

/-- A stick of a stream in the making (R131, R136, R138): its number, how many of its spectra are done, the SK sums and MASKED of every
channel, the frisket bits of the whole stick, requantizer clips, overflow spectra, and the system inputs that the stream fed. -/
structure StickAcc where
  stick : Nat
  count : Nat
  s1 : List Nat
  s2 : List Nat
  masked : List Bool
  flags : Nat
  clips : Nat
  overflows : Nat
  inputs : List Nat
  deriving DecidableEq, Repr

/-- What a stream's complete stick reports (R138). -/
structure StickReport where
  stick : Nat
  stream : Nat
  causes : Nat
  clips : Nat
  overflows : Nat
  deriving DecidableEq, Repr

/-- The F slices beside their objects: sticks in the making by stream; the pack store, channel samples by spectrum * 16384 + system input
(R146); the friskets of complete sticks by stick * 16384 + system input, a byte a channel; reports that wait for the other streams of
their stick (R138); the stream whose next stick the SK capture takes (R132); spans of spectra that are unsettled for every stream (R123);
the highest stick that has entered the pack store (R146); the next stick whose frames become ready. -/
structure FEngine where
  accs : SMap (Option StickAcc)
  pack : SMap (List (Int × Int))
  friskets : SMap (List Nat)
  reports : List StickReport
  armed : Option Nat
  marks : List (Nat × Nat)
  top : Option Nat
  ready : Option Nat
  deriving DecidableEq, Repr

/-- Slices that have made nothing. -/
def FEngine.atReset : FEngine :=
  { accs := [], pack := [], friskets := [], reports := [], armed := none, marks := [], top := none, ready := none }

/-! ### The truss receiver (R155-R162) -/

/-- A galley half beside its objects (R158-R160): its layout is fixed, its receipt map is being cleared, two bits a frame place of those
set (1 RECEIVED, 2 UNSETTLED), an overrun of its period was reported, the CRCs of the first copies by place (R444), and the bytes of its receipt map (R163). -/
structure Half where
  fixed : Bool
  clearing : Bool
  marks : SMap Nat
  overrun : Bool
  crcs : SMap Nat
  bytes : Nat
  deriving DecidableEq, Repr

/-- A half with nothing in it. -/
def Half.atReset : Half := ⟨false, false, [], false, [], 0⟩

/-- The truss beside its objects: the halves, the newest closed period, the chase period at which it stops and the first one that a half
may open for (R160), frames of the internal path and of the bundles that wait for a half (R160), the bundles whose stored beacon has still to be
compared (R151), and the last compare NOTE (R444). -/
structure Truss where
  halves : Vector Half 2
  newest : Option Nat
  stopAt : Option Nat
  startAt : Nat
  local_ : List (List Byte)
  waiting : List (Nat × List Byte)
  beacons : List Nat
  noted : Option Nat
  deriving DecidableEq, Repr

/-- The truss disabled. -/
def Truss.atReset : Truss :=
  { halves := Vector.replicate 2 Half.atReset, newest := none, stopAt := none, startAt := 0, local_ := [], waiting := [], beacons := [], noted := none }


/-! ### The X-engine (R167-R193) -/

/-- A slab in a chase half (R168, R169): period, local channel, and its stick map by input * (T / 256) + stick: 1 VALID, 2 UNSETTLED;
what is not listed is neither. -/
structure Slab where
  period : Nat
  channel : Nat
  map : SMap Nat
  deriving DecidableEq, Repr

/-- An impression (R172, R181): period, local channel, forme, row and column block, and for a beam forme the key of its ledger slot. -/
structure Impression where
  period : Nat
  channel : Nat
  forme : Nat
  row : Nat
  col : Nat
  deriving DecidableEq, Repr

/-- What a platen cell passes on (R175, R176, R253): sums, count, UNSETTLED, and that an operand word was lost. -/
structure Cell where
  re : Int
  im : Int
  count : Nat
  unsettled : Bool
  poison : Bool
  deriving DecidableEq, Repr

/-- A row of beam sums (R200, R201): a sum a channel sample; a count and UNSETTLED a stick; sticks with a lost operand or ledger word. -/
structure BeamRow where
  sums : List (Int × Int)
  counts : List Nat
  unsettled : List Bool
  empty : List Bool
  deriving DecidableEq, Repr

/-- What an impression leaves in the result buffer: cells by 64 * row + column, or beam rows. -/
structure ImpResult where
  cells : List Cell
  rows : List BeamRow
  deriving DecidableEq, Repr

/-- A platen (R176, R183): its queue, the head first, the Local Counter at which its head ended and stalled with what
it leaves, its result buffer. -/
structure Platen where
  queue : List Impression
  stalled : Option (Nat × ImpResult)
  buffer : Option (Impression × ImpResult)
  deriving DecidableEq, Repr

/-- An idle platen. -/
def Platen.atReset : Platen := ⟨[], none, none⟩

/-- A scarf (R209): its first channel sample, its length, and the bank it fades to. -/
structure Scarf where
  start : Nat
  length : Nat
  target : Nat
  deriving DecidableEq, Repr

/-- A forme beside its objects: its dump offsets D_f with the period each holds from, newest first (R493); the period, local channel and entry it dispatches next, and the periods after
it; the first periods of the dumps in set A and set B; scarfs, newest first, whether the newest one still runs, and the spectrum of the waiting swap (R208, R209); the period, local channel
and beam block it releases next, and whether that block has been counted as waiting for a slot or for its output buffer (R203, R339). -/
structure FormeX where
  offsets : List (Nat × Int)
  pos : Option (Nat × Nat × Nat)
  later : List Nat
  firsts : Nat × Nat
  scarfs : List Scarf
  fading : Bool
  waiting : Option Nat
  release : Option (Nat × Nat × Nat)
  releases : List Nat
  slotWait : Bool
  drainWait : Bool
  deriving DecidableEq, Repr

/-- A forme that has done nothing. -/
def FormeX.atReset : FormeX :=
  { offsets := [], pos := none, later := [], firsts := (0, 0), scarfs := [], fading := false, waiting := none, release := none, releases := [],
    slotWait := false, drainWait := false }

/-- A period in process (R170): its number, the Local Counter at which it began, slabs staged, the formes that process it. -/
structure OpenPeriod where
  number : Nat
  began : Nat
  staged : Nat
  formes : List Nat
  deriving DecidableEq, Repr

/-- A scaled beam of a block (R205, R207, R211): stick words, samples at +-32767, samples in the output form. -/
structure ScaledBeam where
  words : List Nat
  wide : List (Int × Int)
  out : List (Int × Int)
  deriving DecidableEq, Repr

/-- A ledger slot in use (R202-R205): forme, period, local channel, beam block, entries that have still to complete, the proofs that copy it, its 64 rows, and the
scaled beams once it is drained. -/
structure LedgerSlot where
  forme : Nat
  period : Nat
  channel : Nat
  block : Nat
  left : Nat
  proofs : List Nat
  rows : List BeamRow
  scaled : Option (List ScaledBeam)
  deriving DecidableEq, Repr

/-- A burst of a trigger beam (R230): samples so far, and the best test: S/N, trial, width code, sample, flags. -/
structure Burst where
  count : Nat
  snr : Nat
  trial : Nat
  code : Nat
  sample : Nat
  flags : Nat
  deriving DecidableEq, Repr

/-- A trigger beam (R228-R230): by (D_t * 512 + trial) * 2^64 + L1 sample, the SUM and the flags (2 EMPTY, 1 SCARF) of its rings; mean and
variance by trial; samples of warm-up done, whether it has warmed up; D_t of its samples, the first one of the rings' history, the next one to
test, the burst. -/
structure L1Beam where
  rings : SMap (Nat × Nat)
  stats : SMap (Nat × Nat)
  warm : Nat
  armed : Bool
  dt : Nat
  first : Nat
  next : Nat
  burst : Option Burst
  deriving DecidableEq, Repr

/-- A trigger beam with empty rings. -/
def L1Beam.atReset : L1Beam := ⟨[], [], 0, false, 0, 0, 0, none⟩

/-- The X-engine beside its objects: periods in process, oldest first; the newest period begun; the chase halves and the half the next
slab goes to; platens; the waits of the formes at the platen-queue arbiter; formes; ledger slots in use, oldest first; trigger beams by
forme * 4096 + beam; lost operand words of the chase by SRAM address / 8 (R253); the chase period at which it stops for good (R275, R465). -/
structure XEngine where
  periods : List OpenPeriod
  newest : Option Nat
  chase : Vector (Option Slab) 2
  nextHalf : Fin 2
  platens : SMap Platen
  waits : SMap Nat
  formes : SMap FormeX
  slots : List LedgerSlot
  l1 : SMap L1Beam
  bad : List Nat
  halt : Option Nat
  deriving DecidableEq, Repr

/-- The X-engine with nothing begun. -/
def XEngine.atReset : XEngine :=
  { periods := [], newest := none, chase := Vector.replicate 2 none, nextHalf := 0, platens := [], waits := [], formes := [],
    slots := [], l1 := [], bad := [], halt := none }

/-! ### Output streams (R337-R345) -/

/-- A set or slot that a stream reads (R345): the forme, or the slot; the set, or 2; the BLOCK value and the first period; the ingest front when
the readout began, whose object values apply to the block (R358); the frame that is next; the items that have not been sent. -/
structure Readout where
  unit : Nat
  set_ : Nat
  block : Nat
  first : Nat
  since : Nat
  frame : Nat
  left : Nat
  deriving DecidableEq, Repr

/-- An output stream beside its objects: what it reads, pacing credit in thousandths of a bit and the Local Counter it stands for (R338),
frames built and waiting (beams) with the payload bytes each takes in its buffer (R339), the next peg log entry, frames were lost since the last one
sent (R344). -/
structure OutStream where
  reading : Option Readout
  credit : Nat
  since : Nat
  built : List (OutFrame × Nat)
  entry : Nat
  gap : Bool
  deriving DecidableEq, Repr

/-- A stream with nothing to send. -/
def OutStream.atReset : OutStream :=
  { reading := none, credit := 0, since := 0, built := [], entry := 0, gap := false }

/-! ### The chip -/

/-- Everything but the setter cores, the memories and the command queue. -/
structure Chip where
  /-- The Local Counter, OD 4C00.01 (R348). -/
  lc : Nat
  /-- The sill's XO count, OD 5000.16 (R428). -/
  xo : Nat
  /-- The model's own counter of free values used so far (log entry 3). -/
  free : Nat
  /-- The dictionary's scalar objects (R359). -/
  obj : SMap Nat
  /-- The dictionary's DOMAIN objects. -/
  dom : SMap (List Byte)
  /-- What has left the chip, newest first (the model's own record, log entry 4). -/
  out : List Sent
  /-- The dictionary server (R366-R390). -/
  dict : Dict
  /-- The fault log (R463, R464). -/
  faults : FaultLog
  /-- IPEND of the eight setters (R315). -/
  ipend : Vector (BitVec 16) 8
  /-- The highest value the ingest front had in an earlier cycle (R41). -/
  frontSeen : Nat
  /-- The ingest front has reached tick 0 in an earlier cycle. -/
  frontAny : Bool
  /-- The ingest streams; an unlisted one is at its reset value (R93). -/
  streams : SMap Stream
  /-- The transient buffer writer (R107-R111). -/
  writer : TransientWriter
  /-- Time views, pairs and PPS (R350-R357). -/
  time : TimeBlock
  /-- The HBM controller (R254-R275). -/
  hbm : HbmCtl
  /-- The bus matrix and the DMA engine (R322-R331). -/
  matrix : MatrixDma
  /-- The power controller (R415-R428). -/
  power : PowerCtl
  /-- The stick report ring, 65 536 entries of 16 bytes (R138). -/
  reports : SMap (List Byte)
  /-- The reference clock (R393-R411). -/
  clock : RefClock
  /-- The lanes; an unlisted one is at its reset value (R72). -/
  lanes : SMap Lane
  /-- The bundles; an unlisted one is at its reset value (R80). -/
  bundles : SMap Bundle
  /-- The output ports; an unlisted one is at its reset value (R333). -/
  ports : SMap OutPort
  /-- Pegs, groups, machines, decisions and captures (R218-R246). -/
  trigger : Trigger
  /-- Object values replaced at effect ticks, newest first: what applies to earlier ticks (R38). -/
  past : List Replaced
  /-- Twin operation (R431-R444). -/
  twin : Twin
  /-- The F slices (R114-R141). -/
  fe : FEngine
  /-- The truss receiver (R155-R162). -/
  truss : Truss
  /-- The X-engine and the beams (R167-R217, R225-R230). -/
  xe : XEngine
  /-- The output streams; an unlisted one is at its reset value (R337). -/
  outs : SMap OutStream
  /-- Reset and bring-up (R446-R456). -/
  rst : ResetCtl
  /-- The TAP and the thermal records (R485-R488). -/
  pkg : Package
  deriving DecidableEq, Repr

/-- The chip as the spec leaves it at reset; where it gives no value the log entry named in NOTES.md gives one. -/
def Chip.atReset : Chip :=
  { lc := 0,
    xo := 0,
    free := 0,
    obj := [],
    dom := [],
    out := [],
    dict := Dict.atReset,
    faults := ⟨[], []⟩,
    ipend := Vector.replicate 8 0,
    frontSeen := 0,
    frontAny := false,
    streams := [],
    writer := TransientWriter.atReset,
    time := ⟨Vector.replicate 4 TimeView.atReset, 0, none, false, 0, none, 0, 0, 0, 0⟩,
    hbm := HbmCtl.atReset,
    matrix := ⟨[], [], []⟩,
    power := ⟨none, none, [], none, none, [], false⟩,
    reports := [],
    clock := RefClock.atReset,
    lanes := [],
    bundles := [],
    ports := [],
    trigger := Trigger.atReset,
    past := [],
    twin := Twin.atReset,
    fe := FEngine.atReset,
    truss := Truss.atReset,
    xe := XEngine.atReset,
    outs := [],
    rst := ⟨none, 0, 0, false⟩,
    pkg := Package.atReset }

/-- The block's device state: the chip, its eight setters and its memories. -/
structure Dev where
  chip : Chip
  cores : Vector Setter 8
  mem : Mem
  deriving DecidableEq, Repr

/-- The state: the commands that wait, first in first out, and the device. -/
structure State where
  pending : List Instr
  dev : Dev
  deriving DecidableEq, Repr

/-- Why a step could stop with a fault. The spec gives the chip no stop: whatever goes wrong inside it is
recorded in its fault log and it goes on (R462-R468). -/
inductive Fault where
  /-- Raised by no command; safe. The interface asks for a type of faults, and this is its only name. -/
  | neverRaised
  deriving DecidableEq, Repr

/-- Why a command could be refused by the model. -/
inductive Refusal where
  /-- A command that has no meaning yet, by its mnemonic; raised by no command of this model; safe. -/
  | notModelled (mnemonic : String)
  deriving DecidableEq, Repr

/-- The machine right after reset: nothing waits, every object at its default, the memories empty. -/
def State.reset : State :=
  { pending := [], dev := { chip := Chip.atReset, cores := Vector.replicate 8 Setter.atReset, mem := Mem.atReset } }

end Sys2Proof.Machine
end

