-- ==== Sys2Proof/Machine/Operands.lean ====
section
/-! DEFINITION. Operand forms: byte strings and their fields (R3, R5), CRC-32 (R88), SHA-256 and HMAC (R384), the
common table header (R373, R374), and bit fields of words. -/

namespace Sys2Proof.Machine

/-! ### Byte strings, most significant byte first -/

/-- The value of bytes read most significant byte first. -/
def beVal (b : List Byte) : Nat := b.foldl (fun a x => a * 256 + x.toNat) 0

/-- `n` bytes of a value, most significant first; higher bits are dropped. -/
def beBytes : Nat → Nat → List Byte
  | 0, _ => []
  | n + 1, v => BitVec.ofNat 8 (v / 256 ^ n) :: beBytes n v

/-- The value of bytes read least significant byte first (CiA 301 order, R387). -/
def leVal (b : List Byte) : Nat := beVal b.reverse

/-- `n` bytes of a value, least significant first. -/
def leBytes (n v : Nat) : List Byte := (beBytes n v).reverse

/-- The bytes `off .. off + n - 1`; bytes past the end are left out. -/
def slice (b : List Byte) (off n : Nat) : List Byte := (b.drop off).take n

/-- The bytes `off .. off + n - 1` with 0 for bytes past the end: an object never written reads as rows of 0. -/
def sliceZ (b : List Byte) (off n : Nat) : List Byte :=
  let x := slice b off n
  x ++ List.replicate (n - x.length) 0

/-- A field of `n` bytes at `off`, most significant first, 0 past the end. -/
def beAt (b : List Byte) (off n : Nat) : Nat := beVal (sliceZ b off n)

/-- `n` bits of a value from bit `lo` up (R3). -/
def bits (v lo n : Nat) : Nat := v / 2 ^ lo % 2 ^ n

/-- Bit `i` of a value. -/
def bitAt (v i : Nat) : Bool := v / 2 ^ i % 2 == 1

/-- 1 for true, 0 for false. -/
def b2n (b : Bool) : Nat := if b then 1 else 0

/-- The two's complement value of the low `w` bits. -/
def toI (v w : Nat) : Int :=
  let x := v % 2 ^ w
  if 2 * x < 2 ^ w then x else (x : Int) - 2 ^ w

/-- The low `w` bits of a two's complement value. -/
def ofI (v : Int) (w : Nat) : Nat := (v % 2 ^ w).toNat

/-- A string of `n` bytes: cut, or padded with zeros. -/
def padTo (n : Nat) (b : List Byte) : List Byte := (b.take n) ++ List.replicate (n - b.length) 0

/-- `b` with the bytes `v` written over it from `off` on, where they fall inside it. -/
def overlay (b : List Byte) (off : Nat) (v : List Byte) : List Byte :=
  b.take off ++ ((v.take (b.length - off)) ++ b.drop (off + v.length))

/-! ### CRC-32 (R71, R88) -/

/-- One bit of the reflected CRC-32. -/
def crcBit (c : BitVec 32) : BitVec 32 :=
  if c.getLsbD 0 then (c >>> 1) ^^^ 0xEDB88320#32 else c >>> 1

/-- One byte entered into the CRC, bit 0 first. -/
def crcByte (c : BitVec 32) (b : Byte) : BitVec 32 :=
  let x := c ^^^ (b.setWidth 32)
  crcBit (crcBit (crcBit (crcBit (crcBit (crcBit (crcBit (crcBit x)))))))

/-- CRC-32 of a byte string (R88). -/
def crc32 (b : List Byte) : Nat := (~~~ (b.foldl crcByte 0xFFFFFFFF#32)).toNat

/-! ### SHA-256 and HMAC (R384)

R384 names the hash and gives no table of it. The constants are the leading 32 fractional bits of square and cube roots
of the first primes, and are computed as such. -/

/-- The largest `r` with `r ^ k ≤ v` among those that differ from the given one in the `n` low bits. -/
def rootBits (k : Nat) : Nat → Nat → Nat → Nat
  | 0, _, r => r
  | n + 1, v, r => rootBits k n v (if (r + 2 ^ n) ^ k ≤ v then r + 2 ^ n else r)

/-- The leading 32 fractional bits of the k-th root of a number below 2^12. -/
def rootFraction (k p : Nat) : BitVec 32 := BitVec.ofNat 32 (rootBits k 44 (p * 2 ^ (32 * k)) 0)

/-- The 64 primes below 312. -/
def hashPrimes : List Nat :=
  (List.range 312).filter fun p => 1 < p && (List.range 18).all fun q => q < 2 || p ≤ q || p % q != 0

/-- The exclusive or of a word turned right by each of the counts. -/
def turned (x : BitVec 32) (counts : List Nat) : BitVec 32 := counts.foldl (fun a n => a ^^^ x.rotateRight n) 0

/-- The schedule of one block, continued by `n` words; a window of its last 16 words moves along it, oldest first. -/
def hashSchedule : Nat → List (BitVec 32) → List (BitVec 32)
  | 0, win => win
  | n + 1, win =>
    let word := fun i => win.getD i 0
    let next := word 0 + word 9 + (turned (word 1) [7, 18] ^^^ (word 1 >>> 3)) + (turned (word 14) [17, 19] ^^^ (word 14 >>> 10))
    word 0 :: hashSchedule n (win.drop 1 ++ [next])

/-- The eight working words after one round, whose schedule word and constant add up to `kw`. Words 0 to 2 decide by
majority, words 4 to 6 by selection; each half moves down by one. -/
def hashRound (v : List (BitVec 32)) (kw : BitVec 32) : List (BitVec 32) :=
  let word := fun i => v.getD i 0
  let select := word 6 ^^^ (word 4 &&& (word 5 ^^^ word 6))
  let majority := (word 0 &&& word 1) ||| (word 2 &&& (word 0 ||| word 1))
  let into := word 7 + turned (word 4) [6, 11, 25] + select + kw
  (into + turned (word 0) [2, 13, 22] + majority) :: v.take 3 ++ (word 3 + into) :: (v.drop 4).take 3

/-- The chaining words after the 64-byte block at `off`. -/
def hashBlock (m : List Byte) (v : List (BitVec 32)) (off : Nat) : List (BitVec 32) :=
  let ws := hashSchedule 48 ((List.range 16).map fun i => BitVec.ofNat 32 (beAt m (off + 4 * i) 4))
  let rounds := List.zipWith (fun p w => rootFraction 3 p + w) hashPrimes ws
  List.zipWith (· + ·) v (rounds.foldl hashRound v)

/-- SHA-256 of a byte string, 32 bytes: the message, one bit 1, zeros and its length in bits fill whole blocks. -/
def sha256 (m : List Byte) : List Byte :=
  let blocks := (m.length + 72) / 64
  let filled := overlay (padTo (64 * blocks) (m ++ [0x80#8])) (64 * blocks - 8) (beBytes 8 (8 * m.length))
  let words := (List.range blocks).foldl (fun v i => hashBlock filled v (64 * i)) ((hashPrimes.take 8).map (rootFraction 2))
  words.flatMap fun x => beBytes 4 x.toNat

/-- HMAC-SHA-256 under a key of at most 64 bytes. -/
def hmac (key m : List Byte) : List Byte :=
  let k := padTo 64 key
  sha256 (k.map (· ^^^ 0x5C#8) ++ sha256 (k.map (· ^^^ 0x36#8) ++ m))

/-! ### Tables (R373, R374) -/

/-- KIND of the table that an object takes, if it takes one (R373). -/
def tableKind (idx sub : Nat) : Option Nat :=
  if idx == 0x6000 then some 1 else if idx == 0x6001 then some 2 else if idx == 0x6002 then some 3
  else if idx == 0x6003 then some 4 else if idx == 0x6004 then some 5 else if idx == 0x6005 then some 6
  else if idx == 0x6006 then some 7 else if idx == 0x6007 then some 8 else if idx == 0x6008 then some 9
  else if idx == 0x6009 then some 0xA else if idx == 0x600A then some 0xB else if idx == 0x600B then some 0xC
  else if idx == 0x600C then some 0xD else if idx == 0x600D then some 0xE
  else if 0x9000 ≤ idx && idx < 0x9400 && sub == 0x48 then some 0x10
  else if 0x8000 ≤ idx && idx < 0x9000 && (sub == 0x21 || sub == 0x22) then some 0x11
  else if 0x4010 ≤ idx && idx < 0x4018 && sub == 0x10 then some 0x12
  else none

/-- What is wrong with a complete table: RANGE for the header, TABLE_CRC for the CRC (R374). -/
inductive TableFault where
  | range | crc
  deriving DecidableEq, Repr

/-- The checks of R374 on a table of a KIND. -/
def tableCheck (kind : Nat) (b : List Byte) : Option TableFault :=
  if b.length < 16 || beAt b 0 2 != kind || beAt b 2 1 != 1 || beAt b 8 4 != b.length - 16 then some .range
  else if beAt b 12 4 != crc32 (b.take 12 ++ b.drop 16) then some .crc
  else none

/-- The body of a table: the bytes after the 16-byte header. -/
def tableBody (b : List Byte) : List Byte := b.drop 16

/-- A table of a KIND with a body, its header filled in (VERSION 0). -/
def mkTable (kind : Nat) (body : List Byte) : List Byte :=
  let h := beBytes 2 kind ++ ([1#8, 0#8] ++ (beBytes 4 0 ++ beBytes 4 body.length))
  h ++ (beBytes 4 (crc32 (h ++ body)) ++ body)

end Sys2Proof.Machine
end

