-- ==== Sys2Proof/Machine/Coding.lean ====
section
/-! DEFINITION. Line coding of Twiah: code groups (R68, R71), sync headers, the scrambler and PAM4 levels (R54), training frames (R75), and the
test patterns (R84). -/

namespace Sys2Proof.Machine

/-! ### Twiah-1 code groups (R68, R71) -/

/-- Control group K x.y. -/
def kGroup (x y : Nat) : CodeGroup := ⟨true, BitVec.ofNat 8 (32 * y + x)⟩

/-- Data groups of octets. -/
def dGroups (b : List Byte) : List CodeGroup := b.map fun v => ⟨false, v⟩

/-- The idle ordered set /K28.5/ /D16.2/. -/
def idleSet : List CodeGroup := [kGroup 28 5, ⟨false, BitVec.ofNat 8 (32 * 2 + 16)⟩]

/-- A Twiah-1 frame: /K27.7/, the frame bytes, /K29.7/. -/
def frameGroups (b : List Byte) : List CodeGroup := kGroup 27 7 :: (dGroups b ++ [kGroup 29 7])

/-- A status group: /K28.3/ and the 7 body bytes of R66. -/
def statusGroups (body : Nat) : List CodeGroup := kGroup 28 3 :: dGroups (beBytes 7 body)

/-- A CAP message: /K28.1/, the 16 payload bytes, their CRC-32 and /K30.7/ (R71). -/
def capGroups (payload : List Byte) : List CodeGroup :=
  kGroup 28 1 :: (dGroups (payload ++ beBytes 4 (crc32 payload)) ++ [kGroup 30 7])

/-- The announcement of a switch: /K28.6/ four times. -/
def switchSet : List CodeGroup := List.replicate 4 (kGroup 28 6)

/-! ### Twiah-2 blocks (R54, R55) -/

/-- A control block's payload: its type in byte 0 and its body in bytes 1 to 7. -/
def controlPayload (type body : Nat) : List Byte := beBytes 1 type ++ beBytes 7 body

/-- The 64 payload bits in the order they are sent: bytes 0 to 7, each byte bit 0 first. -/
def payloadBits (b : List Byte) : List Bool := b.flatMap fun v => (List.range 8).map fun i => v.getLsbD i

/-- The sync header, its first bit first: 0b01 for a data block, 0b10 for a control block. -/
def syncHeader (control : Bool) : List Bool := [control, !control]

/-- The scrambler x^58 + x^39 + 1: the last 58 bits sent, newest first, and the bits to send. -/
def scramble (state : List Bool) : List Bool → List Bool
  | [] => []
  | b :: t =>
    let out := xor b (xor (state.getD 38 false) (state.getD 57 false))
    out :: scramble (out :: state.take 57) t

/-- The descrambler: the last 58 bits received, newest first, and the bits received. -/
def descramble (state : List Bool) : List Bool → List Bool
  | [] => []
  | b :: t => xor b (xor (state.getD 38 false) (state.getD 57 false)) :: descramble (b :: state.take 57) t

/-- The 66 bits of a block: its sync header in clear, its payload scrambled. -/
def blockBits (state : List Bool) (control : Bool) (payload : List Byte) : List Bool :=
  syncHeader control ++ scramble state (payloadBits payload)

/-- The PAM4 level of two bits, first bit first: Gray coding, without precoding. -/
def pam4Level (first second : Bool) : Int :=
  match first, second with
  | false, false => -3 | false, true => -1 | true, true => 1 | true, false => 3

/-- The levels of a run of bits, the first of each pair the most significant (R84). -/
def pam4Levels : List Bool → List Int
  | a :: b :: t => pam4Level a b :: pam4Levels t
  | _ => []

/-! ### Patterns (R75, R84) -/

/-- Length and second tap of the PRBS of a pattern code, and the third and fourth tap of PRBS13; the feedback is the exclusive or of these bits of the
register. -/
def prbsTaps (code : Nat) : List Nat :=
  match code with
  | 1 => [7, 6] | 2 => [9, 5] | 3 => [13, 12, 2, 1] | 4 => [15, 14] | 5 => [23, 18] | 6 => [31, 28] | _ => []

/-- `n` bits of a PRBS from the bits before them, newest first. -/
def prbsBits (taps : List Nat) : Nat → List Bool → List Bool
  | 0, _ => []
  | n + 1, state =>
    let b := taps.foldl (fun a t => xor a (state.getD (t - 1) false)) false
    b :: prbsBits taps n (b :: state.take (taps.headD 1 - 1))

/-- `n` bits of the generator: a PRBS from the bits before them, or from its start the square wave of 8 ones and 8 zeros or the user pattern, bit 0
first. -/
def patternBits (code user n : Nat) (before : List Bool) : List Bool :=
  match code with
  | 7 => (List.range n).map fun i => decide (i % 16 < 8)
  | 8 => (List.range n).map fun i => bitAt user (i % 64)
  | _ => prbsBits (prbsTaps code) n before

/-- The 96 bits that head a training frame: the marker, and each field with its complement (R75). -/
def trainingHead (control status : Nat) : List Bool :=
  let word := fun (v : Nat) => (beBytes 2 v).flatMap fun b => (List.range 8).map fun i => b.getLsbD (7 - i)
  List.replicate 16 true ++ List.replicate 16 false ++ word control ++ word (65535 - control % 65536) ++ word status ++
    word (65535 - status % 65536)

/-- A training frame: its head and 4 096 bits of PRBS13 continued from the frame before (R75). -/
def trainingFrame (control status : Nat) (before : List Bool) : List Bool :=
  trainingHead control status ++ prbsBits (prbsTaps 3) 4096 before

end Sys2Proof.Machine
end

