-- ==== Sys2Proof/Machine/Flags.lean ====
section
/-! DEFINITION. Arithmetic of the data paths and of the setters: convergent rounding and saturation (R102), square
roots rounded convergently (R223, R230), sine and cosine to 96 fractional bits, and the setters' overflow rule and
flags (R287-R290). -/

namespace Sys2Proof.Machine

/-- `num / den` for `den > 0`, rounded convergently (half to even). -/
def rdiv (num : Int) (den : Nat) : Int :=
  let q := num / (den : Int)
  let r := num % (den : Int)
  if 2 * r < den then q else if (den : Int) < 2 * r then q + 1 else if q % 2 = 0 then q else q + 1

/-- rnd(v, n) of R102: division by 2^n with convergent rounding. -/
def rnd (v : Int) (n : Nat) : Int := rdiv v (2 ^ n)

/-- Largest value of a w-bit two's complement number. -/
def maxI (w : Nat) : Int := 2 ^ (w - 1) - 1

/-- Smallest value of a w-bit two's complement number. -/
def minI (w : Nat) : Int := -(2 ^ (w - 1))

/-- Clip to w bits, two's complement. -/
def sat (w : Nat) (v : Int) : Int := if maxI w < v then maxI w else if v < minI w then minI w else v

/-- Clip to -lim .. +lim. -/
def clip (lim v : Int) : Int := if lim < v then lim else if v < -lim then -lim else v

/-- The clip changed the value. -/
def clipped (lim v : Int) : Bool := lim < v || v < -lim

/-- Integer square root of a number below 2^512. -/
def isqrt (v : Nat) : Nat := rootBits 2 256 v 0

/-- The square root of `num / den`, times `scale`, rounded convergently. -/
def rsqrt (num den scale : Nat) : Nat :=
  if den = 0 then 0 else
  let q := num * scale * scale / den
  let r := isqrt q
  -- compare 4 num scale² with den (2r+1)²
  let l := 4 * num * scale * scale
  let h := den * (2 * r + 1) * (2 * r + 1)
  if l < h then r else if h < l then r + 1 else if r % 2 = 0 then r else r + 1

/-! ### Sine and cosine -/

/-- pi with 128 fractional bits. -/
def piQ : Int := 0x3243f6a8885a308d313198a2e03707344

/-- Terms of the Taylor series in fixed point with 128 fractional bits: `t` is the current term, `x2` the square of the
angle, `n` the power of the last factor. -/
def series : Nat → Int → Int → Nat → Int
  | 0, _, _, _ => 0
  | k + 1, t, x2, n => t + series k (-(t * x2 / 2 ^ 128) / ((n + 1) * (n + 2) : Nat)) x2 (n + 2)

/-- cos x, x in radians with 128 fractional bits, |x| at most 4. -/
def cosQ (x : Int) : Int := series 32 (2 ^ 128) (x * x / 2 ^ 128) 0

/-- sin x, x in radians with 128 fractional bits, |x| at most 4. -/
def sinQ (x : Int) : Int := series 32 x (x * x / 2 ^ 128) 1

/-- round(2^scale * cos(2 pi num / 2^den)), rounded convergently. -/
def cosTurn (num : Int) (den scale : Nat) : Int :=
  let m := num % 2 ^ den
  let a := if 2 * m ≤ 2 ^ den then m else m - 2 ^ den
  rnd (cosQ (2 * piQ * a / 2 ^ den)) (128 - scale)

/-- round(2^scale * sin(2 pi num / 2^den)), rounded convergently. -/
def sinTurn (num : Int) (den scale : Nat) : Int :=
  let m := num % 2 ^ den
  let a := if 2 * m ≤ 2 ^ den then m else m - 2 ^ den
  rnd (sinQ (2 * piQ * a / 2 ^ den)) (128 - scale)

/-! ### The setters' arithmetic (R287-R290) -/

/-- A part's result in its width: clipped when S is set, else its low bits (R287). -/
def part (s : Bool) (w : Nat) (v : Int) : Int := if s then sat w v else toI (ofI v w) w

/-- The exact result lies outside its width (R287). -/
def outside (w : Nat) (v : Int) : Bool := maxI w < v || v < minI w

/-- SR with the flags Z, N and V of a flag-setting result; SV is set whenever V is (R282, R287, R290). -/
def setFlags (sr : BitVec 32) (z n v : Bool) : BitVec 32 :=
  BitVec.ofNat 32 (sr.toNat / 16 * 16 + 8 * b2n (v || bitAt sr.toNat 3) + 4 * b2n v + 2 * b2n n + b2n z)

/-- The condition codes (R305); `none` is a reserved code. -/
def condHolds (sr : BitVec 32) (cond : Fin 16) : Option Bool :=
  let z := bitAt sr.toNat 0
  let n := bitAt sr.toNat 1
  let v := bitAt sr.toNat 2
  let sv := bitAt sr.toNat 3
  match cond.val with
  | 0 => some true
  | 1 => some z
  | 2 => some (!z)
  | 3 => some n
  | 4 => some (!n)
  | 5 => some (!z && !n)
  | 6 => some (z || n)
  | 7 => some v
  | 8 => some (!v)
  | 9 => some sv
  | _ => none

/-- Redundant sign bits of a w-bit value: how many bits below the sign repeat it, 0 to w - 1 (NORM, NORMA). -/
def redundant (w : Nat) (v : Int) : Nat :=
  let m := if v < 0 then -v - 1 else v
  let rec len : Nat → Nat → Nat
    | 0, _ => 0
    | k + 1, x => if x = 0 then 0 else 1 + len k (x / 2)
  w - 1 - len w m.toNat

end Sys2Proof.Machine
end

