-- ==== Sys2Proof/Machine/Objects.lean ====
section
/-! DEFINITION. The object dictionary's table (R359-R364): every object of the chapters' object tables, with
its type, access code, default, allowed range and, for a clear command, the counters it clears.
Rows are written from the object tables at the end of the chapters (R85, R113, R141, R166, R193, R217, R248,
R276, R332, R358, R392, R412, R430, R445, R469, R490). -/

namespace Sys2Proof.Machine

/-- Type of an object (R360). -/
inductive Ty where
  | bool | u8 | u16 | u32 | u64 | i8 | i16 | i32 | i64 | domain | string
  deriving DecidableEq, Repr

/-- Access code of an object (R361). -/
inductive Acc where
  | const | ro | wo | rw | rwt
  deriving DecidableEq, Repr

/-- One row of an object table: subindices `sub .. sub + n - 1` alike. For a scalar, `lo..hi` in multiples of
`mult`, or the one value `alt`, are what a write may carry; for a DOMAIN, `lo..hi` is its length. -/
structure ObjRow where
  sub : Nat
  n : Nat
  ty : Ty
  acc : Acc
  dflt : Nat
  lo : Nat
  hi : Nat
  mult : Nat
  alt : Option Nat
  clears : List (Nat × Nat)
  deriving DecidableEq, Repr

/-- The objects of the indices `first .. first + count - 1`, which are alike (one per unit). -/
structure ObjGroup where
  first : Nat
  count : Nat
  rows : List ObjRow
  deriving DecidableEq, Repr

/-- Indices 1000: 14_dictionary. -/
def objs1000 : ObjGroup := ⟨0x1000, 1,
  [⟨0, 1, .u32, .const, 0, 0, 4294967295, 1, none, []⟩]⟩

/-- Indices 1001: 14_dictionary. -/
def objs1001 : ObjGroup := ⟨0x1001, 1,
  [⟨0, 1, .u8, .ro, 0, 0, 255, 1, none, []⟩]⟩

/-- Indices 1017: 14_dictionary. -/
def objs1017 : ObjGroup := ⟨0x1017, 1,
  [⟨0, 1, .u16, .rw, 1000, 0, 65535, 1, none, []⟩]⟩

/-- Indices 1018: 14_dictionary. -/
def objs1018 : ObjGroup := ⟨0x1018, 1,
  [⟨1, 1, .u32, .const, 227921, 0, 4294967295, 1, none, []⟩,
    ⟨2, 1, .u32, .const, 25600, 0, 4294967295, 1, none, []⟩,
    ⟨3, 1, .u32, .const, 162, 0, 4294967295, 1, none, []⟩,
    ⟨4, 1, .u32, .const, 0, 0, 4294967295, 1, none, []⟩]⟩

/-- Indices 1080: 14_dictionary. -/
def objs1080 : ObjGroup := ⟨0x1080, 1,
  [⟨1, 1, .u8, .ro, 0, 0, 255, 1, none, []⟩,
    ⟨2, 1, .u8, .ro, 0, 0, 255, 1, none, []⟩,
    ⟨3, 1, .u8, .ro, 0, 0, 255, 1, none, []⟩,
    ⟨4, 1, .u64, .const, 0, 0, 18446744073709551615, 1, none, []⟩,
    ⟨5, 1, .string, .const, 0, 6, 6, 1, none, []⟩,
    ⟨6, 1, .u32, .ro, 0, 0, 4294967295, 1, none, []⟩]⟩

/-- Indices 1100: 14_dictionary. -/
def objs1100 : ObjGroup := ⟨0x1100, 1,
  [⟨1, 1, .u8, .rw, 0, 0, 2, 1, none, []⟩,
    ⟨2, 1, .u8, .ro, 0, 0, 255, 1, none, []⟩,
    ⟨3, 1, .u64, .rw, 0, 0, 281474976710655, 1, none, []⟩,
    ⟨4, 1, .u32, .rw, 0, 0, 4294967295, 1, none, []⟩,
    ⟨5, 1, .u8, .rw, 24, 0, 32, 1, none, []⟩,
    ⟨6, 1, .domain, .rw, 0, 16, 16, 1, some 0, []⟩,
    ⟨8, 1, .u16, .rw, 41500, 1, 65535, 1, none, []⟩,
    ⟨9, 1, .u8, .rw, 0, 1, 127, 1, none, []⟩,
    ⟨10, 1, .u8, .rw, 3, 0, 3, 1, none, []⟩,
    ⟨11, 1, .bool, .rw, 1, 0, 1, 1, none, []⟩,
    ⟨12, 1, .u8, .ro, 0, 0, 255, 1, none, []⟩,
    ⟨16, 1, .u64, .ro, 0, 0, 18446744073709551615, 1, none, []⟩,
    ⟨17, 1, .u32, .ro, 0, 0, 4294967295, 1, none, []⟩,
    ⟨18, 1, .u32, .ro, 0, 0, 4294967295, 1, none, []⟩,
    ⟨19, 1, .u32, .ro, 0, 0, 4294967295, 1, none, []⟩,
    ⟨32, 1, .bool, .wo, 0, 0, 1, 1, none, [(16, 19)]⟩]⟩

/-- Indices 1200: 14_dictionary. -/
def objs1200 : ObjGroup := ⟨0x1200, 1,
  [⟨1, 1, .u8, .ro, 0, 0, 255, 1, none, []⟩,
    ⟨2, 1, .u8, .ro, 255, 0, 255, 1, none, []⟩,
    ⟨3, 1, .u32, .rw, 5000, 10, 600000, 1, none, []⟩,
    ⟨4, 1, .u32, .rw, 30000, 1000, 3600000, 1, none, []⟩,
    ⟨5, 1, .u16, .ro, 0, 0, 65535, 1, none, []⟩,
    ⟨6, 1, .u8, .ro, 0, 0, 255, 1, none, []⟩,
    ⟨7, 1, .u16, .ro, 0, 0, 65535, 1, none, []⟩,
    ⟨8, 1, .u32, .ro, 0, 0, 4294967295, 1, none, []⟩,
    ⟨9, 1, .u32, .ro, 0, 0, 4294967295, 1, none, []⟩,
    ⟨10, 1, .u8, .ro, 0, 0, 255, 1, none, []⟩,
    ⟨11, 1, .u32, .ro, 0, 0, 4294967295, 1, none, []⟩,
    ⟨16, 1, .bool, .wo, 0, 0, 1, 1, none, []⟩,
    ⟨17, 1, .u64, .wo, 0, 0, 18446744073709551615, 1, none, []⟩,
    ⟨18, 1, .bool, .wo, 0, 0, 1, 1, none, []⟩,
    ⟨19, 1, .bool, .wo, 0, 0, 1, 1, none, []⟩]⟩

/-- Indices 1210: 14_dictionary. -/
def objs1210 : ObjGroup := ⟨0x1210, 1,
  [⟨1, 16, .domain, .ro, 0, 0, 12, 1, none, []⟩]⟩

/-- Indices 1220 + unit (9 of them): 14_dictionary. -/
def objs1220 : ObjGroup := ⟨0x1220, 9,
  [⟨1, 1, .u8, .ro, 0, 0, 255, 1, none, []⟩,
    ⟨2, 1, .domain, .ro, 0, 0, 18, 1, none, []⟩,
    ⟨3, 1, .u32, .ro, 0, 0, 4294967295, 1, none, []⟩]⟩

/-- Indices 1300: 14_dictionary. -/
def objs1300 : ObjGroup := ⟨0x1300, 1,
  [⟨1, 1, .bool, .rw, 0, 0, 1, 1, none, []⟩,
    ⟨2, 1, .domain, .rw, 0, 4, 16, 1, some 0, []⟩,
    ⟨3, 1, .u16, .rw, 41501, 0, 65535, 1, none, []⟩,
    ⟨4, 1, .u32, .rw, 510, 0, 4294967295, 1, none, []⟩,
    ⟨5, 1, .u64, .rw, 0, 0, 281474976710655, 1, none, []⟩,
    ⟨6, 1, .u32, .ro, 0, 0, 4294967295, 1, none, []⟩,
    ⟨7, 1, .u64, .ro, 0, 0, 18446744073709551615, 1, none, []⟩,
    ⟨16, 1, .domain, .ro, 0, 32768, 32768, 1, none, []⟩]⟩

/-- Indices 1400: 14_dictionary. -/
def objs1400 : ObjGroup := ⟨0x1400, 1,
  [⟨1, 1, .bool, .rw, 0, 0, 1, 1, none, []⟩,
    ⟨2, 1, .domain, .wo, 0, 16, 16, 1, none, []⟩,
    ⟨3, 1, .bool, .ro, 0, 0, 1, 1, none, []⟩,
    ⟨4, 1, .u32, .ro, 0, 0, 4294967295, 1, none, []⟩,
    ⟨5, 1, .u32, .ro, 0, 0, 4294967295, 1, none, []⟩,
    ⟨16, 1, .bool, .wo, 0, 0, 1, 1, none, [(4, 4), (5, 5)]⟩]⟩

/-- Indices 2000: 03_twiah_link. -/
def objs2000 : ObjGroup := ⟨0x2000, 1,
  [⟨1, 1, .u8, .ro, 0, 0, 255, 1, none, []⟩,
    ⟨2, 1, .u16, .ro, 0, 0, 65535, 1, none, []⟩,
    ⟨3, 1, .u16, .rw, 50, 10, 1000, 1, none, []⟩,
    ⟨4, 1, .u16, .rw, 100, 10, 2000, 1, none, []⟩,
    ⟨5, 1, .u16, .rw, 500, 50, 5000, 1, none, []⟩,
    ⟨6, 1, .u16, .rw, 1000, 10, 10000, 1, none, []⟩,
    ⟨7, 1, .u16, .rw, 1000, 0, 60000, 1, none, []⟩,
    ⟨8, 1, .u16, .rw, 8, 1, 65535, 1, none, []⟩,
    ⟨9, 1, .u16, .rw, 1024, 16, 16384, 1, none, []⟩]⟩

/-- Indices 2001: 03_twiah_link. -/
def objs2001 : ObjGroup := ⟨0x2001, 1,
  [⟨0, 1, .u8, .const, 128, 0, 255, 1, none, []⟩,
    ⟨1, 128, .u8, .rwt, 0, 0, 4, 1, none, []⟩]⟩

/-- Indices 2100 + unit (512 of them): 03_twiah_link. -/
def objs2100 : ObjGroup := ⟨0x2100, 512,
  [⟨1, 1, .u16, .rwt, 65535, 0, 255, 1, some 65535, []⟩,
    ⟨2, 1, .u8, .rwt, 0, 0, 63, 1, none, []⟩,
    ⟨3, 1, .u8, .rwt, 127, 0, 255, 1, none, []⟩,
    ⟨4, 1, .u8, .rw, 0, 0, 7, 1, none, []⟩,
    ⟨5, 1, .u8, .rw, 0, 0, 4, 1, none, []⟩,
    ⟨6, 1, .u8, .rw, 6, 0, 6, 1, none, []⟩,
    ⟨7, 1, .u8, .rw, 0, 0, 8, 1, none, []⟩,
    ⟨8, 1, .u8, .rw, 0, 0, 8, 1, none, []⟩,
    ⟨9, 1, .bool, .wo, 0, 0, 1, 1, none, []⟩,
    ⟨10, 1, .u64, .rw, 4294967295, 0, 18446744073709551615, 1, none, []⟩,
    ⟨16, 1, .u8, .ro, 0, 0, 255, 1, none, []⟩,
    ⟨17, 1, .u8, .ro, 0, 0, 255, 1, none, []⟩,
    ⟨18, 1, .domain, .ro, 0, 16, 16, 1, none, []⟩,
    ⟨19, 1, .bool, .ro, 0, 0, 1, 1, none, []⟩,
    ⟨20, 1, .u16, .ro, 0, 0, 65535, 1, none, []⟩,
    ⟨21, 1, .u64, .ro, 0, 0, 18446744073709551615, 1, none, []⟩,
    ⟨22, 1, .u32, .ro, 0, 0, 4294967295, 1, none, []⟩,
    ⟨23, 1, .u32, .ro, 0, 0, 4294967295, 1, none, []⟩,
    ⟨24, 1, .u32, .ro, 0, 0, 4294967295, 1, none, []⟩,
    ⟨25, 1, .u32, .ro, 0, 0, 4294967295, 1, none, []⟩]
  ++ [⟨26, 1, .u32, .ro, 0, 0, 4294967295, 1, none, []⟩,
    ⟨27, 1, .u32, .ro, 0, 0, 4294967295, 1, none, []⟩,
    ⟨28, 1, .u32, .ro, 0, 0, 4294967295, 1, none, []⟩,
    ⟨29, 1, .u32, .ro, 0, 0, 4294967295, 1, none, []⟩,
    ⟨30, 1, .u32, .ro, 0, 0, 4294967295, 1, none, []⟩,
    ⟨31, 1, .u32, .ro, 0, 0, 4294967295, 1, none, []⟩,
    ⟨32, 1, .u64, .ro, 0, 0, 18446744073709551615, 1, none, []⟩,
    ⟨33, 1, .u64, .ro, 0, 0, 18446744073709551615, 1, none, []⟩,
    ⟨34, 1, .bool, .ro, 0, 0, 1, 1, none, []⟩,
    ⟨35, 1, .u32, .ro, 0, 0, 4294967295, 1, none, []⟩,
    ⟨36, 1, .u32, .ro, 0, 0, 4294967295, 1, none, []⟩,
    ⟨37, 1, .u8, .ro, 127, 0, 255, 1, none, []⟩,
    ⟨48, 1, .bool, .wo, 0, 0, 1, 1, none, [(21, 36)]⟩,
    ⟨49, 1, .bool, .wo, 0, 0, 1, 1, none, []⟩]⟩

/-- Indices 2300 + unit (256 of them): 03_twiah_link. -/
def objs2300 : ObjGroup := ⟨0x2300, 256,
  [⟨1, 1, .bool, .rwt, 0, 0, 1, 1, none, []⟩,
    ⟨2, 1, .u8, .rwt, 6, 0, 6, 1, none, []⟩,
    ⟨3, 1, .u8, .rwt, 1, 1, 64, 1, none, []⟩,
    ⟨4, 1, .u8, .rwt, 255, 0, 63, 1, some 255, []⟩,
    ⟨5, 1, .u8, .rwt, 255, 0, 1, 1, some 255, []⟩,
    ⟨6, 1, .u16, .rwt, 65535, 0, 255, 1, some 65535, []⟩,
    ⟨7, 1, .u16, .rwt, 65535, 0, 65535, 1, none, []⟩,
    ⟨8, 1, .u8, .rwt, 2, 1, 2, 1, none, []⟩,
    ⟨16, 1, .u8, .ro, 0, 0, 255, 1, none, []⟩,
    ⟨17, 1, .u64, .ro, 0, 0, 18446744073709551615, 1, none, []⟩,
    ⟨18, 1, .u64, .ro, 0, 0, 18446744073709551615, 1, none, []⟩,
    ⟨19, 1, .u8, .ro, 0, 0, 255, 1, none, []⟩,
    ⟨20, 3, .u64, .ro, 0, 0, 18446744073709551615, 1, none, []⟩,
    ⟨23, 3, .u64, .ro, 0, 0, 18446744073709551615, 1, none, []⟩,
    ⟨26, 1, .u32, .ro, 0, 0, 4294967295, 1, none, []⟩,
    ⟨27, 1, .u32, .ro, 0, 0, 4294967295, 1, none, []⟩,
    ⟨28, 1, .u32, .ro, 0, 0, 4294967295, 1, none, []⟩,
    ⟨29, 1, .u32, .ro, 0, 0, 4294967295, 1, none, []⟩,
    ⟨30, 3, .u16, .ro, 0, 0, 65535, 1, none, []⟩,
    ⟨33, 1, .u8, .ro, 0, 0, 255, 1, none, []⟩]
  ++ [⟨48, 1, .bool, .wo, 0, 0, 1, 1, none, [(20, 29)]⟩]⟩

/-- Indices 2400: 04_ingest. -/
def objs2400 : ObjGroup := ⟨0x2400, 1,
  [⟨1, 1, .u16, .ro, 0, 0, 65535, 1, none, []⟩,
    ⟨2, 1, .u16, .rw, 1000, 10, 60000, 1, none, []⟩,
    ⟨3, 1, .u8, .rwt, 8, 1, 255, 1, none, []⟩,
    ⟨4, 1, .u32, .ro, 0, 0, 4294967295, 1, none, []⟩,
    ⟨5, 1, .u64, .ro, 0, 0, 18446744073709551615, 1, none, []⟩,
    ⟨6, 1, .u64, .ro, 0, 0, 18446744073709551615, 1, none, []⟩,
    ⟨7, 1, .u32, .ro, 0, 0, 4294967295, 1, none, []⟩,
    ⟨8, 1, .u64, .ro, 0, 0, 18446744073709551615, 1, none, []⟩,
    ⟨16, 1, .u32, .ro, 0, 0, 4294967295, 1, none, []⟩,
    ⟨17, 1, .u32, .ro, 0, 0, 4294967295, 1, none, []⟩,
    ⟨18, 1, .u32, .ro, 0, 0, 4294967295, 1, none, []⟩,
    ⟨19, 1, .u32, .ro, 0, 0, 4294967295, 1, none, []⟩,
    ⟨32, 1, .bool, .wo, 0, 0, 1, 1, none, [(7, 19)]⟩]⟩

/-- Indices 2800: 05_channelizer. -/
def objs2800 : ObjGroup := ⟨0x2800, 1,
  [⟨1, 1, .bool, .rwt, 0, 0, 1, 1, none, []⟩,
    ⟨2, 1, .u32, .rwt, 4096, 256, 65536, 1, none, []⟩,
    ⟨3, 1, .u8, .rwt, 8, 4, 16, 4, none, []⟩,
    ⟨4, 1, .u16, .rwt, 21845, 0, 65535, 1, none, []⟩,
    ⟨5, 1, .u16, .rwt, 2560, 0, 65535, 1, none, []⟩,
    ⟨6, 1, .u16, .rwt, 5632, 0, 65535, 1, none, []⟩,
    ⟨7, 1, .u8, .rwt, 254, 0, 254, 2, none, []⟩,
    ⟨8, 1, .u8, .ro, 0, 0, 255, 1, none, []⟩,
    ⟨9, 1, .bool, .ro, 0, 0, 1, 1, none, []⟩,
    ⟨16, 1, .u64, .ro, 0, 0, 18446744073709551615, 1, none, []⟩,
    ⟨17, 1, .u64, .ro, 0, 0, 18446744073709551615, 1, none, []⟩,
    ⟨18, 1, .u64, .ro, 0, 0, 18446744073709551615, 1, none, []⟩,
    ⟨19, 1, .u64, .ro, 0, 0, 18446744073709551615, 1, none, []⟩,
    ⟨20, 1, .u64, .ro, 0, 0, 18446744073709551615, 1, none, []⟩,
    ⟨21, 1, .u32, .ro, 0, 0, 4294967295, 1, none, []⟩,
    ⟨22, 1, .u32, .ro, 0, 0, 4294967295, 1, none, []⟩,
    ⟨23, 1, .u32, .ro, 0, 0, 4294967295, 1, none, []⟩,
    ⟨24, 1, .u32, .ro, 0, 0, 4294967295, 1, none, []⟩,
    ⟨25, 1, .u32, .const, 65536, 0, 4294967295, 1, none, []⟩,
    ⟨26, 1, .u16, .rw, 0, 0, 1023, 1, none, []⟩]
  ++ [⟨27, 1, .bool, .wo, 0, 0, 1, 1, none, []⟩,
    ⟨28, 1, .domain, .ro, 0, 0, 1048576, 1, none, []⟩,
    ⟨32, 1, .bool, .wo, 0, 0, 1, 1, none, [(16, 23)]⟩]⟩

/-- Indices 2810 + unit (8 of them): 05_channelizer. -/
def objs2810 : ObjGroup := ⟨0x2810, 8,
  [⟨1, 1, .u16, .ro, 0, 0, 65535, 1, none, []⟩,
    ⟨2, 1, .u32, .ro, 0, 0, 4294967295, 1, none, []⟩,
    ⟨3, 1, .u64, .ro, 0, 0, 18446744073709551615, 1, none, []⟩,
    ⟨4, 1, .u64, .ro, 0, 0, 18446744073709551615, 1, none, []⟩,
    ⟨16, 1, .bool, .wo, 0, 0, 1, 1, none, [(3, 3), (4, 4)]⟩]⟩

/-- Indices 2C00: 06_truss. -/
def objs2C00 : ObjGroup := ⟨0x2C00, 1,
  [⟨1, 1, .bool, .rwt, 0, 0, 1, 1, none, []⟩,
    ⟨2, 1, .u32, .rwt, 2000, 100, 1000000, 1, none, []⟩,
    ⟨3, 1, .u8, .rwt, 0, 0, 255, 1, none, []⟩,
    ⟨4, 1, .u16, .rw, 1000, 10, 60000, 1, none, []⟩,
    ⟨5, 1, .u8, .ro, 8, 0, 255, 1, none, []⟩,
    ⟨6, 1, .u32, .ro, 0, 0, 4294967295, 1, none, []⟩,
    ⟨7, 1, .u32, .rwt, 16384, 1024, 65536, 256, none, []⟩,
    ⟨8, 1, .u16, .rw, 64, 1, 16384, 1, none, []⟩,
    ⟨16, 1, .u64, .ro, 0, 0, 18446744073709551615, 1, none, []⟩,
    ⟨17, 1, .u64, .ro, 0, 0, 18446744073709551615, 1, none, []⟩,
    ⟨18, 1, .u64, .ro, 0, 0, 18446744073709551615, 1, none, []⟩,
    ⟨19, 1, .u32, .ro, 0, 0, 4294967295, 1, none, []⟩,
    ⟨20, 1, .u32, .ro, 0, 0, 4294967295, 1, none, []⟩,
    ⟨21, 1, .u32, .ro, 0, 0, 4294967295, 1, none, []⟩,
    ⟨22, 1, .u32, .ro, 0, 0, 4294967295, 1, none, []⟩,
    ⟨23, 1, .u32, .ro, 0, 0, 4294967295, 1, none, []⟩,
    ⟨24, 1, .u32, .ro, 0, 0, 4294967295, 1, none, []⟩,
    ⟨25, 1, .u64, .ro, 0, 0, 18446744073709551615, 1, none, []⟩,
    ⟨26, 1, .u64, .ro, 0, 0, 18446744073709551615, 1, none, []⟩,
    ⟨27, 1, .u32, .ro, 0, 0, 4294967295, 1, none, []⟩]
  ++ [⟨32, 1, .bool, .wo, 0, 0, 1, 1, none, [(16, 27)]⟩]⟩

/-- Indices 2C10: 06_truss. -/
def objs2C10 : ObjGroup := ⟨0x2C10, 1,
  [⟨1, 1, .u8, .ro, 0, 0, 255, 1, none, []⟩,
    ⟨2, 1, .u64, .ro, 0, 0, 18446744073709551615, 1, none, []⟩,
    ⟨3, 1, .u8, .ro, 0, 0, 255, 1, none, []⟩,
    ⟨4, 1, .u8, .ro, 0, 0, 255, 1, none, []⟩,
    ⟨5, 1, .u64, .ro, 0, 0, 18446744073709551615, 1, none, []⟩,
    ⟨6, 1, .u8, .ro, 0, 0, 255, 1, none, []⟩]⟩

/-- Indices 3000: 07_platens_formes. -/
def objs3000 : ObjGroup := ⟨0x3000, 1,
  [⟨1, 1, .bool, .rwt, 0, 0, 1, 1, none, []⟩,
    ⟨2, 1, .u8, .ro, 64, 0, 255, 1, none, []⟩,
    ⟨3, 1, .u16, .ro, 0, 0, 65535, 1, none, []⟩,
    ⟨4, 1, .u8, .ro, 0, 0, 255, 1, none, []⟩,
    ⟨5, 1, .u64, .ro, 0, 0, 18446744073709551615, 1, none, []⟩,
    ⟨6, 1, .u16, .ro, 0, 0, 65535, 1, none, []⟩,
    ⟨7, 1, .u32, .ro, 0, 0, 4294967295, 1, none, []⟩,
    ⟨8, 1, .u32, .ro, 0, 0, 4294967295, 1, none, []⟩,
    ⟨9, 1, .u32, .rw, 65536, 1, 4294967295, 1, none, []⟩,
    ⟨16, 1, .u64, .ro, 0, 0, 18446744073709551615, 1, none, []⟩,
    ⟨17, 1, .u64, .ro, 0, 0, 18446744073709551615, 1, none, []⟩,
    ⟨18, 1, .u32, .ro, 0, 0, 4294967295, 1, none, []⟩,
    ⟨19, 1, .u64, .ro, 0, 0, 18446744073709551615, 1, none, []⟩,
    ⟨20, 1, .u64, .ro, 0, 0, 18446744073709551615, 1, none, []⟩,
    ⟨21, 1, .u64, .ro, 0, 0, 18446744073709551615, 1, none, []⟩,
    ⟨22, 1, .u64, .ro, 0, 0, 18446744073709551615, 1, none, []⟩,
    ⟨32, 1, .bool, .wo, 0, 0, 1, 1, none, [(16, 22)]⟩]⟩

/-- Indices 3400: 08_beams. -/
def objs3400 : ObjGroup := ⟨0x3400, 1,
  [⟨1, 1, .u8, .rwt, 24, 0, 255, 1, none, []⟩,
    ⟨2, 1, .u8, .rwt, 16, 0, 255, 1, none, []⟩,
    ⟨3, 1, .u16, .ro, 0, 0, 65535, 1, none, []⟩,
    ⟨4, 1, .u16, .ro, 0, 0, 65535, 1, none, []⟩,
    ⟨5, 1, .u16, .ro, 0, 0, 65535, 1, none, []⟩,
    ⟨16, 1, .u64, .ro, 0, 0, 18446744073709551615, 1, none, []⟩,
    ⟨17, 1, .u64, .ro, 0, 0, 18446744073709551615, 1, none, []⟩,
    ⟨18, 1, .u64, .ro, 0, 0, 18446744073709551615, 1, none, []⟩,
    ⟨19, 1, .u32, .ro, 0, 0, 4294967295, 1, none, []⟩,
    ⟨32, 1, .bool, .wo, 0, 0, 1, 1, none, [(16, 19)]⟩]⟩

/-- Indices 3800: 09_triggers. -/
def objs3800 : ObjGroup := ⟨0x3800, 1,
  [⟨1, 1, .bool, .rwt, 0, 0, 1, 1, none, []⟩,
    ⟨2, 1, .u8, .rwt, 3, 0, 7, 1, none, []⟩,
    ⟨3, 1, .u32, .rw, 10000, 1, 600000, 1, none, []⟩,
    ⟨4, 1, .u16, .rwt, 65535, 0, 65535, 1, none, []⟩,
    ⟨5, 1, .u8, .rwt, 14, 0, 255, 1, none, []⟩,
    ⟨6, 1, .u16, .rwt, 65535, 0, 65535, 1, none, []⟩,
    ⟨7, 1, .u16, .rwt, 16, 0, 65535, 1, none, []⟩,
    ⟨8, 1, .u8, .rwt, 0, 0, 38, 1, none, []⟩,
    ⟨9, 1, .u16, .rwt, 31, 0, 511, 1, none, []⟩,
    ⟨10, 1, .u16, .rwt, 2048, 0, 65535, 1, none, []⟩,
    ⟨11, 1, .u8, .rwt, 12, 4, 24, 1, none, []⟩,
    ⟨12, 1, .u8, .rwt, 0, 0, 1, 1, none, []⟩,
    ⟨13, 1, .domain, .wo, 0, 16, 16, 1, none, []⟩,
    ⟨14, 1, .domain, .wo, 0, 24, 24, 1, none, []⟩,
    ⟨15, 1, .u16, .ro, 0, 0, 65535, 1, none, []⟩,
    ⟨16, 1, .u32, .ro, 8388608, 0, 4294967295, 1, none, []⟩,
    ⟨17, 1, .u32, .ro, 0, 0, 4294967295, 1, none, []⟩,
    ⟨18, 1, .u64, .ro, 0, 0, 18446744073709551615, 1, none, []⟩,
    ⟨19, 1, .u64, .ro, 0, 0, 18446744073709551615, 1, none, []⟩,
    ⟨20, 1, .u64, .ro, 0, 0, 18446744073709551615, 1, none, []⟩]
  ++ [⟨21, 1, .u32, .ro, 0, 0, 4294967295, 1, none, []⟩,
    ⟨22, 1, .u32, .ro, 0, 0, 4294967295, 1, none, []⟩,
    ⟨23, 1, .u32, .ro, 0, 0, 4294967295, 1, none, []⟩,
    ⟨24, 1, .u32, .ro, 0, 0, 4294967295, 1, none, []⟩,
    ⟨25, 1, .u32, .ro, 0, 0, 4294967295, 1, none, []⟩,
    ⟨26, 1, .u32, .ro, 0, 0, 4294967295, 1, none, []⟩,
    ⟨27, 1, .u32, .ro, 0, 0, 4294967295, 1, none, []⟩,
    ⟨28, 1, .u32, .ro, 0, 0, 4294967295, 1, none, []⟩,
    ⟨29, 1, .u32, .ro, 0, 0, 4294967295, 1, none, []⟩,
    ⟨30, 1, .u64, .ro, 0, 0, 18446744073709551615, 1, none, []⟩,
    ⟨31, 1, .u32, .ro, 0, 0, 4294967295, 1, none, []⟩,
    ⟨32, 1, .bool, .wo, 0, 0, 1, 1, none, [(18, 30)]⟩,
    ⟨33, 1, .u32, .const, 32768, 0, 4294967295, 1, none, []⟩,
    ⟨48, 1, .u8, .const, 8, 0, 255, 1, none, []⟩,
    ⟨49, 8, .u8, .ro, 0, 0, 255, 1, none, []⟩,
    ⟨65, 8, .domain, .ro, 0, 0, 64, 1, none, []⟩,
    ⟨81, 8, .bool, .wo, 0, 0, 1, 1, none, []⟩]⟩

/-- Indices 3801: 09_triggers. -/
def objs3801 : ObjGroup := ⟨0x3801, 1,
  [⟨1, 64, .u8, .ro, 0, 0, 255, 1, none, []⟩]⟩

/-- Indices 3C00: 10_memory. -/
def objs3C00 : ObjGroup := ⟨0x3C00, 1,
  [⟨1, 1, .bool, .rw, 1, 0, 1, 1, none, []⟩,
    ⟨2, 1, .u8, .ro, 2, 0, 255, 1, none, []⟩,
    ⟨3, 1, .u64, .ro, 206158430208, 0, 18446744073709551615, 1, none, []⟩,
    ⟨4, 1, .u32, .rw, 100, 10, 60000, 1, none, []⟩,
    ⟨5, 1, .u8, .rw, 5, 1, 20, 1, none, []⟩,
    ⟨6, 1, .u32, .rw, 3600, 60, 604800, 1, none, []⟩,
    ⟨7, 1, .u16, .rw, 20, 1, 200, 1, none, []⟩,
    ⟨8, 1, .u8, .rw, 1, 1, 255, 1, none, []⟩,
    ⟨9, 1, .u32, .rw, 4096, 1, 4294967295, 1, none, []⟩,
    ⟨10, 1, .u32, .rw, 1024, 1, 4294967295, 1, none, []⟩,
    ⟨11, 1, .u16, .rw, 256, 1, 65535, 1, none, []⟩,
    ⟨12, 1, .u64, .ro, 0, 0, 18446744073709551615, 1, none, []⟩,
    ⟨13, 1, .u64, .ro, 0, 0, 18446744073709551615, 1, none, []⟩,
    ⟨14, 1, .u8, .ro, 17, 0, 255, 1, none, []⟩,
    ⟨16, 1, .u64, .ro, 0, 0, 18446744073709551615, 1, none, []⟩,
    ⟨17, 1, .u32, .ro, 0, 0, 4294967295, 1, none, []⟩,
    ⟨18, 1, .u64, .ro, 0, 0, 18446744073709551615, 1, none, []⟩,
    ⟨19, 1, .u64, .ro, 0, 0, 18446744073709551615, 1, none, []⟩,
    ⟨20, 1, .u32, .ro, 0, 0, 4294967295, 1, none, []⟩,
    ⟨21, 1, .u32, .ro, 0, 0, 4294967295, 1, none, []⟩]
  ++ [⟨22, 1, .u32, .ro, 0, 0, 4294967295, 1, none, []⟩,
    ⟨23, 1, .u32, .ro, 0, 0, 4294967295, 1, none, []⟩,
    ⟨24, 1, .u64, .ro, 0, 0, 18446744073709551615, 1, none, []⟩,
    ⟨25, 1, .u32, .ro, 0, 0, 4294967295, 1, none, []⟩,
    ⟨26, 1, .u64, .ro, 0, 0, 18446744073709551615, 1, none, []⟩,
    ⟨32, 1, .bool, .wo, 0, 0, 1, 1, none, [(16, 26)]⟩]⟩

/-- Indices 3C01: 10_memory. -/
def objs3C01 : ObjGroup := ⟨0x3C01, 1,
  [⟨1, 1, .u64, .ro, 68719476736, 0, 18446744073709551615, 1, none, []⟩,
    ⟨2, 1, .u64, .ro, 34359738368, 0, 18446744073709551615, 1, none, []⟩,
    ⟨3, 1, .u64, .ro, 0, 0, 18446744073709551615, 1, none, []⟩,
    ⟨4, 1, .u64, .ro, 103079215104, 0, 18446744073709551615, 1, none, []⟩,
    ⟨5, 1, .u64, .ro, 0, 0, 18446744073709551615, 1, none, []⟩,
    ⟨6, 1, .u32, .ro, 0, 0, 4294967295, 1, none, []⟩]⟩

/-- Indices 3C02: 10_memory. -/
def objs3C02 : ObjGroup := ⟨0x3C02, 1,
  [⟨1, 11, .u8, .rw, 0, 0, 3, 1, none, []⟩]⟩

/-- Indices 3C10 + unit (18 of them): 10_memory. -/
def objs3C10 : ObjGroup := ⟨0x3C10, 18,
  [⟨1, 1, .u8, .ro, 1, 0, 255, 1, none, []⟩,
    ⟨2, 1, .u8, .ro, 0, 0, 255, 1, none, []⟩,
    ⟨3, 1, .u64, .ro, 0, 0, 18446744073709551615, 1, none, []⟩,
    ⟨4, 1, .u32, .ro, 0, 0, 4294967295, 1, none, []⟩,
    ⟨5, 1, .bool, .wo, 0, 0, 1, 1, none, []⟩,
    ⟨6, 1, .i8, .ro, 0, 0, 255, 1, none, []⟩,
    ⟨7, 1, .u32, .ro, 0, 0, 4294967295, 1, none, []⟩,
    ⟨16, 1, .bool, .wo, 0, 0, 1, 1, none, [(3, 3), (4, 4)]⟩]⟩

/-- Indices 4000: 12_setter_pipeline_dma. -/
def objs4000 : ObjGroup := ⟨0x4000, 1,
  [⟨1, 1, .bool, .rw, 1, 0, 1, 1, none, []⟩,
    ⟨2, 1, .u32, .rw, 4096, 1, 4294967295, 1, none, []⟩,
    ⟨3, 1, .u32, .rw, 256, 1, 4294967295, 1, none, []⟩,
    ⟨4, 1, .u32, .rw, 65536, 16, 4294967295, 1, some 0, []⟩,
    ⟨16, 1, .u32, .ro, 0, 0, 4294967295, 1, none, []⟩,
    ⟨32, 1, .bool, .wo, 0, 0, 1, 1, none, [(16, 16)]⟩]⟩

/-- Indices 4001: 12_setter_pipeline_dma. -/
def objs4001 : ObjGroup := ⟨0x4001, 1,
  [⟨1, 12, .u8, .rw, 1, 0, 3, 1, none, []⟩]⟩

/-- Indices 4010 + unit (8 of them): 12_setter_pipeline_dma. -/
def objs4010 : ObjGroup := ⟨0x4010, 8,
  [⟨1, 1, .u8, .rw, 0, 0, 1, 1, none, []⟩,
    ⟨2, 1, .u8, .ro, 0, 0, 255, 1, none, []⟩,
    ⟨3, 1, .u32, .wo, 0, 0, 4294967295, 1, none, []⟩,
    ⟨4, 1, .u32, .ro, 0, 0, 4294967295, 1, none, []⟩,
    ⟨5, 1, .u32, .rw, 0, 0, 4294967295, 65536, none, []⟩,
    ⟨6, 1, .u32, .rw, 0, 0, 4294967295, 65536, none, []⟩,
    ⟨7, 1, .u64, .rw, 0, 0, 18446744073709551615, 1048576, none, []⟩,
    ⟨8, 1, .u64, .rw, 0, 0, 18446744073709551615, 1048576, none, []⟩,
    ⟨9, 1, .u32, .ro, 0, 0, 4294967295, 1, none, []⟩,
    ⟨10, 1, .u64, .ro, 0, 0, 18446744073709551615, 1, none, []⟩,
    ⟨11, 1, .u32, .ro, 0, 0, 4294967295, 1, none, []⟩,
    ⟨12, 1, .u64, .ro, 0, 0, 18446744073709551615, 1, none, []⟩,
    ⟨16, 1, .domain, .wo, 0, 16, 1048576, 1, none, []⟩,
    ⟨17, 1, .u8, .ro, 0, 0, 255, 1, none, []⟩,
    ⟨32, 1, .bool, .wo, 0, 0, 1, 1, none, [(11, 11)]⟩]⟩

/-- Indices 4040 + unit (32 of them): 12_setter_pipeline_dma. -/
def objs4040 : ObjGroup := ⟨0x4040, 32,
  [⟨1, 1, .u32, .rw, 0, 0, 4294967295, 32, none, []⟩,
    ⟨2, 1, .bool, .wo, 0, 0, 1, 1, none, []⟩,
    ⟨3, 1, .bool, .wo, 0, 0, 1, 1, none, []⟩,
    ⟨4, 1, .u8, .rw, 0, 0, 3, 1, none, []⟩,
    ⟨5, 1, .u8, .rw, 8, 0, 8, 1, none, []⟩,
    ⟨6, 1, .u8, .ro, 0, 0, 255, 1, none, []⟩,
    ⟨7, 1, .u32, .ro, 0, 0, 4294967295, 1, none, []⟩,
    ⟨8, 1, .u8, .ro, 0, 0, 255, 1, none, []⟩,
    ⟨9, 1, .u64, .ro, 0, 0, 18446744073709551615, 1, none, []⟩,
    ⟨10, 1, .u32, .ro, 0, 0, 4294967295, 1, none, []⟩,
    ⟨16, 1, .bool, .wo, 0, 0, 1, 1, none, [(9, 9), (10, 10)]⟩]⟩

/-- Indices 4060 + unit (16 of them): 12_setter_pipeline_dma. -/
def objs4060 : ObjGroup := ⟨0x4060, 16,
  [⟨1, 1, .u32, .rw, 0, 0, 4294967295, 32, none, []⟩,
    ⟨2, 1, .u32, .rw, 16, 16, 65536, 1, none, []⟩,
    ⟨3, 1, .u32, .ro, 0, 0, 4294967295, 1, none, []⟩,
    ⟨4, 1, .u32, .rw, 0, 0, 4294967295, 1, none, []⟩,
    ⟨5, 1, .u16, .rw, 0, 0, 65535, 1, none, []⟩,
    ⟨6, 1, .u32, .ro, 0, 0, 4294967295, 1, none, []⟩,
    ⟨7, 1, .u32, .ro, 0, 0, 4294967295, 1, none, []⟩,
    ⟨16, 1, .bool, .wo, 0, 0, 1, 1, none, [(7, 7)]⟩]⟩

/-- Indices 4400: 13_output_time. -/
def objs4400 : ObjGroup := ⟨0x4400, 1,
  [⟨1, 1, .u8, .rwt, 2, 0, 255, 1, none, []⟩,
    ⟨2, 1, .u32, .ro, 0, 0, 4294967295, 1, none, []⟩,
    ⟨3, 1, .u32, .ro, 0, 0, 4294967295, 1, none, []⟩]⟩

/-- Indices 4410 + unit (8 of them): 13_output_time. -/
def objs4410 : ObjGroup := ⟨0x4410, 8,
  [⟨1, 1, .u8, .rwt, 0, 0, 255, 1, none, []⟩,
    ⟨3, 1, .u8, .rw, 0, 0, 7, 1, none, []⟩,
    ⟨5, 1, .u16, .rw, 2048, 1, 65535, 1, none, []⟩,
    ⟨6, 1, .u64, .rwt, 0, 0, 281474976710655, 1, none, []⟩,
    ⟨7, 1, .u32, .rwt, 0, 0, 4294967295, 1, none, []⟩,
    ⟨8, 1, .domain, .rwt, 0, 0, 16, 1, none, []⟩,
    ⟨16, 1, .u8, .ro, 0, 0, 255, 1, none, []⟩,
    ⟨17, 1, .u32, .ro, 0, 0, 4294967295, 1, none, []⟩,
    ⟨18, 1, .u64, .ro, 0, 0, 18446744073709551615, 1, none, []⟩,
    ⟨19, 1, .u32, .ro, 0, 0, 4294967295, 1, none, []⟩,
    ⟨20, 1, .u32, .ro, 0, 0, 4294967295, 1, none, []⟩,
    ⟨21, 1, .u64, .ro, 0, 0, 18446744073709551615, 1, none, []⟩,
    ⟨22, 1, .i32, .rw, 0, 0, 4294967295, 1, none, []⟩,
    ⟨23, 1, .i32, .rw, 0, 0, 4294967295, 1, none, []⟩,
    ⟨24, 1, .u64, .ro, 0, 0, 18446744073709551615, 1, none, []⟩,
    ⟨32, 1, .bool, .wo, 0, 0, 1, 1, none, [(17, 21), (24, 24)]⟩]⟩

/-- Indices 4500 + unit (256 of them): 13_output_time. -/
def objs4500 : ObjGroup := ⟨0x4500, 256,
  [⟨1, 1, .bool, .rwt, 0, 0, 1, 1, none, []⟩,
    ⟨2, 1, .u8, .rwt, 0, 0, 7, 1, none, []⟩,
    ⟨3, 1, .u8, .rwt, 0, 0, 3, 1, none, []⟩,
    ⟨4, 1, .u8, .rwt, 0, 0, 31, 1, none, []⟩,
    ⟨5, 1, .u32, .rwt, 0, 0, 4294967295, 1, none, []⟩,
    ⟨6, 1, .u64, .rwt, 0, 0, 281474976710655, 1, none, []⟩,
    ⟨7, 1, .u32, .rwt, 0, 0, 4294967295, 1, none, []⟩,
    ⟨8, 1, .u64, .rwt, 70368744177664, 0, 18446744073709551615, 1, none, []⟩,
    ⟨9, 1, .u16, .rwt, 0, 0, 65535, 1, none, []⟩,
    ⟨10, 1, .u16, .rwt, 0, 0, 65535, 1, none, []⟩,
    ⟨11, 1, .u16, .rwt, 1, 0, 65535, 1, none, []⟩,
    ⟨12, 1, .u16, .rwt, 256, 0, 65535, 1, none, []⟩,
    ⟨13, 1, .u8, .rwt, 0, 0, 1, 1, none, []⟩,
    ⟨14, 1, .u32, .rwt, 0, 0, 4294967295, 1, none, []⟩,
    ⟨15, 1, .domain, .rwt, 0, 0, 16, 1, none, []⟩,
    ⟨16, 1, .u8, .ro, 0, 0, 255, 1, none, []⟩,
    ⟨17, 1, .u64, .ro, 0, 0, 18446744073709551615, 1, none, []⟩,
    ⟨18, 1, .u64, .ro, 0, 0, 18446744073709551615, 1, none, []⟩,
    ⟨19, 1, .u32, .ro, 0, 0, 4294967295, 1, none, []⟩,
    ⟨20, 1, .u32, .ro, 0, 0, 4294967295, 1, none, []⟩]
  ++ [⟨21, 1, .u32, .ro, 0, 0, 4294967295, 1, none, []⟩,
    ⟨22, 1, .u64, .ro, 0, 0, 18446744073709551615, 1, none, []⟩,
    ⟨32, 1, .bool, .wo, 0, 0, 1, 1, none, [(17, 21)]⟩]⟩

/-- Indices 4800: 15_reference_clock. -/
def objs4800 : ObjGroup := ⟨0x4800, 1,
  [⟨1, 1, .u8, .ro, 0, 0, 255, 1, none, []⟩,
    ⟨2, 1, .u8, .ro, 255, 0, 255, 1, none, []⟩,
    ⟨3, 1, .u8, .ro, 14, 0, 255, 1, none, []⟩,
    ⟨4, 1, .u32, .rw, 300, 0, 3600, 1, none, []⟩,
    ⟨5, 1, .u8, .rw, 1, 0, 3, 1, none, []⟩,
    ⟨6, 1, .u32, .rw, 1000, 10, 100000, 1, none, []⟩,
    ⟨7, 1, .u8, .rw, 11, 1, 15, 1, none, []⟩,
    ⟨8, 1, .u8, .rw, 14, 1, 15, 1, none, []⟩,
    ⟨9, 1, .u16, .rw, 60, 10, 3600, 1, none, []⟩,
    ⟨10, 1, .u32, .rw, 86400, 60, 4294967295, 1, none, []⟩,
    ⟨11, 1, .i32, .rw, 0, 0, 4294967295, 1, none, []⟩,
    ⟨12, 1, .u8, .rw, 255, 0, 15, 1, some 255, []⟩,
    ⟨13, 1, .u32, .rw, 0, 0, 4294967295, 1, none, []⟩,
    ⟨14, 1, .i32, .ro, 0, 0, 4294967295, 1, none, []⟩,
    ⟨15, 1, .i32, .ro, 0, 0, 4294967295, 1, none, []⟩,
    ⟨16, 1, .i32, .ro, 0, 0, 4294967295, 1, none, []⟩,
    ⟨17, 1, .i32, .ro, 0, 0, 4294967295, 1, none, []⟩,
    ⟨18, 1, .u16, .rw, 100, 10, 1000, 1, none, []⟩,
    ⟨19, 1, .bool, .ro, 0, 0, 1, 1, none, []⟩,
    ⟨20, 1, .u32, .ro, 0, 0, 4294967295, 1, none, []⟩]
  ++ [⟨24, 1, .u32, .ro, 0, 0, 4294967295, 1, none, []⟩,
    ⟨25, 1, .u32, .ro, 0, 0, 4294967295, 1, none, []⟩,
    ⟨32, 1, .bool, .wo, 0, 0, 1, 1, none, [(24, 24), (25, 25)]⟩,
    ⟨33, 4, .u8, .rw, 1, 0, 3, 1, none, []⟩,
    ⟨37, 1, .bool, .rw, 0, 0, 1, 1, none, []⟩]⟩

/-- Indices 4810 + unit (7 of them): 15_reference_clock. -/
def objs4810 : ObjGroup := ⟨0x4810, 7,
  [⟨1, 1, .bool, .rw, 0, 0, 1, 1, none, []⟩,
    ⟨2, 1, .u8, .rw, 0, 0, 7, 1, none, []⟩,
    ⟨3, 1, .u8, .rw, 0, 0, 2, 1, none, []⟩,
    ⟨4, 1, .u16, .rw, 65535, 0, 511, 1, some 65535, []⟩,
    ⟨5, 1, .u8, .rw, 8, 1, 15, 1, none, []⟩,
    ⟨6, 1, .u32, .rw, 2000000, 0, 4294967295, 1, none, []⟩,
    ⟨7, 1, .u32, .rw, 5000000, 0, 4294967295, 1, none, []⟩,
    ⟨8, 1, .u32, .rw, 10000, 0, 600000, 1, none, []⟩,
    ⟨16, 1, .u8, .ro, 0, 0, 255, 1, none, []⟩,
    ⟨17, 1, .i32, .ro, 0, 0, 4294967295, 1, none, []⟩,
    ⟨18, 1, .u8, .ro, 0, 0, 255, 1, none, []⟩,
    ⟨19, 1, .u8, .ro, 15, 0, 255, 1, none, []⟩,
    ⟨20, 1, .bool, .ro, 0, 0, 1, 1, none, []⟩,
    ⟨21, 1, .u32, .ro, 0, 0, 4294967295, 1, none, []⟩,
    ⟨22, 1, .u32, .ro, 0, 0, 4294967295, 1, none, []⟩,
    ⟨23, 1, .u32, .ro, 0, 0, 4294967295, 1, none, []⟩,
    ⟨24, 1, .u32, .ro, 0, 0, 4294967295, 1, none, []⟩]⟩

/-- Indices 4C00: 13_output_time. -/
def objs4C00 : ObjGroup := ⟨0x4C00, 1,
  [⟨1, 1, .u64, .ro, 0, 0, 18446744073709551615, 1, none, []⟩,
    ⟨2, 1, .u64, .rwt, 1000000000, 1000000, 6400000000, 1, none, []⟩,
    ⟨3, 1, .u64, .ro, 0, 0, 18446744073709551615, 1, none, []⟩,
    ⟨4, 1, .u32, .rw, 10000, 100, 3600000, 1, none, []⟩,
    ⟨5, 1, .u32, .rw, 100, 0, 4294967295, 1, none, []⟩,
    ⟨6, 1, .u8, .rw, 1, 0, 3, 1, none, []⟩,
    ⟨7, 1, .i32, .rw, 0, 0, 4294967295, 1, none, []⟩,
    ⟨8, 1, .u32, .rw, 100000, 100, 500000000, 1, none, []⟩,
    ⟨16, 1, .u32, .ro, 0, 0, 4294967295, 1, none, []⟩,
    ⟨17, 1, .u64, .wo, 0, 0, 18446744073709551615, 1, none, []⟩,
    ⟨18, 1, .bool, .rw, 1, 0, 1, 1, none, []⟩]⟩

/-- Indices 4C10 + unit (4 of them): 13_output_time. -/
def objs4C10 : ObjGroup := ⟨0x4C10, 4,
  [⟨1, 1, .i64, .ro, 0, 0, 18446744073709551615, 1, none, []⟩,
    ⟨2, 1, .u32, .ro, 0, 0, 4294967295, 1, none, []⟩,
    ⟨3, 1, .u64, .rw, 281474976710656, 0, 18446744073709551615, 1, none, []⟩,
    ⟨4, 1, .i64, .wo, 0, 0, 18446744073709551615, 1, none, []⟩,
    ⟨5, 1, .domain, .wo, 0, 20, 20, 1, none, []⟩,
    ⟨6, 1, .u8, .ro, 0, 0, 255, 1, none, []⟩,
    ⟨7, 1, .u32, .rw, 4294967295, 0, 4294967295, 1, none, []⟩,
    ⟨8, 1, .u32, .ro, 4294967295, 0, 4294967295, 1, none, []⟩,
    ⟨9, 1, .i64, .ro, 0, 0, 18446744073709551615, 1, none, []⟩,
    ⟨10, 1, .u32, .ro, 0, 0, 4294967295, 1, none, []⟩,
    ⟨11, 1, .u64, .ro, 0, 0, 18446744073709551615, 1, none, []⟩,
    ⟨12, 1, .u32, .ro, 0, 0, 4294967295, 1, none, []⟩]⟩

/-- Indices 4C30: 13_output_time. -/
def objs4C30 : ObjGroup := ⟨0x4C30, 1,
  [⟨1, 1, .u32, .ro, 0, 0, 4294967295, 1, none, []⟩,
    ⟨2, 1, .u32, .ro, 0, 0, 4294967295, 1, none, []⟩,
    ⟨3, 1, .i32, .rw, 0, 0, 4294967295, 1, none, []⟩,
    ⟨4, 1, .i32, .rw, 0, 0, 4294967295, 1, none, []⟩,
    ⟨5, 1, .u32, .ro, 0, 0, 4294967295, 1, none, []⟩]⟩

/-- Indices 4C40: 13_output_time. -/
def objs4C40 : ObjGroup := ⟨0x4C40, 1,
  [⟨1, 64, .domain, .ro, 0, 0, 64, 1, none, []⟩]⟩

/-- Indices 5000: 16_power. -/
def objs5000 : ObjGroup := ⟨0x5000, 1,
  [⟨1, 1, .u8, .ro, 0, 0, 255, 1, none, []⟩,
    ⟨2, 1, .u8, .wo, 0, 1, 2, 1, none, []⟩,
    ⟨3, 1, .bool, .wo, 0, 0, 1, 1, none, []⟩,
    ⟨4, 1, .u8, .ro, 0, 0, 255, 1, none, []⟩,
    ⟨5, 1, .u32, .rw, 1000, 10, 100000, 1, none, []⟩,
    ⟨6, 1, .u8, .rw, 7, 0, 31, 1, none, []⟩,
    ⟨7, 1, .u8, .ro, 0, 0, 255, 1, none, []⟩,
    ⟨8, 1, .u32, .rw, 0, 0, 4294967295, 1, none, []⟩,
    ⟨16, 1, .u8, .rw, 2, 0, 255, 1, none, []⟩,
    ⟨17, 1, .u8, .ro, 2, 0, 255, 1, none, []⟩,
    ⟨18, 1, .u8, .rw, 1, 0, 255, 1, none, []⟩,
    ⟨19, 1, .u8, .ro, 1, 0, 255, 1, none, []⟩,
    ⟨20, 1, .u16, .ro, 740, 0, 65535, 1, none, []⟩,
    ⟨21, 1, .u8, .ro, 1, 0, 255, 1, none, []⟩,
    ⟨22, 1, .u64, .ro, 0, 0, 18446744073709551615, 1, none, []⟩,
    ⟨23, 1, .u64, .ro, 85899345920, 0, 18446744073709551615, 1, none, []⟩,
    ⟨24, 1, .u64, .ro, 0, 0, 18446744073709551615, 1, none, []⟩,
    ⟨25, 1, .u32, .ro, 0, 0, 4294967295, 1, none, []⟩,
    ⟨26, 1, .u32, .ro, 0, 0, 4294967295, 1, none, []⟩,
    ⟨27, 1, .u32, .ro, 0, 0, 4294967295, 1, none, []⟩]
  ++ [⟨28, 1, .u32, .ro, 0, 0, 4294967295, 1, none, []⟩,
    ⟨32, 1, .bool, .wo, 0, 0, 1, 1, none, [(25, 28)]⟩,
    ⟨33, 1, .u32, .ro, 0, 0, 4294967295, 1, none, []⟩]⟩

/-- Indices 5020 + unit (16 of them): 16_power. -/
def objs5020 : ObjGroup := ⟨0x5020, 16,
  [⟨1, 1, .u8, .rw, 0, 0, 7, 1, none, []⟩,
    ⟨2, 1, .u8, .rw, 255, 0, 127, 1, some 255, []⟩,
    ⟨3, 1, .u16, .ro, 0, 0, 65535, 1, none, []⟩,
    ⟨4, 1, .u32, .ro, 0, 0, 4294967295, 1, none, []⟩,
    ⟨5, 1, .u16, .ro, 0, 0, 65535, 1, none, []⟩,
    ⟨6, 1, .i16, .ro, 0, 0, 65535, 1, none, []⟩,
    ⟨7, 1, .u8, .rw, 255, 0, 255, 1, none, []⟩,
    ⟨8, 1, .bool, .wo, 0, 0, 1, 1, none, []⟩]⟩

/-- Indices 5100 + unit (96 of them): 16_power. -/
def objs5100 : ObjGroup := ⟨0x5100, 96,
  [⟨1, 1, .bool, .rwt, 1, 0, 1, 1, none, []⟩,
    ⟨2, 1, .u8, .rw, 1, 1, 3, 1, none, []⟩,
    ⟨3, 1, .u8, .ro, 1, 0, 255, 1, none, []⟩,
    ⟨4, 1, .u32, .ro, 0, 0, 4294967295, 1, none, []⟩,
    ⟨16, 1, .bool, .wo, 0, 0, 1, 1, none, [(4, 4)]⟩]⟩

/-- Indices 5400: 17_twin. -/
def objs5400 : ObjGroup := ⟨0x5400, 1,
  [⟨1, 1, .bool, .rwt, 0, 0, 1, 1, none, []⟩,
    ⟨2, 1, .u16, .rwt, 65535, 0, 255, 1, some 65535, []⟩,
    ⟨3, 1, .u8, .rw, 0, 0, 1, 1, none, []⟩,
    ⟨4, 1, .u8, .rw, 0, 0, 1, 1, none, []⟩,
    ⟨5, 1, .u16, .rw, 100, 10, 10000, 1, none, []⟩,
    ⟨6, 1, .u32, .rw, 1000, 0, 4294967295, 1, none, []⟩,
    ⟨7, 1, .u32, .rw, 2000, 100, 600000, 1, none, []⟩,
    ⟨8, 1, .bool, .rwt, 0, 0, 1, 1, none, []⟩,
    ⟨9, 1, .u32, .rw, 2000, 10, 1000000, 1, none, []⟩,
    ⟨10, 1, .u8, .rw, 0, 0, 16, 1, none, []⟩,
    ⟨11, 1, .u16, .rwt, 512, 256, 65535, 1, none, []⟩,
    ⟨12, 1, .u16, .rwt, 2048, 1026, 65535, 1, none, []⟩,
    ⟨13, 1, .u64, .rw, 0, 0, 281474976710655, 1, none, []⟩,
    ⟨14, 1, .u32, .rw, 0, 0, 4294967295, 1, none, []⟩,
    ⟨15, 1, .domain, .rw, 0, 16, 16, 1, some 0, []⟩,
    ⟨16, 1, .u8, .ro, 0, 0, 255, 1, none, []⟩,
    ⟨17, 1, .u8, .ro, 255, 0, 255, 1, none, []⟩,
    ⟨18, 1, .bool, .ro, 0, 0, 1, 1, none, []⟩,
    ⟨19, 1, .u64, .ro, 0, 0, 18446744073709551615, 1, none, []⟩,
    ⟨20, 1, .bool, .wo, 0, 0, 1, 1, none, []⟩]
  ++ [⟨32, 1, .u32, .ro, 0, 0, 4294967295, 1, none, []⟩,
    ⟨33, 1, .u32, .ro, 0, 0, 4294967295, 1, none, []⟩,
    ⟨34, 1, .u64, .ro, 0, 0, 18446744073709551615, 1, none, []⟩,
    ⟨35, 1, .u64, .ro, 0, 0, 18446744073709551615, 1, none, []⟩,
    ⟨36, 1, .u32, .ro, 0, 0, 4294967295, 1, none, []⟩,
    ⟨37, 1, .u64, .ro, 0, 0, 18446744073709551615, 1, none, []⟩,
    ⟨38, 1, .u32, .ro, 0, 0, 4294967295, 1, none, []⟩,
    ⟨48, 1, .bool, .wo, 0, 0, 1, 1, none, [(32, 38)]⟩]⟩

/-- Indices 5440 + unit (64 of them): 17_twin. -/
def objs5440 : ObjGroup := ⟨0x5440, 64,
  [⟨1, 1, .u64, .ro, 0, 0, 18446744073709551615, 1, none, []⟩,
    ⟨2, 1, .u32, .ro, 0, 0, 4294967295, 1, none, []⟩,
    ⟨3, 1, .u32, .ro, 0, 0, 4294967295, 1, none, []⟩,
    ⟨16, 1, .bool, .wo, 0, 0, 1, 1, none, [(1, 3)]⟩]⟩

/-- Indices 5800: 18_reset_faults. -/
def objs5800 : ObjGroup := ⟨0x5800, 1,
  [⟨1, 1, .u8, .ro, 0, 0, 255, 1, none, []⟩,
    ⟨2, 1, .u8, .ro, 1, 0, 255, 1, none, []⟩,
    ⟨3, 1, .u32, .wo, 0, 0, 4294967295, 1, none, []⟩,
    ⟨4, 1, .u8, .ro, 0, 0, 255, 1, none, []⟩,
    ⟨5, 1, .u32, .ro, 0, 0, 4294967295, 1, none, []⟩,
    ⟨6, 1, .u32, .ro, 0, 0, 4294967295, 1, none, []⟩,
    ⟨7, 1, .u32, .ro, 0, 0, 4294967295, 1, none, []⟩,
    ⟨16, 1, .domain, .ro, 0, 49152, 49152, 1, none, []⟩,
    ⟨17, 1, .u32, .ro, 0, 0, 4294967295, 1, none, []⟩,
    ⟨18, 1, .u32, .ro, 0, 0, 4294967295, 1, none, []⟩,
    ⟨19, 1, .u32, .wo, 0, 0, 4294967295, 1, none, []⟩,
    ⟨20, 1, .u8, .ro, 255, 0, 255, 1, none, []⟩,
    ⟨21, 1, .u32, .ro, 0, 0, 4294967295, 1, none, []⟩,
    ⟨22, 1, .u32, .ro, 0, 0, 4294967295, 1, none, []⟩,
    ⟨23, 1, .u32, .ro, 0, 0, 4294967295, 1, none, []⟩,
    ⟨24, 1, .u64, .ro, 0, 0, 18446744073709551615, 1, none, []⟩,
    ⟨25, 1, .u32, .const, 1024, 0, 4294967295, 1, none, []⟩,
    ⟨32, 1, .bool, .wo, 0, 0, 1, 1, none, [(21, 24)]⟩]⟩

/-- Indices 5810: 19_package_electrical. -/
def objs5810 : ObjGroup := ⟨0x5810, 1,
  [⟨1, 16, .i16, .ro, 0, 0, 65535, 1, none, []⟩,
    ⟨17, 1, .i16, .ro, 0, 0, 65535, 1, none, []⟩,
    ⟨18, 1, .u8, .rw, 90, 60, 95, 1, none, []⟩,
    ⟨19, 1, .u8, .rw, 110, 100, 115, 1, none, []⟩,
    ⟨20, 1, .i16, .ro, 0, 0, 65535, 1, none, []⟩,
    ⟨21, 1, .u32, .ro, 0, 0, 4294967295, 1, none, []⟩]⟩

/-- Indices 6000: 04_ingest. -/
def objs6000 : ObjGroup := ⟨0x6000, 1,
  [⟨0, 1, .domain, .rwt, 0, 16, 32784, 1, none, []⟩]⟩

/-- Indices 6001: 04_ingest. -/
def objs6001 : ObjGroup := ⟨0x6001, 1,
  [⟨1, 8, .domain, .rwt, 0, 16, 1048576, 1, none, []⟩]⟩

/-- Indices 6002: 05_channelizer. -/
def objs6002 : ObjGroup := ⟨0x6002, 1,
  [⟨0, 1, .domain, .rwt, 0, 16, 4194304, 1, none, []⟩]⟩

/-- Indices 6003: 05_channelizer. -/
def objs6003 : ObjGroup := ⟨0x6003, 1,
  [⟨0, 1, .domain, .rwt, 0, 16, 65536, 1, none, []⟩]⟩

/-- Indices 6004: 06_truss. -/
def objs6004 : ObjGroup := ⟨0x6004, 1,
  [⟨0, 1, .domain, .rwt, 0, 16, 1048576, 1, none, []⟩]⟩

/-- Indices 6005: 07_platens_formes. -/
def objs6005 : ObjGroup := ⟨0x6005, 1,
  [⟨0, 1, .domain, .rwt, 0, 16, 1048576, 1, none, []⟩]⟩

/-- Indices 6006: 09_triggers. -/
def objs6006 : ObjGroup := ⟨0x6006, 1,
  [⟨0, 1, .domain, .rwt, 0, 16, 65536, 1, none, []⟩]⟩

/-- Indices 6007: 09_triggers. -/
def objs6007 : ObjGroup := ⟨0x6007, 1,
  [⟨0, 1, .domain, .rwt, 0, 16, 1048576, 1, none, []⟩]⟩

/-- Indices 6008: 09_triggers. -/
def objs6008 : ObjGroup := ⟨0x6008, 1,
  [⟨0, 1, .domain, .rwt, 0, 16, 65536, 1, none, []⟩]⟩

/-- Indices 6009: 09_triggers. -/
def objs6009 : ObjGroup := ⟨0x6009, 1,
  [⟨1, 64, .domain, .rwt, 0, 16, 65536, 1, none, []⟩]⟩

/-- Indices 600A: 10_memory. -/
def objs600A : ObjGroup := ⟨0x600A, 1,
  [⟨0, 1, .domain, .rwt, 0, 16, 64, 1, none, []⟩]⟩

/-- Indices 600B: 10_memory. -/
def objs600B : ObjGroup := ⟨0x600B, 1,
  [⟨0, 1, .domain, .rwt, 0, 16, 64, 1, none, []⟩]⟩

/-- Indices 600C: 13_output_time. -/
def objs600C : ObjGroup := ⟨0x600C, 1,
  [⟨1, 32, .domain, .rwt, 0, 16, 65536, 1, none, []⟩]⟩

/-- Indices 600D: 15_reference_clock. -/
def objs600D : ObjGroup := ⟨0x600D, 1,
  [⟨0, 1, .domain, .rw, 0, 16, 65536, 1, none, []⟩]⟩

/-- Indices 8000 + unit (4096 of them): 07_platens_formes, 08_beams. -/
def objs8000 : ObjGroup := ⟨0x8000, 4096,
  [⟨1, 1, .u8, .rwt, 0, 0, 255, 1, none, []⟩,
    ⟨2, 1, .bool, .rwt, 0, 0, 1, 1, none, []⟩,
    ⟨3, 1, .u16, .rwt, 0, 0, 65535, 1, none, []⟩,
    ⟨4, 1, .u16, .rwt, 0, 0, 65535, 1, none, []⟩,
    ⟨5, 1, .u8, .rwt, 0, 0, 255, 1, none, []⟩,
    ⟨6, 1, .u8, .rwt, 0, 0, 255, 1, none, []⟩,
    ⟨7, 1, .u8, .rwt, 0, 0, 1, 1, none, []⟩,
    ⟨8, 1, .u16, .rwt, 1, 1, 65535, 1, none, []⟩,
    ⟨9, 1, .u64, .rwt, 0, 0, 18446744073709551615, 4096, none, []⟩,
    ⟨10, 1, .u16, .rwt, 65535, 0, 65535, 1, none, []⟩,
    ⟨11, 1, .u8, .rwt, 0, 0, 7, 1, none, []⟩,
    ⟨12, 1, .u16, .rwt, 65535, 0, 65535, 1, none, []⟩,
    ⟨16, 1, .u8, .ro, 0, 0, 255, 1, none, []⟩,
    ⟨17, 1, .u64, .ro, 0, 0, 18446744073709551615, 1, none, []⟩,
    ⟨18, 1, .u64, .ro, 0, 0, 18446744073709551615, 1, none, []⟩,
    ⟨19, 1, .u8, .ro, 0, 0, 255, 1, none, []⟩,
    ⟨20, 1, .u8, .ro, 0, 0, 255, 1, none, []⟩,
    ⟨21, 1, .u64, .ro, 0, 0, 18446744073709551615, 1, none, []⟩,
    ⟨22, 1, .u16, .ro, 0, 0, 65535, 1, none, []⟩,
    ⟨23, 1, .u64, .ro, 0, 0, 18446744073709551615, 1, none, []⟩]
  ++ [⟨24, 1, .u64, .ro, 0, 0, 18446744073709551615, 1, none, []⟩,
    ⟨25, 1, .u32, .ro, 0, 0, 4294967295, 1, none, []⟩,
    ⟨26, 1, .u32, .ro, 0, 0, 4294967295, 1, none, []⟩,
    ⟨27, 1, .u64, .ro, 0, 0, 18446744073709551615, 1, none, []⟩,
    ⟨28, 1, .u64, .ro, 0, 0, 18446744073709551615, 1, none, []⟩,
    ⟨29, 1, .u64, .ro, 0, 0, 18446744073709551615, 1, none, []⟩,
    ⟨31, 1, .bool, .wo, 0, 0, 1, 1, none, [(23, 29)]⟩,
    ⟨32, 1, .u16, .rwt, 1, 1, 4096, 1, none, []⟩,
    ⟨33, 1, .domain, .rw, 0, 16, 67108864, 1, none, []⟩,
    ⟨34, 1, .domain, .rw, 0, 16, 67108864, 1, none, []⟩,
    ⟨35, 1, .u64, .wo, 0, 0, 18446744073709551615, 1, none, []⟩,
    ⟨36, 1, .u16, .rw, 256, 1, 65535, 1, none, []⟩,
    ⟨37, 1, .u8, .rwt, 2, 0, 255, 1, none, []⟩,
    ⟨38, 1, .u16, .rwt, 4096, 0, 65535, 1, none, []⟩,
    ⟨39, 1, .u8, .rwt, 0, 0, 255, 1, none, []⟩,
    ⟨40, 1, .u16, .rwt, 1, 1, 256, 1, none, []⟩,
    ⟨41, 1, .u8, .rwt, 0, 0, 40, 1, none, []⟩,
    ⟨42, 1, .u64, .rwt, 0, 0, 18446744073709551615, 1, none, []⟩,
    ⟨43, 1, .bool, .rwt, 0, 0, 1, 1, none, []⟩,
    ⟨44, 1, .bool, .rwt, 0, 0, 1, 1, none, []⟩]
  ++ [⟨48, 1, .u8, .ro, 0, 0, 255, 1, none, []⟩,
    ⟨49, 1, .u8, .ro, 0, 0, 255, 1, none, []⟩,
    ⟨50, 1, .u64, .ro, 0, 0, 18446744073709551615, 1, none, []⟩,
    ⟨51, 1, .u32, .ro, 0, 0, 4294967295, 1, none, []⟩,
    ⟨52, 1, .u32, .ro, 0, 0, 4294967295, 1, none, []⟩,
    ⟨53, 1, .u64, .ro, 0, 0, 18446744073709551615, 1, none, []⟩,
    ⟨54, 1, .u64, .ro, 0, 0, 18446744073709551615, 1, none, []⟩,
    ⟨55, 1, .u64, .ro, 0, 0, 18446744073709551615, 1, none, []⟩,
    ⟨56, 1, .u64, .ro, 0, 0, 18446744073709551615, 1, none, []⟩,
    ⟨63, 1, .bool, .wo, 0, 0, 1, 1, none, [(51, 56)]⟩]⟩

/-- Indices 9000 + unit (1024 of them): 04_ingest, 05_channelizer, 09_triggers. -/
def objs9000 : ObjGroup := ⟨0x9000, 1024,
  [⟨1, 1, .u8, .ro, 0, 0, 255, 1, none, []⟩,
    ⟨2, 1, .u64, .ro, 0, 0, 18446744073709551615, 1, none, []⟩,
    ⟨3, 1, .u64, .ro, 0, 0, 18446744073709551615, 1, none, []⟩,
    ⟨4, 1, .u8, .rwt, 1, 0, 2, 1, none, []⟩,
    ⟨5, 1, .u8, .rwt, 22, 8, 24, 1, none, []⟩,
    ⟨6, 1, .i32, .rw, 0, 0, 4294967295, 1, none, []⟩,
    ⟨7, 1, .i32, .rw, 0, 0, 4294967295, 1, none, []⟩,
    ⟨8, 1, .u32, .rwt, 0, 0, 4294967295, 1, none, []⟩,
    ⟨9, 1, .u32, .rwt, 16384, 64, 65536, 1, none, []⟩,
    ⟨10, 1, .u8, .rwt, 17, 0, 255, 1, none, []⟩,
    ⟨16, 1, .u64, .ro, 0, 0, 18446744073709551615, 1, none, []⟩,
    ⟨17, 1, .u64, .ro, 0, 0, 18446744073709551615, 1, none, []⟩,
    ⟨18, 1, .u32, .ro, 0, 0, 4294967295, 1, none, []⟩,
    ⟨19, 1, .u64, .ro, 0, 0, 18446744073709551615, 1, none, []⟩,
    ⟨20, 1, .u32, .ro, 0, 0, 4294967295, 1, none, []⟩,
    ⟨21, 1, .u32, .ro, 0, 0, 4294967295, 1, none, []⟩,
    ⟨22, 1, .u32, .ro, 0, 0, 4294967295, 1, none, []⟩,
    ⟨23, 1, .u32, .ro, 0, 0, 4294967295, 1, none, []⟩,
    ⟨24, 1, .u64, .ro, 0, 0, 18446744073709551615, 1, none, []⟩,
    ⟨25, 1, .u64, .ro, 0, 0, 18446744073709551615, 1, none, []⟩]
  ++ [⟨26, 1, .u32, .ro, 0, 0, 4294967295, 1, none, []⟩,
    ⟨27, 1, .u32, .ro, 0, 0, 4294967295, 1, none, []⟩,
    ⟨28, 1, .u32, .ro, 0, 0, 4294967295, 1, none, []⟩,
    ⟨29, 1, .u64, .ro, 0, 0, 18446744073709551615, 1, none, []⟩,
    ⟨32, 1, .bool, .wo, 0, 0, 1, 1, none, [(16, 29)]⟩,
    ⟨64, 1, .domain, .wo, 0, 0, 64, 1, none, []⟩,
    ⟨65, 1, .u8, .rwt, 0, 0, 2, 1, none, []⟩,
    ⟨66, 1, .u64, .rwt, 0, 0, 18446744073709551615, 1, none, []⟩,
    ⟨67, 1, .bool, .rwt, 0, 0, 1, 1, none, []⟩,
    ⟨68, 1, .u16, .rw, 16, 1, 65535, 1, none, []⟩,
    ⟨69, 1, .i64, .ro, 0, 0, 18446744073709551615, 1, none, []⟩,
    ⟨70, 1, .u8, .ro, 0, 0, 255, 1, none, []⟩,
    ⟨71, 1, .bool, .wo, 0, 0, 1, 1, none, []⟩,
    ⟨72, 1, .domain, .rwt, 0, 16, 262144, 1, none, []⟩,
    ⟨73, 1, .u64, .ro, 0, 0, 18446744073709551615, 1, none, []⟩,
    ⟨74, 1, .u32, .ro, 0, 0, 4294967295, 1, none, []⟩,
    ⟨75, 1, .u64, .ro, 0, 0, 18446744073709551615, 1, none, []⟩,
    ⟨76, 1, .u32, .ro, 0, 0, 4294967295, 1, none, []⟩,
    ⟨80, 1, .bool, .wo, 0, 0, 1, 1, none, [(73, 76)]⟩,
    ⟨96, 1, .u8, .rwt, 0, 0, 255, 1, none, []⟩]
  ++ [⟨97, 1, .u16, .rwt, 1536, 0, 65535, 1, none, []⟩,
    ⟨98, 1, .u8, .rwt, 16, 8, 28, 1, none, []⟩,
    ⟨99, 1, .u8, .rwt, 8, 1, 255, 1, none, []⟩,
    ⟨100, 1, .u8, .rwt, 0, 0, 1, 1, none, []⟩,
    ⟨101, 1, .u64, .rw, 0, 0, 281474976710655, 1, none, []⟩,
    ⟨102, 1, .u16, .rw, 16, 0, 65535, 1, none, []⟩,
    ⟨103, 1, .u64, .ro, 0, 0, 18446744073709551615, 1, none, []⟩,
    ⟨104, 1, .u32, .ro, 0, 0, 4294967295, 1, none, []⟩,
    ⟨105, 1, .u32, .ro, 0, 0, 4294967295, 1, none, []⟩,
    ⟨106, 1, .u8, .ro, 0, 0, 255, 1, none, []⟩,
    ⟨112, 1, .bool, .wo, 0, 0, 1, 1, none, [(103, 105)]⟩]⟩

/-- Indices A000 + unit (64 of them): 06_truss. -/
def objsA000 : ObjGroup := ⟨0xA000, 64,
  [⟨1, 1, .u16, .rwt, 65535, 0, 255, 1, some 65535, []⟩,
    ⟨2, 1, .u16, .rwt, 65535, 0, 255, 1, some 65535, []⟩,
    ⟨3, 1, .u16, .rwt, 512, 130, 65535, 1, none, []⟩,
    ⟨4, 1, .u16, .rwt, 64, 10, 65535, 1, none, []⟩,
    ⟨5, 1, .u16, .rwt, 32, 2, 65535, 1, none, []⟩,
    ⟨16, 1, .u64, .ro, 0, 0, 18446744073709551615, 1, none, []⟩,
    ⟨17, 1, .u64, .ro, 0, 0, 18446744073709551615, 1, none, []⟩,
    ⟨18, 1, .u64, .ro, 0, 0, 18446744073709551615, 1, none, []⟩,
    ⟨19, 1, .u32, .ro, 0, 0, 4294967295, 1, none, []⟩,
    ⟨20, 1, .u32, .ro, 0, 0, 4294967295, 1, none, []⟩,
    ⟨21, 1, .u32, .ro, 0, 0, 4294967295, 1, none, []⟩,
    ⟨22, 1, .u32, .ro, 0, 0, 4294967295, 1, none, []⟩,
    ⟨23, 1, .u32, .ro, 0, 0, 4294967295, 1, none, []⟩,
    ⟨24, 1, .u32, .ro, 0, 0, 4294967295, 1, none, []⟩,
    ⟨25, 1, .u64, .ro, 0, 0, 18446744073709551615, 1, none, []⟩,
    ⟨26, 1, .u64, .ro, 0, 0, 18446744073709551615, 1, none, []⟩,
    ⟨27, 1, .u64, .ro, 0, 0, 18446744073709551615, 1, none, []⟩,
    ⟨28, 1, .u32, .ro, 0, 0, 4294967295, 1, none, []⟩,
    ⟨29, 1, .u64, .ro, 0, 0, 18446744073709551615, 1, none, []⟩,
    ⟨30, 1, .u64, .ro, 0, 0, 18446744073709551615, 1, none, []⟩]
  ++ [⟨31, 1, .domain, .ro, 0, 0, 16, 1, none, []⟩,
    ⟨32, 1, .u32, .ro, 0, 0, 4294967295, 1, none, []⟩,
    ⟨48, 1, .bool, .wo, 0, 0, 1, 1, none, [(16, 30), (32, 32)]⟩]⟩

/-- Every object of the dictionary (R364). -/
def objTable : List ObjGroup :=
  [objs1000, objs1001, objs1017, objs1018, objs1080, objs1100, objs1200, objs1210, objs1220, objs1300, objs1400, objs2000, objs2001, objs2100, objs2300, objs2400]
  ++ [objs2800, objs2810, objs2C00, objs2C10, objs3000, objs3400, objs3800, objs3801, objs3C00, objs3C01, objs3C02, objs3C10, objs4000, objs4001, objs4010, objs4040]
  ++ [objs4060, objs4400, objs4410, objs4500, objs4800, objs4810, objs4C00, objs4C10, objs4C30, objs4C40, objs5000, objs5020, objs5100, objs5400, objs5440, objs5800]
  ++ [objs5810, objs6000, objs6001, objs6002, objs6003, objs6004, objs6005, objs6006, objs6007, objs6008, objs6009, objs600A, objs600B, objs600C, objs600D, objs8000]
  ++ [objs9000, objsA000]

/-- Bytes of a scalar of the type on the wire; 0 for DOMAIN and STRING (R360). -/
def Ty.size : Ty → Nat
  | .bool => 1 | .u8 => 1 | .u16 => 2 | .u32 => 4 | .u64 => 8
  | .i8 => 1 | .i16 => 2 | .i32 => 4 | .i64 => 8 | .domain => 0 | .string => 0

/-- Type code in a DESCRIBE response (R360, R378). -/
def Ty.code : Ty → Nat
  | .bool => 0x01 | .u8 => 0x02 | .u16 => 0x03 | .u32 => 0x04 | .u64 => 0x05
  | .i8 => 0x06 | .i16 => 0x07 | .i32 => 0x08 | .i64 => 0x0A | .domain => 0x0E | .string => 0x0F

/-- Access code bits (R361). -/
def Acc.code : Acc → Nat
  | .const => 0 | .ro => 1 | .wo => 2 | .rw => 3 | .rwt => 7

/-- The group that defines an index, if any. -/
def objGroup (idx : Nat) : Option ObjGroup :=
  objTable.find? fun g => g.first ≤ idx && idx < g.first + g.count

/-- The row that defines an object, if any (R359). -/
def objRow (idx sub : Nat) : Option ObjRow :=
  match objGroup idx with
  | none => none
  | some g => g.rows.find? fun r => r.sub ≤ sub && sub < r.sub + r.n

/-- The key of OD idx.sub: index × 256 + subindex (as OD 1200.08 counts it). -/
def od (idx sub : Nat) : Nat := idx * 256 + sub

/-- Index of a key. -/
def keyIndex (k : Nat) : Nat := k / 256

/-- Subindex of a key. -/
def keySub (k : Nat) : Nat := k % 256

/-- Subindex defaults that differ along a row: rank states, logical ranks and class priorities
(R259, R271), and the master priorities of R322. -/
def unitDefault (k : Nat) : Option Nat :=
  let i := keyIndex k
  let b := keySub k
  if 0x3C10 ≤ i && i < 0x3C22 && b == 1 then some (if i < 0x3C20 then 1 else 0)
  else if 0x3C10 ≤ i && i < 0x3C22 && b == 2 then some (if i < 0x3C20 then i - 0x3C10 else 0xFF)
  else if i == 0x3C02 && 1 ≤ b && b ≤ 0x0B then some ([3, 3, 2, 2, 1, 1, 1, 1, 1, 0, 0].getD (b - 1) 0)
  else if i == 0x4001 && b == 0x0B then some 2
  else if i == 0x4001 && b == 0x0C then some 3
  else if k == 0x4C3001 then some 0x0F300000
  else if k == 0x4C3002 then some 0x0F320000
  else none

/-- What an object holds when nothing has written it since reset: its default. -/
def objDefault (k : Nat) : Nat :=
  match unitDefault k with
  | some v => v
  | none => match objRow (keyIndex k) (keySub k) with
    | some r => r.dflt
    | none => 0

/-- Mirror attribute of an object (R363). -/
def mirrored (k : Nat) : Bool :=
  let i := keyIndex k
  (i == 0x1200) || (0x2400 ≤ i && i ≤ 0x3FFF) || (0x6000 ≤ i && i ≤ 0x6FFF && k != 0x600D00) ||
  (0x8000 ≤ i && i ≤ 0x93FF) || (0xA000 ≤ i && i ≤ 0xA03F)

end Sys2Proof.Machine
end

