-- ==== Sys2Proof/Machine/Ops.lean ====
section
/-! DEFINITION. The named operations over the state: sparse maps, objects of the dictionary, memory bytes, time and the
ingest front, event reports, fault records, interrupt sources, answers. -/

namespace Sys2Proof.Machine

/-! ### Sparse maps -/

/-- What key `k` holds. -/
def sget {α : Type} (d : Nat → α) : SMap α → Nat → α
  | [], k => d k
  | (a, v) :: t, k => if k = a then v else sget d t k

/-- The map without key `k`. -/
def sdel {α : Type} : SMap α → Nat → SMap α
  | [], _ => []
  | (a, v) :: t, k => if k = a then sdel t k else (a, v) :: sdel t k

/-- The map with key `k` listed as `v`. -/
def sins {α : Type} : SMap α → Nat → α → SMap α
  | [], k, x => [(k, x)]
  | (a, v) :: t, k, x => if k = a then (k, x) :: t else if k < a then (k, x) :: (a, v) :: t else (a, v) :: sins t k x

/-- Key `k` set to `v`, listed only if it differs from the default. -/
def sset {α : Type} [DecidableEq α] (d : Nat → α) (m : SMap α) (k : Nat) (v : α) : SMap α :=
  if v = d k then sdel m k else sins m k v

/-- The canonical form: keys rise strictly above `lo`, no entry equals the default. -/
def SMap.wfFrom {α : Type} [DecidableEq α] (d : Nat → α) : Option Nat → SMap α → Bool
  | _, [] => true
  | lo, (a, v) :: t => (match lo with | none => true | some l => decide (l < a)) && decide (v ≠ d a) &&
      SMap.wfFrom d (some a) t

/-- The canonical form of a sparse map. -/
def SMap.wf {α : Type} [DecidableEq α] (d : Nat → α) (m : SMap α) : Bool := SMap.wfFrom d none m

/-- The entries whose key lies in `lo .. hi - 1`. -/
def srange {α : Type} (m : SMap α) (lo hi : Nat) : SMap α := m.filter fun e => lo ≤ e.1 && e.1 < hi

/-! ### Memory bytes -/

/-- What a byte of memory that nothing has written reads as: 0, the value the bring-up fill gives it (R450; log entry 5), or the free byte of
the newest undefined range that holds it (R251, R257). -/
def ByteMem.dflt (m : ByteMem) (a : Nat) : Byte :=
  match m.undef.find? fun r => r.1 ≤ a && a < r.2.1 with
  | some r => Config.freeByte r.2.2 a
  | none => 0

/-- One byte of a memory. -/
def byteAt (m : ByteMem) (a : Nat) : Byte := sget m.dflt m.cells a

/-- One byte of a memory written. -/
def putByte (m : ByteMem) (a : Nat) (v : Byte) : ByteMem := { m with cells := sset m.dflt m.cells a v }

/-- The `n` bytes from address `a` up. -/
def getBytes (m : ByteMem) (a : Nat) : Nat → List Byte
  | 0 => []
  | n + 1 => byteAt m a :: getBytes m (a + 1) n

/-- Bytes written from address `a` up. -/
def putBytes (m : ByteMem) (a : Nat) : List Byte → ByteMem
  | [] => m
  | v :: t => putBytes (putByte m a v) (a + 1) t

/-- The bytes `lo .. hi - 1` become undefined: free bytes under number `seed`. -/
def ByteMem.lose (m : ByteMem) (lo hi seed : Nat) : ByteMem :=
  ⟨m.cells.filter fun e => !(lo ≤ e.1 && e.1 < hi), (lo, hi, seed) :: m.undef⟩

/-- The canonical form of a byte memory. -/
def Memory.wf (m : ByteMem) : Bool := SMap.wf m.dflt m.cells

/-! ### Objects (R359-R361) -/

/-- Bits of a scalar of the type. -/
def Ty.bits (t : Ty) : Nat := 8 * t.size

/-- A value cut to the type of the object it is stored in: counters wrap to 0 (R85 and its likes). -/
def wrapObj (k v : Nat) : Nat :=
  match objRow (keyIndex k) (keySub k) with
  | some r => if r.ty.bits = 0 then v else v % 2 ^ r.ty.bits
  | none => v

/-- The value in force of a scalar object. -/
def Chip.rd (c : Chip) (k : Nat) : Nat := sget objDefault c.obj k

/-- A scalar object set. -/
def Chip.wr (c : Chip) (k v : Nat) : Chip := { c with obj := sset objDefault c.obj k v }

/-- A counter object counted up by `n`, wrapping to 0 by its type. -/
def Chip.bump (c : Chip) (k n : Nat) : Chip := if n = 0 then c else c.wr k (wrapObj k (c.rd k + n))

/-- A DOMAIN object in force. -/
def Chip.rdDom (c : Chip) (k : Nat) : List Byte := sget (fun _ => []) c.dom k

/-- A DOMAIN object set. -/
def Chip.wrDom (c : Chip) (k : Nat) (b : List Byte) : Chip := { c with dom := sset (fun _ => []) c.dom k b }

/-- A flag object is 1. -/
def Chip.on (c : Chip) (k : Nat) : Bool := c.rd k == 1

/-- The body of a table object in force: empty when never loaded (R374). -/
def Chip.table (c : Chip) (k : Nat) : List Byte := tableBody (c.rdDom k)

/-- The next free value, of `w` bits (log entry 3): the value and the chip with the counter advanced. -/
def Chip.freeBits (c : Chip) (w : Nat) : Nat × Chip :=
  ((Config.freeWord c.free).toNat % 2 ^ w, { c with free := c.free + 1 })

/-- Something leaves the chip. -/
def Chip.send (c : Chip) (x : Sent) : Chip := { c with out := x :: c.out }

/-! ### Status codes (R365) -/

/-- The status that ends a request. -/
inductive Status where
  | ok | range | state | access | noObject | type | envelope | late | schedFull | timingBusy | laneBusy | budget
  | tableCrc | conflict | noTxn | txnBusy | stageFull | domainOff | segment | session | expired | drainTimeout
  | sleepAbandoned
  deriving DecidableEq, Repr

/-- The code of a status. -/
def Status.code : Status → Nat
  | .ok => 0x00 | .range => 0x01 | .state => 0x02 | .access => 0x03 | .noObject => 0x04 | .type => 0x05
  | .envelope => 0x06 | .late => 0x07 | .schedFull => 0x08 | .timingBusy => 0x09 | .laneBusy => 0x0A
  | .budget => 0x0B | .tableCrc => 0x0C | .conflict => 0x0D | .noTxn => 0x0E | .txnBusy => 0x0F
  | .stageFull => 0x10 | .domainOff => 0x11 | .segment => 0x12 | .session => 0x13 | .expired => 0x14
  | .drainTimeout => 0x15 | .sleepAbandoned => 0x16

/-- A request of a session answered with a status: it leaves the chip, and a CAN request's status is kept in
OD 1100.0C (R365, R388). -/
def Chip.answer (c : Chip) (sess key : Nat) (st : Status) : Chip :=
  let c1 := c.send (.status sess key st.code)
  if sess = 0 then c1.wr (od 0x1100 0x0C) st.code else c1

/-! ### Time (R31, R348-R352) -/

/-- Array sample rate f_a in Hz (R349). -/
def Chip.fa (c : Chip) : Nat := c.rd (od 0x4C00 0x02)

/-- FFT size F (R115). -/
def Chip.fft (c : Chip) : Nat := c.rd (od 0x2800 0x02)

/-- Tap count of the filter bank (R115). -/
def Chip.taps (c : Chip) : Nat := c.rd (od 0x2800 0x03)

/-- Chase period T in channel samples (R34). -/
def Chip.chaseT (c : Chip) : Nat := c.rd (od 0x2C00 0x07)

/-- T_v at a Local Counter value, exactly, in units of 2^-48 ns (R350). -/
def TimeView.exact (v : TimeView) (lc : Nat) : Int := v.offset + (v.rate.toNat : Int) * lc

/-- T_v as it reads: truncated to 32 fractional bits, in units of 2^-32 ns (R350). -/
def TimeView.at (v : TimeView) (lc : Nat) : Int := v.exact lc / 2 ^ 16

/-- The tick that a view-0 time stands for: floor(T_0 f_a / 10^9), 0 before array time 0 (log entry 14). -/
def tickOfTime (t fa : Int) : Nat := (t * fa / (2 ^ 32 * 1000000000)).toNat

/-- The time-view tick at a Local Counter value; it never goes backwards (R350, R351). -/
def Chip.tickAt (c : Chip) (lc : Nat) : Nat :=
  max c.time.tickHeld (tickOfTime ((c.time.views[0]).at lc) c.fa)

/-- The time-view tick now. -/
def Chip.tick (c : Chip) : Nat := c.tickAt c.lc

/-- Deadline `ns` nanoseconds of time-clock count after a Local Counter value (R348: one count is 1 ns). -/
def after (since ns : Nat) : Nat := since + ns

/-- The status of a view (R352). -/
def Chip.viewStatus (c : Chip) (v : Fin 4) : Nat :=
  let w := c.time.views[v]
  if w.estimated then 3
  else match w.written with
    | none => 0
    | some _ => if w.expired then 2 else 1

/-! ### Ingest rows and the ingest front (R36, R40, R97) -/

/-- ENABLE of a row of the input map. -/
def rowOn (r : List Byte) : Bool := bitAt (beAt r 0 2) 15
/-- SYSTEM_INPUT. -/
def rowInput (r : List Byte) : Nat := bits (beAt r 0 2) 0 14
/-- F_SLICE. -/
def rowSlice (r : List Byte) : Nat := bits (beAt r 2 1) 5 3
/-- UNIFIER_TABLE. -/
def rowUnifier (r : List Byte) : Nat := bits (beAt r 2 1) 0 3
/-- FORMAT. -/
def rowFormat (r : List Byte) : Nat := bits (beAt r 3 1) 4 4
/-- L, the unifier numerator. -/
def rowL (r : List Byte) : Nat := bits (beAt r 4 2) 0 10
/-- M, the unifier denominator. -/
def rowM (r : List Byte) : Nat := bits (beAt r 6 2) 0 10
/-- PRIMARY_BUNDLE. -/
def rowPrimary (r : List Byte) : Nat := beAt r 8 1
/-- ALT_BUNDLE. -/
def rowAlt (r : List Byte) : Nat := beAt r 10 2
/-- SPAN. -/
def rowSpan (r : List Byte) : Nat := beAt r 12 4
/-- Q0. -/
def rowQ0 (r : List Byte) : Nat := beAt r 16 8
/-- T0. -/
def rowT0 (r : List Byte) : Nat := beAt r 24 8

/-- The stream runs at a ratio of 1/1: no unifier (R36). -/
def rowUnity (r : List Byte) : Bool := rowL r == rowM r

/-- Row `s` of an input-map body; rows never written are all 0. -/
def mapRow (body : List Byte) (s : Nat) : List Byte := sliceZ body (32 * s) 32

/-- Row `s` of the input map in force. -/
def Chip.row (c : Chip) (s : Nat) : List Byte := mapRow (c.table (od 0x6000 0)) s

/-- Own sample q placed on the array tick axis, rounded down (R36, R40). -/
def ownToTick (r : List Byte) (q : Nat) : Int :=
  if rowUnity r then q else (rowT0 r : Int) + ((q : Int) - rowQ0 r) * rowL r / rowM r

/-- Array tick k placed on a stream's own samples, rounded down (R36, R92). -/
def tickToOwn (r : List Byte) (k : Int) : Int :=
  if rowUnity r then k else (rowQ0 r : Int) + (k - rowT0 r) * rowM r / rowL r

/-- A stream; an unlisted one is at its reset value. -/
def Chip.stream (c : Chip) (s : Nat) : Stream := sget (fun _ => Stream.atReset) c.streams s

/-- A stream set. -/
def Chip.setStream (c : Chip) (s : Nat) (x : Stream) : Chip :=
  { c with streams := sset (fun _ => Stream.atReset) c.streams s x }

/-- The release points of the streams in RUN, in whole multiples of F on the array tick axis (R40). -/
def Chip.runFronts (c : Chip) : List Nat :=
  c.streams.filterMap fun e =>
    match e.2.st, e.2.release with
    | .run, some r => some ((ownToTick e.2.rowIn r).toNat / c.fft * c.fft)
    | _, _ => none

/-- The ingest front at a Local Counter value (R40). -/
def Chip.frontAt (c : Chip) (lc : Nat) : Nat :=
  match c.runFronts with
  | [] => c.tickAt lc
  | f => f.foldl max 0

/-- The ingest front now (R40). -/
def Chip.front (c : Chip) : Nat := c.frontAt c.lc

/-- The cycle ends: the front it had has now been reached in an earlier cycle (R41). -/
def Chip.noteFront (c : Chip) : Chip := { c with frontSeen := max c.frontSeen c.front, frontAny := true }

/-- The highest tick that the front has reached so far; the front itself can fall back, for example when the first stream enters RUN behind the
time view (R41). -/
def Chip.reached (c : Chip) : Nat := if c.frontAny then max c.frontSeen c.front else c.front

/-- The front reached tick t in an earlier cycle (R41, R353). -/
def Chip.frontPassed (c : Chip) (t : Nat) : Bool := c.frontAny && decide (t ≤ c.frontSeen)

/-- The first spectrum whose first tick is at or after t (R37). -/
def effectSpectrum (f t : Nat) : Nat := (t + (f - 1)) / f

/-! ### Interrupt sources of the setters (R314) -/

/-- Source `n` becomes pending at setter `i`. -/
def Chip.irqTo (c : Chip) (i : Fin 8) (n : Nat) : Chip :=
  { c with ipend := c.ipend.set i (c.ipend[i] ||| BitVec.ofNat 16 (2 ^ n)) }

/-- Source `n` becomes pending at every setter. -/
def Chip.irq (c : Chip) (n : Nat) : Chip :=
  { c with ipend := c.ipend.map (· ||| BitVec.ofNat 16 (2 ^ n)) }

/-! ### Event reports (R383) -/

/-- The 12-byte BDP header (R377): flags AUTH, RESPONSE and MORE, the request code, session, REQ_ID, status, length. -/
def bdpHeader (auth more : Bool) (op sess reqId status len : Nat) : List Byte :=
  beBytes 1 (0x10 + 8 * b2n auth + 4 + 2 * b2n more) ++ (beBytes 1 op ++ (beBytes 2 sess ++ (beBytes 4 reqId ++
    (beBytes 2 status ++ beBytes 2 len))))

/-- The tag of a datagram: the first 16 bytes of the HMAC over N_d, N_h, header and body (R384). -/
def bdpTag (key nd nh dgram : List Byte) : List Byte := (hmac key (nd ++ (nh ++ dgram))).take 16

/-- Eight zero bytes: a nonce taken as 0 (R384). -/
def nonce0 : List Byte := List.replicate 8 0

/-- An event report is made: numbered, written into the ring, and sent when enabled and selected by the mask (R383). -/
def Chip.event (c : Chip) (type : Nat) (payload : List Byte) : Chip :=
  let seq := c.rd (od 0x1300 0x06)
  let body := beBytes 4 seq ++ (beBytes 2 type ++ (beBytes 2 payload.length ++ (beBytes 8 c.lc ++
    (beBytes 8 c.front ++ payload))))
  let c1 := { c with dict := { c.dict with ring := sset (fun _ => []) c.dict.ring (seq % 256) (padTo 128 body) } }
  let c2 := c1.bump (od 0x1300 0x06) 1
  let ip := c2.rdDom (od 0x1300 0x02)
  if c2.on (od 0x1300 0x01) && bitAt (c2.rd (od 0x1300 0x04)) type && !ip.isEmpty then
    let auth := c2.on (od 0x1400 0x01)
    let d := bdpHeader auth false 0x30 0 seq 0 body.length ++ body
    let tag := if auth then bdpTag c2.dict.key nonce0 nonce0 d else []
    (c2.send (.udp (ip.length == 16) ip (c2.rd (od 0x1300 0x03)) (c2.rd (od 0x1300 0x05)) (d ++ tag))).bump
      (od 0x1300 0x07) 1
  else c2

/-! ### Fault records (R462-R464) -/

/-- Severity of a fault record. -/
inductive Severity where
  | note | degrade | fail
  deriving DecidableEq, Repr

/-- The code of a severity. -/
def Severity.code : Severity → Nat
  | .note => 0 | .degrade => 1 | .fail => 2

/-- KIND of a fault record: counted event, state change, condition (R462). -/
inductive FaultKind where
  | counted | change | condition
  deriving DecidableEq, Repr

/-- The code of a kind. -/
def FaultKind.code : FaultKind → Nat
  | .counted => 1 | .change => 2 | .condition => 3

/-- The 48 bytes of a fault record (R462). -/
def faultBytes (seq : Nat) (sev : Severity) (kind : FaultKind) (object lc front old new detail : Nat) : List Byte :=
  beBytes 4 seq ++ (beBytes 1 (64 * sev.code + 16 * kind.code) ++ (beBytes 3 0 ++ (beBytes 4 object ++ (beBytes 4 0 ++
    (beBytes 8 lc ++ (beBytes 8 front ++ (beBytes 4 old ++ (beBytes 4 new ++ beBytes 8 detail))))))))

/-- A fault record is logged, counted, sent as an event report, and, when DEGRADE or FAIL, active and raised as setter
source 10 (R463, R464). -/
def Chip.fault (c : Chip) (sev : Severity) (kind : FaultKind) (object old new detail : Nat) : Chip :=
  let seq := c.rd (od 0x5800 0x11)
  let b := faultBytes seq sev kind object c.lc c.front old new detail
  let c1 := { c with faults := { ring := sset (fun _ => []) c.faults.ring (seq % 1024) b,
                                 active := match sev with
                                   | .note => c.faults.active
                                   | _ => c.faults.active ++ [ActiveFault.mk seq sev.code] } }
  let c2 := (c1.bump (od 0x5800 0x11) 1).bump (od 0x5800 (0x15 + sev.code)) 1
  let c3 := c2.event 0x0004 b
  match sev with
  | .note => c3
  | _ => c3.irq 10

/-- A counter object counted up, and its counted-event record raised (OLD and NEW are the counts). -/
def Chip.countFault (c : Chip) (sev : Severity) (k : Nat) (detail : Nat) : Chip :=
  let old := c.rd k
  let c1 := c.bump k 1
  c1.fault sev .counted k old (c1.rd k) detail

/-! ### Arbiters (R47, R48) -/

/-- Requester `i` ranks before `j`, of two that request: promoted ones first, then priority, then the longer wait, then
the lower number; among promoted ones the longer wait, then the lower number (R47, R48). -/
def ranks (prio : Nat → Nat) (limit : Nat) (wait : Nat → Nat) (i j : Nat) : Bool :=
  let pi := decide (limit < wait i)
  let pj := decide (limit < wait j)
  if pi != pj then pi
  else if !pi && prio i != prio j then decide (prio j < prio i)
  else if wait i != wait j then decide (wait j < wait i)
  else decide (i < j)

/-- The requester that an arbiter grants among those that request. -/
def arbitrate (prio : Nat → Nat) (limit : Nat) (wait : Nat → Nat) (req : List Nat) : Option Nat :=
  req.foldl (fun best i => match best with
    | none => some i
    | some j => if ranks prio limit wait i j then some i else some j) none

/-! ### Answers of a meaning -/

/-- The command completes with a new device state; the queue stays as it is. -/
def done (s : State) (d : Dev) : Host.Outcome State Fault Refusal := .next { s with dev := d }

/-- The command completes with a new chip; cores and memories stay as they are. -/
def ok (s : State) (c : Chip) : Host.Outcome State Fault Refusal := .next { s with dev := { s.dev with chip := c } }

/-- The command completes with a new setter core; the rest of the device stays as it is. -/
def okCore (s : State) (n : Fin 8) (x : Setter) : Host.Outcome State Fault Refusal :=
  .next { s with dev := { s.dev with cores := s.dev.cores.set n x } }

end Sys2Proof.Machine
end

