-- ==== Sys2Proof/Machine/Access.lean ====
section
/-! DEFINITION. How the dictionary server admits a write (R359-R369, R435, R450): existence, domain, shadow, access,
type and range, staging in the owner's transaction, conflicts, and the answer; and the values in force at a tick (R38). -/

namespace Sys2Proof.Machine

/-! ### Chip states -/

/-- Items in flight over a crossing that a reset of one side closes are discarded and counted in OD 5800.18 (R460). -/
def Chip.crossing (c : Chip) (items : Nat) : Chip := c.bump (od 0x5800 0x18) items

/-- Bring-up state, OD 5800.01 (R450). -/
def Chip.bringUp (c : Chip) : Nat := c.rd (od 0x5800 0x01)

/-- Device state, OD 5000.01: 0 RUN, 1 ENTERING, 2 SLEEP, 3 WAKING (R424). -/
def Chip.device (c : Chip) : Nat := c.rd (od 0x5000 0x01)

/-- The chip is out of reset and awake, so that its data paths may act (R450, R424). -/
def Chip.awake (c : Chip) : Bool := decide (2 ≤ c.bringUp) && c.device != 2 && !c.pkg.tripped

/-- The dictionary server answers: from the start of CLOCK, and not in SLEEP (R424, R450). -/
def Chip.serves (c : Chip) : Bool := decide (2 ≤ c.bringUp) && c.device != 2 && !c.pkg.tripped

/-- Writes are served: READY or CONFIG_FAILED (R450). -/
def Chip.writable (c : Chip) : Bool := decide (5 ≤ c.bringUp)

/-- Role, OD 5400.10: 0 SOLO and so on (R433); 3 is SHADOW, 4 JOINING. -/
def Chip.role (c : Chip) : Nat := c.rd (od 0x5400 0x10)

/-- The chip mirrors a lead: writes of mirror-class objects are refused (R435). -/
def Chip.shadow (c : Chip) : Bool := c.role == 3 || c.role == 4

/-! ### Power domains (R413, R414) -/

/-- State of a power domain, OD 5100+d.03. -/
def Chip.domState (c : Chip) (d : Nat) : Nat := c.rd (od (0x5100 + d) 0x03)

/-- New accesses into a domain are taken: it is in RUN (R362, R417, R418). -/
def Chip.domOpen (c : Chip) (d : Nat) : Bool := c.domState d == 1

/-- The clock of a domain runs: RUN or DRAINING, bit [8] of its control-space word (R414). -/
def Chip.domClock (c : Chip) (d : Nat) : Bool := c.domState d == 1 || c.domState d == 5

/-- The domain that an object lives in, where R413's contents name it; the others live in PD_HUB (log entry 31). -/
def domainOf (k : Nat) : Nat :=
  let i := keyIndex k
  if 0x2100 ≤ i && i < 0x2300 then 6 + (i - 0x2100) / 16
  else if 0x2810 ≤ i && i < 0x2818 then 70 + (i - 0x2810)
  else if 0x2C00 ≤ i && i < 0x3000 then 3
  else if 0xA000 ≤ i && i < 0xA040 then 3
  else if 0x3400 ≤ i && i < 0x3C00 then 4
  else if 0x3C10 ≤ i && i < 0x3C22 then 86 + (i - 0x3C10) / 3
  else if 0x4010 ≤ i && i < 0x4018 && keySub k == 0x10 then 78 + (i - 0x4010)
  else if 0x4400 ≤ i && i < 0x4800 then 5
  else if 0x4800 ≤ i && i < 0x5000 then 1
  else if i < 0x1200 || (0x5000 ≤ i && i < 0x5400) || (0x5800 ≤ i && i < 0x5811) then 0
  else 2

/-! ### Types and ranges (R360) -/

/-- A scalar value the object's range allows (R360 and the object's own row). -/
def scalarOk (r : ObjRow) (n : Nat) : Bool :=
  r.alt == some n || (r.lo ≤ n && n ≤ r.hi && n % r.mult == 0)

/-- A power of two. -/
def isPow2 (n : Nat) : Bool := n != 0 && 2 ^ Nat.log2 n == n

/-- What an object's meaning bars beside its range (R360): sizes that are not powers of two, reserved codes, addresses of a wrong length. -/
def fieldRule (k : Nat) (v : Val) : Bool :=
  let i := keyIndex k
  let b := keySub k
  match v with
  | .num n =>
    if k = od 0x2800 2 || (0x4060 ≤ i && i < 0x4070 && b == 2) || (0x8000 ≤ i && i < 0x9000 && b == 0x28) then isPow2 n
    else if k = od 0x3800 7 then isPow2 n && decide (n ≤ 256)
    else if 0x2100 ≤ i && i < 0x2300 && b == 3 then bitAt n 0
    else if 0x9000 ≤ i && i < 0x9400 && b == 0x0A then !bitAt n 1
    else if 0x8000 ≤ i && i < 0x9000 && (b == 1 || b == 0x27) then decide (n ≤ 3)
    else if 0x8000 ≤ i && i < 0x9000 && b == 0x25 then decide (n ≤ 2)
    else if (0x4410 ≤ i && i < 0x4418 && b == 1) || k = od 0x5000 0x10 then decide (n ≤ 3)
    else if k = od 0x5000 0x12 then decide (n ≤ 1)
    else true
  | .bytes b =>
    if k = od 0x1300 2 || (0x4500 ≤ i && i < 0x4600 && keySub k == 0x0F) then b.length == 0 || b.length == 4 || b.length == 16
    else if 0x4410 ≤ i && i < 0x4418 && keySub k == 8 then b.length == 0 || b.length == 16
    else true

/-- An object of access RWT. -/
def isRwt (k : Nat) : Bool := match objRow (keyIndex k) (keySub k) with | some r => r.acc == .rwt | none => false

/-- Type and range of a value for an object: OK, TYPE or RANGE. -/
def fieldCheck (k : Nat) (v : Val) : Status :=
  match objRow (keyIndex k) (keySub k) with
  | none => .noObject
  | some r =>
    match v with
    | .num n =>
      if r.ty.size = 0 || 2 ^ r.ty.bits ≤ n then .type
      else if scalarOk r n && fieldRule k v then .ok else .range
    | .bytes b =>
      if r.ty.size ≠ 0 then .type
      else if (r.alt == some b.length || (r.lo ≤ b.length && b.length ≤ r.hi)) && fieldRule k v then .ok else .range

/-- An object that a write inside a transaction goes straight into place for (R367). -/
def directObject (k : Nat) : Bool :=
  (0x8000 ≤ keyIndex k && keyIndex k < 0x9000 && (keySub k == 0x21 || keySub k == 0x22)) ||
    (0x4010 ≤ keyIndex k && keyIndex k < 0x4018 && keySub k == 0x10)

/-- Objects that are never staged (R367). -/
def neverStaged (k : Nat) : Bool := 0x1000 ≤ keyIndex k && keyIndex k < 0x1500

/-! ### Staging (R367, R369) -/

/-- Objects staged in the open transaction and in every pending one. -/
def Chip.stagedCount (c : Chip) : Nat :=
  (match c.dict.txn with | none => 0 | some t => t.staged.length) +
    (c.dict.schedule.map fun p => p.writes.length).sum

/-- Bytes of the load area that a staged write takes: the body of a DOMAIN, without a table's header (R367). -/
def loadSize (e : Nat × Val) : Nat :=
  match e.2 with
  | .num _ => 0
  | .bytes b => if (tableKind (keyIndex e.1) (keySub e.1)).isSome then b.length - 16 else b.length

/-- Bytes of the staging store that a staged write takes: a scalar, or a table's header (R367). -/
def storeSize (e : Nat × Val) : Nat :=
  match e.2 with
  | .num _ => match objRow (keyIndex e.1) (keySub e.1) with | some r => r.ty.size | none => 0
  | .bytes b => if (tableKind (keyIndex e.1) (keySub e.1)).isSome then Nat.min 16 b.length else 0

/-- The staged writes of the open transaction and of the pending ones. -/
def Chip.stagedWrites (c : Chip) : List (Nat × Val) :=
  (match c.dict.txn with | none => [] | some t => t.staged) ++ c.dict.schedule.flatMap fun p => p.writes

/-- Bytes that staged writes hold in the load area. -/
def Chip.stagedBytes (c : Chip) : Nat := (c.stagedWrites.map loadSize).sum

/-- The load area has room for one more write of the open transaction, which replaces an earlier one of its object (R367). -/
def Chip.loadRoom (c : Chip) (size k : Nat) (v : Val) : Bool :=
  let old : List (Nat × Val) := match c.dict.txn with | none => [] | some t => t.staged.filter fun (e : Nat × Val) => e.1 == k
  decide (c.stagedBytes - (old.map loadSize).sum + loadSize (k, v) ≤ size)

/-- Size of the load area: the DMA staging share (R339, R367). -/
def Chip.loadArea (c : Chip) : Nat := c.rd (od 0x4400 0x01) * 1048576

/-- A value with its reserved bits 0 (R6); of the scalar objects OD 9000+s.60 alone has any (R248). -/
def usedBits (k : Nat) : Val → Val
  | .num n => .num (if 0x9000 ≤ keyIndex k && keyIndex k < 0x9400 && keySub k == 0x60 then n &&& 0x87 else n)
  | .bytes b => .bytes b

/-- A write inserted among staged writes, by rising key; a second one to an object replaces the first (R367). -/
def stageInsert (k : Nat) (v : Val) : List (Nat × Val) → List (Nat × Val)
  | [] => [(k, v)]
  | (a, x) :: t => if k = a then (k, v) :: t else if k < a then (k, v) :: (a, x) :: t else (a, x) :: stageInsert k v t

/-- A pending transaction writes the object. -/
def Chip.pendingWrites (c : Chip) (k : Nat) : Bool :=
  c.dict.schedule.any fun p => p.writes.any (fun e => e.1 == k) || p.direct.contains k

/-- The open transaction stages the object. -/
def Chip.openStages (c : Chip) (k : Nat) : Bool :=
  match c.dict.txn with
  | none => false
  | some t => t.staged.any (fun e => e.1 == k) || t.direct.contains k

/-- The status objects of the transaction: staged objects and bytes (OD 1200.05, .0B). -/
def Chip.showStaging (c : Chip) : Chip :=
  (c.wr (od 0x1200 0x05) (match c.dict.txn with | none => 0 | some t => t.staged.length)).wr (od 0x1200 0x0B)
    ((c.stagedBytes + (c.stagedWrites.map storeSize).sum) % 2 ^ 32)

/-- A value staged in the open transaction. -/
def Chip.stage (c : Chip) (k : Nat) (v : Val) : Chip :=
  match c.dict.txn with
  | none => c
  | some t => ({ c with dict := { c.dict with txn := some { t with staged := stageInsert k (usedBits k v) t.staged } } }).showStaging

/-- The transaction notes an object written straight into place (R367). -/
def Chip.noteDirect (c : Chip) (k : Nat) : Chip :=
  match c.dict.txn with
  | none => c
  | some t =>
    if t.direct.contains k then c
    else { c with dict := { c.dict with txn := some { t with direct := t.direct ++ [k] } } }

/-- Owner of the open transaction. -/
def Chip.owner (c : Chip) : Option Nat := c.dict.txn.map fun t => t.owner

/-- The server takes no other request: a COMMIT is being validated (R382) or the operating point changes (R420). -/
def Chip.busy (c : Chip) : Bool := c.dict.validating.isSome || c.power.op.isSome

/-! ### The gate of a write -/

/-- What the server does with a write request before the object's own rule. -/
inductive Gate where
  /-- The server does not answer at all (R450, R424). -/
  | lost
  /-- It waits for the request that is being handled (R382). -/
  | hold
  | refuse (st : Status)
  | stage
  | act
  deriving DecidableEq, Repr

/-- The checks of a write by a session, in the order R359 to R369 give them; `boot` is the boot configuration, which the
write refusal of the bring-up does not touch (R450, R456). -/
def Chip.gate (c : Chip) (boot : Bool) (sess key : Nat) (v : Val) : Gate :=
  if !boot && !c.serves then .lost
  else if !boot && c.busy then .hold
  else match objRow (keyIndex key) (keySub key) with
  | none => .refuse .noObject
  | some r =>
    let stagedClass := !neverStaged key && !directObject key
    let owns := c.owner == some sess
    if !boot && !c.writable then .refuse .state
    else if !c.domOpen (domainOf key) then .refuse .domainOff
    else if r.acc == .const || r.acc == .ro then .refuse .access
    else if c.shadow && mirrored key then .refuse .state
    else match fieldCheck key v with
      | .ok =>
        if owns && stagedClass then
          if 4096 ≤ c.stagedCount && !c.openStages key then .refuse .stageFull
          else if !c.loadRoom c.loadArea key v then .refuse .stageFull
          else .stage
        else if r.acc == .rwt then .refuse .access
        else if !neverStaged key && (c.pendingWrites key || (c.openStages key && !owns)) then .refuse .conflict
        else .act
      | st => .refuse st

/-- A write request that acts on the chip alone: refused, staged, held, or its effect `act`, and the answer (R361, R365). -/
def Chip.request (c : Chip) (sess key : Nat) (v : Val) (act : Chip → Chip × Status) : Chip :=
  match c.gate false sess key v with
  | .lost => c
  | .hold => { c with dict := { c.dict with held := c.dict.held ++ [.write sess key v] } }
  | .refuse st => c.answer sess key st
  | .stage => (c.stage key v).answer sess key .ok
  | .act => let (c1, st) := act c; c1.answer sess key st

/-- The same for a request whose effect reaches the setters or the memories. -/
def Dev.request (d : Dev) (sess key : Nat) (v : Val) (act : Dev → Dev × Status) : Dev :=
  match d.chip.gate false sess key v with
  | .act => let (d1, st) := act d; { d1 with chip := d1.chip.answer sess key st }
  | _ => { d with chip := d.chip.request sess key v fun c => (c, .ok) }

/-- The value of an object under a map of staged writes laid over the values in force. -/
def Chip.over (c : Chip) (w : List (Nat × Val)) (k : Nat) : Val :=
  match w.find? fun e => e.1 == k with
  | some e => e.2
  | none =>
    match objRow (keyIndex k) (keySub k) with
    | some r => if r.ty.size = 0 then .bytes (c.rdDom k) else .num (c.rd k)
    | none => .num 0

/-! ### Values in force at a tick (R38) -/

/-- A value put back into its object. -/
def Chip.put (c : Chip) (e : Nat × Val) : Chip :=
  match usedBits e.1 e.2 with
  | .num n => c.wr e.1 n
  | .bytes b => c.wrDom e.1 b

/-! ### Granularity (R38) -/

/-- Objects that take effect at a chase period: the precision table, the imposition table, the truss map and the epoch, the run objects of the
truss and the X-engine, the kerf and the peers, the fields of formes and of beams (R38, R144, R160, R166, R171, R178, R199, R213). -/
def chaseClass (k : Nat) : Bool :=
  let i := keyIndex k
  let b := keySub k
  k == od 0x6003 0 || k == od 0x6004 0 || k == od 0x6005 0 || k == od 0x2C00 1 || k == od 0x2C00 2 || k == od 0x2C00 3 || k == od 0x3000 1 ||
    (0xA000 ≤ i && i < 0xA080 && 1 ≤ b && b ≤ 5) ||
    (0x8000 ≤ i && i < 0x9000 && b != 8 && b != 0x23 && b != 0x24)

/-- The dump period of a forme, which takes effect at a dump (R38). -/
def dumpClass (k : Nat) : Bool := 0x8000 ≤ keyIndex k && keyIndex k < 0x9000 && keySub k == 8

/-- 0 spectrum, 1 chase period, 2 dump. -/
def classOf (k : Nat) : Nat := if dumpClass k then 2 else if chaseClass k then 1 else 0

/-- The tick at which a write of a transaction takes effect (R38), under the dump period, F and T in force, or the F and T before a transaction
that changes them itself (R35). -/
def Chip.dueAt (c : Chip) (p : Pending) (k : Nat) (v : Val) : Nat :=
  let tick := p.tick
  let period := if p.period = 0 then c.chaseT * c.fft else p.period
  match classOf k, v with
  | 0, _ => tick
  | 2, .num n =>
    let l := Nat.max 1 (Nat.lcm (c.rd k) n) * period
    (tick + (l - 1)) / l * l
  | _, _ => (tick + (period - 1)) / period * period

/-- Objects whose values change together at an effect tick: those of access RWT, and staged weight banks (R199). -/
def valueClass (k : Nat) : Bool := isRwt k || (0x8000 ≤ keyIndex k && keyIndex k < 0x9000 && (keySub k == 0x21 || keySub k == 0x22))

/-- The chip with the object values that apply to a tick (R38): every replacement of a later effect tick undone, and every write of a commit
that waits whose effect tick lies at or before it made. -/
def Chip.asOf (c : Chip) (t : Nat) : Chip :=
  let was := (c.past.filter fun r => t < r.tick).foldl (fun a r => r.olds.foldl Chip.put a) c
  (c.dict.schedule.flatMap fun p => p.writes.filter fun e => valueClass e.1 && decide (c.dueAt p e.1 e.2 ≤ t)).foldl Chip.put was

end Sys2Proof.Machine
end

