-- ==== Sys2Proof/Machine/RefClock.lean ====
section
/-! DEFINITION. Reference candidates, selection and switching, the clock states, holdover and clock events
(R393-R411). -/

namespace Sys2Proof.Machine

/-! ### Objects and signed values -/

/-- OD 4800.sub. -/
def clkOd (sub : Nat) : Nat := od 0x4800 sub

/-- OD 4810+k.sub. -/
def candOd (k : Fin 7) (sub : Nat) : Nat := od (0x4810 + k.val) sub

/-- A signed 32-bit object. -/
def Chip.rdI32 (c : Chip) (k : Nat) : Int := toI (c.rd k) 32

/-- A signed 32-bit object set, clipped to its range. -/
def Chip.wrI32 (c : Chip) (k : Nat) (v : Int) : Chip := c.wr k (ofI (sat 32 v) 32)

/-- An output offset within 1000 ppm of nominal (R410). -/
def withinPpm (y : Int) : Int := max (-1000000000) (min 1000000000 y)

/-- The output offset set, OD 4800.0F: the output stays within 1000 ppm of nominal (R410). -/
def Chip.steer (c : Chip) (y : Int) : Chip := c.wrI32 (clkOd 0x0F) (withinPpm y)

/-- A candidate's own state. -/
def Chip.cand (c : Chip) (k : Fin 7) : Candidate := c.clock.cands[k]

/-- A candidate's own state set. -/
def Chip.setCand (c : Chip) (k : Fin 7) (x : Candidate) : Chip :=
  { c with clock := { c.clock with cands := c.clock.cands.set k x } }

/-- Clock state, OD 4800.01 (R405). -/
def Chip.clockState (c : Chip) : Nat := c.rd (clkOd 0x01)

/-- State of a candidate (R401). -/
def Chip.candState (c : Chip) (k : Fin 7) : Nat := c.rd (candOd k 0x10)

/-- The selected candidate, if any. -/
def Chip.selected (c : Chip) : Option (Fin 7) :=
  let v := c.rd (clkOd 0x02)
  if h : v < 7 then some ⟨v, h⟩ else none

/-- The candidates in ascending number. -/
def allCands : List (Fin 7) := [0, 1, 2, 3, 4, 5, 6]

/-! ### Activity and quality (R394-R396) -/

/-- A candidate is LANE_A to LANE_D. -/
def isLaneCand (k : Fin 7) : Bool := 2 ≤ k.val && k.val ≤ 5

/-- A candidate is active (R394, R395). -/
def Chip.candActive (c : Chip) (k : Fin 7) : Bool :=
  if k.val < 2 then (c.cand k).edges
  else if isLaneCand k then
    let l := c.rd (candOd k 0x04)
    decide (l < 512) && c.rd (od (0x2100 + l) 0x10) == 0x0A
  else c.viewStatus 1 == 1

/-- Effective QL (R396). -/
def Chip.effectiveQl (c : Chip) (k : Fin 7) : Nat :=
  if isLaneCand k then
    let q := c.rd (candOd k 0x12)
    if q = 0 then c.rd (candOd k 0x05) else q
  else c.rd (candOd k 0x05)

/-- Qualified (R400). -/
def Chip.candQualified (c : Chip) (k : Fin 7) : Bool :=
  c.on (candOd k 0x01) && c.candActive k && c.effectiveQl k != 0xF && !(c.cand k).disq && (c.cand k).gated

/-! ### Holdover curves (R409) -/

/-- Linear interpolation over rising points, the end values held beyond them; rounded to the nearest part in 10^12 (log
entry 35). -/
def interpolate (x : Int) : List (Int × Int) → Int
  | [] => 0
  | [(_, b)] => b
  | (a, b) :: (a', b') :: t =>
    if x ≤ a then b
    else if x ≤ a' then b + rdiv ((b' - b) * (x - a)) (a' - a).toNat
    else interpolate x ((a', b') :: t)

/-- Temperature points of the curve table: TEMP in Q8.8 and OFFSET_T. -/
def tempPoints (b : List Byte) : List (Int × Int) :=
  (List.range (beAt b 0 2)).map fun i => (toI (beAt b (8 + 8 * i) 2) 16, toI (beAt b (12 + 8 * i) 4) 32)

/-- Age points of the curve table: AGE in hours and OFFSET_A. -/
def agePoints (b : List Byte) : List (Int × Int) :=
  let nt := beAt b 0 2
  (List.range (beAt b 2 2)).map fun j => ((beAt b (8 + 8 * nt + 8 * j) 4 : Int), toI (beAt b (12 + 8 * nt + 8 * j) 4) 32)

/-- Points rise strictly. -/
def risingPoints : List (Int × Int) → Bool
  | (a, _) :: (b, y) :: t => decide (a < b) && risingPoints ((b, y) :: t)
  | _ => true

/-- The check of a curve table body (R409). -/
def curvesOk (b : List Byte) : Bool :=
  let nt := beAt b 0 2
  let na := beAt b 2 2
  nt != 1 && na != 1 && decide (nt ≤ 64) && decide (na ≤ 64) && b.length == (if b.isEmpty then 0 else 8 + 8 * nt + 8 * na) &&
    risingPoints (tempPoints b) && risingPoints (agePoints b)

/-- c_T at a temperature in Q8.8. -/
def Chip.curveT (c : Chip) (theta : Int) : Int := interpolate theta (tempPoints (c.table (od 0x600D 0)))

/-- c_A at an age in hours. -/
def Chip.curveA (c : Chip) (age : Nat) : Int := interpolate age (agePoints (c.table (od 0x600D 0)))

/-- The temperature the curves take: the sensor that OD 4800.0C names, or the mean of all (R408). -/
def Chip.theta (c : Chip) : Int :=
  let s := c.rd (clkOd 0x0C)
  if s < 16 then toI (c.rd (od 0x5810 (1 + s))) 16
  else rdiv ((List.range 16).foldl (fun a i => a + toI (c.rd (od 0x5810 (1 + i))) 16) 0) 16

/-- The XO's age in hours: since power-on reset by the sill count, plus OD 4800.0D (R408). -/
def Chip.age (c : Chip) : Nat := c.xo / 180000000000 + c.rd (clkOd 0x0D)

/-- The XO's own known error c + c_T + c_A (R398, R405). -/
def Chip.xoError (c : Chip) : Int := c.rdI32 (clkOd 0x0B) + c.curveT c.theta + c.curveA c.age

/-! ### Clock events (R411) -/

/-- Output QL of the clock state (R397). -/
def Chip.outputQl (c : Chip) : Nat :=
  match c.clockState with
  | 2 | 3 => match c.selected with
    | some k => c.effectiveQl k
    | none => c.rd (clkOd 0x08)
  | 4 => c.rd (clkOd 0x07)
  | _ => c.rd (clkOd 0x08)

/-- OD 4800.03 made what R397 gives. -/
def Chip.showQl (c : Chip) : Chip := c.wr (clkOd 0x03) c.outputQl

/-- A clock event: setter source 11 and an event report (R411). -/
def Chip.clockEvent (c : Chip) (code : Nat) (k : Option (Fin 7)) (prev : Option (Fin 7)) (phase : Int) : Chip :=
  let c1 := c.showQl.irq 11
  let num := fun (x : Option (Fin 7)) => match x with | some j => j.val | none => 0xFF
  let y := match k with | some j => c1.rdI32 (candOd j 0x11) | none => 0
  c1.event 0x0007 (beBytes 1 code ++ (beBytes 1 c1.clockState ++ (beBytes 1 (num k) ++ (beBytes 1 (num prev) ++
    (beBytes 1 (c1.rd (clkOd 0x03)) ++ (beBytes 3 0 ++ (beBytes 4 (ofI y 32) ++ beBytes 4 (ofI phase 32))))))))

/-- The clock state changes (R405): OD 4800.01, CLK_STATE, and a clock event. -/
def Chip.setClock (c : Chip) (st : Nat) : Chip :=
  if c.clockState = st then c
  else (({ c with clock := { c.clock with since := c.lc } } : Chip).wr (clkOd 0x01) st).clockEvent 0x01 none none 0

/-! ### Selection (R402-R405) -/

/-- Candidate `i` is better than `j` (R402). -/
def Chip.betterCand (c : Chip) (i j : Fin 7) : Bool :=
  let qi := c.effectiveQl i
  let qj := c.effectiveQl j
  let pi := c.rd (candOd i 0x02)
  let pj := c.rd (candOd j 0x02)
  if qi != qj then decide (qi < qj) else if pi != pj then decide (pj < pi) else decide (i < j)

/-- The best eligible candidate. -/
def Chip.bestCand (c : Chip) : Option (Fin 7) :=
  (allCands.filter fun k => c.candState k == 4).foldl (fun b k => match b with
    | none => some k
    | some j => if c.betterCand k j then some k else some j) none

/-- A switch: ACQUIRING with a new selection (R402, R403). The output steps to the reference's last gate value; the phase
difference is a free value in [-400, 400) ns. -/
def Chip.acquire (c : Chip) (k : Fin 7) : Chip :=
  let prev := c.selected
  let (f, c0) := c.freeBits 64
  let delta : Int := (f % 800000 : Nat) - 400000
  let c1 := ((c0.wr (clkOd 0x02) k.val).steer (c.rdI32 (candOd k 0x11))).wrI32 (clkOd 0x11) delta
  let c2 := ((c1.wrI32 (clkOd 0x10) delta).wr (clkOd 0x13) 0).bump (clkOd 0x18) 1
  let c3 := { c2 with clock := { c2.clock with samples := [] } }
  (c3.setClock 2).clockEvent 0x02 (some k) prev delta

/-- One second of time-clock counts. -/
def second : Nat := 1000000000

/-- The mean of a list of integers, rounded. -/
def meanInt (l : List Int) : Int := if l.isEmpty then 0 else rdiv (l.foldl (· + ·) 0) l.length

/-- The history means over the samples taken up to 1 s ago, if the history is valid and there are any (R407). -/
def Chip.closeHistory (c : Chip) : Chip :=
  let l := c.clock.samples.filter fun e => e.1 + second ≤ c.lc
  let h := if c.on (clkOd 0x13) && !l.isEmpty then
      some (History.mk (meanInt (l.map fun e => e.2.1)) (meanInt (l.map fun e => e.2.2.1))
        ((l.map fun e => e.2.2.2).foldl (· + ·) 0 / l.length))
    else c.clock.history
  { c with clock := { c.clock with history := h } }

/-- y_out of R408 from the history and the curves. -/
def Chip.holdoverOffset (c : Chip) : Int :=
  match c.clock.history with
  | none => c.rdI32 (clkOd 0x0F)
  | some h => h.y - (c.curveT c.theta - c.curveT h.theta) - (c.curveA c.age - c.curveA h.age)

/-- Entry into HOLDOVER: the count, the elapsed time, the holdover frequency (R405, R408). -/
def Chip.enterHoldover (c : Chip) : Chip :=
  let c1 := ((c.wr (clkOd 0x02) 0xFF).bump (clkOd 0x19) 1).wr (clkOd 0x14) 0
  let y := c1.holdoverOffset
  (({ c1 with clock := { c1.clock with computed := c.lc } } : Chip).wrI32 (clkOd 0x0E) y |>.steer y).setClock 4

/-- Entry into FREE_RUN: the outputs follow the XO, corrected (R405). -/
def Chip.enterFreeRun (c : Chip) : Chip :=
  ((c.wr (clkOd 0x02) 0xFF).steer (-c.xoError)).setClock 1

/-- The output offset in force, OD 4800.0F: in FREE_RUN it follows the XO's known error (R405). -/
def Chip.outputOffset (c : Chip) : Int := if c.clockState = 1 then withinPpm (-c.xoError) else c.rdI32 (clkOd 0x0F)

/-- The reference is gone and no other is eligible: HOLDOVER, or FREE_RUN where no history has ever been valid (R404, R405, R407). -/
def Chip.withoutReference (c : Chip) : Chip :=
  match c.clock.history with
  | some _ => c.enterHoldover
  | none => c.enterFreeRun

/-- The selector, after the candidate changes of a cycle (R402, R404, R405). -/
def Chip.selectRef (c : Chip) : Chip :=
  let best := c.bestCand
  let chosen := fun (x : Chip) => match best with | some k => x.acquire k | none => x
  let keeps := match c.selected with | some k => c.candState k == 4 | none => false
  (match c.clockState with
  | 1 | 4 | 5 => chosen c
  | 2 => if keeps then c else chosen c.closeHistory.withoutReference
  | 3 =>
    match best with
    | some k => if keeps && c.selected == some k then c else c.closeHistory.acquire k
    | none =>
      let c1 := c.closeHistory.withoutReference
      c1.fault .degrade .change (clkOd 0x01) 3 c1.clockState 0
  | _ => c).showQl

/-! ### Candidate state changes (R399-R401) -/

/-- A candidate's state, with the clock event of the change. -/
def Chip.candTo (c : Chip) (k : Fin 7) (st code : Nat) : Chip :=
  let c1 := c.wr (candOd k 0x10) st
  c1.clockEvent code (some k) none 0

/-- The wait-to-restore timer of a candidate starts (R401, R404). -/
def Chip.startRestore (c : Chip) (k : Fin 7) : Chip :=
  c.setCand k { c.cand k with restore := c.lc + c.rd (clkOd 0x04) * second }

/-- OD 4810+k.15: ms of wait-to-restore left (R401). -/
def Chip.restoreLeft (c : Chip) (k : Fin 7) : Nat :=
  if c.candState k = 3 then ((c.cand k).restore - c.lc + 999999) / 1000000 else 0

/-- Activity is lost: LOST (R401). -/
def Chip.candLost (c : Chip) (k : Fin 7) : Chip :=
  let c1 := c.setCand k { c.cand k with gated := false, dwell := none }
  (c1.bump (candOd k 0x16) 1).candTo k 1 0x09

/-- A disqualification: state, count, event (R399, R401). -/
def Chip.candDisqualified (c : Chip) (k : Fin 7) : Chip := (c.bump (candOd k 0x17) 1).candTo k 2 0x05

/-- A qualified candidate leaves DISQUALIFIED: ELIGIBLE when first qualified since reset or enable, or with no
wait-to-restore, else WAITING (R401). -/
def Chip.candRequalified (c : Chip) (k : Fin 7) : Chip :=
  let first := !(c.cand k).known
  let c1 := c.setCand k { c.cand k with known := true }
  if first then c1.candTo k 4 0x07
  else
    let c2 := (c1.startRestore k).candTo k 3 0x06
    if c.rd (clkOd 0x04) = 0 then c2.candTo k 4 0x07 else c2

/-- A candidate's state follows its enable, its activity and its qualification (R394, R400, R401). -/
def Chip.settleCand (c : Chip) (k : Fin 7) : Chip :=
  let st := c.candState k
  let c := if c.rd (candOd k 0x13) != c.effectiveQl k then
      (c.wr (candOd k 0x13) (c.effectiveQl k)).clockEvent 0x08 (some k) none 0 else c
  if !c.on (candOd k 0x01) then
    if st = 0 then c
    else (c.setCand k { Candidate.atReset with edges := (c.cand k).edges }).wr (candOd k 0x10) 0
  else if !c.candActive k then
    if st = 1 then c else if st = 0 then c.wr (candOd k 0x10) 1 else c.candLost k
  else
    let fresh := c.setCand k { c.cand k with gated := false, dwell := none, gateAt := c.lc }
    let c := if st = 0 then fresh.wr (candOd k 0x10) 2 else if st = 1 then fresh.candTo k 2 0x0A else c
    let q := c.candQualified k
    if c.candState k = 2 then (if q then c.candRequalified k else c)
    else if q then c else c.candDisqualified k

/-- Every candidate follows what it depends on, then the selector runs (R402). -/
def Chip.refSettle (c : Chip) : Chip := (allCands.foldl (fun a k => a.settleCand k) c).selectRef

/-- The candidates that name a lane follow its state (R394). -/
def Chip.laneClock (c : Chip) (l : Nat) : Chip :=
  let hit := allCands.filter fun k => isLaneCand k && c.rd (candOd k 0x04) == l && c.on (candOd k 0x01)
  if hit.isEmpty then c else (hit.foldl (fun a k => a.settleCand k) c).selectRef

/-- A filtered QL of a lane reaches the selector (R67, R396). -/
def Chip.laneQl (c : Chip) (l q : Nat) : Chip :=
  let hit := allCands.filter fun k => isLaneCand k && c.rd (candOd k 0x04) == l
  if hit.isEmpty then c
  else (hit.foldl (fun a k => (a.wr (candOd k 0x12) q).settleCand k) c).selectRef

end Sys2Proof.Machine
end

