-- ==== Sys2Proof/Machine/Rows.lean ====
section
/-! DEFINITION. What the lanes send: signals (R68, R70 to R72, R75, R83), rows, fixed rows and stream slots (R55 to R57, R60 to R64, R66), credit
(R65), bundle states (R80), and how far they get in a time (R52, R56, R68). -/

namespace Sys2Proof.Machine

/-! ### Lanes and bundles -/

/-- OD 2100+l.sub. -/
def laneOd (l sub : Nat) : Nat := od (0x2100 + l) sub

/-- OD 2300+b.sub. -/
def bunOd (b sub : Nat) : Nat := od (0x2300 + b) sub

/-- A lane's own state. -/
def Chip.lane (c : Chip) (l : Nat) : Lane := sget (fun _ => Lane.atReset) c.lanes l

/-- A lane's own state set. -/
def Chip.setLane (c : Chip) (l : Nat) (x : Lane) : Chip :=
  { c with lanes := sset (fun _ => Lane.atReset) c.lanes l x }

/-- A bundle's own state. -/
def Chip.bundle (c : Chip) (b : Nat) : Bundle := sget (fun _ => Bundle.atReset) c.bundles b

/-- A bundle's own state set. -/
def Chip.setBundle (c : Chip) (b : Nat) (x : Bundle) : Chip :=
  { c with bundles := sset (fun _ => Bundle.atReset) c.bundles b x }

/-- State of a lane, OD 2100+l.10 (R72). -/
def Chip.laneState (c : Chip) (l : Nat) : Nat := c.rd (laneOd l 0x10)

/-- Current rate code of a lane. -/
def Chip.laneRate (c : Chip) (l : Nat) : Nat := c.rd (laneOd l 0x11)

/-- Role of a lane's quad (R50). -/
def Chip.laneRole (c : Chip) (l : Nat) : Nat := c.rd (od 0x2001 (1 + l / 4))

/-- Bundle of a lane, 0xFFFF for none. -/
def Chip.laneBundle (c : Chip) (l : Nat) : Nat := c.rd (laneOd l 0x01)

/-- The lanes assigned to a bundle, ascending. -/
def Chip.bundleLanes (c : Chip) (b : Nat) : List Nat :=
  c.obj.filterMap fun e =>
    let i := keyIndex e.1
    if 0x2100 ≤ i && i < 0x2300 && keySub e.1 == 1 && e.2 == b then some (i - 0x2100) else none

/-- A bundle is enabled. -/
def Chip.bundleOn (c : Chip) (b : Nat) : Bool := decide (b < 256) && c.on (bunOd b 0x01)

/-- The role of a bundle: that of its lanes (R51). -/
def Chip.bundleRole (c : Chip) (b : Nat) : Nat :=
  match c.bundleLanes b with
  | l :: _ => c.laneRole l
  | [] => 0

/-! ### Who a bundle joins (R142, R153) -/

/-- OD A000+p.sub. -/
def peerOd (p sub : Nat) : Nat := od (0xA000 + p) sub

/-- This chip's position. -/
def Chip.node (c : Chip) : Nat := c.rd (od 0x1080 0x01)

/-- This chip's side. -/
def Chip.side (c : Chip) : Nat := c.rd (od 0x1080 0x02)

/-- The peer position and side whose MESH bundle a bundle is. -/
def Chip.peerOf (c : Chip) (b : Nat) : Option (Nat × Nat) :=
  (List.range 128).findSome? fun i =>
    if c.rd (peerOd (i / 2) (1 + i % 2)) == b then some (i / 2, i % 2) else none

/-- The bundle is the TWIN bundle (R431). -/
def Chip.isTwin (c : Chip) (b : Nat) : Bool := c.on (od 0x5400 0x01) && c.rd (od 0x5400 0x02) == b

/-- Units that the receiver advertises on CONTROL, PEG and SAMPLE (R65, R153, R431); a MESH bundle that no peer names
advertises the defaults (log entry 38). -/
def Chip.advertised (c : Chip) (b : Nat) : List Nat :=
  match c.bundleRole b with
  | 2 => match c.peerOf b with
    | some (p, _) => [c.rd (peerOd p 5), c.rd (peerOd p 4), c.rd (peerOd p 3)]
    | none => [32, 64, 512]
  | 3 => [c.rd (od 0x5400 0x0B), 0, c.rd (od 0x5400 0x0C)]
  | _ => [0, 0, 0]

/-- State of a bundle, OD 2300+b.10 (R80). -/
def Chip.bundleState (c : Chip) (b : Nat) : Nat := c.rd (bunOd b 0x10)

/-- The bundle carries frames (R81). -/
def Chip.carries (c : Chip) (b : Nat) : Bool := c.bundleState b == 2 || c.bundleState b == 3

/-- The bundle has credit: MESH and TWIN (R65). -/
def Chip.credited (c : Chip) (b : Nat) : Bool := c.bundleRole b == 2 || c.bundleRole b == 3

/-! ### What a lane sends (R68, R70-R72, R75, R83) -/

/-- VERSION of the partner's last CAP. -/
def Chip.partnerVersion (c : Chip) (l : Nat) : Nat := beAt (c.rdDom (laneOd l 0x12)) 0 1 / 16

/-- RATES of the partner's last CAP. -/
def Chip.partnerRates (c : Chip) (l : Nat) : Nat := beAt (c.rdDom (laneOd l 0x12)) 1 1

/-- Rate codes common to the lane and its partner, up to the bundle's target rate (R75). -/
def Chip.commonRates (c : Chip) (l : Nat) : List Nat :=
  let target := c.rd (bunOd (c.laneBundle l) 0x02)
  (List.range 7).filter fun r => bitAt (c.rd (laneOd l 0x25)) r && bitAt (c.partnerRates l) r && r ≤ target

/-- The rate the lane switches to next, if any remains (R75): the next common Twiah-2 rate; for a partner that is no Twiah-2 device, or none in
common, the highest common Twiah-1 rate, once, where the bundle allows Twiah-1 (R69). A partner's VERSION other than 1 and 2 has no stated
treatment and counts as a Twiah-1 device (log entry 110). -/
def Chip.nextRate (c : Chip) (l : Nat) : Option Nat :=
  let rates := c.commonRates l
  let now := c.laneRate l
  let two := rates.filter fun r => 4 ≤ r && now < r
  if c.partnerVersion l = 2 && rates.any fun r => 4 ≤ r then two.head?
  else if now = 0 && c.rd (bunOd (c.laneBundle l) 0x08) = 1 then (rates.filter fun r => 1 ≤ r && r ≤ 3).getLast?
  else none

/-- The CAP payload that a lane sends (R70). -/
def Chip.capPayload (c : Chip) (l : Nat) (ack : Bool) : List Byte :=
  let b := c.laneBundle l
  beBytes 1 0x20 ++ (beBytes 1 (c.rd (laneOd l 0x25) % 128 ||| 1) ++ (beBytes 1 (c.laneRole l * 16 + 8 * b2n ack + 4 * (c.side % 2)) ++
    (beBytes 1 (c.node % 64) ++ (beBytes 1 b ++ (beBytes 1 (c.rd (laneOd l 2) % 64) ++ (beBytes 1 (c.bundleLanes b).length ++
      (beBytes 1 3 ++ (beBytes 2 0xFFFF ++ beBytes 6 0))))))))

/-- Status field of the training frames that a lane sends: RX_READY and the answers to the last requests (R75, R76). -/
def Lane.trainingStatus (x : Lane) : Nat := 32768 * b2n x.ready + x.answer % 1024

/-- Body of a STEP_READY block: the code of the next rate (R55). -/
def stepBody (rate : Nat) : Nat := rate % 16 * 2 ^ 52

/-- What a lane's transmitter sends in its present state (R72, R83). In ALIGN it goes on with the idle of LISTEN; what a lane held off in FALLBACK sends is
not stated and taken to be idle too (log entry 111). -/
def Chip.signal (c : Chip) (l : Nat) : LaneSignal :=
  let x := c.lane l
  let two := decide (4 ≤ c.laneRate l)
  let frames := LaneSignal.training x.request x.trainingStatus
  match c.laneState l with
  | 0 => .silent
  | 3 => .caps (capGroups (c.capPayload l x.gotCap))
  | 4 => .caps (capGroups (c.capPayload l false))
  | 5 => if two then .switchBlocks (stepBody x.next) else .switchGroups switchSet
  | 6 => if two then frames else .idleSets
  | 7 => frames
  | 8 => if two then .idleBlocks else .idleSets
  | 9 => .stepReady (stepBody ((c.nextRate l).getD 0))
  | 0x0A => if two then .rows else .idleSets
  | 0x0B => if two then .rows else .idleSets
  | 0x0D => match c.rd (laneOd l 0x05) with
    | 2 => .silent
    | 3 => .received
    | _ => if c.rd (laneOd l 0x07) = 0 then .silent else .pattern (c.rd (laneOd l 0x07)) (c.rd (laneOd l 0x0A))
  | _ => .idleSets

/-- A lane takes up the signal of its state. -/
def Chip.sendSignal (c : Chip) (l : Nat) : Chip := c.send (.signal l (c.laneRate l) (c.signal l))

/-! ### Rows (R56, R60, R66, R68) -/

/-- The lanes of a bundle by ascending index. -/
def Chip.orderedLanes (c : Chip) (b : Nat) : List Nat :=
  (c.bundleLanes b).insertionSort fun i j => c.rd (laneOd i 2) ≤ c.rd (laneOd j 2)

/-- The lanes of a bundle in LANE_UP, by ascending index. -/
def Chip.upLanes (c : Chip) (b : Nat) : List Nat := (c.orderedLanes b).filter fun l => c.laneState l == 0x0A

/-- A lane transmits what LANE_UP has it send: in LANE_UP, and in RELOCK, which transmits on (R72). -/
def Chip.transmits (c : Chip) (l : Nat) : Bool := c.laneState l == 0x0A || c.laneState l == 0x0B

/-- The lanes that send the rows of a bundle (R56). -/
def Chip.rowLanes (c : Chip) (b : Nat) : List Nat := (c.orderedLanes b).filter fun l => c.transmits l && 4 ≤ c.laneRate l

/-- The lanes that the bundle stream is placed on, by ascending index: the transmit members, a failed one among them until its exclusion takes
effect (R56, R60). -/
def Chip.streamLanes (c : Chip) (b : Nat) : List Nat :=
  (c.orderedLanes b).filter fun l => bitAt (c.rd (bunOd b 0x11)) (c.rd (laneOd l 2))

/-- The lane of the next stream slot (R56). -/
def Chip.streamLane (c : Chip) (b : Nat) : Option Nat :=
  let lanes := c.streamLanes b
  (lanes[(c.bundle b).col]?).or lanes.head?

/-- A control block on every given lane. -/
def Chip.sendBlocks (c : Chip) (lanes : List Nat) (type : Nat) (body : Nat → Nat) : Chip :=
  lanes.foldl (fun a l => a.send (.block l type (body l))) c

/-- The QL that a lane sends: 0xF on the bundle that holds the selected LANE candidate's lane, else the output QL (R397). -/
def Chip.sentQl (c : Chip) (l : Nat) : Nat :=
  match c.selected with
  | some k =>
    if isLaneCand k && c.laneBundle (c.rd (candOd k 0x04)) == c.laneBundle l && c.laneBundle l < 256 then 0xF else c.rd (clkOd 0x03) % 16
  | none => c.rd (clkOd 0x03) % 16

/-- Body of the STATUS block that a lane sends (R66). -/
def Chip.statusBody (c : Chip) (l : Nat) : Nat :=
  let x := c.lane l
  let corr := if c.laneRate l = 6 then Nat.min 255 (c.rd (laneOd l 0x15) - x.fecSince) else 0
  c.sentQl l * 2 ^ 52 + c.node % 64 * 2 ^ 46 + c.side % 2 * 2 ^ 45 + c.laneBundle l % 256 * 2 ^ 37 +
    c.rd (laneOd l 2) % 64 * 2 ^ 31 + c.laneRole l % 16 * 2 ^ 27 + c.laneRate l % 16 * 2 ^ 23 + corr * 2 ^ 15 +
    b2n x.uncorrSince * 2 ^ 14 + b2n x.los * 2 ^ 13 + b2n (!x.cdr) * 2 ^ 12 + b2n x.skewed * 2 ^ 11 +
    b2n (c.laneState l == 0x0A) * 2 ^ 10 + x.statusSeq % 256

/-- A lane sends its STATUS, as a block or as a Twiah-1 status group, and starts a new one (R66, R68). -/
def Chip.sendStatus (c : Chip) (l : Nat) : Chip :=
  let x := c.lane l
  let body := c.statusBody l
  (c.send (if 4 ≤ c.laneRate l then .block l 0x4B body else .groups l (statusGroups body))).setLane l
    { x with statusSeq := (x.statusSeq + 1) % 256, fecSince := c.rd (laneOd l 0x15), uncorrSince := false }

/-- Rows of a marker period. -/
def periodRows : Nat := 16384

/-- The next row begins; a STATUS row and a rate-match row pass with it (R56, R61). The last row lasts until the next marker period starts. -/
def Chip.rowEnds (c : Chip) (b : Nat) : Chip :=
  let x := c.bundle b
  let r := Nat.min (x.row + 1) (periodRows - 1)
  let lanes := c.rowLanes b
  let at_ := fun (a : Chip) (n : Nat) => a.setBundle b { a.bundle b with row := n, col := 0 }
  if r % 256 = 128 then at_ (lanes.foldl Chip.sendStatus c) (r + 1)
  else if r % 4096 = 2048 then at_ (c.sendBlocks lanes 0x1E fun _ => 0) (r + 1)
  else at_ c r

/-- A stream block takes the next slot (R56, R60): the next member of the row, or the first one of the next row. What is placed on a member that has
failed does not leave. -/
def Chip.putBlock (c : Chip) (b : Nat) (block : Nat → Sent) : Chip :=
  match c.streamLane b with
  | none => c
  | some l =>
    let c1 := if (c.streamLanes b).length ≤ (c.bundle b).col then c.rowEnds b else c
    let c2 := c1.setBundle b { c1.bundle b with col := (c1.bundle b).col + 1 }
    if c2.transmits l then c2.send (block l) else c2

/-! ### Frames that wait, and credit (R65, R146, R147, R152, R234) -/

/-- Credit units of a frame: 64 bytes each. -/
def units (len : Nat) : Nat := (len + 63) / 64

/-- Units that this chip may still use on a virtual lane (R65). -/
def Bundle.available (x : Bundle) (vl : Nat) : Nat :=
  match x.partner with
  | none => 0
  | some t => (t.getD vl 0 + 65536 - x.consumed.getD vl 0) % 65536

/-- A truss frame without its SEQ and CRC, which its start fills in (R147): KIND, destination, byte 3, bytes 10 on. -/
def Chip.trussFrame (c : Chip) (kind dst b3 : Nat) (rest : List Byte) : List Byte :=
  beBytes 1 (0x10 + kind) ++ (beBytes 1 (c.node * 4 + c.side * 2) ++ (beBytes 1 (dst * 4) ++ (beBytes 1 b3 ++
    (beBytes 6 0 ++ (rest ++ beBytes 4 0)))))

/-- SEQ and CRC filled in. -/
def sealFrame (f : List Byte) (seq : Nat) : List Byte :=
  let g := overlay f 4 (beBytes 6 seq)
  let n := g.length - 4
  g.take n ++ beBytes 4 (crc32 (g.take n))

/-- The position a bundle leads to: the peer, or this position on the TWIN bundle. -/
def Chip.farEnd (c : Chip) (b : Nat) : Nat := match c.peerOf b with | some (p, _) => p | none => c.node

/-- The PEG frame of the first pegs that wait on a bundle, at most 16 (R149, R234). -/
def Chip.pegFrame (c : Chip) (b : Nat) : TxFrame :=
  let p := (c.bundle b).pegs.take 16
  ⟨c.trussFrame 2 (c.farEnd b) p.length (beBytes 6 0 ++ p.flatten), 0, false⟩

/-- The wait of a virtual lane's head for credit begins, where the frame queued becomes the head (R154). -/
def Bundle.headFrom (x : Bundle) (vl lc : Nat) (first : Bool) : Bundle := if first then { x with creditAt := x.creditAt.set vl lc } else x

/-- A CONTROL message: into the transmit queue of 4 frames, or it waits in its producer (R152). -/
def Bundle.addControl (x : Bundle) (lc : Nat) (f : TxFrame) : Bundle :=
  if x.control.length < 4 then { x with control := x.control ++ [f] }.headFrom 0 lc x.control.isEmpty
  else { x with waiting := x.waiting ++ [f] }

/-- A peg queued (R234). -/
def Bundle.addPeg (x : Bundle) (lc : Nat) (peg : List Byte) : Bundle := { x with pegs := x.pegs ++ [peg] }.headFrom 1 lc x.pegs.isEmpty

/-- A SAMPLE frame queued (R146, R438). -/
def Bundle.addSample (x : Bundle) (lc : Nat) (f : TxFrame) : Bundle :=
  { x with samples := x.samples ++ [f] }.headFrom 2 lc x.samples.isEmpty

/-- The frame at the head of a virtual lane. -/
def Chip.headFrame (c : Chip) (b vl : Nat) : Option TxFrame :=
  let x := c.bundle b
  match vl with
  | 0 => x.control.head?
  | 1 => if x.pegs.isEmpty then none else some (c.pegFrame b)
  | _ => x.samples.head?

/-- The head of a virtual lane without its first frame. -/
def Bundle.popHead (x : Bundle) (vl : Nat) : Bundle :=
  match vl with
  | 0 => { x with control := x.control.drop 1 ++ x.waiting.take 1, waiting := x.waiting.drop 1 }
  | 1 => { x with pegs := x.pegs.drop 16 }
  | _ => { x with samples := x.samples.drop 1 }

/-- The head frame of a virtual lane may start (R65, R81). -/
def Chip.mayStart (c : Chip) (b vl : Nat) : Bool :=
  match c.headFrame b vl with
  | none => false
  | some f => c.carries b && c.credited b && decide (units f.bytes.length ≤ (c.bundle b).available vl)

/-- A frame is open at the sender on a virtual lane. -/
def Bundle.sending (x : Bundle) (vl : Nat) : Bool := x.tx.any fun o => o.vl == vl

/-- A slot has gone to a virtual lane, or to none of them: SAMPLE, where it requests one, has waited for one more (R47, R48). -/
def Chip.slotWent (c : Chip) (b vl : Nat) : Chip :=
  let x := c.bundle b
  c.setBundle b { x with sampleWait := if vl = 2 || !(x.sending 2 || c.mayStart b 2) then 0 else x.sampleWait + 1 }

/-- Body of a CREDIT block (R65). -/
def creditBody (t : List Nat) : Nat := t.getD 0 0 % 65536 * 2 ^ 32 + t.getD 1 0 % 65536 * 2 ^ 16 + t.getD 2 0 % 65536

/-- A CREDIT block with the present totals takes a stream slot (R55, R65). -/
def Chip.sendCredit (c : Chip) (b : Nat) : Chip :=
  let x := c.bundle b
  ((c.setBundle b { x with sent := x.granted }).putBlock b fun l => .block l 0x2D (creditBody x.granted)).slotWent b 3

/-- Units granted on a virtual lane; a CREDIT block goes out when a total has changed by 8 or more (R65). -/
def Chip.grant (c : Chip) (b vl units : Nat) : Chip :=
  if !c.credited b then c
  else
    let x := c.bundle b
    let g := x.granted.set vl ((x.granted.getD vl 0 + units) % 65536)
    let c1 := c.setBundle b { x with granted := g }
    if 8 ≤ (g.getD vl 0 + 65536 - x.sent.getD vl 0) % 65536 then c1.sendCredit b else c1

/-- OD 2300+b.1E to .20 (R65). -/
def Chip.showCredit (c : Chip) (b : Nat) : Chip :=
  let x := c.bundle b
  let v := fun i => if c.credited b && c.carries b then x.available i else 0
  ((c.wr (bunOd b 0x1E) (v 0)).wr (bunOd b 0x1F) (v 1)).wr (bunOd b 0x20) (v 2)

/-! ### Slots of the bundle stream (R48, R62-R64) -/

/-- One slot of an open frame (R62, R63): RESUME where the stream last named another frame, else its next 8 bytes, the last ones padded. -/
def Chip.continueFrame (c : Chip) (b vl : Nat) : Chip :=
  let x := c.bundle b
  match x.tx.find? fun o => o.vl == vl with
  | none => c
  | some o =>
    if x.txSel ≠ some vl then ((c.setBundle b { x with txSel := some vl }).putBlock b fun l => .block l 0x55 (vl * 2 ^ 54)).slotWent b vl
    else
      let others := x.tx.filter fun p => p.vl != vl
      let left := o.left.drop 8
      let y := if left.isEmpty then { x with tx := others, txSel := none } else { x with tx := ⟨vl, left⟩ :: others }
      ((c.setBundle b y).putBlock b fun l => .data l (padTo 8 (o.left.take 8))).slotWent b vl

/-- The virtual lane that the slot arbiter serves among some: CONTROL over PEG over SAMPLE, and SAMPLE first for one slot once its wait exceeds
OD 2C00.08 (R48, R64). -/
def Chip.slotGrant (c : Chip) (b : Nat) (req : Nat → Bool) : Option Nat :=
  arbitrate (fun v => 2 - v) (c.rd (od 0x2C00 0x08)) (fun v => if v = 2 then (c.bundle b).sampleWait else 0) ((List.range 3).filter req)

/-- One stream slot goes to an open frame; with none open it carries IDLE, which leaves no record of its own (log entry 112). -/
def Chip.streamSlot (c : Chip) (b : Nat) : Chip :=
  match c.slotGrant b (c.bundle b).sending with
  | some v => c.continueFrame b v
  | none => c.setBundle b { c.bundle b with col := (c.bundle b).col + 1 }

/-- Slots that go by before a virtual lane wins one for a new frame: open frames that come before it go on, its own among them, at most `n` slots. -/
def Chip.slotsBefore (b vl : Nat) : Nat → Chip → Chip
  | 0, c => c
  | n + 1, c =>
    let x := c.bundle b
    match c.slotGrant b fun v => x.sending v || v == vl with
    | some v => if v = vl && !x.sending vl then c else Chip.slotsBefore b vl n (c.continueFrame b v)
    | none => c

/-- Slots that open frames need at most: their blocks, each with a RESUME. -/
def Bundle.slotsLeft (x : Bundle) : Nat := x.tx.foldl (fun a o => a + 2 * (1 + o.left.length / 8)) 0

/-- The head frame of a virtual lane starts in the next slot that the lane wins: its SEQ, its credit, its SOF block, its count (R62, R65, R147). -/
def Chip.startFrame (c0 : Chip) (b vl : Nat) : Chip :=
  match c0.headFrame b vl with
  | none => c0
  | some f =>
    let c := Chip.slotsBefore b vl (c0.bundle b).slotsLeft c0
    let x := (c.bundle b).popHead vl
    let bytes := if f.raw then f.bytes else sealFrame f.bytes (x.seqs.getD vl 0)
    let y := { x with seqs := x.seqs.set vl ((x.seqs.getD vl 0 + b2n (!f.raw)) % 2 ^ 48),
                      consumed := x.consumed.set vl ((x.consumed.getD vl 0 + units bytes.length) % 65536),
                      creditAt := x.creditAt.set vl c.lc,
                      tx := ⟨vl, bytes.drop 4⟩ :: x.tx.filter (fun o => o.vl != vl), txSel := some vl }
    let sof := vl % 4 * 2 ^ 54 + bytes.length % 65536 * 2 ^ 32 + beAt bytes 0 4
    ((((c.setBundle b y).putBlock b fun l => .block l 0x33 sof).slotWent b vl).send (.frame b vl bytes)).bump (bunOd b (0x17 + vl)) 1 |>.showCredit b

/-! ### Bundle state (R80-R82) -/

/-- Members of a mask. -/
def popcount : Nat → Nat → Nat
  | 0, _ => 0
  | n + 1, v => v % 2 + popcount n (v / 2)

/-- A lane of a bundle that allows Twiah-1 carries Twiah-1: its partner is no Twiah-2 device, and its rate is a Twiah-1 rate (R69). -/
def Chip.twiah1 (c : Chip) (l : Nat) : Bool :=
  c.rd (bunOd (c.laneBundle l) 0x08) == 1 && decide (c.laneRate l < 4) && c.partnerVersion l != 2

/-- Members that count (R80): the smaller of the two directions; a Twiah-1 lane counts while it is in LANE_UP. -/
def Chip.memberCount (c : Chip) (b : Nat) : Nat :=
  let one := (c.upLanes b).filter c.twiah1
  Nat.min (popcount 64 (c.rd (bunOd b 0x11))) (popcount 64 (c.rd (bunOd b 0x12))) + one.length

/-- A bundle comes up: totals, counts and credit start anew, and the first CREDIT block goes out (R65, R147). -/
def Chip.bundleUp (c : Chip) (b : Nat) : Chip :=
  let x := c.bundle b
  let c1 := c.setBundle b { x with granted := c.advertised b, sent := [0, 0, 0], partner := none, consumed := [0, 0, 0],
                                   tx := [], txSel := none, creditAt := [c.lc, c.lc, c.lc],
                                   seqs := [0, 0, 0], rxSeqs := [none, none, none], sampleWait := 0 }
  if c1.credited b then c1.sendCredit b else c1

/-- The state of a bundle evaluated anew (R80): DEGRADE on entry into DOWN or PARTIAL; a bundle that comes up from DOWN or
DISABLED restarts its credit. -/
def Chip.bundleSettle (c0 : Chip) (b : Nat) : Chip :=
  let c := c0.wr (bunOd b 0x13) (c0.bundleLanes b).length
  let old := c.bundleState b
  let n := c.memberCount b
  let new := if !c.bundleOn b then 0 else if n < c.rd (bunOd b 0x03) then 1
    else if n = (c.bundleLanes b).length then 2 else 3
  if new = old then c.showCredit b
  else
    let c1 := c.wr (bunOd b 0x10) new
    let c2 := if (new = 2 || new = 3) && (old = 0 || old = 1) then c1.bundleUp b else c1
    let c3 := if new = 1 || new = 3 then c2.fault .degrade .change (bunOd b 0x10) old new 0 else c2
    c3.showCredit b

/-! ### Rows, status groups and time (R52, R56, R68) -/

/-- The rest of a row's slots go by. -/
def Chip.slotsOut (b : Nat) : Nat → Chip → Chip
  | 0, c => c
  | n + 1, c => Chip.slotsOut b n (c.streamSlot b)

/-- `k` rows go by on a bundle; with no frame open the rows up to the next one with a fixed content go by at once. -/
def Chip.rowsOut (b : Nat) : Nat → Nat → Chip → Chip
  | 0, _, c => c
  | n + 1, k, c =>
    let x := c.bundle b
    if k = 0 then c
    else if x.tx.isEmpty then
      let d := Nat.min k (128 - x.row % 128)
      Chip.rowsOut b n (k - d) ((c.setBundle b { x with row := x.row + (d - 1) }).rowEnds b)
    else Chip.rowsOut b n (k - 1) ((Chip.slotsOut b ((c.streamLanes b).length - x.col) c).rowEnds b)

/-- The rows that remain of a marker period go by. -/
def Chip.periodOut (c : Chip) (b : Nat) : Chip :=
  Chip.rowsOut b periodRows (periodRows - 1 - (c.bundle b).row) c

/-- Slot time of one lane at a Twiah-2 rate, in units of 10 ps (R52). -/
def slotTime (rate : Nat) : Nat := match rate with | 4 => 640 | 5 => 256 | 6 => 128 | _ => 0

/-- `n` ns go by on a bundle that sends rows; they stop in the last row of the marker period, whose end is a command. -/
def Chip.rowsPass (c : Chip) (n b : Nat) : Chip :=
  let x := c.bundle b
  let p := slotTime (c.rd (bunOd b 0x02))
  if p = 0 || x.marker.isNone || !c.bundleOn b then c
  else
    let t := x.rowTime + 100 * n
    Chip.rowsOut b periodRows (Nat.min (t / p) (periodRows - 1 - x.row)) (c.setBundle b { x with rowTime := t % p })

/-- 8 192 code groups at a Twiah-1 rate, in units of 0.1 ns (R52, R68). -/
def statusInterval (rate : Nat) : Nat := match rate with | 0 => 655360 | 1 => 327680 | 2 => 262144 | _ => 131072

/-- `n` ns go by on a lane: one that carries Twiah-1 sends a status group every 8 192 code groups; of several in one stretch of time the last is
recorded (log entry 112). -/
def Chip.lanePass (c : Chip) (n l : Nat) : Chip :=
  let x := c.lane l
  if !c.transmits l || 4 ≤ c.laneRate l then c
  else
    let t := x.groupTime + 10 * n
    let p := statusInterval (c.laneRate l)
    if t < p then c.setLane l { x with groupTime := t }
    else (c.setLane l { x with groupTime := t % p, statusSeq := (x.statusSeq + (t / p - 1)) % 256 }).sendStatus l

/-- `n` ns go by on the links. -/
def Chip.linksPass (c : Chip) (n : Nat) : Chip :=
  let c1 := (c.bundles.map fun e => e.1).foldl (fun a b => a.rowsPass n b) c
  (c1.lanes.map fun e => e.1).foldl (fun a l => a.lanePass n l) c1

end Sys2Proof.Machine
end

