-- ==== Sys2Proof/Machine/Clock.lean ====
section
/-! DEFINITION. The time clock with no command waiting (R348, R428), and a command that reports the end of a wait: the time clock first runs on
to that moment (log entry 33). -/

namespace Sys2Proof.Machine

/-- The time clock runs: the APLL has locked and PD_CLK is not parked (R405, R428). -/
def Chip.timeRuns (c : Chip) : Bool := c.rd (od 0x4800 0x01) != 0

/-- No XO edge is counted: a power-on reset is held, or XO_IN is dead (R448, R451). -/
def Chip.xoStands (c : Chip) : Bool := c.rst.noXo || (c.rd (od 0x5800 1) == 0 && c.rd (od 0x5800 2) != 5)

/-- The sill counts one XO edge; at the end of a block of 2^24 counts it measures the ratio r (R428). -/
def Chip.xoEdge (c : Chip) : Chip :=
  let c1 := { c with xo := c.xo + 1 }
  if c1.xo % 2 ^ 24 ≠ 0 || !c1.timeRuns then c1
  else
    let c2 := match c1.power.mark with
      | some m => c1.wr (od 0x5000 0x17) ((c1.lc - m) * 256)
      | none => c1
    { c2 with power := { c2.power with mark := some c2.lc } }

/-- Epoch of a period (R144): the value in force at its first spectrum. -/
def Chip.epochOf (c : Chip) (n : Nat) : Nat := (c.asOf (n * c.chaseT * c.fft)).rd (od 0x2C00 0x03)

/-- The first chase period in which a beacon's epoch takes effect (R144, R151). -/
def Chip.beaconPeriod (c : Chip) (body : List Byte) : Nat :=
  let sp := effectSpectrum c.fft (beAt body 0 8)
  (sp + c.chaseT - 1) / c.chaseT

/-- The beacons whose period has begun are compared with the position's own epoch of it (R151). -/
def Chip.beaconsDue (c : Chip) : Chip :=
  let first := fun (p : Nat) => c.beaconPeriod (c.rdDom (peerOd p 0x1F))
  let due := c.truss.beacons.filter fun p => decide (first p * c.chaseT * c.fft ≤ c.reached)
  if due.isEmpty then c
  else due.foldl (fun a p =>
    if beAt (c.rdDom (peerOd p 0x1F)) 8 1 = c.epochOf (first p) then a
    else a.countFault .note (peerOd p 0x20) (first p * c.chaseT * c.fft))
    { c with truss := { c.truss with beacons := c.truss.beacons.filter fun p => !due.contains p } }

/-- One cycle: a time-clock cycle, with an XO edge every 20 of them, or an XO edge alone while the time clock stands; nothing while a power-on
reset is held or XO_IN is dead (R41, R348, R428, R448, R451; log entry 2). -/
def idleCycle (d : Dev) : Dev :=
  let c := d.chip
  if c.xoStands then d
  else if !c.timeRuns then { d with chip := c.xoEdge }
  else
    let c1 := { (c.noteFront.linksPass 1).beaconsDue with lc := c.lc + 1 }
    { d with chip := if c1.lc % 20 = 0 then c1.xoEdge else c1 }

/-! ### Time passes up to a moment that a command reports -/

/-- So many cycles of a running time clock with no command among them: what they leave together. -/
def Chip.pass (c : Chip) (n : Nat) : Chip :=
  if n = 0 then c
  else
    let lc := c.lc + n
    let xo := c.xo + (lc / 20 - c.lc / 20)
    let seen := Nat.max c.frontSeen (Nat.max c.front (c.frontAt (lc - 1)))
    let c1 := { c.linksPass n with lc := lc, xo := xo, frontSeen := seen, frontAny := true }.beaconsDue
    if xo / 2 ^ 24 = c.xo / 2 ^ 24 then c1
    else
      -- the Local Counter at the last block end, and at the one before it
      let last := (c.lc / 20 + (xo / 2 ^ 24 * 2 ^ 24 - c.xo)) * 20
      let before := if xo / 2 ^ 24 = c.xo / 2 ^ 24 + 1 then c.power.mark else some (last - 20 * 2 ^ 24)
      let c2 := match before with
        | some m => c1.wr (od 0x5000 0x17) ((last - m) * 256)
        | none => c1
      { c2 with power := { c2.power with mark := some last } }

/-- The time clock has reached a Local Counter value: it runs on to it where it has not (log entry 33). -/
def Chip.untilLc (c : Chip) (t : Nat) : Chip :=
  if c.lc < t && c.timeRuns && !c.xoStands then c.pass (t - c.lc) else c

/-- The sill has counted so many XO edges (R428): the clocks run on to them where it has not (log entry 33). -/
def Chip.untilXo (c : Chip) (n : Nat) : Chip :=
  if n ≤ c.xo || c.xoStands then c
  else if c.timeRuns then c.untilLc ((c.lc / 20 + (n - c.xo)) * 20)
  else { c with xo := n }

/-- The cycle ends in which a deadline expires: what arrives in it has come before (R49). -/
def Chip.cycleEnds (c : Chip) : Chip := if c.timeRuns && !c.xoStands then c.pass 1 else c

/-- The least number from `base` on, below `base + 2^k`, that a test which stays true accepts; the last one if it accepts no other. -/
def leastFrom (p : Nat → Bool) : Nat → Nat → Nat
  | 0, base => base
  | k + 1, base => if p (base + 2 ^ k - 1) then leastFrom p k base else leastFrom p k (base + 2 ^ k)

/-- The time-view tick has reached a tick: the time clock runs on to it where it has not, and a view that runs gets there (R350, log entry 33). -/
def Chip.untilTick (c : Chip) (t : Nat) : Chip :=
  if t ≤ c.tick then c
  else
    let there := fun (n : Nat) => decide (t ≤ c.tickAt (c.lc + n))
    if there (2 ^ 63) then c.untilLc (c.lc + leastFrom there 63 0) else c

/-- The ingest front has reached a tick (R40): with no stream in RUN the time view has; what has been reached stays reached (R41, log entry 33). -/
def Chip.untilFront (c : Chip) (t : Nat) : Chip :=
  if t ≤ c.reached then c
  else
    let c1 := if c.runFronts.isEmpty then c.untilTick t else c
    if t ≤ c1.reached then c1 else { c1 with frontSeen := t, frontAny := true }.beaconsDue

end Sys2Proof.Machine
end

