-- ==== Sys2Proof/Machine/Memory.lean ====
section
/-! DEFINITION. Arbitration (R47, R48), the HBM address translation and its byte accesses (R256-R275), and rank
retirement with what follows from it (R271-R275). -/

namespace Sys2Proof.Machine

/-! ### Partition table and translation (R256, R257, R275) -/

/-- Bytes of a rank: 12 GiB. -/
def rankBytes : Nat := 12884901888

/-- One GiB. -/
def gib : Nat := 1073741824

/-- The default HBM partition table body (R257). -/
def hbmDefault : List Byte :=
  beBytes 8 (64 * gib) ++ (beBytes 8 (32 * gib) ++ (beBytes 8 0 ++ (beBytes 8 (96 * gib) ++ (beBytes 1 2 ++ beBytes 7 0))))

/-- A partition table's body, the default while it was never loaded (R250, R257). -/
def tableOr (b dflt : List Byte) : List Byte := if b.isEmpty then dflt else b

/-- The HBM partition table in force. -/
def Chip.hbmTable (c : Chip) : List Byte := tableOr (c.table (od 0x600B 0)) hbmDefault

/-- Number of logical ranks n_L = 18 - SPARES (R256). -/
def Chip.logicalRanks (c : Chip) : Nat := 18 - beAt c.hbmTable 32 1

/-- State of a physical rank, OD 3C10+r.01. -/
def Chip.rankState (c : Chip) (r : Nat) : Nat := c.rd (od (0x3C10 + r) 0x01)

/-- The physical rank whose OD 3C10+r.02 names a logical rank. -/
def Chip.rankOf (c : Chip) (l : Nat) : Option Nat :=
  (List.range 18).find? fun r => c.rd (od (0x3C10 + r) 0x02) == l

/-- The logical ranks that no physical rank backs (R275). -/
def Chip.unbacked (c : Chip) : List Nat := (List.range c.logicalRanks).filter fun l => (c.rankOf l).isNone

/-- Chunks of 4 KiB in a rank. -/
def rankChunks : Nat := 3145728

/-- The chunk that a chunk of an unbacked logical rank is redirected to: the two ascending sequences of R275 matched. -/
def redirect (nL : Nat) (un : List Nat) (k : Nat) : Nat :=
  let u := un.length
  let b := nL - u
  let backed := (List.range nL).filter fun l => !un.contains l
  let j := k / nL * u + (un.filter fun l => l < k % nL).length
  let m0 := b * rankChunks
  let t := m0 / nL * b + (backed.filter fun l => l < m0 % nL).length + j
  t / b * nL + backed.getD (t % b) 0

/-- Bytes of partition space that remain: n_L ranks less those unbacked (R275). -/
def Chip.hbmTop (c : Chip) : Nat := (c.logicalRanks - c.unbacked.length) * rankBytes

/-- A partition-space address translated to its physical rank and offset (R256, R274, R275); none above the top. -/
def Chip.translate (c : Chip) (a : Nat) : Option (Nat × Nat) :=
  if c.hbmTop ≤ a then none
  else
    let nL := c.logicalRanks
    let un := c.unbacked
    let k := a / 4096
    let m := if un.contains (k % nL) then redirect nL un k else k
    let o := m / nL * 4096 + a % 4096
    match c.rankOf (m % nL) with
    | none => none
    | some r =>
      match c.hbm.migration with
      | some g => if g.src = r && o < g.copied then some (g.dst, o) else some (r, o)
      | none => some (r, o)

/-- A physical byte address: rank * 12 GiB + offset. -/
def physical (ro : Nat × Nat) : Nat := ro.1 * rankBytes + ro.2

/-- The pseudo-channel of a physical address, as stack * 32 + number (R254, R256). -/
def pcOf (p : Nat) : Nat := p / rankBytes / 3 * 32 + p % rankBytes / 256 % 32

/-! ### Units, tags and bytes -/

/-- What the tag of a unit reads as when it is not listed: POISON inside the ranges written with it as a whole. -/
def Mem.tagDefault (m : Mem) (u : Nat) : Bool := m.lost.any fun r => r.1 ≤ 32 * u && 32 * u < r.2

/-- POISON of a unit (R268). -/
def Mem.poisoned (m : Mem) (u : Nat) : Bool := sget m.tagDefault m.tag u

/-- The tag of a unit written. -/
def Mem.setTag (m : Mem) (u : Nat) (v : Bool) : Mem := { m with tag := sset m.tagDefault m.tag u v }

/-- A physical byte range written with POISON tags as a whole; the tags listed inside it go. -/
def Mem.poisonRange (m : Mem) (lo hi : Nat) : Mem :=
  if hi ≤ lo then m
  else
    let l := match m.lost with
      | (a, b) :: t => if b = lo then (a, hi) :: t else (lo, hi) :: (a, b) :: t
      | [] => [(lo, hi)]
    { m with lost := l, tag := m.tag.filter fun e => !(lo ≤ 32 * e.1 && 32 * e.1 < hi) }

/-- A pseudo-channel; an unlisted one is idle. -/
def HbmCtl.pc (h : HbmCtl) (k : Nat) : PseudoChannel := sget (fun _ => PseudoChannel.atReset) h.pcs k

/-- A pseudo-channel set. -/
def HbmCtl.setPc (h : HbmCtl) (k : Nat) (p : PseudoChannel) : HbmCtl :=
  { h with pcs := sset (fun _ => PseudoChannel.atReset) h.pcs k p }

/-- A pseudo-channel is out of service in a training step (R264). -/
def Chip.pcBusy (c : Chip) (k : Nat) : Bool :=
  match c.hbm.training[k / 32]? with
  | some t => (match t.pass with | some (p, _) => p == k % 32 | none => false)
  | none => false

/-- A unit written to its stack with its tag (R268, R269). -/
def Mem.store (m : Mem) (w : WriteUnit) : Mem :=
  ({ m with hbm := putBytes m.hbm w.addr w.data }).setTag (w.addr / 32) w.poison

/-- Address compare is enabled (R266). -/
def Chip.compare (c : Chip) : Bool := c.on (od 0x3C00 0x01)

/-- A user of the HBM controller: its class (R259), and the CLOSE page hint of its access (R261). -/
structure HbmUser where
  cls : Nat
  close : Bool
  deriving DecidableEq, Repr

/-- Classes 0 to 6 and 10, which access with the OPEN hint (R259). -/
def openUser (cls : Nat) : HbmUser := ⟨cls, false⟩

/-- The hub, which accesses with the CLOSE hint (R259). -/
def hubUser : HbmUser := ⟨9, true⟩

/-- A bank of a pseudo-channel. -/
def PseudoChannel.bank (q : PseudoChannel) (b : Nat) : Bank := sget (fun _ => (⟨none, 0, 0⟩ : Bank)) q.banks b

/-- A bank set. -/
def PseudoChannel.setBank (q : PseudoChannel) (b : Nat) (x : Bank) : PseudoChannel :=
  { q with banks := sset (fun _ => (⟨none, 0, 0⟩ : Bank)) q.banks b x }

/-- An access to a unit: its row stays open, or closes after a CLOSE access (R261). -/
def PseudoChannel.access (q : PseudoChannel) (now addr : Nat) (close : Bool) : PseudoChannel :=
  let b := (Config.hbmBank addr).val
  q.setBank b { q.bank b with row := if close then none else some (Config.hbmRow addr), used := now }

/-- The queued write of a unit that a read of a class returns the data of: the newest of any class, and while address compare is disabled the
newest of its own (R260, R266). -/
def PseudoChannel.queuedFor (q : PseudoChannel) (compare : Bool) (cls p : Nat) : Option WriteUnit :=
  q.writes.reverse.find? fun w => w.addr == p && (compare || w.cls == cls)

/-- The queued writes of a unit that a write of a class may not overtake reach its stack (R260, R266). -/
def Dev.settle (d : Dev) (cls p : Nat) : Dev :=
  let k := pcOf p
  let q := d.chip.hbm.pc k
  let hit := fun (w : WriteUnit) => w.addr == p / 32 * 32 && (d.chip.compare || w.cls == cls)
  if !q.writes.any hit then d
  else
    { d with mem := (q.writes.filter hit).foldl Mem.store d.mem,
             chip := { d.chip with hbm := d.chip.hbm.setPc k { q with writes := q.writes.filter fun w => !hit w } } }

/-- The stack serves an access of a user to a physical address (R261). -/
def Chip.touch (c : Chip) (u : HbmUser) (p : Nat) : Chip :=
  { c with hbm := c.hbm.setPc (pcOf p) ((c.hbm.pc (pcOf p)).access c.lc (p / 32 * 32) u.close) }

/-- The physical rank's stack has failed, and its contents are lost (R257, R272). -/
def Chip.rankLost (c : Chip) (r : Nat) : Bool :=
  match c.hbm.training[r / 3]? with
  | some t => t.failed
  | none => false

/-- The pieces of `n` bytes from address `a` that lie in one 32-byte unit each. -/
def unitPieces (a : Nat) : Nat → List (Nat × Nat)
  | 0 => []
  | n + 1 =>
    let first := Nat.min (32 - a % 32) (n + 1)
    let rest := n + 1 - first
    (a, first) :: ((List.range ((rest + 31) / 32)).map fun i => (a + first + 32 * i, Nat.min 32 (rest - 32 * i)))

/-- One piece of a unit read by an engine: its bytes and whether it came with a poison indication, which is counted in OD 3C00.12; a queued
write gives its data, counted in OD 3C00.13 (R266, R269, R270). An address above the top reads as poison. -/
def Dev.readPiece (d : Dev) (u : HbmUser) (a n : Nat) : List Byte × Bool × Dev :=
  match d.chip.translate a with
  | none => (List.replicate n 0#8, true, d)
  | some ro =>
    let p := physical ro
    let c := d.chip
    let (b, bad, c1) := match (c.hbm.pc (pcOf p)).queuedFor c.compare u.cls (p / 32 * 32) with
      | some w => (slice w.data (p % 32) n, w.poison || c.rankLost ro.1, c.bump (od 0x3C00 0x13) (b2n c.compare))
      | none => (getBytes d.mem.hbm p n, d.mem.poisoned (p / 32) || c.rankLost ro.1, c.touch u p)
    (b, bad, { d with chip := c1.bump (od 0x3C00 0x12) (b2n bad) })

/-- `n` bytes of partition space read: the pieces with their poison indications, in address order. -/
def Dev.readPieces (d : Dev) (u : HbmUser) : List (Nat × Nat) → List (List Byte × Bool) × Dev
  | [] => ([], d)
  | (a, n) :: t =>
    let (b, bad, d1) := d.readPiece u a n
    let (r, d2) := d1.readPieces u t
    ((b, bad) :: r, d2)

/-- `n` bytes of partition space read: bytes, whether any unit was poisoned, how many. -/
def Dev.readHbm (d : Dev) (u : HbmUser) (a n : Nat) : List Byte × Nat × Dev :=
  let (r, d1) := d.readPieces u (unitPieces a n)
  (r.flatMap fun e => e.1, (r.filter fun e => e.2).length, d1)

/-- One piece written: a whole unit sets its tag to the data's poison indication; a part of one sets it only when the data
carries poison (R267, R269). -/
def Dev.writePiece (d : Dev) (u : HbmUser) (a : Nat) (b : List Byte) (poison : Bool) : Dev :=
  match d.chip.translate a with
  | none => d
  | some ro =>
    let p := physical ro
    let d1 := d.settle u.cls p
    let m := { d1.mem with hbm := putBytes d1.mem.hbm p b }
    { d1 with mem := if b.length == 32 || poison then m.setTag (p / 32) poison else m, chip := d1.chip.touch u p }

/-- Bytes written to partition space. -/
def Dev.writeHbm (d : Dev) (u : HbmUser) (a : Nat) (b : List Byte) (poison : Bool) : Dev :=
  (unitPieces a b.length).foldl (fun x e => x.writePiece u e.1 (slice b (e.1 - a) e.2) poison) d

/-- Bytes written to partition space without reading the units that hold them, whose tags they clear (R192). -/
def Dev.writeFresh (d : Dev) (u : HbmUser) (a : Nat) (b : List Byte) : Dev :=
  let d1 := d.writeHbm u a b false
  let units := ((unitPieces a b.length).filterMap fun e => d1.chip.translate e.1).map fun ro => physical ro / 32
  { d1 with mem := units.foldl (fun m u => m.setTag u false) d1.mem }

/-! ### Main SRAM (R249, R250) -/

/-- The default SRAM partition table (R250). -/
def sramDefault : List Byte := beBytes 2 128 ++ (beBytes 2 48 ++ (beBytes 2 48 ++ (beBytes 2 16 ++ (beBytes 2 16 ++ beBytes 6 0))))

/-- Bytes of an SRAM partition: 1 F-engine, 2 ledger and trigger, 3 staging, 4 DMA (R250). -/
def Chip.sramPart (g : Chip) (i : Nat) : Nat := beAt (tableOr (g.table (od 0x600A 0)) sramDefault) (2 * i) 2 * 1048576

/-- First byte and size of each SRAM partition, in the order of the table: chase, F-engine, ledger, staging, DMA (R249, R250). -/
def Chip.sramLayout (c : Chip) : List (Nat × Nat) :=
  (List.range 5).map fun i => (((List.range i).map c.sramPart).sum, c.sramPart i)

/-- Base of the peg log: the DMA and output staging partition begins with it (R235, R251; log entry 41). -/
def Chip.pegLogBase (c : Chip) : Nat := 268435456 - c.sramPart 4

/-- Base of the flag ring: the ingest and truss staging partition begins with it (R109, R112; log entry 123). -/
def Chip.flagBase (c : Chip) : Nat := c.pegLogBase - c.sramPart 3

/-- The entry and byte of the peg log at a main SRAM address (R235). -/
def Chip.pegLogAt (c : Chip) (a : Nat) : Option (Nat × Nat) :=
  if c.pegLogBase ≤ a && a < c.pegLogBase + 1048576 then some ((a - c.pegLogBase) / 32, (a - c.pegLogBase) % 32) else none

/-- The index in the flag ring of a main SRAM address (R109). -/
def Chip.flagAt (c : Chip) (a : Nat) : Option Nat :=
  let r := c.writer.cur
  if c.flagBase ≤ a && a < c.flagBase + r.rows / 64 * r.layout.length then some (a - c.flagBase) else none

/-- The byte that the peg log or the flag ring holds at a main SRAM address. -/
def Chip.ringByte (c : Chip) (a : Nat) : Option Byte :=
  match c.pegLogAt a, c.flagAt a with
  | some (i, k), _ => (sget (fun _ => []) c.trigger.log i)[k]?
  | none, some i => some (BitVec.ofNat 8 (sget (fun _ => (0, 0)) c.writer.flagRing i).2)
  | none, none => none

/-- A byte written where the peg log or the flag ring lies. -/
def Chip.putRingByte (c : Chip) (a : Nat) (v : Byte) : Chip :=
  match c.pegLogAt a, c.flagAt a with
  | some (i, k), _ =>
    let e := sget (fun _ => []) c.trigger.log i
    { c with trigger := { c.trigger with log := sset (fun _ => []) c.trigger.log i (overlay e k [v]) } }
  | none, some i =>
    let e := sget (fun _ => (0, 0)) c.writer.flagRing i
    { c with writer := { c.writer with flagRing := sset (fun _ => (0, 0)) c.writer.flagRing i (e.1, v.toNat) } }
  | none, none => c

/-- Bytes of main SRAM read (R249). -/
def Dev.readSram (d : Dev) (a n : Nat) : List Byte :=
  (getBytes d.mem.sram a n).zipIdx.map fun e => (d.chip.ringByte (a + e.2)).getD e.1

/-- Bytes of main SRAM written. -/
def Dev.writeSram (d : Dev) (a : Nat) (b : List Byte) : Dev :=
  { d with mem := { d.mem with sram := putBytes d.mem.sram a b },
           chip := b.zipIdx.foldl (fun c e => c.putRingByte (a + e.2) e.1) d.chip }

/-! ### Partitions in force (R257, R275) -/

/-- Base of the galley partition: each partition starts where the one before it ends, the visibility partition at 0
(R257), by the sizes in force. -/
def Chip.galleyBase (c : Chip) : Nat := c.rd (od 0x3C01 0x01)

/-- Base of the proof partition. -/
def Chip.proofBase (c : Chip) : Nat := c.galleyBase + c.rd (od 0x3C01 0x02)

/-- Base of the transient partition. -/
def Chip.transientBase (c : Chip) : Nat := c.proofBase + c.rd (od 0x3C01 0x03)

/-- Bytes that a moved pack store takes at the top: P_k rounded up to 64 MiB (R275). -/
def Chip.packMoved (c : Chip) : Nat :=
  if c.rd (od 0x3C00 0x0E) = 0xFF then (c.rd (od 0x3C00 0x0D) + 67108863) / 67108864 * 67108864 else 0

/-- Number of SPARE ranks shown (OD 3C00.02) and the usable capacity (OD 3C00.03). -/
def Chip.showRanks (c : Chip) : Chip :=
  let n := ((List.range 18).filter fun r => c.rankState r == 0).length
  (c.wr (od 0x3C00 0x02) n).wr (od 0x3C00 0x03) c.hbmTop

/-- One step of a shrink: a partition gives up to `deficit` bytes above `floor`; a step that gives anything raises a
DEGRADE record and is counted (R275). -/
def shrinkStep (c : Chip) (key floor deficit : Nat) : Chip × Nat × Nat :=
  let have_ := c.rd key
  let give := Nat.min deficit (have_ - floor)
  if give = 0 then (c, deficit, 0)
  else
    ((c.wr key (have_ - give)).countFault .degrade (od 0x3C00 0x17) 0, deficit - give, give)

/-- The X-engine and the truss stop at the next chase period (R275, R465). -/
def Chip.stopAtPeriod (c : Chip) : Chip :=
  let n := c.reached / (c.chaseT * c.fft) + 1
  { c with xe := { c.xe with halt := some (match c.xe.halt with | some m => Nat.min m n | none => n) } }

end Sys2Proof.Machine
end

