-- ==== Sys2Proof/Machine/Selector.lean ====
section
/-! DEFINITION. The events of the reference selector: gates, dwells, edges, restore timers, the lock, and holdover (R394-R408). -/

namespace Sys2Proof.Machine

/-- y_PTP of R395 in parts per 10^12: (1 + y_out) RATE_1 - 1. -/
def Chip.ptpOffset (c : Chip) : Int :=
  rdiv ((1000000000000 + c.outputOffset) * (c.time.views[1]).rate.toNat) (2 ^ 48) - 1000000000000

/-- The gate of candidate k ends with raw offset `raw`: y_k, the soft alarm, the dwell, qualification (R398-R401). The output follows a selected
candidate; while PTP_S is selected the servo's rate writes steer it (R395, log entry 132). -/
def Chip.gateEnd (c : Chip) (k : Fin 7) (raw : Int) : Chip :=
  let y := if k = 6 then c.ptpOffset else raw + c.xoError
  let c := c.wrI32 (candOd k 0x11) y
  let a := y.natAbs
  let soft := c.rd (candOd k 0x06)
  let hard := c.rd (candOd k 0x07)
  let alarm := c.on (candOd k 0x14)
  let c := if soft < a && !alarm then
      ((((c.wr (candOd k 0x14) 1).bump (candOd k 0x18) 1).clockEvent 0x03 (some k) none 0).fault .note .condition
        (candOd k 0x14) 0 1 0)
    else if a ≤ soft && alarm then (c.wr (candOd k 0x14) 0).clockEvent 0x04 (some k) none 0
    else c
  let x := c.cand k
  let dwell := if hard < a then some (x.dwell.getD c.lc) else none
  let disq := if a ≤ soft then false else x.disq || (hard < a && c.rd (candOd k 0x08) == 0)
  let c := c.setCand k { x with gated := true, dwell := dwell, disq := disq, gateAt := c.lc }
  let c := if c.selected == some k && (c.clockState == 3 || c.clockState == 2) then
      let out := if k = 6 then c.rdI32 (clkOd 0x0F) else withinPpm y
      let c1 := c.steer out
      if c.clockState = 3 then
        let w := c.rd (clkOd 0x09) * second + second
        let s := ((c.lc, out, c.theta, c.age) :: c.clock.samples).filter fun e => c.lc ≤ e.1 + w
        { c1 with clock := { c1.clock with samples := s } }
      else c1
    else c
  (c.settleCand k).selectRef

/-- FREQUENCY_GATE_END (R398): the gate of an enabled, active candidate ends, OD 4800.12 ms after it began; of another nothing is
measured. -/
def execFrequencyGateEnd (k : Fin 7) (raw : Int) (s : State) : Host.Outcome State Fault Refusal :=
  let c := s.dev.chip
  if c.on (candOd k 0x01) && c.candActive k && 2 ≤ c.candState k then
    ok s ((c.untilLc ((c.cand k).gateAt + c.rd (clkOd 0x12) * 1000000)).gateEnd k raw)
  else ok s c

/-- DWELL_EXPIRY (R399): every gate of the dwell was above the hard threshold, so the candidate is disqualified. -/
def execDwellExpiry (k : Fin 7) (s : State) : Host.Outcome State Fault Refusal :=
  let c := s.dev.chip
  match (c.cand k).dwell with
  | none => ok s c
  | some t =>
    if 2 ≤ c.candState k then
      let c0 := c.untilLc (t + c.rd (candOd k 0x08) * 1000000)
      let c1 := c0.setCand k { c0.cand k with dwell := none, disq := true }
      ok s (c1.settleCand k).selectRef
    else ok s c

/-- REF_EDGE_TIMEOUT (R394): a REF pin candidate without edges is lost. -/
def execRefEdgeTimeout (k : Fin 7) (s : State) : Host.Outcome State Fault Refusal :=
  let c := s.dev.chip
  if k.val < 2 then ok s ((c.setCand k { c.cand k with edges := false }).settleCand k).selectRef else ok s c

/-- REF_EDGE_RETURN (R394): its next edge makes a REF pin candidate active. -/
def execRefEdgeReturn (k : Fin 7) (s : State) : Host.Outcome State Fault Refusal :=
  let c := s.dev.chip
  if k.val < 2 then ok s ((c.setCand k { c.cand k with edges := true }).settleCand k).selectRef else ok s c

/-- WAIT_TO_RESTORE_EXPIRY (R401): a WAITING candidate becomes ELIGIBLE. -/
def execWaitToRestoreExpiry (k : Fin 7) (s : State) : Host.Outcome State Fault Refusal :=
  let c := s.dev.chip
  if c.candState k = 3 then
    let c1 := c.untilLc (c.cand k).restore
    if c1.candQualified k then ok s (c1.candTo k 4 0x07).selectRef else ok s (c1.settleCand k).selectRef
  else ok s c

/-- ACQUIRE_LOCK (R403, R404): phase and frequency held within 20 ns and 0.1 ppm for 1 s, so ACQUIRING ends in LOCKED and the
wait-to-restore of every WAITING candidate restarts. -/
def execAcquireLock (phasePs freqPpt : Int) (s : State) : Host.Outcome State Fault Refusal :=
  let c := s.dev.chip
  if c.clockState = 2 && phasePs.natAbs ≤ 20000 && freqPpt.natAbs ≤ 100000 then
    let c1 := ((c.untilLc (c.clock.since + second)).wrI32 (clkOd 0x10) phasePs).setClock 3
    let c2 := allCands.foldl (fun a k => if a.candState k = 3 then a.startRestore k else a) c1
    ok s c2.selectRef
  else ok s c

/-- HOLDOVER_LIMIT_EXPIRY (R405): OD 4800.0A s have passed in HOLDOVER. -/
def execHoldoverLimitExpiry (s : State) : Host.Outcome State Fault Refusal :=
  let c := s.dev.chip
  if c.clockState = 4 then ok s ((c.untilLc (c.clock.since + c.rd (clkOd 0x0A) * second)).setClock 5).showQl else ok s c

/-- HOLDOVER_RECOMPUTE (R408): the output offset from the history and the curves, once per second of holdover. -/
def execHoldoverRecompute (s : State) : Host.Outcome State Fault Refusal :=
  let c := s.dev.chip
  if c.clockState = 4 || c.clockState = 5 then
    let c1 := c.untilLc (c.clock.computed + second)
    let c2 := { c1 with clock := { c1.clock with computed := c1.lc } }
    let y := c2.holdoverOffset
    ok s (((c2.wrI32 (clkOd 0x0E) y).steer y).bump (clkOd 0x14) 1)
  else ok s c

/-- HISTORY_WINDOW_FILLED (R407): in LOCKED the window is full, and the history valid. -/
def execHistoryWindowFilled (s : State) : Host.Outcome State Fault Refusal :=
  let c := s.dev.chip
  if c.clockState = 3 then
    let c := c.untilLc (c.clock.since + c.rd (clkOd 0x09) * second)
    let l := c.clock.samples
    let h := if l.isEmpty then History.mk (c.rdI32 (clkOd 0x0F)) c.theta c.age
      else History.mk (meanInt (l.map fun e => e.2.1)) (meanInt (l.map fun e => e.2.2.1))
        ((l.map fun e => e.2.2.2).foldl (· + ·) 0 / l.length)
    let c1 := { c with clock := { c.clock with history := some h } }
    ok s (c1.wr (clkOd 0x13) 1)
  else ok s c

end Sys2Proof.Machine
end

