-- ==== Sys2Proof/Machine/Time.lean ====
section
/-! DEFINITION. Time views, tick and counter pairs, PPS, PTP timestamps (R348-R357). -/

namespace Sys2Proof.Machine

/-- OD 4C10+v.sub. -/
def viewOd (v sub : Nat) : Nat := od (0x4C10 + v) sub

/-! ### Views (R350-R352) -/

/-- A view set. -/
def Chip.setView (c : Chip) (v : Fin 4) (w : TimeView) : Chip :=
  { c with time := { c.time with views := c.time.views.set v w } }

/-- PTP_S and the selector follow the status of view 1 (R395, R402). -/
def Chip.viewStatusChanged (c : Chip) (v : Fin 4) : Chip :=
  if v = 1 then (c.settleCand 6).selectRef else c

/-- A view changed by a servo write at the present Local Counter (R351, R352). The time-view tick does not go backwards: it holds the
value it had (R351). -/
def Chip.servo (c : Chip) (v : Fin 4) (offset : Int) (rate : BitVec 64) : Chip :=
  let t := c.tick
  let w := c.time.views[v]
  let c1 := c.setView v { w with offset := offset, rate := rate, written := some c.lc, estimated := false, expired := false }
  (if v = 0 then { c1 with time := { c1.time with tickHeld := t } } else c1).viewStatusChanged v

/-- A rate that R350 allows: within 1 +- 2^-10. -/
def rateOk (r : BitVec 64) : Bool :=
  decide (2 ^ 48 - 2 ^ 38 ≤ r.toNat) && decide (r.toNat ≤ 2 ^ 48 + 2 ^ 38)

/-- A rate write (R351): no jump of the view. While PTP_S is selected, one to view 1 steers the DPLL and leaves RATE (R395). -/
def Chip.viewRate (c : Chip) (v : Fin 4) (rate : BitVec 64) : Chip × Status :=
  if !rateOk rate then (c, .range)
  else
    let w := c.time.views[v]
    if v = 1 && c.selected == some 6 then
      let y := rdiv ((1000000000000 + c.outputOffset) * rate.toNat) w.rate.toNat - 1000000000000
      ((c.steer y).servo v w.offset w.rate, .ok)
    else (c.servo v (w.offset + ((w.rate.toNat : Int) - rate.toNat) * c.lc) rate, .ok)

/-- A timed frame is queued. -/
def Chip.timedQueued (c : Chip) : Bool := c.ports.any fun p => !p.2.timed.isEmpty

/-- A step or set of view 0 that moves it by `delta` units of 2^-48 ns is refused (R351). -/
def Chip.stepBarred (c : Chip) (v : Fin 4) (delta : Int) : Bool :=
  v == 0 && (c.on (od 0x2C00 0x01) || c.on (od 0x3800 0x01) || c.timedQueued) && decide (1000 * 2 ^ 48 < delta.natAbs)

/-- A step write (R351), in units of 2^-16 ns. -/
def Chip.viewStep (c : Chip) (v : Fin 4) (step : Int) : Chip × Status :=
  let w := c.time.views[v]
  if c.stepBarred v (step * 2 ^ 32) then (c.bump (viewOd 0 0x0C) 1, .state)
  else (c.servo v (w.offset + step * 2 ^ 32) w.rate, .ok)

/-- A set write (R351): 8 bytes of OFFSET, 4 of fraction, 8 of RATE. -/
def Chip.viewSet (c : Chip) (v : Fin 4) (b : List Byte) : Chip × Status :=
  if b.length ≠ 20 then (c, .range)
  else
    let rate := BitVec.ofNat 64 (beAt b 12 8)
    if !rateOk rate then (c, .range)
    else
      let offset := toI (beAt b 0 8) 64 * 2 ^ 48 + (beAt b 8 4 : Nat) * 2 ^ 16
      let w := c.time.views[v]
      if c.stepBarred v (offset + rate.toNat * c.lc - w.exact c.lc) then (c.bump (viewOd 0 0x0C) 1, .state)
      else (c.servo v offset rate, .ok)

/-- An uncertainty write (R351). -/
def Chip.viewUncertainty (c : Chip) (v : Fin 4) (ns : Nat) : Chip × Status :=
  let w := c.time.views[v]
  ((c.wr (viewOd v.val 7) ns).servo v w.offset w.rate, .ok)

/-- OD 4C10+v.08 (R352): the value written and the drift since, saturating. -/
def Chip.uncertainty (c : Chip) (v : Fin 4) : Nat :=
  let e := c.lc - (c.time.views[v]).written.getD 0
  Nat.min (2 ^ 32 - 1) (c.rd (viewOd v.val 7) + (e * c.rd (od 0x4C00 0x05) + 999999999) / 1000000000)

/-- VIEW_RATE_WRITE: OD 4C10+v.03. -/
def execViewRateWrite (sess : Fin 9) (v : Fin 4) (rate : BitVec 64) (s : State) : Host.Outcome State Fault Refusal :=
  ok s (s.dev.chip.request sess.val (viewOd v.val 3) (.num rate.toNat) fun c => c.viewRate v rate)

/-- VIEW_STEP: OD 4C10+v.04. -/
def execViewStep (sess : Fin 9) (v : Fin 4) (step : Int) (s : State) : Host.Outcome State Fault Refusal :=
  ok s (s.dev.chip.request sess.val (viewOd v.val 4) (.num (ofI step 64)) fun c => c.viewStep v (toI (ofI step 64) 64))

/-- VIEW_SET: OD 4C10+v.05. -/
def execViewSet (sess : Fin 9) (v : Fin 4) (data : List Byte) (s : State) : Host.Outcome State Fault Refusal :=
  ok s (s.dev.chip.request sess.val (viewOd v.val 5) (.bytes data) fun c => c.viewSet v data)

/-- VIEW_UNCERTAINTY_WRITE: OD 4C10+v.07. -/
def execViewUncertaintyWrite (sess : Fin 9) (v : Fin 4) (ns : BitVec 32) (s : State) : Host.Outcome State Fault Refusal :=
  ok s (s.dev.chip.request sess.val (viewOd v.val 7) (.num ns.toNat) fun c => c.viewUncertainty v ns.toNat)

/-- SERVO_TIMEOUT (R352): a view in SERVO goes to HOLDOVER. -/
def execServoTimeout (v : Fin 4) (s : State) : Host.Outcome State Fault Refusal :=
  let c := s.dev.chip
  if c.viewStatus v = 1 then
    let c1 := c.untilLc ((c.time.views[v]).written.getD 0 + c.rd (od 0x4C00 0x04) * 1000000)
    ok s ((c1.setView v { c1.time.views[v] with expired := true }).viewStatusChanged v)
  else ok s c

/-- A read of a view's time latches its fraction (R350): the integer ns and the chip. -/
def Chip.readTime (c : Chip) (v : Fin 4) : Nat × Chip :=
  let w := c.time.views[v]
  let t := w.at c.lc
  (ofI (t / 2 ^ 32) 64, c.setView v { w with latch := BitVec.ofNat 32 (t % 2 ^ 32).toNat })

/-- TIME_READ_LATCH: a read of OD 4C10+v.01 (R350, R365). -/
def execTimeReadLatch (sess : Fin 9) (v : Fin 4) (s : State) : Host.Outcome State Fault Refusal :=
  let c := s.dev.chip
  if !c.serves then ok s c
  else if !c.domOpen 1 then ok s (c.answer sess.val (viewOd v.val 1) .domainOff)
  else
    let (t, c1) := c.readTime v
    ok s ((c1.answer sess.val (viewOd v.val 1) .ok).send (.value sess.val (viewOd v.val 1) (beBytes 8 t)))

/-! ### Pairs (R353, R354) -/

/-- A pair entry is written. -/
def Chip.pair (c : Chip) (tick frac kind : Nat) : Chip :=
  let n := c.rd (od 0x4C00 0x10)
  let e := beBytes 8 tick ++ (beBytes 8 c.lc ++ (beBytes 2 frac ++ (beBytes 1 kind ++ (beBytes 1 0 ++ beBytes 4 n))))
  (c.wrDom (od 0x4C40 (n % 64 + 1)) e).bump (od 0x4C00 0x10) 1

/-- The arming of a kind 0x2 entry (R353): LATE if the front reached the tick in an earlier cycle; written at once if the front
stands at it now. -/
def Chip.armPair (c : Chip) (t : Nat) : Chip × Status :=
  if c.frontPassed t then (c, .late)
  else if t ≤ c.reached then (({ c with time := { c.time with armed := none } }).pair t 0 2, .ok)
  else ({ c with time := { c.time with armed := some t } }, .ok)

/-- PAIR_ARM: OD 4C00.11. -/
def execPairArm (sess : Fin 9) (tick : BitVec 64) (s : State) : Host.Outcome State Fault Refusal :=
  ok s (s.dev.chip.request sess.val (od 0x4C00 0x11) (.num tick.toNat) fun c => c.armPair tick.toNat)

/-- PAIR_ENTRY (R353): the armed tick when the front has reached it or no period pairs are wanted; else the chase period boundary
that the front stands in. -/
def execPairEntry (s : State) : Host.Outcome State Fault Refusal :=
  let c := s.dev.chip
  let period := c.on (od 0x4C00 0x12)
  let armed := match c.time.armed with
    | some t => if t ≤ c.reached || !period then some t else none
    | none => none
  match armed with
  | some t => ok s (({ c with time := { c.time with armed := none } }).pair t 0 2)
  | none =>
    let p := c.chaseT * c.fft
    if period then ok s (c.pair (c.front / p * p) 0 1) else ok s c

/-- PPS_IN_EDGE (R354): kind 0x3, TICK is the time-view tick at the edge. -/
def execPpsInEdge (frac : Nat) (s : State) : Host.Outcome State Fault Refusal :=
  let c := s.dev.chip
  ok s (c.pair c.tick (frac % 65536) 3)

/-- The view that drives PPS_OUT. -/
def Chip.ppsView (c : Chip) : Fin 4 := Fin.ofNat 4 (c.rd (od 0x4C00 0x06))

/-- Whole seconds that the view of PPS_OUT has passed at a Local Counter value, less the offset of OD 4C00.07 (R354). -/
def Chip.ppsSecondAt (c : Chip) (lc : Nat) : Int :=
  ((c.time.views[c.ppsView]).at lc - c.rdI32 (od 0x4C00 0x07) * 2 ^ 32) / (2 ^ 32 * 1000000000)

/-- A second of the PPS view begins in this cycle, or one has begun since the last edge (R354). -/
def Chip.ppsDue (c : Chip) : Bool :=
  let now := c.ppsSecondAt c.lc
  now != c.ppsSecondAt (c.lc - 1) || (match c.time.ppsSecond with | some k => decide (k < now) | none => false)

/-- PPS_OUT_EDGE (R354): PPS_OUT rises as its view passes a whole second plus the offset, to which the time clock runs on (log entry 33); it does
not toggle while its view is UNSET. -/
def execPpsOutEdge (s : State) : Host.Outcome State Fault Refusal :=
  let c := s.dev.chip
  if c.viewStatus c.ppsView = 0 then ok s c
  else
    let c1 := if c.ppsDue then c
      else c.untilLc (c.lc + leastFrom (fun n => c.ppsSecondAt (c.lc + n) != c.ppsSecondAt c.lc) 31 0)
    ok s { c1 with time := { c1.time with ppsOut := true, ppsFall := c1.lc + c1.rd (od 0x4C00 0x08),
                                          ppsSecond := some (c1.ppsSecondAt c1.lc) } }

/-- PPS_OUT_WIDTH_END (R354): PPS_OUT falls when the pulse has lasted the width of OD 4C00.08, unless its view has become UNSET. -/
def execPpsOutWidthEnd (s : State) : Host.Outcome State Fault Refusal :=
  let c := s.dev.chip
  if !c.time.ppsOut || c.viewStatus c.ppsView = 0 then ok s c
  else
    let c1 := c.untilLc c.time.ppsFall
    ok s { c1 with time := { c1.time with ppsOut := false } }

/-! ### PTP (R355-R357) -/

/-- Offset of the EtherType of a frame: after its addresses and at most one 802.1Q tag. -/
def typeOffset (f : List Byte) : Nat := if beAt f 12 2 == 0x8100 then 16 else 12

/-- The PTP message inside a frame, when it is a PTP frame (R355). -/
def ptpMessage (f : List Byte) : Option (List Byte) :=
  let o := typeOffset f
  let t := beAt f o 2
  let p := f.drop (o + 2)
  let port := fun (u : Nat) => beAt p (u + 2) 2 == 319 || beAt p (u + 2) 2 == 320
  let ihl := beAt p 0 1 % 16 * 4
  if t == 0x88F7 then some p
  else if t == 0x0800 && beAt p 9 1 == 17 && port ihl then some (p.drop (ihl + 8))
  else if t == 0x86DD && beAt p 6 1 == 17 && port 40 then some (p.drop 48)
  else none

/-- An event message: versionPTP 2 and messageType 0 to 3 (R355). -/
def ptpEvent (m : List Byte) : Bool := beAt m 0 1 % 16 ≤ 3 && beAt m 1 1 % 16 == 2

/-- A timestamp with its board correction, in units of 2^-16 ns (R356; log entry 40). -/
def ptpStamp (lc frac corr : Nat) : Nat := ((lc : Int) * 65536 + frac % 65536 + toI corr 32).toNat

/-- View 1 at a timestamp, integer ns (R357). -/
def Chip.ptpTime (c : Chip) (st : Nat) : Nat :=
  let w := c.time.views[1]
  ofI ((w.offset + w.rate.toNat * st / 65536) / 2 ^ 48) 64

/-- Header of a ring entry (R357). -/
def Chip.ptpHeader (c : Chip) (port : Nat) (own event trunc : Bool) (len seq st : Nat) : List Byte :=
  let t := if event then st else 0
  beBytes 1 (port * 16) ++ (beBytes 1 (128 * b2n own + 64 * b2n event + 32 * b2n trunc) ++ (beBytes 2 len ++ (beBytes 4 seq ++
    (beBytes 8 (t / 65536) ++ (beBytes 2 t ++ (beBytes 6 0 ++ beBytes 8 (if event then c.ptpTime st else 0)))))))

/-- A received PTP frame copied to the next receive entry, or dropped when that entry is still OWN (R357). -/
def Dev.ptpIn (d : Dev) (port : Nat) (frame m : List Byte) (lc frac : Nat) : Dev :=
  let c := d.chip
  let n := c.time.ptpRx
  let a := c.rd (od 0x4C30 0x01) + n % 256 * 512
  if bitAt (byteAt d.mem.sram (a + 1)).toNat 7 then { d with chip := c.bump (od 0x4C30 0x05) 1 }
  else
    let corr := if port = 8 then c.rd (od 0x4C30 0x04) else c.rd (od (0x4410 + port) 0x17)
    let h := c.ptpHeader port true (ptpEvent m) (decide (480 < frame.length)) (Nat.min 480 frame.length) n
      (ptpStamp lc frac corr)
    let d1 := d.writeSram a (h ++ frame.take 480)
    { d1 with chip := { c with time := { c.time with ptpRx := (n + 1) % 2 ^ 32 } } }

/-- A frame that is no PTP frame on an output port is discarded and counted (R336); MGT keeps none. -/
def Chip.notPtp (c : Chip) (port : Nat) : Chip := if port < 8 then c.bump (od (0x4410 + port) 0x15) 1 else c

/-- PTP_RECEIVE (R355, R357). -/
def execPtpReceive (port : Fin 9) (frame : List Byte) (stampLc stampFrac : Nat) (s : State) :
    Host.Outcome State Fault Refusal :=
  let d := s.dev
  if !d.chip.awake then ok s d.chip
  else match ptpMessage frame with
  | some m => done s (d.ptpIn port.val frame m stampLc stampFrac)
  | none => ok s (d.chip.notPtp port.val)

/-- PTP_TRANSMIT (R357): the next transmit entry, when software has set OWN on it and it names the port, is sent; its timestamp is
written and OWN cleared. -/
def execPtpTransmit (port : Fin 9) (stampLc stampFrac : Nat) (s : State) : Host.Outcome State Fault Refusal :=
  let d := s.dev
  let c := d.chip
  let n := c.time.ptpTx
  let a := c.rd (od 0x4C30 0x02) + n % 64 * 512
  let h := d.readSram a 32
  if !c.awake || !bitAt (beAt h 1 1) 7 || beAt h 0 1 / 16 ≠ port.val then ok s c
  else
    let len := beAt h 2 2
    let frame := d.readSram (a + 32) len
    let event := match ptpMessage frame with | some m => ptpEvent m | none => false
    let corr := if port.val = 8 then c.rd (od 0x4C30 0x03) else c.rd (od (0x4410 + port.val) 0x16)
    let d1 := d.writeSram a (c.ptpHeader port.val false event false len n (ptpStamp stampLc stampFrac corr))
    let c1 := if port.val < 8 && c.rd (od (0x4410 + port.val) 0x10) ≠ 2 then c.bump (od (0x4410 + port.val) 0x12) 1
      else
        let x := c.send (.ether port.val (frame ++ leBytes 4 (crc32 frame)))
        if port.val < 8 then x.bump (od (0x4410 + port.val) 0x18) 1 else x
    done s { d1 with chip := { c1 with time := { c1.time with ptpTx := (n + 1) % 2 ^ 32 } } }

end Sys2Proof.Machine
end

