-- ==== Sys2Proof/Machine/Lanes.lean ====
section
/-! DEFINITION. The lanes of Twiah: detectors, bring-up, training, health, tests (R50-R54, R66-R79, R83, R84). -/

namespace Sys2Proof.Machine

/-! ### State changes (R72) -/

/-- A lane may leave OFF: role not OFF or ETHERNET, in an enabled bundle, no test mode (R50, R72). -/
def Chip.laneWanted (c : Chip) (l : Nat) : Bool :=
  let r := c.laneRole l
  r != 0 && r != 4 && c.bundleOn (c.laneBundle l) && c.rd (laneOd l 0x05) == 0

/-- A lane's state code, when it began, what the lane now sends, the count of lanes up, the state of a Twiah-1 bundle, and the candidates that take the
lane's clock (R72, R73, R80, R85, R394). -/
def Chip.laneTo (c0 : Chip) (l st : Nat) : Chip :=
  let old := c0.laneState l
  let c := c0.setLane l { c0.lane l with since := c0.lc, groupTime := 0 }
  let c1 := (c.wr (laneOd l 0x10) st).sendSignal l
  let up := c1.rd (od 0x2000 0x02)
  let c2 := if old = 0x0A && st ≠ 0x0A then c1.wr (od 0x2000 0x02) (up - 1)
    else if old ≠ 0x0A && st = 0x0A then c1.wr (od 0x2000 0x02) (up + 1) else c1
  let b := c2.laneBundle l
  let c3 := if (old = 0x0A) ≠ (st = 0x0A) && b < 256 && c2.rd (bunOd b 0x08) = 1 then c2.bundleSettle b else c2
  c3.laneClock l

/-- LISTEN goes on to ALIGN while LOS is clear and the CDR locked, and no hold-off runs (R72, R73). -/
def Chip.tryAlign (c : Chip) (l : Nat) : Chip :=
  let x := c.lane l
  if c.laneState l = 1 && !x.los && x.cdr && !x.hold then c.laneTo l 2 else c

/-- A lane enters LISTEN: counted, at 1.25 Gb/s; a receiver that ran at another rate has yet to lock (R72, R85; log entry 111). -/
def Chip.listenNow (c : Chip) (l : Nat) : Chip :=
  let x := c.lane l
  let recent := x.entries.filter fun t => c.lc < t + 60 * second
  let y := { x with entries := c.lc :: recent, hold := false, aligned := false, locked := false, gotCap := false,
                    gotAck := false, cdr := x.cdr && c.laneRate l == 0, events := [], violations := [] }
  ((((c.setLane l y).wr (laneOd l 0x11) 0).bump (laneOd l 0x1C) 1).laneTo l 1).tryAlign l

/-- A lane goes to LISTEN, after the retry hold-off from the fourth entry within 60 s on; while held off it shows LISTEN, or
FALLBACK when it comes from there (R72, R73; log entry 34). -/
def Chip.toListen (c : Chip) (l : Nat) : Chip :=
  let x := c.lane l
  let recent := x.entries.filter fun t => c.lc < t + 60 * second
  if 3 ≤ recent.length && c.rd (od 0x2000 0x07) != 0 then
    (c.setLane l { x with entries := recent, hold := true }).laneTo l (if c.laneState l = 0x0C then 0x0C else 1)
  else c.listenNow l

/-- The moment at which a lane's timer of so many ns ends, from where its state, hold-off or confirm window began (R73, log entry 33). -/
def Chip.laneTimer (c : Chip) (l ns : Nat) : Chip := c.untilLc ((c.lane l).since + ns)

/-- Nanoseconds in a millisecond. -/
def milli : Nat := 1000000

/-- FALLBACK (R77): the failed rate and all higher ones are cleared for the lane, which returns to LISTEN. -/
def Chip.fallback (c : Chip) (l failed : Nat) : Chip :=
  let rates := c.rd (laneOd l 0x25) % 2 ^ (Nat.max failed 1)
  (((c.wr (laneOd l 0x25) rates).bump (laneOd l 0x1D) 1).laneTo l 0x0C).toListen l

/-- A lane enters LANE_UP (R72). -/
def Chip.laneUp (c : Chip) (l : Nat) : Chip :=
  let x := c.lane l
  (c.setLane l { x with events := [], partnerUp := false, partnerSkew := false, qlSeen := (0, 0), skewed := false }).laneTo l 0x0A

/-- SWITCH towards the next rate (R72). -/
def Chip.toSwitch (c : Chip) (l r : Nat) : Chip := (c.setLane l { c.lane l with next := r }).laneTo l 5

/-- CONFIRM (R76): the check waits for block lock at a Twiah-2 rate. -/
def Chip.toConfirm (c : Chip) (l : Nat) : Chip :=
  (c.setLane l { c.lane l with errors := 0, uncorr := 0 }).laneTo l 8

/-- RELOCK ends when its locks are regained: CDR lock, and block lock at a Twiah-2 rate or alignment at a Twiah-1 rate
(R72). -/
def Chip.tryRelock (c : Chip) (l : Nat) : Chip :=
  let x := c.lane l
  if c.laneState l = 0x0B && x.cdr && (if 4 ≤ c.laneRate l then x.locked else x.aligned) then
    (c.bump (laneOd l 0x1B) 1).laneTo l 0x0A
  else c

/-- An OFF lane that is wanted listens; one no longer wanted goes to OFF (R72, R82). -/
def Chip.laneSettle (c : Chip) (l : Nat) : Chip :=
  let st := c.laneState l
  if st = 0x0D then c
  else if c.laneWanted l then (if st = 0 then c.toListen l else c)
  else if st = 0 then c
  else ((c.setLane l { c.lane l with hold := false }).wr (laneOd l 0x11) 0).laneTo l 0

/-! ### Membership loss (R60) -/

/-- The lane is a receive member of its bundle. -/
def Chip.rxMember (c : Chip) (l : Nat) : Bool :=
  let b := c.laneBundle l
  decide (b < 256) && bitAt (c.rd (bunOd b 0x12)) (c.lane l).index

/-- Open frames of a bundle are discarded because a member lane failed, each counted in OD 2300+b.1B; what still arrives of them
is dropped with them (R60). -/
def Chip.membershipLoss (c : Chip) (b : Nat) : Chip :=
  let x := c.bundle b
  (c.bump (bunOd b 0x1B) (x.opens.filter fun o => !o.drop).length).setBundle b
    { x with opens := x.opens.map fun o => { o with drop := true } }

/-- A member lane fails: its bundle's open frames lose blocks on it (R60). -/
def Chip.memberFails (c : Chip) (l : Nat) : Chip :=
  if c.laneState l = 0x0A && c.rxMember l then c.membershipLoss (c.laneBundle l) else c

/-! ### Detectors (R78) -/

/-- Bring-up states, LISTEN to STEP_WAIT. -/
def bringingUp (st : Nat) : Bool := 1 ≤ st && st ≤ 9

/-- LOS_ASSERT (R78). -/
def execLosAssert (l : Fin 512) (s : State) : Host.Outcome State Fault Refusal :=
  let l := l.val
  let c := s.dev.chip.memberFails l
  let st := c.laneState l
  let c1 := c.setLane l { c.lane l with los := true, cdr := false, locked := false, aligned := false }
  let counted := c1.bump (laneOd l 0x19) 1
  if bringingUp st then ok s (if st = 1 then counted else counted.toListen l)
  else if st = 0x0A then ok s ((counted.toListen l).fault .note .change (laneOd l 0x10) 0x0A 1 0)
  else if st = 0x0B then ok s (c1.toListen l)
  else if st = 0x0D then ok s counted
  else ok s c1

/-- LOS_CLEAR (R78). -/
def execLosClear (l : Fin 512) (s : State) : Host.Outcome State Fault Refusal :=
  let c := s.dev.chip
  ok s ((c.setLane l.val { c.lane l.val with los := false }).tryAlign l.val)

/-- LOL_ASSERT (R78). -/
def execLolAssert (l : Fin 512) (s : State) : Host.Outcome State Fault Refusal :=
  let l := l.val
  let c := s.dev.chip.memberFails l
  let st := c.laneState l
  let c1 := c.setLane l { c.lane l with cdr := false, locked := false, aligned := false }
  if bringingUp st then ok s (if st = 1 || st = 5 || st = 6 then c1 else c1.toListen l)
  else if st = 0x0A then ok s ((c1.bump (laneOd l 0x1A) 1).laneTo l 0x0B)
  else if st = 0x0D then ok s (c1.bump (laneOd l 0x1A) 1)
  else ok s c1

/-- CDR_LOCK (R72): LISTEN, LOCK and RELOCK advance. What a lane in TRAIN asks of its partner's taps is its receiver's own matter: a free value (R75). -/
def execCdrLock (l : Fin 512) (s : State) : Host.Outcome State Fault Refusal :=
  let l := l.val
  let c0 := s.dev.chip
  let c := c0.setLane l { c0.lane l with cdr := true }
  match c.laneState l with
  | 1 => ok s (c.tryAlign l)
  | 6 =>
    if 4 ≤ c.laneRate l then
      let (req, c1) := c.freeBits 14
      ok s ((c1.setLane l { c1.lane l with gotReady := false, ready := false, answer := 0, request := req }).laneTo l 7)
    else if (c.lane l).aligned then ok s (c.toConfirm l) else ok s c
  | 0x0B => ok s (c.tryRelock l)
  | _ => ok s c

/-- COMMA_ALIGNMENT (R68, R72): ALIGN goes to CAPX; a LOCK at a Twiah-1 rate may now confirm. -/
def execCommaAlignment (l : Fin 512) (inverted : Bool) (s : State) : Host.Outcome State Fault Refusal :=
  let l := l.val
  let c0 := s.dev.chip
  if c0.laneState l = 0 then ok s c0
  else
    let c := (c0.setLane l { c0.lane l with aligned := true, violations := [] }).wr (laneOd l 0x13) (b2n inverted)
    match c.laneState l with
    | 2 => ok s ((c.setLane l { c.lane l with gotCap := false, gotAck := false }).laneTo l 3)
    | 6 => if c.laneRate l < 4 && (c.lane l).cdr then ok s (c.toConfirm l) else ok s c
    | 0x0B => ok s (c.tryRelock l)
    | _ => ok s c

/-! ### The CAP exchange (R70, R71, R74) -/

/-- A partner's CAP payload breaks R74 for the lane. -/
def Chip.capBreaks (c : Chip) (l : Nat) (p : List Byte) : Bool :=
  let b := c.laneBundle l
  let role := c.laneRole l
  let expect := fun (v any got : Nat) => v != any && v != got
  let rates := (List.range 7).filter fun r => 4 ≤ r && bitAt (beAt p 1 1) r && bitAt (c.rd (laneOd l 0x25)) r
  beAt p 2 1 / 16 != role ||
  expect (c.rd (bunOd b 0x04)) 0xFF (beAt p 3 1 % 64) ||
  expect (c.rd (bunOd b 0x05)) 0xFF (bits (beAt p 2 1) 2 1) ||
  expect (c.rd (bunOd b 0x06)) 0xFFFF (beAt p 4 1) ||
  expect (c.rd (bunOd b 0x07)) 0xFFFF (beAt p 8 2) ||
  (beAt p 0 1 / 16 == 1 && c.rd (bunOd b 0x08) != 1) ||
  ((role == 2 || role == 3) && rates.isEmpty)

/-- A valid CAP payload checked in CAPX: stored; MISMATCH, or the lane's own CAP carries ACK from now on and the partner's ACK is noted (R72, R74). -/
def Chip.capCheck (c : Chip) (l : Nat) (p : List Byte) : Chip :=
  let c1 := c.wrDom (laneOd l 0x12) p
  if c1.capBreaks l p then
    (((c1.setLane l { c1.lane l with gotCap := false, gotAck := false }).bump (laneOd l 0x24) 1).laneTo l 4).fault .note .change
      (laneOd l 0x10) 3 4 0
  else
    let x := c1.lane l
    let c2 := c1.setLane l { x with gotCap := true, gotAck := x.gotAck || bitAt (beAt p 2 1) 3, index := beAt p 5 1 % 64 }
    if x.gotCap then c2 else c2.sendSignal l

/-- CAP_MESSAGE (R71, R74): the 16 payload bytes and their CRC. One with a wrong CRC is ignored and counted as a code
violation; in MISMATCH a changed CAP is checked anew. -/
def execCapMessage (l : Fin 512) (message : List Byte) (s : State) : Host.Outcome State Fault Refusal :=
  let l := l.val
  let c := s.dev.chip
  let p := message.take 16
  let st := c.laneState l
  if st ≠ 3 && st ≠ 4 then ok s c
  else if message.length ≠ 20 || beAt message 16 4 ≠ crc32 p then ok s (c.bump (laneOd l 0x18) 1)
  else if st = 3 then ok s (c.capCheck l p)
  else if p = c.rdDom (laneOd l 0x12) then ok s c
  else ok s ((c.laneTo l 3).capCheck l p)

/-- CAP_EXCHANGE_DONE (R72, R75): SWITCH to the first rate above 1.25 Gb/s, or LANE_UP when there is none. -/
def execCapExchangeDone (l : Fin 512) (s : State) : Host.Outcome State Fault Refusal :=
  let l := l.val
  let c := s.dev.chip
  let x := c.lane l
  if c.laneState l = 3 && x.gotCap && x.gotAck then
    match c.nextRate l with
    | some r => ok s (c.toSwitch l r)
    | none => ok s (c.laneUp l)
  else ok s c

/-! ### Timers and steps (R72, R73, R76) -/

/-- T_ALIGN_EXPIRY: ALIGN returns to LISTEN after 1 ms. -/
def execTAlignExpiry (l : Fin 512) (s : State) : Host.Outcome State Fault Refusal :=
  let c := s.dev.chip
  if c.laneState l.val = 2 then ok s ((c.laneTimer l.val milli).toListen l.val) else ok s c

/-- T_CAP_EXPIRY (OD 2000.03): CAPX returns to LISTEN, STEP_WAIT falls back from the rate it could not step to. -/
def execTCapExpiry (l : Fin 512) (s : State) : Host.Outcome State Fault Refusal :=
  let l := l.val
  let c := s.dev.chip
  let c1 := c.laneTimer l (c.rd (od 0x2000 0x03) * milli)
  match c.laneState l with
  | 3 => ok s (c1.toListen l)
  | 9 => ok s (c1.fallback l ((c.nextRate l).getD (c.laneRate l + 1)))
  | _ => ok s c

/-- The taps of a preset (R75): c-1 and c+1 in units of 1/64. -/
def presetTaps (p : Nat) : Int × Int :=
  match p with
  | 0 => (0, 0) | 1 => (0, -4) | 2 => (0, -8) | 3 => (0, -12) | 4 => (-4, -4) | 5 => (-4, -8) | 6 => (-8, -8) | _ => (-8, -12)

/-- A preset set: c0 takes the remaining swing, c-2 and c+2 are 0 (R75). -/
def Lane.preset (x : Lane) (p : Nat) : Lane :=
  let (a, b) := presetTaps p
  { x with cm2 := 0, cm1 := a, c0 := 64 - a.natAbs - b.natAbs, cp1 := b, cp2 := 0 }

/-- T_QUIET_EXPIRY (R72, R75): after 100 us LOCK at the next rate, a Twiah-2 step starting at the lane's preset. -/
def execTQuietExpiry (l : Fin 512) (s : State) : Host.Outcome State Fault Refusal :=
  let l := l.val
  if s.dev.chip.laneState l ≠ 5 then ok s s.dev.chip
  else
    let c := s.dev.chip.laneTimer l 100000
    let x := { c.lane l with cdr := false, aligned := false, locked := false, ready := false, request := 0, answer := 0 }
    ok s (((c.setLane l (x.preset (c.rd (laneOd l 0x04)))).wr (laneOd l 0x11) x.next).laneTo l 6)

/-- T_LOCK_EXPIRY: LOCK falls back after 5 ms. -/
def execTLockExpiry (l : Fin 512) (s : State) : Host.Outcome State Fault Refusal :=
  let c := s.dev.chip
  if c.laneState l.val = 6 then ok s ((c.laneTimer l.val (5 * milli)).fallback l.val (c.laneRate l.val)) else ok s c

/-- A tap moved by a request: its new value and the answer (R75). -/
def tapStep (i req : Nat) (v : Int) : Int × Nat :=
  match req with
  | 1 => if v + 1 ≤ Config.tapMax i then (v + 1, 1) else (v, 3)
  | 2 => if Config.tapMin i ≤ v - 1 then (v - 1, 1) else (v, 2)
  | _ => (v, 0)

/-- A control field applied and answered (R75); at NRZ rates c-2 and c+2 do not exist and are answered 0b10. -/
def Lane.train (x : Lane) (pam4 : Bool) (control : Nat) : Lane :=
  if bitAt control 13 then { x.preset (bits control 10 3) with answer := 0 }
  else
    let outer := fun (i : Nat) (req : Nat) (v : Int) => if pam4 then tapStep i req v else (v, if req = 1 || req = 2 then 2 else 0)
    let (a, ra) := outer 0 (bits control 8 2) x.cm2
    let (b, rb) := tapStep 1 (bits control 6 2) x.cm1
    let (c, rc) := tapStep 2 (bits control 4 2) x.c0
    let (d, rd) := tapStep 3 (bits control 2 2) x.cp1
    let (e, re) := outer 4 (bits control 0 2) x.cp2
    { x with cm2 := a, cm1 := b, c0 := c, cp1 := d, cp2 := e,
             answer := ra * 256 + rb * 64 + rc * 16 + rd * 4 + re }

/-- TRAINING_FRAME (R75): a field that does not match its complement is ignored. -/
def execTrainingFrame (l : Fin 512) (control controlBar status statusBar : BitVec 16) (s : State) :
    Host.Outcome State Fault Refusal :=
  let l := l.val
  let c := s.dev.chip
  if c.laneState l ≠ 7 then ok s c
  else
    let x := c.lane l
    let x1 := if control = ~~~controlBar then x.train (c.laneRate l == 6) control.toNat else x
    let x2 := if status = ~~~statusBar then { x1 with gotReady := x1.gotReady || bitAt status.toNat 15 } else x1
    let c1 := c.setLane l x2
    ok s (if x2.answer = x.answer then c1 else c1.sendSignal l)

/-- RX_READY_EXCHANGE (R76): this side has set RX_READY and both have sent and received it; 16 more training frames carry it, then the block stream
starts. -/
def execRxReadyExchange (l : Fin 512) (s : State) : Host.Outcome State Fault Refusal :=
  let l := l.val
  let c := s.dev.chip
  if c.laneState l ≠ 7 then ok s c
  else
    let c1 := (c.setLane l { c.lane l with ready := true, gotReady := true, locked := false }).sendSignal l
    ok s (c1.toConfirm l)

/-- T_TRAIN_EXPIRY (OD 2000.04, at PAM4 OD 2000.05): TRAIN falls back. -/
def execTTrainExpiry (l : Fin 512) (s : State) : Host.Outcome State Fault Refusal :=
  let l := l.val
  let c := s.dev.chip
  let limit := c.rd (od 0x2000 (if c.laneRate l = 6 then 0x05 else 0x04)) * milli
  if c.laneState l = 7 then ok s ((c.laneTimer l limit).fallback l (c.laneRate l)) else ok s c

/-- BLOCK_LOCK (R76): starts the CONFIRM watch, or helps RELOCK end. -/
def execBlockLock (l : Fin 512) (s : State) : Host.Outcome State Fault Refusal :=
  let l := l.val
  let c := s.dev.chip
  match c.laneState l with
  | 8 => ok s (c.setLane l { c.lane l with locked := true, errors := 0, uncorr := 0, since := c.lc })
  | 0x0A => ok s (c.setLane l { c.lane l with locked := true })
  | 0x0B => ok s ((c.setLane l { c.lane l with locked := true }).tryRelock l)
  | _ => ok s c

/-- T_CONFIRM_EXPIRY (R76): after 1 ms the error check, then STEP_WAIT, LANE_UP or FALLBACK; at a Twiah-2 rate the window starts at block
lock. -/
def execTConfirmExpiry (l : Fin 512) (serHigh : Bool) (s : State) : Host.Outcome State Fault Refusal :=
  let l := l.val
  let c0 := s.dev.chip
  let x := c0.lane l
  let r := c0.laneRate l
  if c0.laneState l ≠ 8 || (4 ≤ r && !x.locked) then ok s c0
  else
    let c := c0.laneTimer l milli
    let failed := if r = 6 then x.uncorr != 0 || serHigh else if 4 ≤ r then decide (1 < x.errors) else x.errors != 0
    if failed then ok s (c.fallback l r)
    else match c.nextRate l with
      | some _ => ok s (c.laneTo l 9)
      | none => ok s (c.laneUp l)

/-- STEP_READY (R72): the partner is ready for the next rate. The lane steps to its own next common rate, whatever code the block names: what a reserved
code or another rate does is not stated (log entry 110). -/
def execStepReady (l : Fin 512) (rate : Fin 16) (s : State) : Host.Outcome State Fault Refusal :=
  let c := s.dev.chip
  if c.laneState l.val = 9 then ok s (c.toSwitch l.val ((c.nextRate l.val).getD rate.val)) else ok s c

/-- T_RELOCK_EXPIRY (OD 2000.06): RELOCK goes to LISTEN. -/
def execTRelockExpiry (l : Fin 512) (s : State) : Host.Outcome State Fault Refusal :=
  let c := s.dev.chip
  if c.laneState l.val = 0x0B then ok s ((c.laneTimer l.val (c.rd (od 0x2000 0x06) * 1000)).toListen l.val) else ok s c

/-- RETRY_HOLDOFF_EXPIRY (R73, OD 2000.07): the lane that was held off enters LISTEN. -/
def execRetryHoldoffExpiry (l : Fin 512) (s : State) : Host.Outcome State Fault Refusal :=
  let c := s.dev.chip
  if (c.lane l.val).hold then ok s ((c.laneTimer l.val (c.rd (od 0x2000 0x07) * milli)).listenNow l.val) else ok s c

/-! ### Restart, tests (R77, R83, R84) -/

/-- A restart: rates in force from OD 2100+l.03, and LISTEN for a lane that runs (R77). -/
def Chip.laneRestart (c : Chip) (l : Nat) : Chip :=
  let c1 := c.wr (laneOd l 0x25) (c.rd (laneOd l 0x03))
  let st := c1.laneState l
  if st = 0 || st = 0x0D then c1 else (c1.memberFails l).toListen l

/-- LANE_RESTART: 1 written to OD 2100+l.31. -/
def execLaneRestart (sess : Fin 9) (l : Fin 512) (s : State) : Host.Outcome State Fault Refusal :=
  ok s (s.dev.chip.request sess.val (laneOd l.val 0x31) (.num 1) fun c => (c.laneRestart l.val, .ok))

/-- Bits per 32 ns at a rate code (R52). -/
def bitsPer32ns (rate : Nat) : Nat :=
  match rate with | 0 => 40 | 1 => 80 | 2 => 100 | 3 => 200 | 4 => 330 | 5 => 825 | _ => 1700

/-- Bits that a locked checker has checked since OD 2100+l.20 was last brought up to date (R84). -/
def Chip.prbsChecked (c : Chip) (l : Nat) : Nat :=
  if c.on (laneOd l 0x22) then (c.lc - (c.lane l).prbsSince) * bitsPer32ns (c.laneRate l) / 32 else 0

/-- OD 2100+l.20 brought up to date. -/
def Chip.prbsSettle (c : Chip) (l : Nat) : Chip :=
  (c.bump (laneOd l 0x20) (c.prbsChecked l)).setLane l { c.lane l with prbsSince := c.lc }

/-- A test mode written (R83): LANE_BUSY on a lane in an enabled bundle. The lane runs at the test rate, its transmitter at the preset of OD
2100+l.04; the checker has yet to lock. -/
def Chip.testMode (c : Chip) (l v : Nat) : Chip × Status :=
  if c.bundleOn (c.laneBundle l) then (c, .laneBusy)
  else
    let c1 := ((c.prbsSettle l).wr (laneOd l 0x05) v).wr (laneOd l 0x22) 0
    if v = 0 then (if c1.laneState l = 0x0D then (c1.laneTo l 0).laneSettle l else c1, .ok)
    else
      let x := (c1.lane l).preset (c1.rd (laneOd l 0x04))
      (((c1.setLane l { x with prbsLocked := false, hold := false }).wr (laneOd l 0x11) (c1.rd (laneOd l 0x06))).laneTo l 0x0D, .ok)

/-- The test rate, the generator, the checker or the user pattern written (R83, R84): a lane in TEST takes it up at once; a checker that is off holds no
lock. -/
def Chip.testSetting (c : Chip) (l sub v : Nat) : Chip × Status :=
  let c1 := (c.prbsSettle l).wr (laneOd l sub) v
  if c1.laneState l ≠ 0x0D then (c1, .ok)
  else
    let c2 := if sub = 6 then c1.wr (laneOd l 0x11) v else c1
    let c3 := if c2.rd (laneOd l 0x08) = 0 then c2.wr (laneOd l 0x22) 0 else c2
    (c3.sendSignal l, .ok)

/-- TEST_MODE_WRITE: OD 2100+l.05. -/
def execTestModeWrite (sess : Fin 9) (l : Fin 512) (value : BitVec 8) (s : State) : Host.Outcome State Fault Refusal :=
  ok s (s.dev.chip.request sess.val (laneOd l.val 0x05) (.num value.toNat) fun c => c.testMode l.val value.toNat)

/-- The lane's own generator reaches its checker, which looks for the same pattern (R83, R84): near-end loopback. -/
def Chip.prbsLooped (c : Chip) (l : Nat) : Bool :=
  c.laneState l == 0x0D && (c.rd (laneOd l 0x05) == 1 || c.rd (laneOd l 0x05) == 2) && c.rd (laneOd l 0x07) != 0 &&
    c.rd (laneOd l 0x07) == c.rd (laneOd l 0x08)

/-- One bit of the generator's output is flipped (R84): the lane's own checker, where the generator reaches it, counts one error. -/
def Chip.injectError (c : Chip) (l : Nat) : Chip :=
  let c1 := c.setLane l { c.lane l with flips := (c.lane l).flips + 1 }
  if c1.prbsLooped l && c1.on (laneOd l 0x22) then c1.bump (laneOd l 0x21) 1 else c1

/-- INJECT_ERROR: 1 written to OD 2100+l.09. -/
def execInjectError (sess : Fin 9) (l : Fin 512) (s : State) : Host.Outcome State Fault Refusal :=
  ok s (s.dev.chip.request sess.val (laneOd l.val 0x09) (.num 1) fun c => (c.injectError l.val, .ok))

/-- PRBS_CHECKER_LOCK (R84): the checker of a lane whose checker is on locks after 64 bits without error; locking again is a
relock. -/
def execPrbsCheckerLock (l : Fin 512) (s : State) : Host.Outcome State Fault Refusal :=
  let l := l.val
  let c := s.dev.chip
  if c.rd (laneOd l 0x08) = 0 || c.laneState l ≠ 0x0D || c.on (laneOd l 0x22) then ok s c
  else
    let x := c.lane l
    let c1 := ((c.setLane l { x with prbsLocked := true, prbsSince := c.lc }).wr (laneOd l 0x22) 1).bump (laneOd l 0x20) 64
    ok s (if x.prbsLocked then c1.bump (laneOd l 0x23) 1 else c1)

/-- PRBS_CHECKER_LOCK_LOSS (R84): 512 errors in 1 024 bits, which are the last of the bits checked since the lock. -/
def execPrbsCheckerLockLoss (l : Fin 512) (s : State) : Host.Outcome State Fault Refusal :=
  let l := l.val
  let c := s.dev.chip
  if c.on (laneOd l 0x22) then
    ok s (((c.wr (laneOd l 0x22) 0).bump (laneOd l 0x20) (Nat.max 1024 (c.prbsChecked l))).bump (laneOd l 0x21) 512)
  else ok s c

/-! ### Error events and health (R55, R68, R76, R79) -/

/-- An error event of a lane in LANE_UP: the lane restarts with a NOTE when the events of the last millisecond reach the health
limit (R79). -/
def Chip.healthEvent (c : Chip) (l : Nat) : Chip :=
  let x := c.lane l
  let e := c.lc :: x.events.filter fun t => c.lc < t + 1000000
  if c.rd (od 0x2000 0x08) ≤ e.length then
    (((c.memberFails l).bump (laneOd l 0x1E) 1).toListen l).fault .note .counted (laneOd l 0x1E) (c.rd (laneOd l 0x1E))
      (c.rd (laneOd l 0x1E) + 1) 0
  else c.setLane l { x with events := e }

/-- UNCORRECTABLE_CODEWORD (R76, R79). -/
def execUncorrectableCodeword (l : Fin 512) (s : State) : Host.Outcome State Fault Refusal :=
  let l := l.val
  let c0 := s.dev.chip
  let c := (c0.setLane l { c0.lane l with uncorrSince := true }).bump (laneOd l 0x16) 1
  match c.laneState l with
  | 8 => ok s (c.setLane l { c.lane l with uncorr := (c.lane l).uncorr + 1 })
  | 0x0A => ok s (if c.laneRate l = 6 then c.healthEvent l else c)
  | _ => ok s c

/-- CODE_VIOLATION (R68, R76, R79): counted; four in sixteen code groups lose comma alignment. -/
def execCodeViolation (l : Fin 512) (s : State) : Host.Outcome State Fault Refusal :=
  let l := l.val
  let c0 := s.dev.chip
  let x := c0.lane l
  let r := c0.laneRate l
  -- sixteen code groups in ns, at 1.25, 2.5, 3.125 and 6.25 Gb/s
  let window := match r with | 0 => 128 | 1 => 64 | 2 => 51 | _ => 25
  let v := c0.lc :: x.violations.filter fun t => c0.lc < t + window
  let x1 := if 4 ≤ v.length then { x with aligned := false, violations := [] } else { x with violations := v }
  let c := (c0.setLane l x1).bump (laneOd l 0x18) 1
  match c.laneState l with
  | 8 => ok s (if r ≤ 3 then c.setLane l { c.lane l with errors := (c.lane l).errors + 1 } else c)
  | 0x0A => ok s (if r ≤ 3 then c.healthEvent l else c)
  | _ => ok s c

end Sys2Proof.Machine
end

