-- ==== Sys2Proof/Machine/Links.lean ====
section
/-! DEFINITION. What arrives on bundles of Twiah lanes: frames on virtual lanes, credit, status, markers and membership (R55, R58-R67, R80-R82), and
the commands of a sender: marker periods, credit, the start of frames (R48, R59, R64, R146, R147, R152, R154). -/

namespace Sys2Proof.Machine

/-- The effect of an enable or disable of a bundle (R77, R80, R82): a disabled one discards its open frames as protocol
discards, its lanes go to OFF, and fallback limits end; an enabled one lets its lanes listen. -/
def Chip.bundleApply (c : Chip) (b : Nat) : Chip :=
  let x := c.bundle b
  let c1 := if c.bundleOn b then c
    else
      let d := (c.bump (bunOd b 0x1A) (x.opens.filter fun o => !o.drop).length).setBundle b
        { x with opens := [], sel := none, lastIndex := none, rxNext := 0, rxRow := [], txNext := 0, marker := none, tx := [], txSel := none }
      (d.bundleLanes b).foldl (fun a l => a.wr (laneOd l 0x25) (a.rd (laneOd l 0x03)))
        ((d.wr (bunOd b 0x11) 0).wr (bunOd b 0x12) 0)
  ((c1.bundleLanes b).foldl Chip.laneSettle c1).bundleSettle b

/-! ### Frames that arrive (R62-R65, R81) -/

/-- A whole frame has arrived on a bundle: kept until its block takes it; discarded on a bundle that carries none (R81). -/
def Chip.frameIn (c : Chip) (b vl : Nat) (bytes : List Byte) : Chip :=
  if c.carries b then
    let x := c.bundle b
    (c.bump (bunOd b (0x14 + vl)) 1).setBundle b { x with ready := x.ready ++ [(vl, bytes)] }
  else c.bump (bunOd b 0x1A) 1

/-- A consumer takes a frame of a virtual lane. One that came in blocks was counted then; one that the command brings whole is
counted now. It is discarded on a bundle that carries no frames, and on a virtual lane that the bundle does not carry (R64, R81).
Its buffer is granted back (R65). -/
def Chip.takeFrame (c : Chip) (b vl : Nat) (bytes : List Byte) : Option Chip :=
  let x := c.bundle b
  if x.ready.contains (vl, bytes) then
    some ((c.setBundle b { x with ready := x.ready.erase (vl, bytes) }).grant b vl (units bytes.length))
  else if !c.carries b then none
  else if c.bundleRole b == 1 && vl != 2 then none
  else some ((c.bump (bunOd b (0x14 + vl)) 1).grant b vl (units bytes.length))

/-- A frame that `takeFrame` does not give is a protocol discard (R81). -/
def Chip.refuseFrame (c : Chip) (b : Nat) : Chip := c.bump (bunOd b 0x1A) 1

/-- The stream block of a member lane arrives: when the lanes skipped since the last one hold a failed member, the open frames
lost a block on it (R60). `none` for a lane that is no member, whose slots carry IDLE (R56). -/
def Chip.streamBlock (c : Chip) (l : Nat) : Option Chip :=
  let b := c.laneBundle l
  if c.laneState l ≠ 0x0A || c.laneRate l < 4 || !c.rxMember l then none
  else
    let i := (c.lane l).index
    let x := c.bundle b
    let mask := c.rd (bunOd b 0x12)
    let failed := fun j => bitAt mask j && !((c.upLanes b).any fun k => (c.lane k).index == j)
    let lost := match x.lastIndex with
      | none => false
      | some a => (List.range 64).any fun j => failed j && (if a < i then a < j && j < i else a < j || j < i)
    let c1 := if lost then c.membershipLoss b else c
    some (c1.setBundle b { c1.bundle b with lastIndex := some i })

/-- SOF (R62, R64). -/
def execSof (l : Fin 512) (body : BitVec 56) (s : State) : Host.Outcome State Fault Refusal :=
  match s.dev.chip.streamBlock l.val with
  | none => ok s s.dev.chip
  | some c =>
    let b := c.laneBundle l.val
    let vl := bits body.toNat 54 2
    let len := bits body.toNat 32 16
    let x := c.bundle b
    -- an open frame on the lane is discarded
    let old := (x.opens.filter fun o => o.vl == vl && !o.drop).length
    let bad := vl = 3 || len < 8 || (c.bundleRole b = 1 && vl ≠ 2) || !c.carries b
    let f : OpenFrame := ⟨vl, len, beBytes 4 (bits body.toNat 0 32), bad⟩
    ok s ((c.bump (bunOd b 0x1A) (old + b2n bad)).setBundle b
      { x with opens := (x.opens.filter fun o => o.vl != vl) ++ [f], sel := some vl })

/-- DATA_BLOCK (R62-R64): 8 bytes of the selected frame, which completes it when its length is reached. The units of a frame that was discarded at the
link are not granted back (log entry 113). -/
def execDataBlock (l : Fin 512) (bytes : List Byte) (s : State) : Host.Outcome State Fault Refusal :=
  match s.dev.chip.streamBlock l.val with
  | none => ok s s.dev.chip
  | some c =>
    let b := c.laneBundle l.val
    let x := c.bundle b
    match x.sel.bind fun v => x.opens.find? fun o => o.vl == v with
    | none => ok s (c.bump (bunOd b 0x1A) 1)
    | some o =>
      let got := o.bytes ++ padTo 8 bytes
      let rest := x.opens.filter fun p => p.vl != o.vl
      if got.length < o.length then
        ok s (c.setBundle b { x with opens := rest ++ [{ o with bytes := got }] })
      else
        let c1 := c.setBundle b { x with opens := rest, sel := none }
        ok s (if o.drop then c1 else c1.frameIn b o.vl (got.take o.length))

/-- RESUME_BLOCK (R63, R64). -/
def execResumeBlock (l : Fin 512) (body : BitVec 56) (s : State) : Host.Outcome State Fault Refusal :=
  match s.dev.chip.streamBlock l.val with
  | none => ok s s.dev.chip
  | some c =>
    let b := c.laneBundle l.val
    let vl := bits body.toNat 54 2
    let x := c.bundle b
    if x.opens.any fun o => o.vl == vl then ok s (c.setBundle b { x with sel := some vl })
    else ok s (c.bump (bunOd b 0x1A) 1)

/-- CREDIT (R65): the partner's totals; not read on INGEST bundles. -/
def execCredit (l : Fin 512) (body : BitVec 56) (s : State) : Host.Outcome State Fault Refusal :=
  match s.dev.chip.streamBlock l.val with
  | none => ok s s.dev.chip
  | some c =>
    let b := c.laneBundle l.val
    if c.credited b && c.carries b then
      let x := c.bundle b
      let t := [bits body.toNat 32 16, bits body.toNat 16 16, bits body.toNat 0 16]
      let old := x.partner.getD [0, 0, 0]
      -- a total that grew starts its lane's credit timer anew (R154)
      let at_ := List.zipWith (fun (e : Nat × Nat) since => if e.1 = e.2 then since else c.lc) (t.zip old) x.creditAt
      ok s ((c.setBundle b { x with partner := some t, creditAt := at_ }).showCredit b)
    else ok s c

/-- UNKNOWN_CONTROL_BLOCK (R55): counted, otherwise IDLE. -/
def execUnknownControlBlock (l : Fin 512) (_type : BitVec 8) (s : State) : Host.Outcome State Fault Refusal :=
  let c := s.dev.chip
  let b := c.laneBundle l.val
  if c.laneState l.val = 0x0A && 4 ≤ c.laneRate l.val && b < 256 then ok s (c.bump (bunOd b 0x1C) 1) else ok s c

/-- INVALID_SYNC_HEADER (R55, R76, R79): counted; the frame that is being received is a protocol discard. What still arrives of that frame goes with it
and is no further protocol discard (log entry 113). -/
def execInvalidSyncHeader (l : Fin 512) (s : State) : Host.Outcome State Fault Refusal :=
  let l := l.val
  let c0 := s.dev.chip
  let c := (c0.setLane l { c0.lane l with uncorrSince := true }).bump (laneOd l 0x17) 1
  match c.laneState l with
  | 8 => ok s (c.setLane l { c.lane l with errors := (c.lane l).errors + 1 })
  | 0x0A =>
    let b := c.laneBundle l
    let x := c.bundle b
    let c1 := match x.sel.bind fun v => x.opens.find? fun o => o.vl == v with
      | some o =>
        if c.rxMember l then
          (c.bump (bunOd b 0x1A) (b2n (!o.drop))).setBundle b
            { x with opens := (x.opens.filter fun p => p.vl != o.vl) ++ [{ o with drop := true }] }
        else c
      | none => c
    ok s (if c1.laneRate l = 4 || c1.laneRate l = 5 then c1.healthEvent l else c1)
  | _ => ok s c

/-! ### Fixed rows (R56-R59, R66, R67) -/

/-- STATUS (R59, R66, R67): the partner's receiver state, and a QL seen three times in a row is passed on. -/
def execStatus (l : Fin 512) (body : BitVec 56) (s : State) : Host.Outcome State Fault Refusal :=
  let l := l.val
  let c := s.dev.chip
  if c.laneState l ≠ 0x0A then ok s c
  else
    let x := c.lane l
    let q := bits body.toNat 52 4
    let n := if x.qlSeen.1 = q then Nat.min 3 (x.qlSeen.2 + 1) else 1
    let c1 := c.setLane l { x with partnerUp := bitAt body.toNat 10, partnerSkew := bitAt body.toNat 11, qlSeen := (q, n) }
    let b := c1.laneBundle l
    ok s (if n = 3 then (if b < 256 then c1.wr (bunOd b 0x21) q else c1).laneQl l q else c1)

/-- MARKER (R58): index and skew of the lane; a lag above 180 ns marks it deskew-failed. A MARKER whose bits [55:48] are not 0x5A has no stated
treatment: it is ignored and counted nowhere (log entry 113). -/
def execMarker (l : Fin 512) (body : BitVec 56) (lag10ps : Nat) (s : State) : Host.Outcome State Fault Refusal :=
  let l := l.val
  let c := s.dev.chip
  if c.laneState l ≠ 0x0A || c.laneRate l < 4 || bits body.toNat 48 8 ≠ 0x5A then ok s c
  else
    let late := decide (18000 < lag10ps)
    let c1 := (c.setLane l { c.lane l with index := bits body.toNat 40 6, skewed := late }).wr (laneOd l 0x14)
      (Nat.min 65535 lag10ps)
    ok s (if late then c1.bump (laneOd l 0x1F) 1 else c1)

/-- MEMBERS (R59): one row of the mask for the next marker period; the copy of the lowest lane index counts. -/
def execMembers (l : Fin 512) (row : Nat) (body : BitVec 56) (s : State) : Host.Outcome State Fault Refusal :=
  let c := s.dev.chip
  let b := c.laneBundle l.val
  if c.laneState l.val ≠ 0x0A || c.laneRate l.val < 4 || !(row = 1 || row = 2) || 256 ≤ b then ok s c
  else
    let x := c.bundle b
    let i := (c.lane l.val).index
    let m := bits body.toNat 0 32
    let taken := x.rxRow.any fun e => e.1 == row && e.2 < i
    if taken then ok s c
    else
      let next := if row = 1 then x.rxNext / 2 ^ 32 * 2 ^ 32 + m else x.rxNext % 2 ^ 32 + m * 2 ^ 32
      ok s (c.setBundle b { x with rxNext := next, rxRow := (x.rxRow.filter fun e => e.1 != row) ++ [(row, i)] })

/-- The lanes that may become transmit members (R59), as a mask of indices. -/
def Chip.txMask (c : Chip) (b : Nat) : Nat :=
  ((c.upLanes b).filter fun l =>
    let x := c.lane l
    c.laneRate l == c.rd (bunOd b 0x02) && 4 ≤ c.laneRate l && x.partnerUp && !x.partnerSkew).foldl
    (fun m l => m ||| 2 ^ c.rd (laneOd l 2)) 0

/-- MARKER_PERIOD_START (R56-R59, R65, R80): the rows that are left of the period go by, with their STATUS and rate-match rows, and row 0 of the next
one begins. The announced masks take effect, each mask that changes one membership change, the receive mask here too although it counts from the
partner's marker (log entry 113); the bundle state is evaluated, and every lane that sends rows sends MARKER and the two MEMBERS rows. -/
def execMarkerPeriodStart (b : Fin 256) (s : State) : Host.Outcome State Fault Refusal :=
  let b := b.val
  let c0 := s.dev.chip
  if !c0.bundleOn b then ok s c0
  else
    let c := if (c0.bundle b).marker.isSome then c0.periodOut b else c0
    let x := c.bundle b
    let lanes := c.rowLanes b
    let changed := b2n (c.rd (bunOd b 0x11) != x.txNext) + b2n (c.rd (bunOd b 0x12) != x.rxNext)
    let c1 := ((c.wr (bunOd b 0x11) x.txNext).wr (bunOd b 0x12) x.rxNext).bump (bunOd b 0x1D) changed
    let m := if lanes.isEmpty then none else some (match x.marker with | none => 0 | some n => (n + 1) % 2 ^ 32)
    let next := c1.txMask b
    let mark := fun l => 0x5A * 2 ^ 48 + c.rd (laneOd l 2) % 64 * 2 ^ 40 + b * 2 ^ 32 + m.getD 0
    let c2 := c1.setBundle b { x with rxRow := [], marker := m, txNext := next, row := 3, col := 0, rowTime := 0 }
    let c3 := ((c2.sendBlocks lanes 0x99 mark).sendBlocks lanes 0xB4 fun _ => next % 2 ^ 32).sendBlocks lanes 0xB4
      fun _ => next / 2 ^ 32
    ok s (c3.bundleSettle b)

/-- CREDIT_RETURN_INTERVAL (R65). -/
def execCreditReturnInterval (b : Fin 256) (s : State) : Host.Outcome State Fault Refusal :=
  let c := s.dev.chip
  if c.credited b.val && c.carries b.val then ok s (c.sendCredit b.val) else ok s c

/-! ### Frames that leave (R64, R65, R146, R147, R152, R154) -/

/-- FRAME_START (R48, R64, R65): among the virtual lanes whose head may start the arbiter picks one, CONTROL over PEG over SAMPLE, SAMPLE first once its
wait exceeds its aging limit. Its frame starts in the next slot that the lane wins: it interrupts an open frame of less priority. -/
def execFrameStart (b : Fin 256) (s : State) : Host.Outcome State Fault Refusal :=
  let b := b.val
  let c := s.dev.chip
  match c.slotGrant b (c.mayStart b) with
  | none => ok s c
  | some v => ok s (c.startFrame b v)

/-- PEG_FRAME_SEND (R149, R234): when the arbiter picks the PEG lane, up to 16 queued pegs go out in one frame; while another lane comes first it
waits (R47, R64). -/
def execPegFrameSend (b : Fin 256) (s : State) : Host.Outcome State Fault Refusal :=
  let b := b.val
  let c := s.dev.chip
  if c.slotGrant b (c.mayStart b) = some 1 then ok s (c.startFrame b 1) else ok s c

/-- CREDIT_TIMEOUT (R154): a head frame that lacks credit while the partner's total has not grown for OD 2C00.04 is discarded; a NOTE at most once per
second per bundle. -/
def execCreditTimeout (b : Fin 256) (vl : Fin 3) (s : State) : Host.Outcome State Fault Refusal :=
  let b := b.val
  let c0 := s.dev.chip
  if (c0.headFrame b vl.val).isNone || !c0.carries b || !c0.credited b || c0.mayStart b vl.val then ok s c0
  else
    let c := c0.untilLc ((c0.bundle b).creditAt.getD vl.val 0 + c0.rd (od 0x2C00 0x04) * 1000)
    let x := (c.bundle b).popHead vl.val
    let due := match x.noted with | none => true | some t => decide (t + second ≤ c.lc)
    let c1 := c.setBundle b { x with noted := if due then some c.lc else x.noted, creditAt := x.creditAt.set vl.val c.lc }
    let c2 := match c1.peerOf b with | some (p, _) => c1.bump (peerOd p 0x1C) 1 | none => c1
    ok s (if due then c2.countFault .note (od 0x2C00 0x1B) 0 else c2.bump (od 0x2C00 0x1B) 1)

end Sys2Proof.Machine
end

