-- ==== Sys2Proof/Machine/Trigger.lean ====
section
/-! DEFINITION. The trigger blocks from pegs to captures (R232-R246): the peg producer and the
log, coincidence groups, trigger machines, decisions, capture slots and freezes. -/

namespace Sys2Proof.Machine

/-! ### Windows of accepted numbers (R95, R156) -/

/-- What a window of accepted numbers says of a number. -/
inductive Judged where
  | fresh (skipped : Nat)
  | recovered
  | duplicate
  | old
  deriving DecidableEq, Repr

/-- A number judged against the highest accepted one and the map of the last `w`, modulo `m`; the window with it accepted. -/
def judge (m w : Nat) (st : Option (Nat × Nat)) (q : Nat) : Judged × Option (Nat × Nat) :=
  match st with
  | none => (.fresh 0, some (q, 1))
  | some (h, map) =>
    let d := (q + m - h) % m
    let back := (h + m - q) % m
    if 0 < d && d < m / 2 then
      (.fresh (d - 1), some (q, if w ≤ d then 1 else (map * 2 ^ d + 1) % 2 ^ w))
    else if back < w then
      if bitAt map back then (.duplicate, st) else (.recovered, some (h, map + 2 ^ back))
    else (.old, st)

/-! ### The position among the positions -/

/-- The MESH bundles to both sides of every peer position (R142). -/
def Chip.meshBundles (c : Chip) : List Nat :=
  (List.range 128).filterMap fun i =>
    if i / 2 = c.node then none
    else
      let b := c.rd (peerOd (i / 2) (1 + i % 2))
      if b < 256 then some b else none

/-- The TWIN bundle, when the position is twinned (R431). -/
def Chip.twinBundle (c : Chip) : Option Nat :=
  if c.on (od 0x5400 0x01) && c.rd (od 0x5400 0x02) < 256 then some (c.rd (od 0x5400 0x02)) else none

/-- A CONTROL message queued on a bundle (R150). -/
def Chip.queueControl (c : Chip) (b type msgId : Nat) (body : List Byte) : Chip :=
  c.setBundle b ((c.bundle b).addControl c.lc ⟨c.trussFrame 3 (c.farEnd b) type (beBytes 6 msgId ++ body), 0, false⟩)

/-- A mirror message to the partner (R436). -/
def Chip.mirror (c : Chip) (type : Nat) (body : List Byte) : Chip :=
  match c.twinBundle with
  | none => c
  | some b =>
    let n := sget (fun _ => 0) c.twin.ids type
    ({ c with twin := { c.twin with ids := sset (fun _ => 0) c.twin.ids type ((n + 1) % 2 ^ 48) } }.queueControl b type n body).bump
      (od 0x5400 0x22) 1

/-- The chip carries the duties of its position: untwinned, or the lead (R433, R435). -/
def Chip.leads (c : Chip) : Bool := c.role == 0 || c.role == 2

/-! ### Pegs (R232-R235) -/

/-- The 16 bytes of a peg (R232). -/
def pegBytes (tick seq kind flags detail amp : Nat) : List Byte :=
  beBytes 8 tick ++ (beBytes 2 seq ++ (beBytes 1 (kind * 16 + flags % 16) ++ (beBytes 3 detail ++ beBytes 2 amp)))

/-- TICK of a peg. -/
def Peg.tick (p : Peg) : Nat := beAt p.bytes 0 8
/-- SEQ of a peg. -/
def Peg.seq (p : Peg) : Nat := beAt p.bytes 8 2
/-- KIND of a peg. -/
def Peg.kind (p : Peg) : Nat := beAt p.bytes 10 1 / 16
/-- FLAGS of a peg. -/
def Peg.flags (p : Peg) : Nat := beAt p.bytes 10 1 % 16
/-- DETAIL of a peg. -/
def Peg.detail (p : Peg) : Nat := beAt p.bytes 11 3
/-- AMPLITUDE of a peg. -/
def Peg.amplitude (p : Peg) : Nat := beAt p.bytes 14 2

/-- The key of a peg (R232). -/
def Peg.key (p : Peg) : Nat :=
  match p.kind with
  | 2 => p.detail / 2 ^ 12
  | 3 => p.detail / 2 ^ 18
  | _ => p.detail / 2 ^ 10

/-- A peg entered in the peg log (R235), which raises source 8 (R314). -/
def Chip.logPeg (c : Chip) (p : Peg) (side : Nat) (own : Bool) : Chip :=
  let n := c.rd (od 0x3800 0x1F)
  let e := p.bytes ++ (beBytes 1 (p.pos * 4 + side * 2 + b2n own) ++ (beBytes 7 0 ++ beBytes 8 c.lc))
  let c1 := { c with trigger := { c.trigger with log := sset (fun _ => []) c.trigger.log (n % 32768) e } }
  (c1.bump (od 0x3800 0x1F) 1).irq 8

/-- A peg queued for every peer, on bundles whose queue of 64 is not full (R234). -/
def Chip.sendPeg (c : Chip) (bytes : List Byte) : Chip :=
  c.meshBundles.foldl (fun a b =>
    let x := a.bundle b
    if 64 ≤ x.pegs.length then a.bump (od 0x3800 0x13) 1
    else a.setBundle b (x.addPeg a.lc bytes)) c

/-! ### Coincidence groups (R236, R237) -/

/-- Number of groups that apply at a tick. -/
def Chip.groupCount (c : Chip) (t : Nat) : Nat := beAt ((c.asOf t).table (od 0x6008 0)) 0 2

/-- Row of a group that applies at a tick. -/
def Chip.groupRow (c : Chip) (t g : Nat) : List Byte := sliceZ ((c.asOf t).table (od 0x6008 0)) (8 + 32 * g) 32

/-- A peg matches the row of a group (R236). -/
def pegMatches (r : List Byte) (p : Peg) : Bool :=
  1 ≤ p.kind && p.kind ≤ 4 && bitAt (beAt r 0 1) p.kind && p.flags &&& (beAt r 3 1 % 16) == 0 && bitAt (beAt r 4 8) p.pos &&
  beAt r 12 2 ≤ p.key && p.key ≤ beAt r 14 2 && (p.key &&& beAt r 16 2) == beAt r 18 2 && beAt r 20 2 ≤ p.amplitude

/-- HOLD of a group. -/
def rowHold (r : List Byte) : Nat := beAt r 28 4

/-- A group. -/
def Chip.group (c : Chip) (g : Nat) : Group := sget (fun _ => Group.atReset) c.trigger.groups g

/-- A group set. -/
def Chip.setGroup (c : Chip) (g : Nat) (x : Group) : Chip :=
  { c with trigger := { c.trigger with groups := sset (fun _ => Group.atReset) c.trigger.groups g x } }

/-- The order in which a group takes pegs: tick, producing position, SEQ (R237). -/
def pegBefore (a b : Peg) : Bool :=
  if a.tick ≠ b.tick then decide (a.tick < b.tick)
  else if a.pos ≠ b.pos then decide (a.pos < b.pos) else decide (a.seq ≤ b.seq)

/-- A peg put in its place among those that wait. -/
def pegInsert (p : Peg) : List Peg → List Peg
  | [] => [p]
  | q :: t => if pegBefore q p then q :: pegInsert p t else p :: q :: t

/-- The horizon of a group passed the peg's tick in an earlier cycle, or the group has taken pegs beyond it (R237). -/
def Chip.pegLate (c : Chip) (g : Nat) (r : List Byte) (p : Peg) : Bool :=
  decide (p.tick < (c.group g).taken) ||
    (0 < c.lc && decide (p.tick + rowHold r ≤ c.tickAt (c.lc - 1)))

/-- A peg handed to the groups whose rows it matches; found late, it is counted once (R237). -/
def Chip.toGroups (c : Chip) (p : Peg) : Chip :=
  if !c.on (od 0x3800 0x01) then c
  else
    let hits := (List.range (c.groupCount p.tick)).filter fun g => pegMatches (c.groupRow p.tick g) p
    let late := hits.filter fun g => c.pegLate g (c.groupRow p.tick g) p
    let c1 := (hits.filter fun g => !late.contains g).foldl
      (fun a g => a.setGroup g { a.group g with waiting := pegInsert p (a.group g).waiting }) c
    if late.isEmpty then c1 else c1.bump (od 0x3800 0x14) 1

/-- The position's own peg with its SEQ goes to the groups (not a MACHINE peg), the log, and the peers when OD 3800.05 selects its
KIND (R233, R239). -/
def Chip.spreadPeg (c : Chip) (p : Peg) : Chip :=
  let c1 := if p.kind = 3 then c else c.toGroups p
  let c2 := c1.logPeg p c.side true
  if bitAt (c2.rd (od 0x3800 0x05)) p.kind then c2.sendPeg p.bytes else c2

/-- The peg producer numbers a peg; a lead also mirrors it (R233, R437). -/
def Chip.numberPeg (c : Chip) (tick kind flags detail amp : Nat) : Chip :=
  let n := c.trigger.seq
  let b := pegBytes tick n kind flags detail amp
  let c1 := ({ c with trigger := { c.trigger with seq := (n + 1) % 65536 } }.bump (od 0x3800 0x12) 1).spreadPeg ⟨b, c.node⟩
  if c1.role = 2 then c1.mirror 0x12 (beBytes 1 1 ++ (beBytes 7 0 ++ b)) else c1

/-- A peg made by a detector, a machine or the soft-peg object (R233). A shadow keeps it in its standby queue (R437), and so
does a new lead that waits for the old one's last peg SEQ (R442); a side that seeks its partner makes none. -/
def Chip.makePeg (c : Chip) (tick kind flags detail amp : Nat) : Chip :=
  if c.leads && !c.twin.waiting then c.numberPeg tick kind flags detail amp
  else if c.role = 1 then c
  else { c with trigger := { c.trigger with
           standby := c.trigger.standby ++ [(⟨pegBytes tick 0 kind flags detail amp, c.node⟩, c.lc)] } }

/-! ### Captures (R243-R246) -/

/-- State of a capture slot, OD 3800.31+k. -/
def Chip.slotState (c : Chip) (k : Fin 8) : Nat := c.rd (od 0x3800 (0x31 + k.val))

/-- A slot's state set. -/
def Chip.slotTo (c : Chip) (k : Fin 8) (st : Nat) : Chip := c.wr (od 0x3800 (0x31 + k.val)) st

/-- The eight slots. -/
def allSlots : List (Fin 8) := [0, 1, 2, 3, 4, 5, 6, 7]

/-- Some slot is HOLDING. -/
def Chip.holding (c : Chip) : Bool := allSlots.any fun k => c.slotState k == 1

/-- First tick of the first spectrum that the ingest front has not reached. -/
def Chip.nextSpectrumTick (c : Chip) : Nat := (c.reached / c.fft + 1) * c.fft

/-- A freeze or a release is scheduled (R245). -/
def Chip.scheduleFreeze (c : Chip) (freeze : Bool) : Chip :=
  { c with trigger := { c.trigger with freezeNext := c.trigger.freezeNext ++ [(c.nextSpectrumTick, freeze)] } }

/-- An output stream; an unlisted one is at its reset value. -/
def Chip.outStream (c : Chip) (s : Nat) : OutStream := sget (fun _ => OutStream.atReset) c.outs s

/-- An output stream set. -/
def Chip.setOutStream (c : Chip) (s : Nat) (x : OutStream) : Chip :=
  { c with outs := sset (fun _ => OutStream.atReset) c.outs s x }

/-- Every record of a set or slot that a stream reads out has left (R189). -/
def Chip.readoutEmpty (c : Chip) (unit set_ : Nat) : Bool :=
  c.outs.any fun e => match e.2.reading with | some r => r.unit == unit && r.set_ == set_ && r.left == 0 | none => false

/-- The readout of a set (0 or 1) of a forme, or of a slot (2), stops: what has not been sent is lost (R345). -/
def Chip.stopReadout (c : Chip) (unit set_ : Nat) : Chip :=
  (c.outs.map fun e => e.1).foldl (fun a s =>
    let x := a.outStream s
    match x.reading with
    | none => a
    | some r =>
      if r.unit = unit && r.set_ = set_ then
        (a.bump (od (0x4500 + s) 0x12) r.left).setOutStream s { x with reading := none, gap := x.gap || r.left != 0 }
      else a) c

/-- A slot becomes FREE; its readout stops; when no slot is HOLDING any more the estimates are to be released (R244, R245). -/
def Chip.freeSlot (c : Chip) (k : Fin 8) : Chip :=
  let was := c.holding
  let c0 := c.stopReadout k.val 2
  let c1 := { c0.slotTo k 0 with trigger := { c0.trigger with slots := c0.trigger.slots.set k none,
                                                              ready := c0.trigger.ready.filter fun j => j != k } }
  if was && !c1.holding then c1.scheduleFreeze false else c1

/-- Captures freeze the estimates of a selection bit at a tick (R245). -/
def Chip.frozenAt (c : Chip) (bit t : Nat) : Bool :=
  c.trigger.freezes.any fun f => bitAt f.sel bit && f.first ≤ t && (match f.past with | none => true | some e => t < e)

/-- The oldest tick still held by the transient ring (R243). -/
def Chip.oldestTick (c : Chip) : Nat :=
  let w := c.writer.high.getD 0
  Nat.max ((w / 1024 + 2 - c.writer.cur.rows) * 1024) (c.rd (od 0x2400 0x06))

/-- A decision applied to the capture (R243); it raises source 9 (R314). -/
def Chip.applyDecision (c0 : Chip) (d : Decision) (source msgId : Nat) : Chip :=
  let c := c0.irq 9
  let a := d.tick - d.pre
  let b := d.tick + d.post
  let merged := allSlots.any fun k => match c.trigger.slots[k] with
    | some x => x.lo ≤ a && b ≤ x.hi
    | none => false
  if merged then c.bump (od 0x3800 0x1A) 1
  else match allSlots.find? fun k => c.slotState k == 0 with
  | some k =>
    let r := c.writer.cur.rows
    let lo := Nat.max a c.oldestTick
    let hi := Nat.min b (lo + r / 2 * 1024 - 1)
    let slot : Slot := ⟨d, source, msgId, lo, hi, decide (a < lo), decide (hi < b), c.lc, c.rd (od 0x3800 0x03)⟩
    let first := !c.holding
    let c1 := { c.slotTo k 1 with trigger := { c.trigger with slots := c.trigger.slots.set k (some slot) } }
    let c2 := c1.bump (od 0x3800 0x19) 1
    let c3 := if a < lo || hi < b then c2.bump (od 0x3800 0x1C) 1 else c2
    if first then c3.scheduleFreeze true else c3
  | none => c.countFault .note (od 0x3800 0x1B) 0

/-- Ring rows that a slot holds (R243). -/
def Slot.holds (x : Slot) (row : Nat) : Bool := decide (x.lo / 1024 ≤ row) && decide (row ≤ x.hi / 1024)

/-- Flags of the flag ring over a window, ORed over the enabled streams (R109, R246). -/
def Chip.windowFlags (c : Chip) (lo hi : Nat) : Nat :=
  c.writer.flagRing.foldl (fun a e =>
    if lo / 65536 ≤ e.2.1 && e.2.1 ≤ hi / 65536 then a ||| e.2.2 else a) 0

/-- The capture record (R246). -/
def Chip.captureRecord (c : Chip) (x : Slot) : List Byte :=
  let r := c.writer.cur
  let f := c.windowFlags x.lo x.hi
  let rows := x.hi / 1024 - x.lo / 1024 + 1
  beBytes 8 x.decision.tick ++ (beBytes 8 x.lo ++ (beBytes 8 x.hi ++ (beBytes 4 (x.lo / 1024 % r.rows) ++ (beBytes 4 rows ++
    (beBytes 1 x.source ++ (beBytes 1 x.decision.machine ++ (beBytes 1 x.decision.code ++
    (beBytes 1 (128 * b2n x.clippedPre + 64 * b2n x.clippedPost + 32 * b2n (bitAt f 0) + 16 * b2n (bitAt f 7) +
      8 * b2n x.decision.soft) ++
    (beBytes 6 x.msgId ++ (beBytes 2 r.layout.length ++ (beBytes 4 r.rowSize ++ (beBytes 8 x.accepted ++ beBytes 8 c.lc))))))))))))

/-- CAPTURE_READY (R244, R246): the writer has stored the window's last tick. -/
def execCaptureReady (k : Fin 8) (s : State) : Host.Outcome State Fault Refusal :=
  let c := s.dev.chip
  match c.trigger.slots[k] with
  | none => ok s c
  | some x =>
    let staged := c.streams.any fun e => e.2.staged.any fun y => decide (y.1 ≤ x.hi)
    if c.slotState k = 1 && (match c.writer.high with | some w => decide (x.hi ≤ w) | none => false) && !staged then
      let rec_ := c.captureRecord x
      let c0 := { c with trigger := { c.trigger with ready := c.trigger.ready ++ [k] } }
      let c1 := ((c0.slotTo k 2).wrDom (od 0x3800 (0x41 + k.val)) rec_).irq 7
      let c2 := if c1.holding then c1 else c1.scheduleFreeze false
      ok s (c2.event 0x0002 (beBytes 1 k.val ++ (beBytes 7 0 ++ rec_)))
    else ok s c

/-- RELEASE_SLOT: 1 written to OD 3800.51+k (R244). -/
def execReleaseSlot (sess : Fin 9) (k : Fin 8) (s : State) : Host.Outcome State Fault Refusal :=
  ok s (s.dev.chip.request sess.val (od 0x3800 (0x51 + k.val)) (.num 1) fun c =>
    (if c.slotState k = 0 then c else c.freeSlot k, .ok))

/-- HOLD_LIMIT_EXPIRY (R244). -/
def execHoldLimitExpiry (k : Fin 8) (s : State) : Host.Outcome State Fault Refusal :=
  let c := s.dev.chip
  if c.slotState k = 0 then ok s c
  else
    let c1 := match c.trigger.slots[k] with | some x => c.untilLc (x.accepted + x.limit * 1000000) | none => c
    ok s ((c1.freeSlot k).countFault .note (od 0x3800 0x1D) 0)

/-- A change of the DC blocker handed to every stream that is not OFF (R103, R245). -/
def Chip.dcAll (c : Chip) (t value : Nat) : Chip :=
  { c with streams := c.streams.map fun e =>
      if e.2.st = .off then e else (e.1, { e.2 with dcChanges := e.2.dcChanges ++ [⟨t, true, value⟩] }) }

/-- CAPTURE_FREEZE (R245): the selected estimates freeze, or those that were frozen are released, from the scheduled spectrum on. -/
def execCaptureFreeze (s : State) : Host.Outcome State Fault Refusal :=
  let c := s.dev.chip
  match c.trigger.freezeNext with
  | [] => ok s c
  | (t, true) :: rest =>
    let sel := c.rd (od 0x3800 0x02) % 8
    let c1 := { c with trigger := { c.trigger with freezeNext := rest, freezes := ⟨t, none, sel⟩ :: c.trigger.freezes } }
    ok s (if bitAt sel 0 then c1.dcAll t 1 else c1)
  | (t, false) :: rest =>
    let dc := c.trigger.freezes.any fun f => f.past.isNone && bitAt f.sel 0
    let closed := c.trigger.freezes.map fun f => if f.past.isNone then { f with past := some t } else f
    let c1 := { c with trigger := { c.trigger with freezeNext := rest, freezes := closed } }
    ok s (if dc then c1.dcAll t 0 else c1)

/-! ### Decisions (R241, R242) -/

/-- The 24-byte body of a decision (R241). -/
def Decision.bytes (d : Decision) : List Byte :=
  beBytes 8 d.tick ++ (beBytes 4 d.pre ++ (beBytes 4 d.post ++ (beBytes 1 d.machine ++ (beBytes 1 d.code ++
    (beBytes 1 (b2n d.soft) ++ beBytes 5 0)))))

/-- A decision read from its body. -/
def readDecision (b : List Byte) : Decision :=
  ⟨beAt b 0 8, beAt b 8 4, beAt b 12 4, beAt b 16 1 % 64, beAt b 17 1, bitAt (beAt b 18 1) 0⟩

/-- A decision sent to both sides of every peer, and to the twin partner (R241). -/
def Chip.sendDecision (c : Chip) (d : Decision) (msgId : Nat) (twin : Bool) : Chip :=
  let c1 := c.meshBundles.foldl (fun a b => a.queueControl b 0x02 msgId d.bytes) c
  match c.twinBundle with
  | some b => if twin then (c1.queueControl b 0x02 msgId d.bytes).bump (od 0x5400 0x22) 1 else c1
  | none => c1

/-- A decision issued: applied here at once, counted, sent (R241). -/
def Chip.issue (c : Chip) (d : Decision) : Chip :=
  let n := c.trigger.msgId
  let c1 := ({ c with trigger := { c.trigger with msgId := (n + 1) % 2 ^ 48 } }.bump (od 0x3800 0x17) 1).applyDecision d c.node n
  c1.sendDecision d n true

/-- A machine's decision: issued, or at a shadow suppressed and kept (R241, R438). -/
def Chip.decide_ (c : Chip) (d : Decision) : Chip :=
  if c.leads then c.issue d
  else if c.role = 1 then c
  else { c.bump (od 0x3800 0x18) 1 with trigger := { c.trigger with suppressed := c.trigger.suppressed ++ [(d, c.lc)] } }

/-- SOFT_PEG: OD 3800.0D (R242); a position that does not run produces no peg. -/
def Chip.softPeg (c : Chip) (b : List Byte) : Chip × Status :=
  if b.length ≠ 16 then (c, .range)
  else if !c.on (od 0x3800 0x01) then (c, .ok)
  else (c.makePeg (beAt b 0 8) 4 0 (beAt b 11 3) (beAt b 14 2), .ok)

/-- SOFT_PEG. -/
def execSoftPeg (sess : Fin 9) (peg : List Byte) (s : State) : Host.Outcome State Fault Refusal :=
  ok s (s.dev.chip.request sess.val (od 0x3800 0x0D) (.bytes peg) fun c => c.softPeg peg)

/-- SOFT_DECISION: OD 3800.0E (R242). -/
def Chip.softDecision (c : Chip) (b : List Byte) : Chip × Status :=
  if b.length ≠ 24 then (c, .range)
  else if c.role = 3 then (c, .state)
  else (c.issue { readDecision b with soft := true }, .ok)

/-- SOFT_DECISION. -/
def execSoftDecision (sess : Fin 9) (body : List Byte) (s : State) : Host.Outcome State Fault Refusal :=
  ok s (s.dev.chip.request sess.val (od 0x3800 0x0E) (.bytes body) fun c => c.softDecision body)

/-! ### Trigger machines (R238-R240) -/

/-- Table body of a machine that applies at a tick. -/
def Chip.machineBody (c : Chip) (t m : Nat) : List Byte := (c.asOf t).table (od 0x6009 (m + 1))

/-- The transitions of a machine's table. -/
def transitions (b : List Byte) : List (List Byte) := (List.range (beAt b 2 2)).map fun i => sliceZ b (24 + 12 * i) 12

/-- A transition names a group event. -/
def namesGroup (r : List Byte) : Option Nat := if beAt r 1 1 / 64 = 0 then some (beAt r 2 1) else none

/-- A machine. -/
def Chip.machine (c : Chip) (m : Nat) : TrigMachine := sget (fun _ => TrigMachine.atReset) c.trigger.machines m

/-- A machine set, and its state shown in OD 3801.01+m. -/
def Chip.setMachine (c : Chip) (m : Nat) (x : TrigMachine) : Chip :=
  { c with trigger := { c.trigger with machines := sset (fun _ => TrigMachine.atReset) c.trigger.machines m x } }.wr
    (od 0x3801 (m + 1)) x.state

/-- An event handed to the machines whose transitions name the group (R239); events before a table's first tick are not for it. -/
def Chip.groupEvent (c : Chip) (g t amp : Nat) : Chip :=
  (List.range 64).foldl (fun a m =>
    let b := a.machineBody t m
    let x := a.machine m
    if x.from_ ≤ t && (transitions b).any fun r => namesGroup r == some g then
      a.setMachine m { x with events := x.events ++ [⟨t, false, g, amp⟩] }
    else a) c

/-- Held pegs counted under DISTINCT (R236, R237). -/
def distinctCount (mode : Nat) (l : List Peg) : Nat :=
  match mode with
  | 0 => l.length
  | 1 => (l.map fun p => (p.pos, p.key)).dedup.length
  | _ => (l.map fun p => p.pos).dedup.length

/-- GROUP_TAKE_PEG (R237, R240): the group's horizon reaches the first peg that waits; a new table has it drop the held ones first. -/
def execGroupTakePeg (g : Fin 256) (s : State) : Host.Outcome State Fault Refusal :=
  let c := s.dev.chip
  let x := c.group g.val
  match x.waiting with
  | [] => ok s c
  | p :: rest =>
    if !c.on (od 0x3800 0x01) then ok s c
    else
      let t := p.tick
      let r := c.groupRow t g.val
      let old := if x.clears.any fun k => k ≤ t then [] else x.held
      let clears := x.clears.filter fun k => t < k
      let kept := (old.filter fun q => decide (t < q.tick + beAt r 24 4)) ++ [p]
      let full := decide (256 < kept.length)
      let held := if full then kept.drop 1 else kept
      let c0 := c.untilTick (t + beAt r 28 4)
      let c1 := if full then c0.bump (od 0x3800 0x16) 1 else c0
      if beAt r 2 1 ≤ distinctCount (beAt r 1 1) held then
        let amp := held.foldl (fun a q => Nat.max a q.amplitude) 0
        ok s ((c1.setGroup g.val ⟨rest, [], t, clears⟩).groupEvent g.val t amp)
      else ok s (c1.setGroup g.val ⟨rest, held, t, clears⟩)

/-- The order of a machine's events: tick, group events before timer expiries, number (R239). -/
def evBefore (a b : MachineEv) : Bool :=
  if a.tick ≠ b.tick then decide (a.tick < b.tick)
  else if a.timer != b.timer then b.timer else decide (a.number ≤ b.number)

/-- The first of a list of events. -/
def firstEv (l : List MachineEv) : Option MachineEv :=
  l.foldl (fun b e => match b with | none => some e | some f => if evBefore f e then some f else some e) none

/-- A timer stopped: its expiry that the machine has not taken goes with it. -/
def TrigMachine.stop (x : TrigMachine) (i : Nat) : TrigMachine :=
  { x with timers := x.timers.set i none, events := x.events.filter fun e => !(e.timer && e.number == i) }

/-- The actions of a transition at an event (R239): MARK, STOP, START, EMIT, DECIDE, then the move to TO. -/
def Chip.transit (c : Chip) (m : Nat) (body r : List Byte) (e : MachineEv) : Chip :=
  let act := beAt r 4 1
  let tm := bits act 1 2
  let code := beAt r 5 1
  let to_ := beAt r 3 1 / 8
  let x0 := c.machine m
  let x1 := if bitAt act 3 then { x0 with mark := e.tick } else x0
  let x2 := if bitAt act 4 then x1.stop tm else x1
  let x3 := if bitAt act 5 then
      let y := x2.stop tm
      { y with timers := y.timers.set tm (some (e.tick + beAt r 8 4)) }
    else x2
  let c1 := c.setMachine m x3
  let c2 := if bitAt act 6 then
      c1.makePeg e.tick 3 0 (m * 2 ^ 18 + to_ * 2 ^ 13 + code) (if e.timer then 0 else e.amplitude)
    else c1
  let decider := beAt body 4 1
  let c3 := if bitAt act 7 && (decider == 0xFF || decider == c.node) then
      c2.decide_ ⟨x3.mark, beAt body 16 4, beAt body 20 4, m, code, false⟩
    else c2
  c3.setMachine m { c3.machine m with state := to_ }

/-- Groups that a machine names which still have a peg to take at or before a tick (R239). -/
def Chip.groupsBehind (c : Chip) (body : List Byte) (t : Nat) : Bool :=
  (transitions body).any fun r => match namesGroup r with
    | some g => (c.group g).waiting.any fun p => p.tick ≤ t
    | none => false

/-- A machine restarts at the tick of a new table (R240): in INITIAL, timers stopped, its mark that tick; events of later ticks stay. -/
def Chip.restartMachine (c : Chip) (m t : Nat) : Chip :=
  let x := c.machine m
  c.setMachine m { TrigMachine.atReset with
    state := beAt (c.machineBody t m) 1 1, mark := t, from_ := t, restarts := x.restarts.filter fun k => t < k,
    events := x.events.filter fun e => !e.timer && decide (t ≤ e.tick) }

/-- The next event of a machine: a timer that expires before the first that waits is the next event itself. -/
def TrigMachine.nextEvent (x : TrigMachine) : Option MachineEv :=
  match firstEv x.events with
  | none => none
  | some e0 => firstEv (((List.range 4).filterMap fun i => match x.timers.getD i none with
      | some t => if t ≤ e0.tick then some (⟨t, true, i, 0⟩ : MachineEv) else none
      | none => none) ++ [e0])

/-- The restart of a machine that comes before its next event; with none waiting, once the horizon of the old table has passed it. -/
def Chip.restartDue (c : Chip) (m : Nat) : Option Nat :=
  let x := c.machine m
  match x.nextEvent with
  | some e => (x.restarts.filter fun t => t ≤ e.tick).getLast?
  | none => (x.restarts.filter fun t => t + beAt (c.machineBody (t - 1) m) 8 4 ≤ c.tick).getLast?

/-- MACHINE_EVENT (R239, R240): the machine restarts where a new table's tick comes first, then takes its next event. -/
def execMachineEvent (m : Fin 64) (s : State) : Host.Outcome State Fault Refusal :=
  let c := match s.dev.chip.restartDue m.val with | some t => s.dev.chip.restartMachine m.val t | none => s.dev.chip
  let x := c.machine m.val
  match x.nextEvent with
  | none => ok s c
  | some e =>
    let body := c.machineBody e.tick m.val
    if !c.on (od 0x3800 0x01) || c.groupsBehind body e.tick then ok s c
    else
      let y := if e.timer then { x with timers := x.timers.set e.number none, events := x.events.erase e }
        else { x with events := x.events.erase e }
      let c1 := (c.untilTick (e.tick + beAt body 8 4)).setMachine m.val y
      match (transitions body).find? fun r =>
          beAt r 0 1 / 8 == y.state && beAt r 1 1 / 64 == b2n e.timer && beAt r 2 1 == e.number with
      | none => ok s c1
      | some r => ok s (c1.transit m.val body r e)

/-- MACHINE_TIMER_EXPIRY (R239): a running timer becomes an event. -/
def execMachineTimerExpiry (m : Fin 64) (timer : Fin 4) (s : State) : Host.Outcome State Fault Refusal :=
  let c := s.dev.chip
  let x := c.machine m.val
  match x.timers.getD timer.val none with
  | none => ok s c
  | some t =>
    ok s ((c.untilTick t).setMachine m.val { x with timers := x.timers.set timer.val none, events := x.events ++ [⟨t, true, timer.val, 0⟩] })

/-- The parts of a group's row that have a meaning (R6, R236). -/
def groupFields (r : List Byte) : List Nat := [beAt r 0 3, beAt r 3 1 % 16, beAt r 4 18, beAt r 24 8]

/-- The parts of a machine's table that have a meaning (R6, R238). -/
def machineFields (b : List Byte) : List Nat :=
  [b.length, beAt b 0 5, beAt b 8 4, beAt b 16 8] ++ (transitions b).flatMap fun r =>
    [beAt r 0 1 / 8, beAt r 1 1 / 64, beAt r 2 1, beAt r 3 1 / 8, beAt r 4 1 / 2, beAt r 5 1, beAt r 8 4]

/-- A new table of a machine from an effect tick (R240): a machine that had one serves the events before that tick first (log entry 121). -/
def Chip.newMachine (c : Chip) (m t : Nat) (old new : List Byte) : Chip :=
  if machineFields old = machineFields new then c
  else if old.isEmpty then c.restartMachine m t
  else
    let x := c.machine m
    c.setMachine m { x with restarts := x.restarts ++ [t] }

/-- A changed group drops the pegs it holds at the tick of its new table (R240). -/
def Chip.clearGroup (c : Chip) (g t : Nat) : Chip :=
  let x := c.group g
  c.setGroup g { x with clears := x.clears ++ [t] }

end Sys2Proof.Machine
end

