-- ==== Sys2Proof/Machine/Ingest.lean ====
section
/-! DEFINITION. Ingest: frames, duplicates, release, DC blocker, unifier, coarse delay, the transient buffer writer (R86-R113, R491),
and the L0 detector (R218-R224). -/

namespace Sys2Proof.Machine

/-! ### Streams -/

/-- OD 9000+s.sub. -/
def strOd (s sub : Nat) : Nat := od (0x9000 + s) sub

/-- Code of a stream state (R93). -/
def StreamSt.code : StreamSt → Nat
  | .off => 0 | .wait => 1 | .run => 2 | .stall => 3

/-- A stream set, with its state, H and release point shown (OD 9000+s.01 to .03). -/
def Chip.putStream (c : Chip) (s : Nat) (x : Stream) : Chip :=
  let c1 := ((c.setStream s x).wr (strOd s 1) x.st.code).wr (strOd s 3) (x.release.getD 0)
  match x.dup with
  | some (h, _, _) => c1.wr (strOd s 2) h
  | none => c1

/-- A span of spectra of a stream is unsettled from spectrum `s0` on (R38, R123). -/
def Chip.unsettle (c : Chip) (s s0 : Nat) : Chip :=
  let x := c.stream s
  c.setStream s { x with unsettled := x.unsettled ++ [(s0, s0 + c.taps - 2)] }

/-- An effect spectrum sets STRADDLE on the sticks that hold it or the spectrum before it (R38). -/
def Chip.straddleAt (c : Chip) (s sp : Nat) : Chip :=
  let x := c.stream s
  c.setStream s { x with straddle := x.straddle ++ [sp] }

/-- Coarse delay in force at a tick of the delayed axis (R106). -/
def Chip.delayAt (c : Chip) (s k : Nat) : Nat := (c.asOf k).rd (strOd s 8)

/-- Sample format in force at a delayed tick (R101, R491). -/
def Stream.formatAt (x : Stream) (k : Nat) : Nat :=
  match x.formats.find? fun e => e.1 ≤ k with
  | some e => e.2
  | none => rowFormat x.rowIn

/-! ### The transient buffer writer (R107-R111) -/

/-- Stored width of a format (R107). -/
def formatWidth (f : Nat) : Nat := if f = 1 then 1 else 2

/-- Bytes of a layout: the sum of its widths. -/
def layoutBytes (l : List (Nat × Nat)) : Nat := (l.map fun e => formatWidth e.2).sum

/-- The ring for the enabled rows of an input map, in a partition of `size` bytes at `base`, from tick `t` (R107, R111). -/
def mkRing (body : List Byte) (base size t : Nat) : Ring :=
  let l := (List.range 1024).filterMap fun s =>
    let r := mapRow body s
    if rowOn r then some (s, rowFormat r) else none
  let sz := 1024 * layoutBytes l
  ⟨t, base, sz, if sz = 0 then 0 else 64 * (size / (64 * sz)), l⟩

/-- The layout that holds a tick. -/
def TransientWriter.ringAt (w : TransientWriter) (k : Nat) : Ring :=
  ((w.next.reverse ++ w.cur :: w.prev).find? fun r => r.from_ ≤ k).getD w.cur

/-- Bits set in the flag ring for a stream in the granule of a tick (R109). -/
def Chip.flagGranule (c : Chip) (s k bits : Nat) : Chip :=
  let r := c.writer.ringAt k
  let depth := r.rows / 64
  if depth = 0 || !(r.layout.any fun e => e.1 == s) then c
  else
    let rank := (r.layout.filter fun e => e.1 < s).length
    let g := k / 65536
    let i := g % depth * r.layout.length + rank
    let old := sget (fun _ => (0, 0)) c.writer.flagRing i
    let v := if old.1 = g then old.2 ||| bits else bits
    { c with writer := { c.writer with flagRing := sset (fun _ => (0, 0)) c.writer.flagRing i (g, v) } }

/-- Bytes that the writer stores of a sample (R107): a missing one is 0. -/
def storedBytes (format : Nat) (x : Smp) : List Byte :=
  let b8 := fun (v : Int) => beBytes 1 (ofI (sat 8 (rnd v 8)) 8)
  if x.missing then List.replicate (formatWidth format) 0#8
  else match format with
  | 1 => b8 x.re
  | 2 => beBytes 2 (ofI x.re 16)
  | _ => b8 x.re ++ b8 x.im

/-- Address of a stream's sample of a tick in a ring (R108). -/
def Ring.addr (r : Ring) (s k : Nat) : Nat :=
  let o := layoutBytes (r.layout.filter fun e => e.1 < s)
  let b := layoutBytes (r.layout.filter fun e => e.1 == s)
  r.base + k / 1024 % r.rows * r.rowSize + o * 1024 + k % 1024 * b

/-- The ring row of an absolute row is held by a capture for another absolute row (R110, R243). -/
def Chip.rowHeld (c : Chip) (rows row : Nat) : Bool :=
  allSlots.any fun k => match c.trigger.slots[k] with
    | some x => !x.holds row && (let lo := x.lo / 1024
                                 let hi := x.hi / 1024
                                 let first := lo + (row % rows + rows - lo % rows) % rows
                                 decide (first ≤ hi))
    | none => false

/-- The controller accepts a write unit of partition space now: its pseudo-channel is in no training step and its write queue has room (R262,
R264). -/
def Chip.hbmTakes (c : Chip) (a : Nat) : Bool :=
  match c.translate a with
  | none => true
  | some ro => !c.pcBusy (pcOf (physical ro)) && decide ((c.hbm.pc (pcOf (physical ro))).writes.length < 64)

/-- A sample not written is counted, and its granule marked (R110). -/
def Chip.notWritten (c : Chip) (s k flags : Nat) : Chip := (c.bump (od 0x2400 0x08) 1).flagGranule s k (flags ||| 1)

/-- A sample that meets a held row; a row counts as one pause while it is among the last 64 so met (R110; log entry 119). -/
def Chip.pauseWriter (c : Chip) (s k flags : Nat) : Chip :=
  let row := k / 1024
  let c1 := if c.writer.paused.contains row then c
    else { c.bump (od 0x2400 0x07) 1 with writer := { c.writer with paused := row :: c.writer.paused.take 63 } }
  c1.notWritten s k flags

/-- A sample's bytes reach the ring (R108). -/
def Dev.storeSample (d : Dev) (s k : Nat) (b : List Byte) : Dev :=
  let d1 := d.writeHbm (openUser 4) ((d.chip.writer.ringAt k).addr s k) b false
  let w := d1.chip.writer
  let hi := match w.high with | some h => Nat.max h k | none => k
  { d1 with chip := { d1.chip with writer := { w with high := some hi } } }

/-- The samples of a stream that are staged go out in order while the controller accepts them (R110). -/
def Dev.drainStaged (s : Nat) : List (Nat × List Byte) → Dev → Dev
  | [], d => { d with chip := d.chip.setStream s { d.chip.stream s with staged := [] } }
  | e :: t, d =>
    let r := d.chip.writer.ringAt e.1
    if r.rows = 0 then Dev.drainStaged s t d
    else if d.chip.rowHeld r.rows (e.1 / 1024) then Dev.drainStaged s t { d with chip := d.chip.pauseWriter s e.1 0 }
    else if d.chip.hbmTakes (r.addr s e.1) then Dev.drainStaged s t (d.storeSample s e.1 e.2)
    else { d with chip := d.chip.setStream s { d.chip.stream s with staged := e :: t } }

/-- The staged samples of every stream. -/
def Dev.drainWriter (d : Dev) : Dev :=
  ((d.chip.streams.filter fun e => !e.2.staged.isEmpty).map fun e => e.1).foldl (fun a s => Dev.drainStaged s (a.chip.stream s).staged a) d

/-- A delayed sample reaches the writer (R107-R110): into the ring, or into one of two staging blocks of 1 024 ticks where the controller does
not accept it; with both in use it is not written (log entry 124). -/
def Dev.writeSample (d0 : Dev) (s k : Nat) (x : Smp) : Dev :=
  let d := Dev.drainStaged s (d0.chip.stream s).staged d0
  let c := d.chip
  let r := c.writer.ringAt k
  match r.layout.find? fun e => e.1 == s with
  | none => d
  | some (_, f) =>
    let flags := x.flags ||| (if x.missing then 0x80 else 0)
    let y := c.stream s
    if r.rows = 0 then d
    else if c.rowHeld r.rows (k / 1024) then { d with chip := c.pauseWriter s k flags }
    else if y.staged.isEmpty && c.hbmTakes (r.addr s k) then
      let d1 := d.storeSample s k (storedBytes f x)
      { d1 with chip := d1.chip.flagGranule s k flags }
    else if (k / 1024 :: y.staged.map fun e => e.1 / 1024).dedup.length ≤ 2 then
      { d with chip := (c.setStream s { y with staged := y.staged ++ [(k, storedBytes f x)] }).flagGranule s k flags }
    else { d with chip := c.notWritten s k flags }

/-- A restart of the ring under the map and partition sizes in force, from the first multiple of 1 024 at or after a tick (R111). -/
def Chip.restartRing (c : Chip) (t : Nat) : Chip :=
  let r := mkRing (c.table (od 0x6000 0)) c.transientBase (c.rd (od 0x3C01 0x04)) ((t + 1023) / 1024 * 1024)
  { c with writer := { c.writer with next := c.writer.next ++ [r] } }

/-- A new HBM partition table (R111): the ring starts again where the size of the transient partition changes, and moves with it else. -/
def Chip.ringMoved (c old : Chip) (t : Nat) : Chip :=
  if c.rd (od 0x3C01 0x04) != old.rd (od 0x3C01 0x04) then c.restartRing t
  else
    let w := c.writer
    let move := fun (r : Ring) => ({ r with base := c.transientBase } : Ring)
    { c with writer := { w with cur := move w.cur, next := w.next.map move } }

/-- The restart takes effect: OD 2400.04 to .06 show the new ring, and the flag ring is empty (R111; log entry 115). -/
def Chip.ringRestarted (c : Chip) : Chip :=
  match c.writer.next with
  | [] => c
  | r :: rest =>
    let w := c.writer
    let c1 := { c with writer := { w with cur := r, prev := w.cur :: w.prev, next := rest, flagRing := [], paused := [] } }
    ((c1.wr (od 0x2400 0x04) r.rows).wr (od 0x2400 0x05) (r.rows * 1024)).wr (od 0x2400 0x06) r.from_

/-- TRANSIENT_RING_RESTART (R111). -/
def execTransientRingRestart (s : State) : Host.Outcome State Fault Refusal := ok s s.dev.chip.ringRestarted

/-! ### L0 (R218-R224) -/

/-- Coefficients of the Hilbert filter for m = 1, 3, .. 15 (R221). -/
def hilbert : List Int := [20651, 6343, 3213, 1753, 922, 440, 192, 111]

/-- The L0 profile of a number in a table body (R219); by default TAPS 1, h[0] 0x7FFF. -/
def l0Profile (body : List Byte) (p : Nat) : List Byte :=
  if body.isEmpty then [1#8, 0#8, 0#8, 0#8, 0x7F#8, 0xFF#8] else sliceZ body (68 * p) 68

/-- The band-pass filter over the inputs, newest first, for one part (R220): the exact value before it is clipped. -/
def bandPass (p : List Byte) (part : Smp → Int) (hist : List Smp) : Int :=
  rnd ((List.range (beAt p 0 1)).foldl (fun a j =>
    a + toI (beAt p (4 + 2 * j) 2) 16 * (match hist[j]? with | some x => part x | none => 0)) 0) 15

/-- FLAGS of a peg from the flag bits of a sample (R232). -/
def pegFlags (x : Smp) : Nat :=
  8 * b2n (x.missing || bitAt x.flags 6) + 4 * b2n (bitAt x.flags 4) + 2 * b2n (bitAt x.flags 5) +
    b2n (bitAt x.flags 3 || bitAt x.flags 2)

/-- A pulse ends and makes its peg, within the limit of its granule (R223, R224). -/
def Chip.endPulse (c : Chip) (s k : Nat) (p : Pulse) : Chip :=
  let x := c.stream s
  let cfg := c.asOf k
  let prof := l0Profile (cfg.table (od 0x6006 0)) (cfg.rd (strOd s 0x60) % 8)
  let t := p.peakTick - beAt prof 1 1
  let g := t / 65536
  let made := if x.l0.window = g then x.l0.made else 0
  if made < c.rd (strOd s 0x66) then
    let amp := Nat.min 0xFFFF (rsqrt (p.peak * 65536) (c.rd (strOd s 0x65)) 256)
    let c1 := (c.setStream s { x with l0 := { x.l0 with pulse := none, window := g, made := made + 1 } }).bump (strOd s 0x67) 1
    c1.makePeg t 1 p.flags (rowInput x.rowOut * 1024 + (p.last - p.first) % 256) amp
  else
    (c.setStream s { x with l0 := { x.l0 with pulse := none, window := g, made := made } }).bump (strOd s 0x68) 1

/-- State of the detector, OD 9000+s.6A. -/
def L0.code (d : L0) : Nat :=
  if !d.on then 0 else match d.pulse with
  | some _ => 3
  | none => if d.armed then 2 else 1

/-- L0 shown. -/
def Chip.showL0 (c : Chip) (s : Nat) : Chip := c.wr (strOd s 0x6A) (c.stream s).l0.code

/-- A detector switched on or off (R218, R224): it begins anew, but the pegs of its granule stay counted. -/
def L0.set (l : L0) (on : Bool) : L0 := { L0.atReset with on := on, window := l.window, made := l.made }

/-- L0 takes the delayed sample of tick k (R218-R223). -/
def Chip.l0Sample (c : Chip) (s k : Nat) (smp : Smp) : Chip :=
  let cfg := c.asOf k
  let x := c.stream s
  let ctl := cfg.rd (strOd s 0x60)
  if !(bitAt ctl 7 && cfg.on (od 0x3800 0x01)) then
    if x.l0.on then (c.setStream s { x with l0 := x.l0.set false }).showL0 s else c
  else
    let l := if x.l0.on then x.l0 else x.l0.set true
    let frozen := cfg.rd (strOd s 0x64) == 1 || c.frozenAt 1 k
    let marked := smp.missing || smp.invalid
    let y : Smp := if marked then { smp with re := 0, im := 0 } else smp
    let prof := l0Profile (cfg.table (od 0x6006 0)) (ctl % 8)
    let hist := y :: l.hist.take 31
    let re := bandPass prof Smp.re hist
    let im := bandPass prof Smp.im hist
    let cplx := x.formatAt k == 3
    let v : Smp := { smp with re := sat 16 re, im := sat 16 im, missing := marked }
    let band := v :: l.band.take 30
    let at_ := fun (j : Nat) => (band[j]?).getD Smp.absent
    let q0 := rnd ((List.range 8).foldl (fun a n =>
      a + hilbert.getD n 0 * ((at_ (16 + 2 * n)).re - (at_ (14 - 2 * n)).re)) 0) 15
    let clips := b2n (outside 16 re) + (if cplx then b2n (outside 16 im) else b2n (outside 16 q0))
    let centre := if cplx then v else at_ 15
    let kc := if cplx then k else k - 15
    let q := if cplx then centre.im else sat 16 q0
    let p := (centre.re * centre.re + q * q).toNat
    let mu := c.rd (strOd s 0x65) % 2 ^ 48
    let th := cfg.rd (strOd s 0x61)
    let meets := !centre.missing && mu != 0 && decide (th * th * mu ≤ p * 2 ^ 32)
    let kn := cfg.rd (strOd s 0x62)
    let warm := l.warm + 1
    let armed := l.armed || frozen || decide (4 * 2 ^ kn ≤ warm)
    let learnt := ofI (mu + rnd ((p : Int) * 65536 - mu) kn) 48
    let c1 := c.bump (strOd s 0x69) clips
    let f := pegFlags centre
    match l.pulse with
    | none =>
      if meets && (l.armed || frozen) then
        (c1.setStream s { x with l0 := { l with hist := hist, band := band, warm := warm, armed := armed,
                                                pulse := some ⟨kc, kc, 1, 0, p, kc, f⟩ } }).showL0 s
      else
        let c2 := if centre.missing || frozen then c1 else c1.wr (strOd s 0x65) learnt
        (c2.setStream s { x with l0 := { l with hist := hist, band := band, warm := warm, armed := armed } }).showL0 s
    | some u =>
      let fl := u.flags ||| f
      let better := meets && u.peak < p
      let w : Pulse := { u with
        count := u.count + 1, flags := fl,
        last := if meets then kc else u.last, quiet := if meets then 0 else u.quiet + 1,
        peak := if better then p else u.peak, peakTick := if better then kc else u.peakTick }
      let c2 := c1.setStream s { x with l0 := { l with hist := hist, band := band, warm := warm, armed := armed, pulse := some w } }
      (if cfg.rd (strOd s 0x63) ≤ w.quiet || 256 ≤ w.count then c2.endPulse s k w else c2).showL0 s

/-- L0 of a stream goes into warm-up: the stream starts or resumes (R218). -/
def Chip.l0Warm (c : Chip) (s : Nat) : Chip :=
  let x := c.stream s
  if x.l0.on then (c.setStream s { x with l0 := { x.l0 with warm := 0, armed := false, pulse := none } }).showL0 s else c

/-- L0 of a stream as OD 9000+s.60 and OD 3800.01 now have it, where no samples flow that precede the change (R218). -/
def Chip.l0Set (c : Chip) (s : Nat) : Chip :=
  let x := c.stream s
  let on := bitAt (c.rd (strOd s 0x60)) 7 && c.on (od 0x3800 0x01)
  if x.st == .run || on == x.l0.on then c
  else
    let l := { x.l0.set on with armed := on && c.rd (strOd s 0x64) == 1 }
    (c.setStream s { x with l0 := l }).showL0 s

/-- L0_WARMUP_END (R218): the samples of the warm-up have been taken. -/
def execL0WarmupEnd (n : Fin 1024) (s : State) : Host.Outcome State Fault Refusal :=
  let c := s.dev.chip
  let x := c.stream n.val
  if x.l0.on && decide (4 * 2 ^ c.rd (strOd n.val 0x62) ≤ x.l0.warm) then
    ok s ((c.setStream n.val { x with l0 := { x.l0 with armed := true } }).showL0 n.val)
  else ok s c

/-! ### Route changes (R100, R491) -/

/-- The unifier fields of two rows differ. -/
def unifierDiffers (a b : List Byte) : Bool :=
  rowUnifier a != rowUnifier b || rowL a != rowL b || rowM a != rowM b || rowQ0 a != rowQ0 b || rowT0 a != rowT0 b

/-- The fields that act where the stream enters differ (R491). -/
def entryDiffers (a b : List Byte) : Bool :=
  rowOn a != rowOn b || rowFormat a != rowFormat b || unifierDiffers a b

/-- The fields that act on the delayed axis differ (R491). -/
def delayedDiffers (a b : List Byte) : Bool :=
  rowOn a != rowOn b || rowInput a != rowInput b || rowSlice a != rowSlice b || rowSpan a != rowSpan b

/-- A row differs in a field of a route change; its bundles alone make none (R100). -/
def routeDiffers (a b : List Byte) : Bool := entryDiffers a b || delayedDiffers a b

/-- A map's value of a stream's row. -/
def Val.row (s : Nat) : Val → List Byte
  | .num _ => []
  | .bytes b => mapRow (tableBody b) s

/-- The row of a stream in force at own sample q, with its effect tick, among rows that take effect in turn (R36, R491). -/
def rowAmong (q : Nat) (first : Nat × List Byte) (steps : List (Nat × List Byte)) : Nat × List Byte :=
  steps.foldl (fun r e =>
    if routeDiffers r.2 e.2 && decide ((e.1 : Int) ≤ ownToTick (if rowOn r.2 then r.2 else e.2) q) then e else r) first

/-- The row at own sample q by the changes that have taken effect (R491); the bundles are those of the present row (R100). -/
def Chip.rowTaken (c : Chip) (s q : Nat) : Nat × List Byte :=
  let now := c.row s
  let patch := fun (r : List Byte) => if rowOn r then overlay r 8 (slice now 8 4) else r
  let olds := (c.past.filterMap fun r => (r.olds.find? fun e => e.1 == od 0x6000 0).map fun e => ((r.tick, patch (e.2.row s)) : Nat × List Byte)).reverse
  match olds with
  | [] => (0, now)
  | e :: rest => rowAmong q (0, e.2) (((e :: rest).map fun o => o.1).zip ((rest.map fun o => o.2) ++ [now]))

/-- The row at own sample q, by the commits that wait too (R491; log entry 116). -/
def Chip.rowFor (c : Chip) (s q : Nat) : Nat × List Byte :=
  rowAmong q (c.rowTaken s q) (c.dict.schedule.filterMap fun p =>
    (p.writes.find? fun e => e.1 == od 0x6000 0).map fun e => ((p.tick, e.2.row s) : Nat × List Byte))

/-- A change with one axis taken; it goes when both are. -/
def dropDone (l : List RouteChange) : List RouteChange := l.filter fun e => e.entry || e.delayed

/-- A route change acts where the stream enters (R100, R491). -/
def Chip.takeEntry (c : Chip) (s : Nat) (ch : RouteChange) : Chip :=
  let x := c.stream s
  let anew := unifierDiffers x.rowIn ch.row
  let y := { x with
    rowIn := ch.row, entryMarks := x.entryMarks ++ [⟨ch.tick, true, anew, false, rowFormat ch.row⟩],
    changes := dropDone (x.changes.map fun e => if e = ch then { e with entry := false } else e) }
  let z := if anew then { y with rowOld := x.rowIn, uniTick := ch.tick, uniFrom := x.release.getD 0 } else y
  (c.putStream s z).flagGranule s ch.tick 2

/-- A route or coarse delay change acts on the delayed axis (R38, R100, R491): the marking, STRADDLE, and empty histories behind a
new slice. -/
def Chip.takeDelayed (c : Chip) (s : Nat) (ch : RouteChange) : Chip :=
  let x := c.stream s
  let y := { x with
    rowOut := ch.row, changes := dropDone (x.changes.map fun e => if e = ch then { e with delayed := false } else e) }
  let z := if rowSlice x.rowOut != rowSlice ch.row then { y with uniFrom := x.release.getD 0, cuts := ch.tick :: y.cuts } else y
  let sp := ch.tick / c.fft
  (((c.putStream s z).unsettle s sp).straddleAt s sp).flagGranule s ch.tick 2

/-- The changes due where the stream enters at array tick t; a disabling one waits for STREAM_DISABLE. -/
def Chip.dueEntry (c : Chip) (s : Nat) (t : Int) : Chip :=
  ((c.stream s).changes.filter fun e => e.entry && rowOn e.row && decide ((e.tick : Int) ≤ t)).foldl
    (fun a e => a.takeEntry s { e with delayed := e.delayed }) c

/-- The changes due on the delayed axis at tick k. -/
def Chip.dueDelayed (c : Chip) (s k : Nat) : Chip :=
  (List.range (c.stream s).changes.length).foldl (fun a _ =>
    match (a.stream s).changes.find? fun e => e.delayed && e.tick ≤ k with
    | some e => a.takeDelayed s e
    | none => a) c

/-- ROUTE_CHANGE_EFFECT (R491): the first change that waits, where the stream enters or else on the delayed axis. -/
def execRouteChangeEffect (n : Fin 1024) (s : State) : Host.Outcome State Fault Refusal :=
  let c := s.dev.chip
  let x := c.stream n.val
  match x.changes.find? fun e => e.entry && rowOn e.row with
  | some e => ok s (c.takeEntry n.val e)
  | none => match x.changes.find? fun e => e.delayed with
    | some e => ok s (c.takeDelayed n.val e)
    | none => ok s c

/-- A stream enters WAIT under a row of effect tick t (R93): its duplicate state is clear, and it has no release point. -/
def Chip.enterWait (c : Chip) (s t : Nat) (row : List Byte) : Chip :=
  let x := c.stream s
  let frozen := c.trigger.freezes.any fun f => f.past.isNone && bitAt f.sel 0
  c.putStream s { x with st := .wait, dup := none, release := none, buf := [], highest := 0, rowIn := row, uni := [], line := [], next := none,
                         rowOld := [], uniTick := t, uniFrom := 0, entryMarks := [⟨t, true, false, false, rowFormat row⟩], formats := [],
                         dcMode := c.rd (strOd s 4), dcFrozen := frozen, dcChanges := [] }

/-- A change of the DC blocker taken. -/
def Stream.takeDc (x : Stream) (e : DcChange) : Stream :=
  if e.capture then { x with dcFrozen := e.value == 1 } else { x with dcMode := e.value }

/-- A stream goes OFF (R93), with a NOTE when it leaves STALL. -/
def Chip.streamOff (c : Chip) (s : Nat) : Chip :=
  let x := c.stream s
  let first := x.changes.find? fun e => e.entry && !rowOn e.row
  let rest := dropDone (x.changes.map fun e => if some e = first then { e with entry := false } else e)
  let y := x.dcChanges.foldl Stream.takeDc x
  let c1 := (c.putStream s { y with st := .off, dup := none, release := none, buf := [], highest := 0, rowIn := [], changes := rest,
                                    dcChanges := [], dcFrozen := false, uni := [], line := [], next := none, entryMarks := [] }).l0Warm s
  if x.st == .stall then c1.fault .note .change (strOd s 1) 3 0 0 else c1

/-- A stream whose row was disabled and enabled again before its samples reached the first change goes OFF and enters WAIT at once; samples
accepted already for the new row stay, and it runs from their filter frame on (R93, R491; log entry 116). -/
def Chip.streamReturns (c : Chip) (s : Nat) (ch : RouteChange) : Chip :=
  let x := c.stream s
  let c1 := (c.streamOff s).enterWait s ch.tick ch.row
  let y := c1.stream s
  let held := x.buf.filter fun e => decide ((ch.tick : Int) ≤ ownToTick ch.row e.1)
  let z := { y with changes := dropDone (y.changes.map fun e => if e.tick = ch.tick then { e with entry := false } else e) }
  match held with
  | [] => c1.setStream s z
  | e :: _ =>
    let f := (tickToOwn ch.row ((ownToTick ch.row e.1).toNat / c.fft * c.fft : Nat)).toNat
    let mark : EntryMark := ⟨(ownToTick ch.row e.1).toNat, false, false, true, rowFormat ch.row⟩
    c1.putStream s { z with st := .run, release := some f, buf := held, dup := x.dup, highest := x.highest, entryMarks := z.entryMarks ++ [mark] }

/-- STREAM_DISABLE (R93): a disabling change has been reached: by the release point of a stream in RUN, by the ingest front else. -/
def execStreamDisable (n : Fin 1024) (s : State) : Host.Outcome State Fault Refusal :=
  let c := s.dev.chip
  let x := c.stream n.val
  match x.changes.find? fun e => e.entry && !rowOn e.row with
  | none => ok s c
  | some off =>
    let reached := match x.st, x.release with
      | .off, _ => false
      | .run, some q => decide ((off.tick : Int) ≤ ownToTick x.rowIn q)
      | _, _ => true
    if !reached then ok s c
    else match x.changes.find? fun e => e.entry && rowOn e.row && decide (off.tick < e.tick) with
      | some on => ok s (c.streamReturns n.val on)
      | none => ok s (c.streamOff n.val)

/-- The effect of a new input map on one stream, at effect tick t (R93, R100, R491); a stream in OFF that took a frame of its new row before
the effect runs under that row already. -/
def Chip.rowEffect (c : Chip) (s t : Nat) (old new : List Byte) : Chip :=
  if !routeDiffers old new then c
  else
    let x := c.stream s
    let e := entryDiffers old new
    let d := delayedDiffers old new
    let ahead := !rowOn old && x.st != .off && x.uniTick == t && x.rowIn == new
    if x.st = .off && rowOn new then
      let c1 := c.enterWait s t new
      c1.setStream s { c1.stream s with changes := x.changes ++ [⟨t, new, false, true⟩] }
    else if e || d then c.setStream s { x with changes := x.changes ++ [⟨t, new, e && !ahead, d⟩] }
    else c

/-- The effect of a new input map at effect tick t: every stream whose row changed, the counts of enabled rows and of the slices'
streams and loads (log entry 120), and the transient ring (R93, R100, R111, R141). -/
def Chip.mapEffect (c : Chip) (t : Nat) (old new : List Byte) : Chip :=
  let c1 := (List.range 1024).foldl (fun a s => a.rowEffect s t (mapRow old s) (mapRow new s)) c
  let rows := ((List.range 1024).map (mapRow new)).filter rowOn
  let ring := (List.range 1024).any fun s =>
    rowOn (mapRow old s) != rowOn (mapRow new s) ||
      (rowOn (mapRow new s) && rowFormat (mapRow old s) != rowFormat (mapRow new s))
  let load := fun (r : List Byte) =>
    let fd := if rowL r = 0 then c.fa else Nat.max c.fa (c.fa * rowM r / rowL r)
    (if rowFormat r == 3 then 2 * fd else fd) / 1000000
  let c2 := (List.range 8).foldl (fun a f =>
    let mine := rows.filter fun r => rowSlice r == f
    (a.wr (od (0x2810 + f) 1) mine.length).wr (od (0x2810 + f) 2) (mine.map load).sum) (c1.wr (od 0x2400 0x01) rows.length)
  if ring then c2.restartRing t else c2

/-- The effect of a coarse delay at effect tick t: the marking waits for its tick on the delayed axis (R106). -/
def Chip.delayEffect (c : Chip) (s t : Nat) : Chip :=
  let x := c.stream s
  let row := match x.changes.getLast? with | some e => e.row | none => if x.rowOut.isEmpty then x.rowIn else x.rowOut
  if x.st = .off then c else c.setStream s { x with changes := x.changes ++ [⟨t, row, false, true⟩] }

/-- The effect of a DC mode at effect tick t (R103). -/
def Chip.dcModeEffect (c : Chip) (s t value : Nat) : Chip :=
  let x := c.stream s
  if x.st = .off then c.setStream s { x with dcMode := value }
  else c.setStream s { x with dcChanges := x.dcChanges ++ [⟨t, false, value⟩] }

/-! ### The path of one sample (R101-R106) -/

/-- DC_FREEZE (R103): the first change that waits. -/
def execDcFreeze (n : Fin 1024) (s : State) : Host.Outcome State Fault Refusal :=
  let c := s.dev.chip
  let x := c.stream n.val
  match x.dcChanges with
  | [] => ok s c
  | e :: rest => ok s (c.setStream n.val { x.takeDc e with dcChanges := rest })

/-- The DC blocker on one part (R102): output, clip, and the new mean. -/
def dcPart (run : Bool) (bypass : Bool) (k : Nat) (m x : Int) : Int × Bool × Int :=
  if bypass then (x, false, m)
  else
    let y := x - rnd m 16
    (sat 16 y, outside 16 y, if run then m + rnd (x * 65536 - m) k else m)

/-- A sample of array tick t passes the DC blocker (R102, R103). -/
def Chip.dcSample (c : Chip) (s : Nat) (t : Int) (smp : Smp) : Smp × Chip :=
  let x0 := c.stream s
  let due := x0.dcChanges.filter fun e => decide ((e.tick : Int) ≤ t)
  let x := { due.foldl Stream.takeDc x0 with dcChanges := x0.dcChanges.filter fun e => decide (t < (e.tick : Int)) }
  let c1 := c.setStream s x
  if smp.missing then (smp, c1)
  else
    let k := (c.asOf t.toNat).rd (strOd s 5)
    let run := x.dcMode == 1 && !x.dcFrozen
    let cplx := rowFormat x.rowIn == 3
    let (yr, cr, mr) := dcPart run (x.dcMode == 0) k (toI (c.rd (strOd s 6)) 32) smp.re
    let (yi, ci, mi) := if cplx then dcPart run (x.dcMode == 0) k (toI (c.rd (strOd s 7)) 32) smp.im else (0, false, 0)
    ({ smp with re := yr, im := yi },
      ((c1.bump (strOd s 0x1B) (b2n cr + b2n ci)).wr (strOd s 6) (ofI mr 32)).wr (strOd s 7) (ofI mi 32))

/-- A delayed sample of tick k: to the filter history, the L0 detector and the writer (R106, R491). -/
def Dev.delayed (d : Dev) (s k : Nat) (smp : Smp) : Dev :=
  let c := d.chip.dueDelayed s k
  let x := c.stream s
  let c1 := if rowOn x.rowOut then c.setStream s { x with hist := sset (fun _ => Smp.absent) x.hist k smp } else c
  ({ d with chip := c1.l0Sample s k smp }).writeSample s k smp

/-- The marks that a unified sample of tick k carries act at delayed tick `m.tick + d`, or where the delay first lets them out: unsettled spectra,
STRADDLE, an empty filter history, the warm-up of L0, the format (R123, R218, R491). -/
def Chip.takeMark (c : Chip) (s k dl : Nat) (started : Bool) (m : EntryMark) : Chip :=
  let at_ := if started then k else Nat.min k (m.tick + dl)
  let sp := at_ / c.fft
  let x := c.stream s
  let c1 := (c.setStream s { x with formats := (at_, m.format) :: x.formats, cuts := if m.unifier then at_ :: x.cuts else x.cuts }).unsettle s sp
  let c2 := if m.change then c1.straddleAt s sp else c1
  if m.start then c2.l0Warm s else c2

/-- A unified sample of tick k enters the delay line, and the delayed sample of tick k leaves it (R106). -/
def Dev.unified (d : Dev) (s k : Nat) (smp : Smp) : Dev :=
  let c := d.chip
  let x := c.stream s
  let span := 262144
  let line := sset (fun _ => Smp.absent) (x.line.filter fun e => k ≤ e.1 + span) k smp
  let dl := c.delayAt s k
  let out := if dl ≤ k then sget (fun _ => Smp.absent) line (k - dl) else Smp.absent
  let hit := x.entryMarks.filter fun m => m.tick + dl ≤ k
  let c1 := c.setStream s { x with line := line, next := some (k + 1), entryMarks := x.entryMarks.filter fun m => k < m.tick + dl }
  ({ d with chip := hit.foldl (fun a m => a.takeMark s k dl x.next.isSome m) c1 }).delayed s k out

/-- Coefficient h[b][i] of a unifier table body (R104). -/
def unifierCoef (body : List Byte) (b i : Nat) : Int := toI (beAt body (16 + 64 * b + 4 * i) 4) 32

/-- The unifier's output for tick k from its history (R36, R105), and its clips, counted for a missing output too (log entry 117). -/
def unifyOne (row body : List Byte) (uni : SMap Smp) (k : Int) : Smp × Nat :=
  if rowUnity row then (sget (fun _ => Smp.absent) uni k.toNat, 0)
  else
    let m := (rowM row : Int)
    let l := (rowL row : Int)
    let base := (rowQ0 row : Int) + (k - rowT0 row) * m / l
    let br := ((k - rowT0 row) * m % l).toNat
    let xs : List (Nat × Smp) := (List.range 16).map fun (i : Nat) =>
      let q : Int := base - 7 + (i : Int)
      ((i, if q < 0 then Smp.absent else sget (fun _ => Smp.absent) uni q.toNat) : Nat × Smp)
    let acc := fun (part : Smp → Int) => rnd (xs.foldl (fun a e => a + unifierCoef body br e.1 * part e.2) 0) 16
    let re := acc Smp.re
    let im := acc Smp.im
    let missing := xs.any fun e => e.2.missing
    let flags := xs.foldl (fun a e => a ||| e.2.flags) 0
    (if missing then { Smp.absent with flags := flags }
     else ⟨sat 16 re, sat 16 im, false, xs.any fun e => e.2.invalid, flags⟩, b2n (outside 16 re) + b2n (outside 16 im))

/-- The ticks below this one have all their inputs once own sample q has come: a ratio other than 1/1 reads 8 samples past its base (R105). -/
def formedTo (row : List Byte) (q : Nat) : Nat :=
  if rowUnity row then q + 1 else ((rowT0 row : Int) - ((rowQ0 row : Int) + 7 - q) * rowL row / rowM row).toNat

/-- The first tick at or after own sample q (R36). -/
def tickFrom (row : List Byte) (q : Nat) : Nat :=
  if rowUnity row then q else ((rowT0 row : Int) - ((rowQ0 row : Int) - q) * rowL row / rowM row).toNat

/-- The ticks `lo` to `hi - 1` of a stream formed in turn under a row, from a history. -/
def Dev.formTicks (d : Dev) (s : Nat) (row : List Byte) (uni : SMap Smp) (lo hi : Nat) : Dev :=
  ((List.range (hi - lo)).map (lo + ·)).foldl (fun a k =>
    let (y, clips) := unifyOne row ((a.chip.asOf k).table (od 0x6001 (rowUnifier row + 1))) uni (k : Nat)
    ({ a with chip := a.chip.bump (strOd s 0x1C) clips }).unified s k y) d

/-- The unifier takes own sample q and forms every tick that it completes (R100, R105): the ticks before the last change under the row before
it, the others under the new row, from the samples taken since that it places at or after the change. -/
def Dev.unify (d : Dev) (s q : Nat) (smp : Smp) : Dev :=
  let x := d.chip.stream s
  let uni := sset (fun _ => Smp.absent) (x.uni.filter fun e => q ≤ e.1 + 32) q smp
  let mine := uni.filter fun e => decide (x.uniFrom ≤ e.1) && decide ((x.uniTick : Int) ≤ ownToTick x.rowIn e.1)
  let next := x.next.getD (tickFrom x.rowIn q)
  let change := Nat.max next (Nat.min x.uniTick (formedTo x.rowOld q))
  let last := if x.uniTick ≤ change then formedTo x.rowIn q else change
  let d1 : Dev := { d with chip := d.chip.setStream s { x with uni := uni } }
  (d1.formTicks s x.rowOld uni next change).formTicks s x.rowIn mine change last

/-- Own sample q leaves the receive buffer of a stream, present or missing (R92). -/
def Dev.leave (d : Dev) (s q : Nat) : Dev :=
  let c0 := d.chip
  let c := c0.dueEntry s (ownToTick (c0.stream s).rowIn q)
  let x := c.stream s
  let smp := (sget (fun _ => none) x.buf q).getD Smp.absent
  let c1 := c.putStream s { x with buf := sdel x.buf q, release := some (q + 1) }
  let c2 := if smp.missing then c1.bump (strOd s 0x18) 1 else c1
  let (y, c3) := c2.dcSample s (ownToTick x.rowIn q) smp
  ({ d with chip := c3 }).unify s q y

/-- The own sample that may leave a stream now (R92); none at or after the tick of a disabling change. -/
def Chip.leaving (c : Chip) (s : Nat) : Option Nat :=
  let x := c.stream s
  let w := c.rd (strOd s 9)
  let cut := fun (q : Nat) => x.changes.any fun e => e.entry && !rowOn e.row && decide ((e.tick : Int) ≤ ownToTick x.rowIn q)
  let ok_ := fun (q : Nat) => if cut q then none else some q
  match x.st with
  | .off => none
  | .run => match x.release with
    | some q => if (sget (fun _ => none) x.buf q).isSome || q + w + 1 < x.highest then ok_ q else none
    | none => none
  | _ =>
    if c.runFronts.isEmpty then none
    else
      let f := (tickToOwn x.rowIn (c.front : Nat)).toNat
      match x.release with
      | some q => if q + w < f then ok_ q else none
      | none => none

/-- The first release point of a stream in WAIT, W samples behind the front (R92, log entry 55). -/
def Chip.firstPoint (c : Chip) (s : Nat) : Option Nat :=
  let x := c.stream s
  let w := c.rd (strOd s 9)
  let f := (tickToOwn x.rowIn (c.front : Nat)).toNat
  if x.st == StreamSt.wait && x.release.isNone && !c.runFronts.isEmpty && w < f then some (f - w) else none

/-- SAMPLE_RELEASE (R92). -/
def execSampleRelease (n : Fin 1024) (s : State) : Host.Outcome State Fault Refusal :=
  let c := s.dev.chip
  match c.leaving n.val with
  | some q => done s (s.dev.leave n.val q)
  | none => match c.firstPoint n.val with
    | some q => ok s (c.putStream n.val { c.stream n.val with release := some q })
    | none => ok s c

/-- A DC mean written (R103): STATE unless the blocker is frozen, by a capture too, or bypassed; a real stream has no imaginary mean. -/
def Chip.dcMean (c : Chip) (s : Nat) (imaginary : Bool) (n : Nat) : Chip × Status :=
  let x := c.stream s
  let frozen := if x.st = .off then c.trigger.freezes.any fun f => f.past.isNone && bitAt f.sel 0 else x.dcFrozen
  if x.dcMode = 1 && !frozen then (c, .state)
  else if imaginary then (if rowFormat (c.row s) == 3 then c.wr (strOd s 7) n else c, .ok)
  else (c.wr (strOd s 6) n, .ok)

/-! ### Frames (R86-R96) -/

/-- Payload bytes of a format for a number of samples (R87); none for a reserved code. -/
def payloadBytes (format n : Nat) : Option Nat :=
  match format with
  | 1 => some n
  | 2 => some (n + n / 2)
  | 3 => some (2 * n)
  | _ => none

/-- Sample i of a payload, as I16 words (R87, R101). -/
def payloadSample (format : Nat) (p : List Byte) (i : Nat) : Int × Int :=
  match format with
  | 1 => (toI (beAt p i 1) 8 * 256, 0)
  | 2 =>
    let o := i / 2 * 3
    let v := if i % 2 = 0 then beAt p o 1 * 16 + beAt p (o + 1) 1 / 16 else beAt p (o + 1) 1 % 16 * 256 + beAt p (o + 2) 1
    (toI v 12 * 16, 0)
  | _ => (toI (beAt p (2 * i) 1) 8 * 256, toI (beAt p (2 * i + 1) 1) 8 * 256)

/-- The flag-ring bits of a frame's DFLAGS (R89, R109). -/
def frameFlags (df : Nat) : Nat :=
  64 * b2n (bitAt df 31) + 32 * b2n (bitAt df 30) + 16 * b2n (bitAt df 29) + 8 * b2n (bitAt df 28) + 4 * b2n (bitAt df 26)

/-- The samples of a frame placed where no sample lies yet, from the release point on (R92, R96). -/
def placeSamples (x : Stream) (format tick n : Nat) (df mask : Nat) (p : List Byte) : Stream :=
  let bad := bitAt df 31
  let invalid := (bitAt mask 4 && bitAt df 30) || (bitAt mask 3 && bitAt df 29) || (bitAt mask 2 && bitAt df 28) ||
    (bitAt mask 0 && bitAt df 26)
  let flags := frameFlags df
  let from_ := x.release.getD 0
  let buf := (List.range n).foldl (fun b i =>
    let q := tick + i
    if q < from_ || (sget (fun _ => none) b q).isSome then b
    else
      let (re, im) := payloadSample format p i
      let y : Smp := if bad then ⟨0, 0, true, invalid, flags⟩ else ⟨re, im, false, invalid, flags⟩
      sset (fun _ => none) b q (some y)) x.buf
  { x with buf := buf, highest := Nat.max x.highest (tick + n) }

/-- A stream starts or resumes at own sample q: the delayed axis marks it where that sample leaves the delay (R123, R218). -/
def Chip.streamStarts (c : Chip) (s q : Nat) : Chip :=
  let x := c.stream s
  c.setStream s { x with entryMarks := x.entryMarks ++ [⟨(ownToTick x.rowIn q).toNat, false, false, true, rowFormat x.rowIn⟩] }

/-- A stream in WAIT takes its first frame (R93): the samples from the release point up to the filter frame of its first sample leave
as missing. -/
def Dev.firstFrame (d : Dev) (s tick : Nat) : Dev :=
  let c := d.chip
  let x := c.stream s
  let f := (tickToOwn x.rowIn ((ownToTick x.rowIn tick).toNat / c.fft * c.fft : Nat)).toNat
  match x.release with
  | none => { d with chip := c.putStream s { x with release := some f } }
  | some r =>
    if f < r then d
    else
      let d1 := (List.range (f - r)).foldl (fun a i => a.leave s (r + i)) d
      { d1 with chip := d1.chip.putStream s { d1.chip.stream s with release := some f } }

/-- A stream in OFF that accepts a frame of a row whose commit still waits enters WAIT under that row (R491; log entry 116). -/
def Chip.rowAhead (c : Chip) (s tick : Nat) : Chip :=
  let r := c.rowFor s tick
  if (c.stream s).st == .off && rowOn r.2 && c.rowTaken s tick != r then c.enterWait s r.1 r.2 else c

/-- A frame that passes steps 1 to 7 of R91 is placed (R92, R93, R96): late, or accepted with all that follows. -/
def Dev.placeFrame (d : Dev) (b s : Nat) (frame : List Byte) (h : Option (Nat × Nat × Nat)) : Dev :=
  let tick := beAt frame 4 8
  let c := d.chip.rowAhead s tick
  let x := c.stream s
  let q := beAt frame 12 6
  let n := beAt frame 18 2
  let df := beAt frame 20 4
  let late := match x.release with
    | none => x.st == StreamSt.off || decide (ownToTick x.rowIn (tick + n - 1) < x.uniTick)
    | some r => if x.st = StreamSt.run then decide (tick < r) else decide (tick + n ≤ r)
  if late then { d with chip := c.bump (strOd s 0x12) 1 }
  else
    -- the stamp that the frame holding H leads to expect (R96)
    let diff := toI (ofI ((q : Int) - (match h with | some (qh, _, _) => (qh : Int) | none => (q : Int))) 48) 48
    let mismatch := match h with
      | none => false
      | some (_, _, th) => decide ((tick : Int) ≠ th + diff * n)
    let due := match x.noted with | none => true | some t => decide (t + second ≤ c.lc)
    let c1 := if mismatch then
        (if due then (c.setStream s { x with noted := some c.lc }).countFault .note (strOd s 0x15) tick
         else c.bump (strOd s 0x15) 1)
      else c
    let c2 := ((c1.bump (strOd s 0x10) 1).bump (strOd s 0x19) (df % 65536)).bump (strOd s 0x1D)
      (b2n (b2n (bitAt (beAt frame 1 1) 3) != c.side))
    let c3 := match c.twinBundle with
      | some t => if c.on (od 0x5400 0x08) && c.bundleRole b == 1 then
          c2.setBundle t ((c2.bundle t).addSample c2.lc ⟨frame, 0, true⟩)
        else c2
      | none => c2
    let st := x.st
    let d1 : Dev := { d with chip := c3 }
    let d2 := if st == StreamSt.wait then d1.firstFrame s tick else d1
    let cc := d2.chip
    let y := placeSamples (cc.stream s) (rowFormat (cc.rowFor s tick).2) tick n df (cc.rd (strOd s 0x0A))
      (slice frame 32 (frame.length - 36))
    let c4 := cc.putStream s { y with st := .run, heard := cc.lc }
    let first := Nat.max tick (((cc.stream s).release).getD 0)
    let restart := bitAt df 27
    let c5 := if st != StreamSt.run || restart then c4.streamStarts s first else c4
    let c6 := if st == StreamSt.stall then c5.fault .note .change (strOd s 1) 3 2 0 else c5
    { d2 with chip := c6 }

/-- INGEST_FRAME on a bundle that carries ingest (R91): the checks in order; a failed one counts once. -/
def Dev.ingestFrame (d : Dev) (b : Nat) (frame : List Byte) : Dev :=
  let c := d.chip
  let count := fun (k : Nat) => ({ d with chip := c.bump k 1 } : Dev)
  let n := beAt frame 18 2
  let fmt := beAt frame 1 1 / 16
  let lenOk := decide (100 ≤ frame.length) && n % 64 == 0 && decide (64 ≤ n) && decide (n ≤ 16384) &&
    (match payloadBytes fmt n with | some p => frame.length == 36 + p | none => true)
  if !lenOk then count (od 0x2400 0x10)
  else if beAt frame (frame.length - 4) 4 ≠ crc32 (frame.take (frame.length - 4)) then count (od 0x2400 0x11)
  else if beAt frame 0 1 / 16 ≠ 1 then count (od 0x2400 0x12)
  else
    let s := beAt frame 2 2 % 1024
    let x := c.stream s
    let tick := beAt frame 4 8
    let row := (c.rowFor s tick).2
    if !rowOn row then count (od 0x2400 0x13)
    else if b ≠ rowPrimary row && b ≠ rowAlt row then count (strOd s 0x16)
    else if fmt ≠ rowFormat row then count (strOd s 0x17)
    else
      let restart := bitAt (beAt frame 20 4) 27
      let h := if restart then none else x.dup
      let q := beAt frame 12 6
      let (j, win) := judge (2 ^ 48) 64 (h.map fun e => (e.1, e.2.1)) q
      -- the stamp of the frame that holds H
      let stamp := match win, h with
        | some (hi, _), some (old, _, th) => if hi = old then th else tick
        | _, _ => tick
      let dup := win.map fun e => (e.1, e.2, stamp)
      let c1 := c.putStream s { x with dup := dup }
      match j with
      | .duplicate => { d with chip := (c.putStream s { x with dup := h }).bump (strOd s 0x11) 1 }
      | .old => { d with chip := (c.putStream s { x with dup := h }).bump (strOd s 0x12) 1 }
      | .recovered => ({ d with chip := c1.bump (strOd s 0x14) 1 }).placeFrame b s frame h
      | .fresh k => ({ d with chip := c1.bump (strOd s 0x13) k }).placeFrame b s frame h

/-- INGEST_FRAME: a frame on the SAMPLE lane of an INGEST or TWIN bundle (R64, R86, R91). -/
def execIngestFrame (b : Fin 256) (frame : List Byte) (s : State) : Host.Outcome State Fault Refusal :=
  let c := s.dev.chip
  let r := c.bundleRole b.val
  if r ≠ 1 && r ≠ 3 then ok s (c.refuseFrame b.val)
  else match c.takeFrame b.val 2 frame with
  | none => ok s (c.refuseFrame b.val)
  | some c1 => done s (({ s.dev with chip := c1 }).ingestFrame b.val frame)

/-- STALL_TIMEOUT (R93; a stream in STALL has no data, log entry 54): RUN to STALL. -/
def execStallTimeout (n : Fin 1024) (s : State) : Host.Outcome State Fault Refusal :=
  let c := s.dev.chip
  let x := c.stream n.val
  if x.st = StreamSt.run then
    ok s ((((c.untilLc (x.heard + c.rd (od 0x2400 2) * 1000)).putStream n.val { x with st := .stall, dup := none, buf := [] }).bump (strOd n.val 0x1A) 1).fault .degrade .change
      (strOd n.val 1) 2 3 0)
  else ok s c

end Sys2Proof.Machine
end

