-- ==== Sys2Proof/Machine/Channelizer.lean ====
section
/-! DEFINITION. The F slices: filter bank, FFT, kern, equalizer, spectral kurtosis, requantizer, frisket and stick reports (R114-R141,
R492). -/

namespace Sys2Proof.Machine

/-- OD 2800.sub. -/
def chanOd (sub : Nat) : Nat := od 0x2800 sub

/-- A stick in the making. -/
def Chip.acc (c : Chip) (s : Nat) : Option StickAcc := sget (fun _ => none) c.fe.accs s

/-- A stick in the making set. -/
def Chip.setAcc (c : Chip) (s : Nat) (a : Option StickAcc) : Chip :=
  { c with fe := { c.fe with accs := sset (fun _ => none) c.fe.accs s a } }

/-! ### Sines and cosines (R120, R128) -/

/-- The twiddle W(r, L) (R120): exact at multiples of a quarter turn, else in 18 bits a part. -/
def twiddle (r l : Nat) : Int × Int :=
  let a : Int := -((r * 2 ^ 32 / l : Nat) : Int)
  let (c, s) := (cosTurn a 32 17, sinTurn a 32 17)
  if 4 * r % l = 0 then (c, s) else (sat 18 c, sat 18 s)

/-- The phasor of a phase in 2^-32 turns (R128). -/
def phasor (theta : Nat) : Int × Int :=
  (clip 131071 (cosTurn theta 32 17), clip 131071 (sinTurn theta 32 17))

/-! ### Filter bank and FFT (R116-R121) -/

/-- A complex word. -/
abbrev Cx := Int × Int

/-- Complex product, exact. -/
def cxMul (a b : Cx) : Cx := (a.1 * b.1 - a.2 * b.2, a.1 * b.2 + a.2 * b.1)

/-- A word narrowed by n bits and clipped to 20 bits a part, with the saturations it counts (R118-R121). -/
def narrow20 (v : Cx) (n : Nat) : Cx × Nat :=
  let re := rnd v.1 n
  let im := rnd v.2 n
  ((sat 20 re, sat 20 im), b2n (outside 20 re) + b2n (outside 20 im))

/-- Filter coefficient h[n] of a table body (R116): the second half mirrors the first. -/
def filterCoef (body : List Byte) (len n : Nat) : Int :=
  toI (beAt body (8 + 2 * (if 2 * n < len then n else len - 1 - n)) 2) 16

/-- The filter bank (R118): x[i] for one part, from the delayed samples y by tick; its saturations are counted by the caller. -/
def filterBank (h : Nat → Int) (y : Int → Int) (s f taps i : Nat) : Int :=
  rnd ((List.range taps).foldl (fun a t =>
    a + h (t * f + i) * y (((s : Int) - taps + 1 + t) * f + i)) 0) 11

/-- An index of m bits with its bits reversed. -/
def bitrev : Nat → Nat → Nat
  | 0, _ => 0
  | m + 1, n => n % 2 * 2 ^ m + bitrev m (n / 2)

/-- One radix-2 stage (R120): the words and the saturations so far. -/
def fftStage (a : Array Cx) (i shift : Nat) : Array Cx × Nat :=
  let h := 2 ^ i
  let r := (List.range a.size).map fun n =>
    let lo := if n / h % 2 = 0 then n else n - h
    let p := cxMul (twiddle (lo % h) (2 * h)) (a.getD (lo + h) (0, 0))
    let z := a.getD lo (0, 0)
    let u : Cx := (z.1 * 2 ^ 17, z.2 * 2 ^ 17)
    narrow20 (if n = lo then (u.1 + p.1, u.2 + p.2) else (u.1 - p.1, u.2 - p.2)) (17 + shift)
  ((r.map fun e => e.1).toArray, (r.map fun e => e.2).sum)

/-- The complex FFT of 2^m words (R120). -/
def fftComplex (z : List Cx) (m sched : Nat) : Array Cx × Nat :=
  let a := z.toArray
  let b := ((List.range (2 ^ m)).map fun n => a.getD (bitrev m n) (0, 0)).toArray
  (List.range m).foldl (fun e i =>
    let (w, k) := fftStage e.1 i (b2n (bitAt sched i))
    (w, e.2 + k)) (b, 0)

/-- The real split stage (R120): channel k of F/2 words. -/
def splitStage (z : Array Cx) (f k shift : Nat) : Cx × Nat :=
  let m := f / 2
  let a := z.getD k (0, 0)
  let b := z.getD ((m - k) % m) (0, 0)
  let e : Cx := (a.1 + b.1, a.2 - b.2)
  let o : Cx := (a.1 - b.1, a.2 + b.2)
  let w := cxMul (twiddle k f) o
  narrow20 (e.1 * 2 ^ 17 + w.2, e.2 * 2 ^ 17 - w.1) (18 + shift)

/-- log2 of a power of two. -/
def lg2 (f : Nat) : Nat := Nat.log2 f

/-- The FFT of a spectrum (R119): channels 0 .. C - 1 and the saturated parts. -/
def fftSpectrum (x : List Cx) (cplx : Bool) (f sched : Nat) : List Cx × Nat :=
  let n := lg2 f
  if cplx then
    let (z, k) := fftComplex x n sched
    (z.toList.take (f / 2), k)
  else
    let a := x.toArray
    let packed := (List.range (f / 2)).map fun i => ((a.getD (2 * i) (0, 0)).1, (a.getD (2 * i + 1) (0, 0)).1)
    let (z, k) := fftComplex packed (n - 1) sched
    let r := (List.range (f / 2)).map fun c => splitStage z f c (b2n (bitAt sched (n - 1)))
    (r.map fun e => e.1, k + (r.map fun e => e.2).sum)

/-! ### Kern (R124-R128) -/

/-- A delay segment record (R124), its effect spectrum counted with an FFT size. -/
def readSegment (b : List Byte) (f : Nat) : Segment :=
  ⟨effectSpectrum f (beAt b 0 8), toI (beAt b 8 8) 64, toI (beAt b 16 8) 64, toI (beAt b 24 8) 64, toI (beAt b 32 8) 64, beAt b 40 4⟩

/-- A segment inserted by effect spectrum. -/
def insertSegment (g : Segment) : List Segment → List Segment
  | [] => [g]
  | h :: t => if g.start < h.start then g :: h :: t else h :: insertSegment g t

/-- A delay segment enters the queue of a stream (R42, R124, R125). -/
def Chip.segmentEnter (c : Chip) (s : Nat) (b : List Byte) : Chip × Status :=
  if b.length ≠ 48 then (c, .range)
  else
    let x := c.stream s
    let g := readSegment b c.fft
    let same := x.segments.any fun h => h.start == g.start
    if !same && 8 ≤ x.segments.length then (c, .schedFull)
    else
      let q := if same then x.segments.map fun h => if h.start = g.start then g else h else insertSegment g x.segments
      let c1 := if same then c.bump (chanOd 0x17) 1 else c
      let c2 := if g.start < x.spec then c1.bump (chanOd 0x16) 1 else c1
      ((c2.setStream s { x with segments := q }).wr (strOd s 0x46) q.length, .ok)

/-- The queue of a stream emptied, the current segment too (R125). -/
def Chip.segmentsClear (c : Chip) (s : Nat) : Chip :=
  (c.setStream s { c.stream s with segments := [], segment := none }).wr (strOd s 0x46) 0

/-- Waiting segments whose effect spectrum is reached become current in order (R125). -/
def Chip.takeSegments (c : Chip) (s sp : Nat) : Chip :=
  let x := c.stream s
  match (x.segments.filter fun g => g.start ≤ sp).getLast? with
  | none => c
  | some g =>
    let rest := x.segments.filter fun g => sp < g.start
    (c.setStream s { x with segments := rest, segment := some g }).wr (strOd s 0x46) rest.length

/-- tau of a spectrum in units of 2^-32 ticks (R126). -/
def segmentTau (g : Segment) (sp : Nat) : Int :=
  let u : Int := Nat.min (sp - g.start) 0xFFFFFFFF
  rnd (g.a0 * 2 ^ 48 + u * (g.a1 * 2 ^ 32 + u * (g.a2 * 2 ^ 16 + u * g.a3))) 48

/-- The kern's view of one spectrum (R126, R127): mode, delta and tau in units of 2^-32 ticks, PHASE0, epsilon rho. -/
structure Kern where
  mode : Nat
  delta : Int
  tau : Int
  phase : Nat
  rho : Int
  deriving DecidableEq, Repr

/-- theta_c in units of 2^-32 turns (R127). -/
def Kern.theta (k : Kern) (f ch : Nat) : Nat :=
  let slope := (ch : Int) * k.delta * 2 ^ 56
  let fringe := if k.mode = 2 then k.rho * k.tau * f else 0
  ofI (rdiv ((k.phase : Int) * f * 2 ^ 56 - slope - fringe) (f * 2 ^ 56)) 32

/-- The kern for one spectrum: segments, tau shown, the residual limit (R125-R127). -/
def Chip.kernOf (c0 : Chip) (s sp : Nat) : Kern × Chip :=
  let c := c0.takeSegments s sp
  let cfg := c.asOf (sp * c.fft)
  let mode := cfg.rd (strOd s 0x41)
  let d := cfg.rd (strOd s 8)
  let x := c.stream s
  let tau := match x.segment with | none => (d : Int) * 2 ^ 32 | some g => segmentTau g sp
  let phase := match x.segment with | none => 0 | some g => g.phase
  let delta := tau - (d : Int) * 2 ^ 32
  let rho := cfg.rd (strOd s 0x42)
  let k : Kern := ⟨mode, delta, tau, phase, if cfg.on (strOd s 0x43) then -(rho : Int) else rho⟩
  if mode = 0 then (k, c)
  else
    let c1 := c.wr (strOd s 0x45) (ofI tau 64)
    if delta.natAbs ≤ c.rd (strOd s 0x44) * 2 ^ 32 then (k, c1)
    else
      let due := match x.residualNoted with | none => true | some t => decide (t + second ≤ c.lc)
      let c2 := c1.bump (chanOd 0x15) 1
      (k, if due then (c2.setStream s { x with residualNoted := some c.lc }).countFault .note (strOd s 0x4C) (sp * c.fft)
          else c2.bump (strOd s 0x4C) 1)

/-- A channel rotated by the kern, and its saturations (R128). -/
def Kern.rotate (k : Kern) (f ch : Nat) (x : Cx) : Cx × Nat :=
  if k.mode = 0 then (x, 0) else narrow20 (cxMul x (phasor (k.theta f ch))) 17

/-! ### Equalizer and requantizer (R129-R135) -/

/-- Equalizer entry of a channel (R129): 1.0 in a row that was never loaded. -/
def eqEntry (body : List Byte) (ch : Nat) : Cx :=
  if body.isEmpty then (4096, 0) else (toI (beAt body (4 * ch) 2) 16, toI (beAt body (4 * ch + 2) 2) 16)

/-- Precision of a channel in a precision table body (R134): 1 is 8+8; all 4+4 in a table that was never loaded. -/
def precision (body : List Byte) (ch : Nat) : Nat := b2n (bitAt (beAt body (4 + ch / 8) 1) (ch % 8))

/-- One part requantized and its clip (R133). -/
def requantize (prec : Nat) (z : Int) : Int × Nat :=
  let v := rnd z (if prec = 1 then 20 else 24)
  let lim : Int := if prec = 1 then 127 else 7
  (clip lim v, b2n (clipped lim v))

/-- What one channel of a spectrum comes to: power of the kern output, channel sample, clips, MASKED. -/
structure ChanOut where
  power : Nat
  out : Cx
  clips : Nat
  masked : Bool
  deriving DecidableEq, Repr

/-- Equalizer and requantizer of one channel (R129, R131, R133). -/
def chanOut (prec : Nat) (e x : Cx) : ChanOut :=
  let z := cxMul x e
  let (re, a) := requantize prec z.1
  let (im, b) := requantize prec z.2
  ⟨(x.1 * x.1 + x.2 * x.2).toNat, (re, im), a + b, e == (0, 0)⟩

/-! ### A spectrum (R114, R118-R136, R492) -/

/-- The first tick of the chase period that holds a spectrum (R34). -/
def Chip.periodTick (c : Chip) (sp : Nat) : Nat := sp / c.chaseT * c.chaseT * c.fft

/-- The row of a stream on the delayed axis for a spectrum (R491). -/
def Chip.rowAt (c : Chip) (s sp : Nat) : List Byte := mapRow ((c.asOf (sp * c.fft)).table (od 0x6000 0)) s

/-- A stream makes spectrum sp from samples (R114, R139). -/
def Chip.live (c : Chip) (s sp : Nat) : Bool := (c.asOf (sp * c.fft)).on (chanOd 1) && rowOn (c.rowAt s sp)

/-- A stream has a spectrum to make in or before a stick. -/
def Chip.producing (c : Chip) (s stick : Nat) : Bool :=
  match c.acc s with
  | some a => decide (a.stick ≤ stick)
  | none => decide ((c.stream s).spec / 256 ≤ stick) && c.live s (c.stream s).spec

/-- Truss frames of sticks that the pack store no longer holds are discarded before they start (R146). -/
def Chip.discardOld (c : Chip) (stick : Nat) : Chip :=
  c.meshBundles.foldl (fun a b =>
    let x := a.bundle b
    let gone := (x.samples.filter fun f => f.stick + 2 ≤ stick).length
    if gone = 0 then a
    else
      let a1 := (a.setBundle b { x with samples := x.samples.filter fun f => stick < f.stick + 2 }).bump (od 0x2C00 0x1A) gone
      match a1.peerOf b with | some (p, _) => a1.bump (peerOd p 0x1B) gone | none => a1) c

/-- A delayed sample as the filter bank reads it: 0 before tick 0, before an empty history began, and where it is missing. -/
def histAt (hist : SMap Smp) (cut : Nat) (k : Int) : Smp :=
  if k < 0 then Smp.absent
  else if k < cut then ⟨0, 0, false, false, 0⟩
  else sget (fun _ => Smp.absent) hist k.toNat

/-- The spectra of the filter bank and FFT for a stream (R118-R121): channels, saturated parts, and whether a filter frame of it was
marked missing or invalid (R136). -/
def Chip.filterSpectrum (c : Chip) (s sp : Nat) : List Cx × Nat × Bool :=
  let x := c.stream s
  let f := c.fft
  let taps := c.taps
  let cfg := c.asOf (sp * f)
  let cut := (x.cuts.filter fun t => t ≤ sp * f).foldl Nat.max 0
  let body := cfg.table (od 0x6002 0)
  let h := filterCoef body (taps * f)
  let at_ := histAt x.hist cut
  let cplx := x.formatAt (sp * f) == 3
  let xs := (List.range f).map fun i =>
    narrow20 (filterBank h (fun k => (at_ k).re) sp f taps i,
      if cplx then filterBank h (fun k => (at_ k).im) sp f taps i else 0) 0
  let (bins, k) := fftSpectrum (xs.map fun e => e.1) cplx f (c.rd (chanOd 4))
  let marked := (List.range (taps * f)).any fun i =>
    let y := at_ (((sp : Int) - taps + 1) * f + i)
    y.missing || y.invalid
  (bins, (xs.map fun e => e.2).sum + k, marked)

/-- The sums of a spectrum added to a stick in the making (R131, R136). -/
def StickAcc.add (a : StickAcc) (o : List ChanOut) (flags overflow input : Nat) : StickAcc :=
  { a with
    count := a.count + 1
    s1 := List.zipWith (fun p e => p + e.power) a.s1 o
    s2 := List.zipWith (fun p e => p + e.power * e.power) a.s2 o
    masked := List.zipWith (fun p e => p || e.masked) a.masked o
    flags := a.flags ||| flags
    clips := a.clips + (o.map ChanOut.clips).sum
    overflows := a.overflows + overflow
    inputs := if a.inputs.contains input then a.inputs else a.inputs ++ [input] }

/-- A stick with no spectrum done. -/
def StickAcc.new (stick channels : Nat) : StickAcc :=
  ⟨stick, 0, List.replicate channels 0, List.replicate channels 0, List.replicate channels false, 0, 0, 0, []⟩

/-- A span marked unsettled holds a spectrum (R123). -/
def Chip.unsettledAt (c : Chip) (s sp : Nat) : Bool :=
  ((c.stream s).unsettled ++ c.fe.marks).any fun e => e.1 ≤ sp && sp ≤ e.2

/-- A stream moved to another slice inside a stick (R492): the stick is the new slice's, and the samples of its input before the move are 0
(log entry 118). -/
def Chip.movedSlice (c : Chip) (s sp : Nat) (a : StickAcc) : Chip × StickAcc :=
  let row := c.rowAt s sp
  if a.count != 0 && rowOn (c.rowAt s (sp - 1)) && rowSlice (c.rowAt s (sp - 1)) != rowSlice row then
    let here := fun (k : Nat) => k % 16384 == rowInput row && decide (256 * a.stick ≤ k / 16384) && decide (k / 16384 < sp)
    let kept := (StickAcc.new a.stick (c.fft / 2))
    ({ c with fe := { c.fe with pack := c.fe.pack.filter fun e => !here e.1 } },
      { kept with count := a.count, flags := a.flags ||| 128, inputs := a.inputs })
  else (c, a)

/-- A spectrum made from samples (R118-R136). -/
def Chip.liveSpectrum (c00 : Chip) (s sp : Nat) (a0 : StickAcc) : Chip :=
  let (c0, a) := c00.movedSlice s sp a0
  let (bins, sats, marked) := c0.filterSpectrum s sp
  let (kern, c) := c0.kernOf s sp
  let f := c.fft
  let cfg := c.asOf (sp * f)
  let row := c.rowAt s sp
  let eq := cfg.table (strOd s 0x48)
  let prec := (c.asOf (c.periodTick sp)).table (od 0x6003 0)
  let rot := bins.zipIdx.map fun e => kern.rotate f e.2 e.1
  let outs := rot.zipIdx.map fun e => chanOut (precision prec e.2) (eqEntry eq e.2) e.1.1
  let all := sats + (rot.map fun e => e.2).sum
  let over_ := b2n (all != 0)
  let clips := (outs.map ChanOut.clips).sum
  let slice := rowSlice row
  let unsettled := c.unsettledAt s sp
  let flags := 128 * b2n marked + 64 * b2n unsettled + 16 * over_
  let c1 := ((((c.bump (chanOd 0x11) all).bump (chanOd 0x10) over_).bump (od (0x2810 + slice) 3) over_).bump (strOd s 0x4A) over_)
  let c2 := ((c1.bump (chanOd 0x12) clips).bump (od (0x2810 + slice) 4) clips).bump (strOd s 0x49) clips
  let c3 := c2.bump (strOd s 0x4B) (b2n unsettled)
  let b := a.add outs flags over_ (rowInput row)
  { c3.setAcc s (some b) with
    fe := { (c3.setAcc s (some b)).fe with
            pack := sset (fun _ => []) c3.fe.pack (sp * 16384 + rowInput row) (outs.map ChanOut.out) } }

/-- A spectrum of 0 before a start or after a stop inside a stick (R492). -/
def Chip.fillSpectrum (c : Chip) (s : Nat) (a : StickAcc) : Chip :=
  c.setAcc s (some { a with count := a.count + 1, flags := a.flags ||| 128 })

/-- SPECTRUM (R114, R118): the next spectrum of a stream whose filter frame is complete. -/
def execSpectrum (n : Fin 1024) (s : State) : Host.Outcome State Fault Refusal :=
  let s' := n.val
  let c := s.dev.chip
  let x := c.stream s'
  let sp := x.spec
  let f := c.fft
  let here := match c.acc s' with
    | some a => if a.count < 256 then some a else none
    | none => if c.live s' sp then some (StickAcc.new (sp / 256) (f / 2)) else none
  match here with
  | none => ok s c
  | some a0 =>
    let a := if sp % 256 ≠ a0.count then { a0 with count := sp % 256, flags := a0.flags ||| 128 } else a0
    let live := c.live s' sp
    if live && x.st != StreamSt.off && x.next.getD 0 < (sp + 1) * f then ok s c
    else
      let c1 := if live then c.liveSpectrum s' sp a else c.fillSpectrum s' a
      let y := c1.stream s'
      let keep := (sp + 2 - c.taps) * f
      let c2 := c1.setStream s' { y with
        spec := sp + 1,
        hist := y.hist.filter fun e => keep ≤ e.1,
        cuts := y.cuts.filter fun t => sp * f ≤ t + 16 * f,
        unsettled := y.unsettled.filter fun e => sp < e.2 }
      let first := sp % 256 = 0 && (match c.fe.top with | none => true | some t => decide (t < sp / 256))
      if first then
        ok s ({ c2 with fe := { c2.fe with top := some (sp / 256) } }.discardOld (sp / 256))
      else ok s c2

/-! ### The end of a stick (R131, R132, R136-R138) -/

/-- SK_HIGH and SK_LOW of a channel (R131): bits 3 and 2 of the frisket. -/
def skFlags (s1 s2 kl kh : Nat) : Nat :=
  let lhs := 257 * 4096 * ((256 * s2 : Int) - s1 * s1)
  let r : Int := 255 * (s1 * s1)
  if s1 = 0 then 0 else 8 * b2n (decide (kh * r < lhs)) + 4 * b2n (decide (lhs < kl * r))

/-- The SK value of a channel in Q4.12, rounded convergently and saturated (R132). -/
def skValue (s1 s2 : Nat) : Nat :=
  if s1 = 0 then 0 else Nat.min 0xFFFF (rdiv (257 * 4096 * ((256 * s2 : Int) - s1 * s1)) (255 * (s1 * s1))).toNat

/-- The writes of an object by the commits that wait: effect tick, the value before and the value after. -/
def Chip.changesAhead (c : Chip) (k : Nat) : List (Nat × Val × Val) :=
  let l : List (Nat × Val) := c.dict.schedule.filterMap fun p => (p.writes.find? fun e => e.1 == k).map fun e => ((p.tick, e.2) : Nat × Val)
  (l.zip (c.over [] k :: l.map fun e => e.2)).map fun e => (e.1.1, e.2, e.1.2)

/-- A change that acts on the delayed axis at a spectrum still to come, known already (R38, R491): STRADDLE looks one spectrum ahead. -/
def Chip.straddleNext (c : Chip) (s sp : Nat) : Bool :=
  let x := c.stream s
  let d := c.delayAt s (sp * c.fft)
  let here := fun (t : Nat) => t / c.fft == sp
  let entry := fun (t : Nat) => (t + d) / c.fft == sp
  (x.changes.any fun e => (e.delayed && here e.tick) || (e.entry && rowOn e.row && entry e.tick)) ||
    (x.entryMarks.any fun m => m.change && entry m.tick) ||
    ((c.changesAhead (strOd s 8)).any fun e => here e.1 && e.2.1 != e.2.2) ||
    ((c.changesAhead (od 0x6000 0)).any fun e =>
      let a := e.2.1.row s
      let b := e.2.2.row s
      (delayedDiffers a b && here e.1) || (entryDiffers a b && rowOn b && entry e.1))

/-- A stick report written into the ring (R138). -/
def Chip.writeReport (c : Chip) (r : StickReport) : Chip :=
  let b := beBytes 8 r.stick ++ (beBytes 2 r.stream ++ (beBytes 1 r.causes ++ (beBytes 1 0 ++ (beBytes 2 (Nat.min r.clips 65535) ++
    beBytes 2 r.overflows))))
  ({ c with reports := sset (fun _ => []) c.reports (c.rd (chanOd 0x18) % 65536) b }).bump (chanOd 0x18) 1

/-- The reports of a stick are written in ascending stream order once no stream still has a spectrum of it to make (R138); the last
one raises setter source 4 (R314). -/
def Chip.flushReports (c : Chip) (stick : Nat) : Chip :=
  if (List.range 1024).any fun s => c.producing s stick then c
  else
    let mine := (c.fe.reports.filter fun r => r.stick ≤ stick).insertionSort fun a b => a.stick < b.stick ∨ (a.stick = b.stick ∧ a.stream ≤ b.stream)
    let c1 := mine.foldl Chip.writeReport { c with fe := { c.fe with reports := c.fe.reports.filter fun r => stick < r.stick } }
    if mine.isEmpty then c1 else c1.irq 4

/-- A stream has a stick to complete or a spectrum to make. -/
def Chip.busyStream (c : Chip) (s : Nat) : Bool :=
  (c.acc s).isSome || ((c.stream s).next.isSome && c.live s (c.stream s).spec)

/-- OD 2800.09 reads 0 once the slices are stopped and the last stick has left (R139, R492). -/
def Chip.showRunning (c : Chip) : Chip :=
  if c.on (chanOd 1) || (List.range 1024).any c.busyStream then c else c.wr (chanOd 9) 0

/-- STICK_END (R131, R132, R136-R138). -/
def execStickEnd (n : Fin 1024) (s : State) : Host.Outcome State Fault Refusal :=
  let s' := n.val
  let c := s.dev.chip
  match c.acc s' with
  | none => ok s c
  | some a =>
    if a.count < 256 then ok s c
    else
      let last := 256 * a.stick + 255
      let cfg := c.asOf (last * c.fft)
      let x := c.stream s'
      let str := (x.straddle.any fun t => t / 256 == a.stick || t == last + 1) || c.straddleNext s' (last + 1)
      let base := a.flags ||| (32 * b2n str)
      let sums : List (Nat × Nat) := List.zip a.s1 a.s2
      let sk := sums.map fun e => skFlags e.1 e.2 (cfg.rd (chanOd 5)) (cfg.rd (chanOd 6))
      let frisket := List.zipWith (fun k m => base ||| k ||| (2 * b2n m)) sk a.masked
      let high := (sk.filter fun k => bitAt k 3).length
      let low := (sk.filter fun k => bitAt k 2).length
      let causes := frisket.foldl (fun p q => p ||| q) 0
      let c1 := ((c.setAcc s' none).bump (chanOd 0x13) high).bump (chanOd 0x14) low
      let fr := a.inputs.foldl (fun m i =>
        let k := a.stick * 16384 + i
        let old := sget (fun _ => ([] : List Nat)) m k
        sset (fun _ => []) m k (if old.isEmpty then frisket else List.zipWith (fun p q => p ||| q) old frisket)) c1.fe.friskets
      let take_ := c.fe.armed == some s'
      let c2 := { c1 with fe := { c1.fe with
        friskets := fr,
        armed := if take_ then none else c1.fe.armed,
        reports := c1.fe.reports ++ [(⟨a.stick, s', causes, a.clips, a.overflows⟩ : StickReport)] } }
      let c3 := if take_ then
          c2.wrDom (chanOd 0x1C) (beBytes 8 a.stick ++ (beBytes 2 s' ++ (beBytes 6 0 ++
            sums.flatMap fun e => beBytes 2 (skValue e.1 e.2))))
        else c2
      let c4 := c3.setStream s' { x with straddle := x.straddle.filter fun t => last < t }
      ok s ((c4.flushReports a.stick).showRunning)

/-- The SK capture armed for the stream of OD 2800.1A (R132). -/
def Chip.skArm (c : Chip) : Chip := { c with fe := { c.fe with armed := some (c.rd (chanOd 0x1A)) } }

/-- SK_CAPTURE_ARM: OD 2800.1B. -/
def execSkCaptureArm (sess : Fin 9) (s : State) : Host.Outcome State Fault Refusal :=
  ok s (s.dev.chip.request sess.val (chanOd 0x1B) (.num 1) fun c => (c.skArm, .ok))

/-! ### Run and stop (R123, R139) -/

/-- A stream starts to make spectra at sp: the stick that holds it is made whole (R492). -/
def Chip.startStream (c : Chip) (s sp : Nat) : Chip :=
  let x := c.stream s
  match c.acc s with
  | some _ => c
  | none => if sp < x.spec then c
    else (c.setStream s { x with spec := Nat.max x.spec (sp / 256 * 256) }).setAcc s
      (if Nat.max x.spec (sp / 256 * 256) = sp then none else some (StickAcc.new (sp / 256) (c.fft / 2)))

/-- The next stick whose frames become ready, from the stick of a spectrum on. -/
def Chip.readyFrom (c : Chip) (sp : Nat) : Chip :=
  { c with fe := { c.fe with ready := match c.fe.ready with | some k => some k | none => some (sp / 256) } }

/-- OD 2800.01 takes effect at spectrum sp (R139). -/
def Chip.runEffect (c : Chip) (sp : Nat) (on : Bool) : Chip :=
  if on then
    let c1 := { c with fe := { c.fe with marks := (sp, sp + c.taps - 2) :: c.fe.marks.filter fun e => sp ≤ e.2 + 4096 } }
    let c2 := (List.range 1024).foldl (fun a s =>
      if rowOn (a.rowAt s sp) then
        (a.setStream s { a.stream s with cuts := sp * a.fft :: (a.stream s).cuts }).startStream s sp
      else a) (c1.readyFrom sp)
    c2.wr (chanOd 9) 1
  else
    { c with fe := { c.fe with ready := match c.fe.ready with | some k => if sp ≤ 256 * k then none else some k | none => none } }.showRunning

/-- A row enabled at spectrum sp on the delayed axis starts its stream (R492). -/
def Chip.rowStarts (c : Chip) (sp : Nat) (old new : List Byte) : Chip :=
  if !(c.asOf (sp * c.fft)).on (chanOd 1) then c
  else (List.range 1024).foldl (fun a s =>
    if !rowOn (mapRow old s) && rowOn (mapRow new s) then a.startStream s sp else a) c

/-- A filter table takes effect at spectrum sp: taps - 1 spectra of every stream are unsettled (R117, R123). -/
def Chip.filterEffect (c : Chip) (sp : Nat) : Chip :=
  { c with fe := { c.fe with marks := (sp, sp + c.taps - 2) :: c.fe.marks.filter fun e => sp ≤ e.2 + 4096 } }

end Sys2Proof.Machine
end

