-- ==== Sys2Proof/Machine/Truss.lean ====
section
/-! DEFINITION. The truss and the galley: truss map, SAMPLE frames made and received, the checks of every truss frame, pegs, beacons and
decisions that arrive, and the two galley halves (R142-R163, R439, R444). -/

namespace Sys2Proof.Machine

/-! ### The truss map (R143) -/

/-- N of a truss map body. -/
def mapN (b : List Byte) : Nat := beAt b 0 2
/-- C of a truss map body. -/
def mapC (b : List Byte) : Nat := beAt b 2 2
/-- OWNER of a channel. -/
def mapOwner (b : List Byte) (c : Nat) : Nat := beAt b (8 + c) 1 % 64
/-- ORIGIN of an input group. -/
def mapOrigin (b : List Byte) (g : Nat) : Nat := beAt b (8 + mapC b + g) 1 % 64
/-- The channels a position owns, ascending: its local channels. -/
def localChannels (b : List Byte) (p : Nat) : List Nat := (List.range (mapC b)).filter fun c => mapOwner b c == p

/-- What applies to chase period n: the values in force at its first spectrum (R144, R160, R167). -/
def Chip.periodCfg (c : Chip) (n : Nat) : Chip := c.asOf (n * c.chaseT * c.fft)

/-- The truss map of a period. -/
def Chip.trussMap (c : Chip) (n : Nat) : List Byte := (c.periodCfg n).table (od 0x6004 0)

/-- The precision table of a period. -/
def Chip.precTable (c : Chip) (n : Nat) : List Byte := (c.periodCfg n).table (od 0x6003 0)

/-- Inputs of a frame at a precision (R145). -/
def nin (prec : Nat) : Nat := if prec = 1 then 8 else 16

/-- Bytes of a channel sample at a precision (R133). -/
def sampleBytes (prec : Nat) : Nat := if prec = 1 then 2 else 1

/-! ### SAMPLE frames made (R145, R146, R148) -/

/-- A channel sample packed (R133). -/
def packSample (prec : Nat) (v : Cx) : List Byte :=
  if prec = 1 then beBytes 1 (ofI v.1 8) ++ beBytes 1 (ofI v.2 8) else beBytes 1 (ofI v.1 4 * 16 + ofI v.2 4)

/-- Frisket byte of an input and channel in a stick; `none` where no row of the sender fed the input (R145). -/
def Chip.frisketOf (c : Chip) (k i ch : Nat) : Option Nat :=
  let f := sget (fun _ => ([] : List Nat)) c.fe.friskets (k * 16384 + i)
  if f.isEmpty then none else some (f.getD ch 0)

/-- The bytes of a SAMPLE frame after byte 9, without its CRC (R148). -/
def Chip.sampleBody (c : Chip) (k ch first prec n mask period stick : Nat) : List Byte :=
  let ins := (List.range (nin prec)).map (first + ·)
  let fed := ins.map fun i => if i < n then c.frisketOf k i ch else none
  let fr := fed.map fun f => f.getD 128
  let valid := (fed.zipIdx.map fun e => if e.1.any fun f => f &&& mask == 0 then 2 ^ e.2 else 0).sum
  let pay := ins.flatMap fun i => (List.range 256).flatMap fun t =>
    packSample prec ((sget (fun _ => ([] : List Cx)) c.fe.pack ((256 * k + t) * 16384 + i)).getD ch (0, 0))
  beBytes 2 ch ++ (beBytes 2 first ++ (beBytes 6 period ++ (beBytes 1 stick ++ (beBytes 1 0 ++ (beBytes 2 valid ++
    (padTo 16 (fr.map fun v => BitVec.ofNat 8 v) ++ (beBytes 8 0 ++ pay)))))))

/-- The first inputs of a channel's frames that a position sends (R145). -/
def Chip.frameInputs (c : Chip) (map : List Byte) (prec : Nat) : List Nat :=
  (List.range ((mapN map + nin prec - 1) / nin prec)).filterMap fun g =>
    let first := g * nin prec
    if mapOrigin map (first / 16) = c.node then some first else none

/-- A discard at the sender, counted for the peer it was for (R146). -/
def Chip.sendDiscard (c : Chip) (p : Nat) : Chip := (c.bump (od 0x2C00 0x1A) 1).bump (peerOd p 0x1B) 1

/-- A frame of stick k made for a bundle, or discarded (R146). -/
def Chip.frameFor (c : Chip) (k p : Nat) (tooLate : Bool) (frame : List Byte) (b : Nat) : Chip :=
  if 256 ≤ b then c
  else if tooLate || !c.carries b then c.sendDiscard p
  else c.setBundle b ((c.bundle b).addSample c.lc ⟨frame, k, false⟩)

/-! ### The galley halves (R158-R162) -/

/-- OD 2C10: state, period or epoch (sub 1, 2, 3) of a half. -/
def halfOd (h : Fin 2) (sub : Nat) : Nat := od 0x2C10 (3 * h.val + sub)

/-- State of a half (R160): 0 IDLE, 1 FILLING, 2 CLOSED. -/
def Chip.halfState (c : Chip) (h : Fin 2) : Nat := c.rd (halfOd h 1)

/-- Period a half holds or fills. -/
def Chip.halfPeriod (c : Chip) (h : Fin 2) : Nat := c.rd (halfOd h 2)

/-- A half beside its objects. -/
def Chip.half (c : Chip) (h : Fin 2) : Half := c.truss.halves[h]

/-- A half set. -/
def Chip.setHalf (c : Chip) (h : Fin 2) (x : Half) : Chip := { c with truss := { c.truss with halves := c.truss.halves.set h x } }

/-- Half of a period. -/
def halfOf (n : Nat) : Fin 2 := Fin.ofNat 2 n

/-- The half is open for a period: FILLING, empty, with its layout still to be fixed (R160). -/
def Chip.openHalf (c : Chip) (h : Fin 2) (n : Nat) : Chip :=
  ((c.setHalf h Half.atReset).wr (halfOd h 1) 1).wr (halfOd h 2) n

/-- The half goes to IDLE. -/
def Chip.idleHalf (c : Chip) (h : Fin 2) : Chip := (c.setHalf h Half.atReset).wr (halfOd h 1) 0

/-- Bytes of a half's slabs below local channel j (R158). -/
def slabOffset (map prec : List Byte) (node t j : Nat) : Nat :=
  (((localChannels map node).take j).map fun c => mapN map * t * sampleBytes (precision prec c)).sum

/-- Address of a half in partition space (R158). -/
def Chip.halfBase (c : Chip) (h : Fin 2) : Nat := c.galleyBase + h.val * (c.rd (od 0x3C01 0x02) / 2)

/-- The place of a frame in the receipt map (R159). -/
def receiptPlace (map prec : List Byte) (node t j first stick : Nat) : Nat :=
  let per := fun (c : Nat) => (mapN map + nin (precision prec c) - 1) / nin (precision prec c) * (t / 256)
  let l := localChannels map node
  ((l.take j).map per).sum + first / nin (precision prec (l.getD j 0)) * (t / 256) + stick

/-- Bits of a place in the receipt map: 1 RECEIVED, 2 UNSETTLED. -/
def Half.mark (x : Half) (place : Nat) : Nat := sget (fun _ => 0) x.marks place

/-- The marker at a precision, for a stick (R159). -/
def markerBytes (prec : Nat) : List Byte := List.replicate (256 * sampleBytes prec) (if prec = 1 then 0x80#8 else 0x88#8)

/-! ### Copies compared (R444) -/

/-- The position's peer is twinned: both its bundles are named. -/
def Chip.peerTwinned (c : Chip) (p : Nat) : Bool := c.rd (peerOd p 1) < 256 && c.rd (peerOd p 2) < 256

/-- A frame is selected for comparison. -/
def Chip.compares (c : Chip) (p period stick ch first : Nat) : Bool :=
  let k := c.rd (od 0x5400 0x0A)
  1 ≤ k && k ≤ 16 && c.peerTwinned p && (period * (c.chaseT / 256) + stick + ch + first) % 2 ^ k == 0

/-- A mismatch or a missing copy counted: the first one in any second raises a NOTE. -/
def Chip.compareFails (c : Chip) (k : Nat) : Chip :=
  let due := match c.truss.noted with | none => true | some t => decide (t + second ≤ c.lc)
  if due then ({ c with truss := { c.truss with noted := some c.lc } }).countFault .note k 0 else c.bump k 1

/-- The CRC of what both copies of a frame share: bytes 10 to L - 5 (log entry 45). -/
def copyCrc (f : List Byte) : Nat := crc32 (slice f 10 (f.length - 14))

/-! ### Checks of a frame (R155) -/

/-- Where a frame came from: the position whose counters it bumps, none where no OD A000+p names the bundle. -/
abbrev Arrival := Option Nat

/-- A counter of OD 2C00 and the same one of the arrival's A000+p. -/
def Chip.countIn (c : Chip) (a : Arrival) (sub : Nat) : Chip :=
  let c1 := c.bump (od 0x2C00 sub) 1
  match a with | some p => c1.bump (peerOd p sub) 1 | none => c1

/-- Step 1 of R155: the length fits KIND, COUNT and TYPE. -/
def frameLengthOk (f : List Byte) : Bool :=
  let l := f.length
  match beAt f 0 1 % 16 with
  | 1 => l == 4148
  | 2 => let n := beAt f 3 1 % 32
         decide (1 ≤ n) && decide (n ≤ 16) && l == 20 + 16 * n
  | 3 => match beAt f 3 1 with
    | 0x01 => l == 36
    | 0x02 => l == 44
    | 0x10 => decide (36 ≤ l) && decide (l ≤ 8192)
    | 0x11 => l == 40
    | 0x12 => let n := beAt f 16 1
              decide (1 ≤ n) && decide (n ≤ 16) && l == 28 + 16 * n
    | 0x13 => l == 52
    | 0x14 => l == 36
    | 0x15 => l == 28
    | _ => false
  | _ => false

/-- Steps 3 and 4 of R155 on a bundle. -/
def Chip.headerOk (c : Chip) (b vl : Nat) (f : List Byte) : Bool :=
  let twin := c.bundleRole b == 3
  let type := beAt f 3 1
  let src := beAt f 1 1 / 4
  let side := beAt f 1 1 / 2 % 2
  let partner := if twin then src == c.node && side != c.side
    else match c.peerOf b with | some (p, s) => src == p && side == s | none => false
  beAt f 0 1 / 16 == 1 && beAt f 0 1 % 16 == (match vl with | 0 => 3 | 1 => 2 | _ => 1) &&
    (vl != 0 || twin || type == 1 || type == 2) && !(twin && vl == 1) && partner && beAt f 2 1 / 4 == c.node

/-- SEQ values skipped on a bundle's virtual lane (R157). -/
def Chip.countGaps (c : Chip) (b vl : Nat) (f : List Byte) : Chip :=
  let q := beAt f 4 6
  let x := c.bundle b
  let expect := match x.rxSeqs.getD vl none with | none => 0 | some n => (n + 1) % 2 ^ 48
  let gap := (q + 2 ^ 48 - expect) % 2 ^ 48
  let c1 := c.setBundle b { x with rxSeqs := x.rxSeqs.set vl (some q) }
  match c.peerOf b with
  | some (p, _) => if gap < 2 ^ 47 then c1.bump (peerOd p 0x19) gap else c
  | none => c1

/-- Steps 1 to 4 of R155: the chip as it goes on when they pass, or the counted discard. -/
def Chip.admitFrame (c : Chip) (b vl : Nat) (f : List Byte) : Chip × Bool :=
  let a : Arrival := (c.peerOf b).map fun e => e.1
  if !frameLengthOk f then (c.countIn a 0x17, false)
  else if beAt f (f.length - 4) 4 ≠ crc32 (f.take (f.length - 4)) then (c.countIn a 0x18, false)
  else if !c.headerOk b vl f then (c.countIn a 0x17, false)
  else (c.countGaps b vl f, true)

/-! ### SAMPLE frames received (R155-R162) -/

/-- What step 5 of R155 says of a period (R162). -/
inductive Window where
  | filling (h : Fin 2)
  /-- It waits under credit control until its half is open and its layout fixed (R160). -/
  | wait
  | late | overrun | outside
  deriving DecidableEq, Repr

/-- The first tick of a chase period (R34). -/
def Chip.periodStart (c : Chip) (n : Nat) : Nat := n * c.chaseT * c.fft

/-- The tick at which the half of a period closes (R161). -/
def Chip.closeTick (c : Chip) (n : Nat) : Nat :=
  c.periodStart (n + 1) + (c.periodCfg n).rd (od 0x2C00 0x02) * c.fa / 1000000

/-- The half of a period closed in an earlier cycle (R49, R161). -/
def Chip.closePassed (c : Chip) (n : Nat) : Bool := decide (0 < c.lc) && decide (c.closeTick n ≤ c.tickAt (c.lc - 1))

/-- Step 5 of R155. -/
def Chip.window (c : Chip) (n : Nat) : Window :=
  let h := halfOf n
  let x := c.half h
  if c.halfState h = 1 && c.halfPeriod h = n then if c.closePassed n then .late else if x.fixed then .filling h else .wait
  else if (match c.truss.newest with | some m => decide (n ≤ m) | none => false) then .late
  else if c.halfState h = 2 && n = c.halfPeriod h + 2 then
    if x.clearing && (match c.truss.stopAt with | some m => decide (n < m) | none => true) then .wait else .overrun
  else .outside

/-- The inputs of an accepted frame written to the galley (R158, R159). -/
def Dev.writeSticks (d : Dev) (h : Fin 2) (n j ch first stick : Nat) (f : List Byte) : Dev :=
  let c := d.chip
  let map := c.trussMap n
  let prec := precision (c.precTable n) ch
  let b := sampleBytes prec
  let t := c.chaseT
  let base := c.halfBase h + slabOffset map (c.precTable n) c.node t j
  (List.range (nin prec)).foldl (fun a i =>
    if mapN map ≤ first + i then a
    else
      let bytes := if bitAt (beAt f 22 2) i then slice f (48 + i * 256 * b) (256 * b) else markerBytes prec
      a.writeHbm (openUser 2) (base + (first + i) * t * b + 256 * stick * b) bytes false) d

/-- UNSETTLED of a place (R159): an input that is valid and unsettled. -/
def frameUnsettled (prec : Nat) (f : List Byte) : Bool :=
  (List.range (nin prec)).any fun i => bitAt (beAt f 22 2) i && bitAt (beAt f (24 + i) 1) 6

/-- A frame for a FILLING half: steps 6 to 8 of R155, and the write. -/
def Dev.placeSample (d : Dev) (a : Arrival) (h : Fin 2) (own : Bool) (f : List Byte) : Dev :=
  let c := d.chip
  let n := c.halfPeriod h
  let map := c.trussMap n
  let ch := beAt f 10 2 % 2 ^ 15
  let first := beAt f 12 2 % 2 ^ 14
  let stick := beAt f 20 1
  let prec := precision (c.precTable n) ch
  let src := beAt f 1 1 / 4
  let side := beAt f 1 1 / 2 % 2
  if beAt f 3 1 ≠ c.rd (halfOd h 3) then { d with chip := c.countIn a 0x16 }
  else if mapC map ≤ ch || mapOwner map ch ≠ c.node || first % nin prec ≠ 0 || mapN map ≤ first ||
      mapOrigin map (first / 16) ≠ src || c.chaseT / 256 ≤ stick then { d with chip := c.countIn a 0x17 }
  else
    let j := ((localChannels map c.node).filter fun x => x < ch).length
    let place := receiptPlace map (c.precTable n) c.node c.chaseT j first stick
    let x := c.half h
    let sel := !own && c.compares src n stick ch first
    if bitAt (x.mark place) 0 then
      let c1 := c.countIn a 0x12
      let kept := sget (fun _ => 0) x.crcs place
      if sel && kept ≠ 0 then
        let c2 := (c1.setHalf h { x with crcs := sdel x.crcs place }).bump (od (0x5440 + src) 1) 1
        { d with chip := if kept = copyCrc f + 1 then c2 else c2.compareFails (od (0x5440 + src) 2) }
      else { d with chip := c1 }
    else
      let y := { x with marks := sset (fun _ => 0) x.marks place (1 + 2 * b2n (frameUnsettled prec f)),
                        crcs := if sel then sset (fun _ => 0) x.crcs place (copyCrc f + 1) else x.crcs }
      let c1 := (c.setHalf h y).bump (od 0x2C00 0x10) 1
      let c2 := c1.bump (peerOd (if own then c.node else src) (0x10 + side)) 1
      let c3 := if own then c2.bump (od 0x2C00 0x11) 1 else c2
      ({ d with chip := c3 }).writeSticks h n j ch first stick f

/-- A SAMPLE frame dropped by its period (R162). -/
def Chip.dropPeriod (c : Chip) (a : Arrival) (w : Window) (n : Nat) : Chip :=
  match w with
  | .late => c.countIn a 0x13
  | .overrun =>
    let h := halfOf n
    let old := c.rd (od 0x2C00 0x14)
    let c1 := c.countIn a 0x14
    if (c1.half h).overrun then c1
    else (c1.setHalf h { c1.half h with overrun := true }).fault .degrade .counted (od 0x2C00 0x14) old (c1.rd (od 0x2C00 0x14)) 0
  | _ => c.countIn a 0x15

/-- A frame of the internal path (R145): checked and counted under the position's own index; it waits where its half is not open. -/
def Dev.localSample (d : Dev) (f : List Byte) : Dev :=
  let c := d.chip
  let n := beAt f 14 6
  match c.window n with
  | .filling h => d.placeSample (some c.node) h true f
  | .wait => { d with chip := { c with truss := { c.truss with local_ := c.truss.local_ ++ [f] } } }
  | w => { d with chip := c.dropPeriod (some c.node) w n }

/-- Frames of the internal path that waited try again. -/
def Dev.retryLocal (d : Dev) : Dev :=
  let l := d.chip.truss.local_
  l.foldl Dev.localSample { d with chip := { d.chip with truss := { d.chip.truss with local_ := [] } } }

/-- A frame taken from a MESH bundle's SAMPLE lane: steps 1 to 8 of R155. -/
def Dev.sampleIn (d : Dev) (b : Nat) (frame : List Byte) : Dev :=
  let c := d.chip
  let a : Arrival := (c.peerOf b).map fun e => e.1
  let n := beAt frame 14 6
  match c.takeFrame b 2 frame with
  | none => { d with chip := c.refuseFrame b }
  | some c1 =>
    let (c2, good) := c1.admitFrame b 2 frame
    if !good then { d with chip := c2 }
    else match c2.window n with
      | .filling h => ({ d with chip := c2 } : Dev).placeSample a h false frame
      | w => { d with chip := c2.dropPeriod a w n }

/-- Frames that waited in their bundle's buffer or on the internal path try again: a half has opened, or its layout is fixed (R160). -/
def Dev.retryWaiting (d : Dev) : Dev :=
  let t := d.chip.truss
  let go := t.waiting.filter fun e => d.chip.window (beAt e.2 14 6) != .wait
  let d1 : Dev := { d with chip := { d.chip with truss := { t with waiting := t.waiting.filter fun e => !go.contains e } } }
  (go.foldl (fun a e => if (a.chip.bundle e.1).ready.contains (2, e.2) then a.sampleIn e.1 e.2 else a) d1).retryLocal

/-- SAMPLE_FRAME (R155): a whole frame on a MESH bundle's SAMPLE lane. A frame whose half is being cleared or not yet fixed waits in its
bundle's buffer (R160). -/
def execSampleFrame (b : Fin 256) (frame : List Byte) (s : State) : Host.Outcome State Fault Refusal :=
  let d := s.dev
  let c := d.chip
  if c.bundleRole b.val ≠ 2 then ok s (c.refuseFrame b.val)
  else
    let n := beAt frame 14 6
    let waits := frameLengthOk frame && c.headerOk b.val 2 frame &&
      beAt frame (frame.length - 4) 4 == crc32 (frame.take (frame.length - 4)) && c.window n == .wait
    if waits then
      if c.truss.waiting.contains (b.val, frame) then ok s c
      else
        let c1 := if (c.bundle b.val).ready.contains (2, frame) then c else c.frameIn b.val 2 frame
        ok s { c1 with truss := { c1.truss with waiting := c1.truss.waiting ++ [(b.val, frame)] } }
    else done s (d.sampleIn b.val frame)

/-! ### Sticks ready (R145, R146) -/

/-- The sender's frames of stick k, made in ascending CHANNEL and FIRST_INPUT: into its own galley, or to both sides of the owner. -/
def Dev.formFrames (d : Dev) (k : Nat) (tooLate : Bool) : Dev :=
  let c := d.chip
  let t := c.chaseT
  let period := 256 * k / t
  let stick := (256 * k % t) / 256
  let map := c.trussMap period
  let table := c.precTable period
  let mask := (c.asOf ((256 * k + 255) * c.fft)).rd (chanOd 7)
  (List.range (mapC map)).foldl (fun a ch =>
    let prec := precision table ch
    let owner := mapOwner map ch
    (c.frameInputs map prec).foldl (fun a2 first =>
      let body := c.sampleBody k ch first prec (mapN map) mask period stick
      let f := a2.chip.trussFrame 1 owner (c.epochOf period) body
      if owner = c.node then
        if tooLate then { a2 with chip := a2.chip.sendDiscard owner } else a2.localSample (sealFrame f 0)
      else { a2 with chip := (a2.chip.frameFor k owner tooLate f (c.rd (peerOd owner 1))).frameFor k owner tooLate f
                               (c.rd (peerOd owner 2)) }) a) d

/-- A side sends no SAMPLE frame of a period: it seeks its partner, or it joins and its slices have not left the unsettled span of their start
by the first spectrum of that period (R433, R440). -/
def Chip.quietIn (c : Chip) (period : Nat) : Bool :=
  c.role == 1 || (c.role == 4 && (match c.twin.startAt with
    | none => true
    | some n => decide (period * c.chaseT < n * c.chaseT + c.taps - 1)))

/-- TRUSS_FRAMES_READY (R146): the next stick has left every requantizer. -/
def execTrussFramesReady (s : State) : Host.Outcome State Fault Refusal :=
  let d := s.dev
  let c := d.chip
  match c.fe.ready with
  | none => ok s c
  | some k =>
    let made := c.fe.friskets.any fun e => e.1 / 16384 == k
    let passed := decide ((k + 1) * 256 * c.fft ≤ c.reached)
    if ((List.range 1024).any fun n => c.producing n k) || !(made || passed) then ok s c
    else
      let tooLate := match c.fe.top with | some t => decide (k + 2 ≤ t) | none => false
      let quiet := c.quietIn (256 * k / c.chaseT)
      let d1 := if quiet then d else d.formFrames k tooLate
      let c1 := d1.chip
      let on := (c1.asOf ((k + 1) * 256 * c1.fft)).on (chanOd 1)
      done s { d1 with chip := { c1 with fe := { c1.fe with
        ready := if on then some (k + 1) else none,
        pack := c1.fe.pack.filter fun e => (k + 1) * 256 ≤ e.1 / 16384,
        friskets := c1.fe.friskets.filter fun e => k < e.1 / 16384 } } }

/-! ### Pegs, beacons and decisions received (R149-R151, R156, R241, R437, R438) -/

/-- A received peg: a duplicate, or logged and handed to the groups (R156, R235, R237). -/
def Chip.pegIn (c : Chip) (p side : Nat) (b : List Byte) : Chip :=
  let peg : Peg := ⟨b, p⟩
  let (j, w) := judge (2 ^ 16) 256 (sget (fun _ => none) c.trigger.pegsSeen p) peg.seq
  let c1 := { c with trigger := { c.trigger with pegsSeen := sset (fun _ => none) c.trigger.pegsSeen p w } }
  match j with
  | .duplicate => c.bump (peerOd p 0x1E) 1
  | .old => c.bump (peerOd p 0x1E) 1
  | _ =>
    let odd := peg.kind = 0 || 4 < peg.kind
    (((c1.bump (peerOd p 0x1D) 1).toGroups peg).logPeg peg side false).bump (od 0x3800 0x15) (b2n odd)

/-- PEG_FRAME (R149, R155); on a TWIN bundle it is a header error. -/
def execPegFrame (b : Fin 256) (frame : List Byte) (s : State) : Host.Outcome State Fault Refusal :=
  let c := s.dev.chip
  if c.bundleRole b.val ≠ 2 && c.bundleRole b.val ≠ 3 then ok s (c.refuseFrame b.val)
  else match c.takeFrame b.val 1 frame with
  | none => ok s (c.refuseFrame b.val)
  | some c1 =>
    let (c2, good) := c1.admitFrame b.val 1 frame
    if !good then ok s c2
    else
      let src := beAt frame 1 1 / 4
      let side := beAt frame 1 1 / 2 % 2
      ok s ((List.range (beAt frame 3 1 % 32)).foldl (fun a i => a.pegIn src side (slice frame (16 + 16 * i) 16)) c2)

/-- A CONTROL message judged by source position, TYPE and MSG_ID (R156). -/
def Chip.controlNew (c : Chip) (src type id : Nat) : Bool × Chip :=
  let k := src * 256 + type
  let (j, w) := judge (2 ^ 48) 64 (sget (fun _ => none) c.trigger.controlSeen k) id
  match j with
  | .duplicate => (false, c)
  | .old => (false, c)
  | _ => (true, { c with trigger := { c.trigger with controlSeen := sset (fun _ => none) c.trigger.controlSeen k w } })

/-- A beacon stored, to be compared at the first chase period of its epoch; at once where that has begun (R151). -/
def Chip.beaconIn (c : Chip) (src : Nat) (body : List Byte) : Chip :=
  let c1 := c.wrDom (peerOd src 0x1F) body
  let l := if c1.truss.beacons.contains src then c1.truss.beacons else c1.truss.beacons ++ [src]
  ({ c1 with truss := { c1.truss with beacons := l } } : Chip).beaconsDue

/-- A decision received (R241, R243): applied; at a shadow the lead's decision ends the suppressed one, gives the next MSG_ID, and is relayed
(R438, R441). -/
def Chip.decisionIn (c : Chip) (src id : Nat) (twin : Bool) (body : List Byte) : Chip :=
  let d := readDecision body
  let c1 := c.applyDecision d src id
  if twin && c.role = 3 then
    ({ c1 with trigger := { c1.trigger with msgId := (id + 1) % 2 ^ 48, suppressed := c1.trigger.suppressed.filter fun e =>
        !(e.1.machine == d.machine && e.1.tick == d.tick && e.1.soft == d.soft) } }).sendDecision d id false
  else c1

/-- A CONTROL frame of TYPE 1 or 2 taken from a bundle (R150, R155, R156). -/
def Chip.controlIn (c : Chip) (b : Nat) (frame : List Byte) : Chip :=
  if c.bundleRole b ≠ 2 && c.bundleRole b ≠ 3 then c.refuseFrame b
  else match c.takeFrame b 0 frame with
  | none => c.refuseFrame b
  | some c1 =>
    let (c2, good) := c1.admitFrame b 0 frame
    if !good then c2
    else
      let type := beAt frame 3 1
      let src := beAt frame 1 1 / 4
      let id := beAt frame 10 6
      let (fresh, c3) := c2.controlNew src type id
      if !fresh then c3.countIn ((c3.peerOf b).map fun e => e.1) 0x12
      else
        let body := slice frame 16 (frame.length - 20)
        let twin := c3.bundleRole b == 3
        let c4 := if type = 1 then c3.beaconIn src body else if type = 2 then c3.decisionIn src id twin body else c3
        if twin then c4.bump (od 0x5400 0x23) 1 else c4

/-- COMMIT_BEACON (R151). -/
def execCommitBeacon (b : Fin 256) (frame : List Byte) (s : State) : Host.Outcome State Fault Refusal :=
  ok s (s.dev.chip.controlIn b.val frame)

/-- TRIGGER_DECISION (R241). -/
def execTriggerDecision (b : Fin 256) (frame : List Byte) (s : State) : Host.Outcome State Fault Refusal :=
  ok s (s.dev.chip.controlIn b.val frame)

/-! ### Halves fixed, closed, released, cleared (R151, R160, R161) -/

/-- Receipt-map bytes of a layout: two bits a frame place (R159). -/
def receiptBytes (map prec : List Byte) (node t : Nat) : Nat :=
  let places := ((localChannels map node).map fun ch =>
    let k := nin (precision prec ch)
    (mapN map + (k - 1)) / k * (t / 256)).sum
  (2 * places + 7) / 8

/-- The half's epoch and layout are fixed (R160). -/
def Chip.fixHalf (c : Chip) (h : Fin 2) : Chip :=
  let n := c.halfPeriod h
  let x : Half := { c.half h with fixed := true, bytes := receiptBytes (c.trussMap n) (c.precTable n) c.node c.chaseT }
  ((c.setHalf h x).wr (halfOd h 3) (c.epochOf n)).beaconsDue

/-- HALF_LAYOUT_FIX (R160): the ingest front has reached the first spectrum of the period that a half fills. -/
def execHalfLayoutFix (h : Fin 2) (s : State) : Host.Outcome State Fault Refusal :=
  let c := s.dev.chip
  if c.halfState h = 1 && !(c.half h).fixed then
    done s ({ s.dev with chip := (c.untilFront (c.periodStart (c.halfPeriod h))).fixHalf h }).retryWaiting
  else ok s c

/-- The frame places of a half, with the ORIGIN of their group (R159): local channel by local channel, group by group, stick by stick. -/
def Chip.places (c : Chip) (n : Nat) : List (Nat × Nat) :=
  let map := c.trussMap n
  let prec := c.precTable n
  let t := c.chaseT
  (localChannels map c.node).zipIdx.flatMap fun e =>
    let k := nin (precision prec e.1)
    (List.range ((mapN map + k - 1) / k)).flatMap fun g =>
      (List.range (t / 256)).map fun st =>
        ((receiptPlace map prec c.node t e.2 (g * k) st, mapOrigin map (g * k / 16)) : Nat × Nat)

/-- A half is released: its receipt map is cleared next (R160). -/
def Chip.releaseHalf (c : Chip) (h : Fin 2) : Chip :=
  if c.halfState h = 2 then c.setHalf h { c.half h with clearing := true } else c

/-- The X-engine runs: OD 3000.04 is not 0. -/
def Chip.xRunning (c : Chip) : Bool := c.rd (od 0x3000 0x04) != 0

/-- The X-engine processes a period (R171): OD 3000.01 is 1 at its first spectrum, and it has not been stopped for good (R275, R465). -/
def Chip.xOn (c : Chip) (n : Nat) : Bool :=
  (c.periodCfg n).on (od 0x3000 0x01) && (match c.xe.halt with | some m => decide (n < m) | none => true)

/-- GALLEY_CLOSE (R49, R161), at the end of the cycle in which the close tick is reached: unreceived places are counted missing; a half closes for the X-engine, or is released at once when that does
not run. -/
def execGalleyClose (h : Fin 2) (s : State) : Host.Outcome State Fault Refusal :=
  let n := s.dev.chip.halfPeriod h
  if s.dev.chip.halfState h ≠ 1 then ok s s.dev.chip
  else
    let at_ := s.dev.chip.untilTick (s.dev.chip.closeTick n)
    let c0 := if at_.closePassed n then at_ else at_.cycleEnds
    let c := if (c0.half h).fixed then c0 else c0.fixHalf h
    let x := c.half h
    let c1 := (c.places n).foldl (fun a e =>
      if bitAt (x.mark e.1) 0 then a else (a.bump (od 0x2C00 0x19) 1).bump (peerOd e.2 0x1A) 1) c
    let c2 := (c.places n).foldl (fun a e =>
      if sget (fun _ => 0) x.crcs e.1 = 0 then a else a.compareFails (od (0x5440 + e.2) 3)) c1
    let c3 := ({ c2 with truss := { c2.truss with newest := some (match c2.truss.newest with | some m => Nat.max m n | none => n) } }).wr
      (halfOd h 1) 2
    let runs := c3.xRunning && c3.xOn n
    ok s (if runs then c3 else c3.releaseHalf h)

/-- RECEIPT_MAP_CLEARED (R160): the half opens for the next period of its parity, or goes to IDLE where the truss stops. -/
def execReceiptMapCleared (h : Fin 2) (s : State) : Host.Outcome State Fault Refusal :=
  let c := s.dev.chip
  if c.halfState h ≠ 2 || !(c.half h).clearing then ok s c
  else
    let start := c.truss.startAt
    let first := if start % 2 = h.val then start else start + 1
    let n := Nat.max (c.halfPeriod h + 2) first
    let stops := match c.truss.stopAt with | some m => decide (m ≤ n) | none => false
    done s ({ s.dev with chip := if stops then c.idleHalf h else c.openHalf h n }).retryWaiting

/-- OD 2C00.01 takes effect at chase period n0 (R160). -/
def Chip.trussEffect (c : Chip) (n0 : Nat) (on : Bool) : Chip :=
  if on then
    let c1 := { c with truss := { c.truss with stopAt := none, startAt := n0 } }
    let open_ := fun (a : Chip) (n : Nat) => if a.halfState (halfOf n) = 0 then a.openHalf (halfOf n) n else a
    open_ (open_ c1 n0) (n0 + 1)
  else
    let c1 := { c with truss := { c.truss with stopAt := some n0 } }
    let stop := fun (a : Chip) (h : Fin 2) => if a.halfState h = 1 && decide (n0 ≤ a.halfPeriod h) then a.idleHalf h else a
    stop (stop c1 0) 1

end Sys2Proof.Machine
end

