-- ==== Sys2Proof/Machine/XEngine.lean ====
section
/-! DEFINITION. The X-engine: formes and their states, staging, dispatch, impressions, the accumulator and the proofs (R167-R193, R493),
and the platen side of the beams (R194-R203). -/

namespace Sys2Proof.Machine

/-! ### Formes -/

/-- OD 8000+f.sub. -/
def formeOd (f sub : Nat) : Nat := od (0x8000 + f) sub

/-- OD 3000.sub. -/
def xOd (sub : Nat) : Nat := od 0x3000 sub

/-- A forme beside its objects. -/
def Chip.forme (c : Chip) (f : Nat) : FormeX := sget (fun _ => FormeX.atReset) c.xe.formes f

/-- A forme set. -/
def Chip.setForme (c : Chip) (f : Nat) (x : FormeX) : Chip :=
  { c with xe := { c.xe with formes := sset (fun _ => FormeX.atReset) c.xe.formes f x } }

/-- Kind of a forme: 0 none, 1 correlate, 2 beam, 3 proof (R177). -/
def Chip.formeKind (c : Chip) (f : Nat) : Nat := c.rd (formeOd f 1)

/-- State of a forme: 0 OFF, 1 ARMED, 2 RUNNING, 3 STOPPING (R178). -/
def Chip.formeState (c : Chip) (f : Nat) : Nat := c.rd (formeOd f 0x10)

/-- The formes that have a kind or a state. -/
def Chip.formesInUse (c : Chip) : List Nat := (List.range 4096).filter fun f => c.formeKind f != 0 || c.formeState f != 0

/-- First input of a forme's input range (R177). -/
def Chip.formeFirst (c : Chip) (f : Nat) : Nat := 64 * c.rd (formeOd f 5)

/-- n_f (R177), with N of a truss map. -/
def Chip.formeInputs (c : Chip) (f n : Nat) : Nat := Nat.min (64 * (c.rd (formeOd f 6) + 1)) n - c.formeFirst f

/-- R_f of n_f inputs (R180). -/
def recordsOf (nf : Nat) : Nat := nf * (nf - 1) / 2 + (nf + 1) / 2

/-- Bytes of a record of a proof of beams (R214). -/
def beamProofBytes : Nat := 1040

/-- Beams of a proof's blocks (R214). -/
def Chip.proofBeams (c : Chip) (f : Nat) : Nat :=
  let nb := c.rd (formeOd (c.rd (formeOd f 0x0C)) 0x20)
  Nat.min (64 * (c.rd (formeOd f 6) + 1)) nb - 64 * c.rd (formeOd f 5)

/-- S_f: bytes of a set of a correlate or proof forme (R180, R192, R214). -/
def Chip.setSize (c : Chip) (f n : Nat) : Nat :=
  let count := c.rd (formeOd f 4)
  match c.formeKind f with
  | 1 => count * recordsOf (c.formeInputs f n) * 16
  | 3 => if c.formeKind (c.rd (formeOd f 0x0C)) = 2 then count * c.proofBeams f * beamProofBytes
         else count * recordsOf (c.formeInputs f n) * 16
  | _ => 0

/-- Bytes rounded up to a multiple of 4 096. -/
def round4k (n : Nat) : Nat := (n + 4095) / 4096 * 4096

/-- Base of set A (0) or B (1) of a forme in partition space (R180, R192): the partition base, HBM_BASE, and the first set. -/
def Chip.setBase (c : Chip) (f n set_ : Nat) : Nat :=
  (if c.formeKind f = 3 then c.proofBase else 0) + c.rd (formeOd f 9) + set_ * round4k (c.setSize f n)

/-- Dump period in force (R38, R192): a proof has 1. -/
def Chip.dumpPeriod (c : Chip) (f : Nat) : Nat := if c.formeKind f = 3 then 1 else c.rd (formeOd f 8)

/-- D_f at a period (R493). -/
def FormeX.offsetAt (x : FormeX) (n : Nat) : Int := match x.offsets.find? fun e => e.1 ≤ n with | some e => e.2 | none => 0

/-- The dump of a forme that holds period n (R493); a proof's is the period. -/
def Chip.dumpOf (c : Chip) (f n : Nat) : Nat :=
  let cfg := c.periodCfg n
  if cfg.formeKind f = 3 then n else (((n / cfg.dumpPeriod f : Nat) : Int) + (c.forme f).offsetAt n).toNat

/-- Period n begins a dump of a forme. -/
def Chip.beginsDump (c : Chip) (f n : Nat) : Bool := n % (c.periodCfg n).dumpPeriod f == 0

/-- Precisions of the channels in a forme's range, in a period's configuration. -/
def Chip.rangePrecision (c : Chip) (f : Nat) : List Nat :=
  let l := localChannels (c.table (od 0x6004 0)) c.node
  ((l.drop (c.rd (formeOd f 3))).take (c.rd (formeOd f 4))).map (precision (c.table (od 0x6003 0)))

/-- What a period's values say of a forme that may not change inside a dump (R179, R199): its kind, ranges and PRECISION, its inputs under the
truss map, the precisions of its channels, and the beams of a beam forme. -/
def Chip.formeShape (c : Chip) (f : Nat) : List Nat × List Nat :=
  ([1, 3, 4, 5, 6, 7].map (fun k => c.rd (formeOd f k)) ++
    [c.formeInputs f (mapN (c.table (od 0x6004 0))), if c.formeKind f = 2 then c.rd (formeOd f 0x20) else 0], c.rangePrecision f)

/-- A break of a forme at period n (R179): its shape changes there, or the X-engine is stopped from there. -/
def Chip.breakAt (c : Chip) (f n : Nat) : Bool :=
  !c.xOn n || (c.periodCfg (n - 1)).formeShape f != (c.periodCfg n).formeShape f

/-- The dump of a forme that holds period n ends with it early, at a break (R179). -/
def Chip.endsAtBreak (c : Chip) (f n : Nat) : Bool := c.breakAt f (n + 1) && !c.beginsDump f (n + 1)

/-- The dump of a forme that holds period n ends with it. -/
def Chip.endsDump (c : Chip) (f n : Nat) : Bool :=
  (n + 1) % (c.periodCfg n).dumpPeriod f == 0 || c.breakAt f (n + 1)

/-- OD of the state of set A or B. -/
def setOd (f set_ : Nat) : Nat := formeOd f (0x13 + set_ % 2)

/-- A forme with a kind is enabled. -/
def Chip.formeOn (c : Chip) (f : Nat) : Bool := c.on (formeOd f 2) && c.formeKind f != 0

/-- A forme moves, and the enabled proofs of it follow it, into RUNNING only as the X-engine begins a period (R178, R192). -/
def Chip.formeTo (c : Chip) (f st : Nat) : Chip :=
  let proofs := if st = 2 then [] else (List.range 4096).filter fun g => c.formeKind g == 3 && c.rd (formeOd g 0x0C) == f && c.formeOn g
  proofs.foldl (fun a g => a.wr (formeOd g 0x10) st) (c.wr (formeOd f 0x10) st)

/-- A STOPPING forme with both sets done goes OFF, and one that is enabled again arms (R178). -/
def Chip.settleForme (c : Chip) (f : Nat) : Chip :=
  if c.formeState f = 3 && c.rd (setOd f 0) = 0 && c.rd (setOd f 1) = 0 then c.formeTo f (b2n (c.formeOn f)) else c

/-- The state that an idle forme takes when ENABLE = 1 takes effect: ARMED, or for a proof its parent's until the X-engine begins a period
(R178, R192). -/
def Chip.armedState (c : Chip) (f : Nat) : Nat :=
  if c.formeKind f = 3 then (let p := c.formeState (c.rd (formeOd f 0x0C)); if p = 2 then 1 else p) else 1

/-- The effect of ENABLE at a chase period (R178); a RUNNING forme goes on to its dump boundary. -/
def Chip.enableEffect (c : Chip) (f : Nat) (on : Bool) : Chip :=
  match c.formeState f with
  | 0 => if on && c.formeKind f ≠ 0 then c.formeTo f (c.armedState f) else c
  | 1 => if on then c else c.formeTo f 0
  | _ => c

/-- The number of beam formes that run, OD 3400.05. -/
def Chip.showBeams (c : Chip) : Chip :=
  c.wr (od 0x3400 0x05) (((List.range 4096).filter fun f => c.formeKind f == 2 && c.formeState f == 2).length)

/-- The dump period changes at a period that begins a dump under both values: dump numbers go on from the last one (R493). -/
def Chip.dumpPeriodEffect (c : Chip) (f n pOld pNew : Nat) : Chip :=
  let x := c.forme f
  let last : Int := (((n - 1) / pOld : Nat) : Int) + x.offsetAt (n - 1)
  if n = 0 then c else c.setForme f { x with offsets := (n, last + 1 - ((n / pNew : Nat) : Int)) :: x.offsets }

/-! ### Sets and dumps (R189, R190) -/

/-- The first chase period of the dump in set A or B of a forme. -/
def Chip.firstOf (c : Chip) (f set_ : Nat) : Nat := if set_ % 2 = 0 then (c.forme f).firsts.1 else (c.forme f).firsts.2

/-- The first period of a dump begins: its set accumulates, and a readout of it with records left stops (R49, R189). -/
def Chip.dumpBegins (c : Chip) (f n : Nat) : Chip :=
  let d := c.dumpOf f n
  let k := setOd f d
  let overtaken := c.rd k == 3 && !c.readoutEmpty f (d % 2)
  let c1 := if c.rd k = 3 then (c.stopReadout f (d % 2)).bump (formeOd f 0x1A) (b2n overtaken) else c
  let x := c1.forme f
  let c2 := c1.setForme f { x with firsts := if d % 2 = 0 then (n, x.firsts.2) else (x.firsts.1, n) }
  ((c2.wr k 1).wr (formeOd f 0x12) d).wr (formeOd f 0x16) 0

/-- A set becomes COMPLETE: OD 8000+f.15 and .18, setter source 6, and a dump event report (R189, R190). -/
def Chip.dumpComplete (c : Chip) (f n : Nat) : Chip :=
  let d := c.dumpOf f n
  if c.rd (setOd f d) ≠ 1 then c
  else
    let c1 := (((c.wr (setOd f d) 2).wr (formeOd f 0x15) d).bump (formeOd f 0x18) 1).irq 6
    c1.event 0x0001 (beBytes 2 f ++ (beBytes 6 0 ++ (beBytes 8 d ++ beBytes 8 (c.periodStart (c.firstOf f d)))))

/-! ### A period begins (R170, R178, R179) -/

/-- The periods before n and after the newest one were not processed, the X-engine being stopped from the first of them (R171). -/
def Chip.stoppedBefore (c : Chip) (n : Nat) : Bool :=
  match c.xe.newest with
  | some m => decide (m + 1 < n) && !c.xOn (m + 1)
  | none => false

/-- A forme moves as period n begins (R178, R179); one that does not start here shows what ENABLE in force makes of it. -/
def Chip.formeMoves (c : Chip) (f n : Nat) : Chip :=
  let on := (c.periodCfg n).formeOn f
  let starts := c.beginsDump f n
  let arm := fun (a : Chip) => a.formeTo f (if on && starts then 2 else b2n (a.formeOn f))
  match c.formeState f with
  | 0 => if on then arm c else c
  | 1 => arm c
  | 2 =>
    if !on && starts then (c.formeTo f 3).settleForme f
    else if n ≠ 0 && (c.breakAt f n || c.stoppedBefore n) then arm (c.bump (formeOd f 0x19) 1)
    else c
  | _ => let a := c.settleForme f
         if a.formeState f = 1 then arm a else a

/-- A proof moves as period n begins: while it is enabled it follows its parent, which has moved (R192). -/
def Chip.proofMoves (c : Chip) (f n : Nat) : Chip :=
  let cfg := c.periodCfg n
  let st := c.formeState f
  let c1 := if st = 2 && n ≠ 0 && (c.breakAt f n || c.stoppedBefore n) then c.bump (formeOd f 0x19) 1 else c
  if cfg.formeOn f then c1.wr (formeOd f 0x10) (c.formeState (cfg.rd (formeOd f 0x0C)))
  else if st = 2 then (c1.wr (formeOd f 0x10) 3).settleForme f
  else c1.settleForme f

/-- A forme or proof moves as period n begins. -/
def Chip.formeBegins (c : Chip) (f n : Nat) : Chip :=
  if (c.periodCfg n).formeKind f = 3 then c.proofMoves f n else c.formeMoves f n

/-- Entries of a forme in an imposition table, in order (R181): ROW, COL, PLATEN. -/
def impositions (b : List Byte) (f : Nat) : List (Nat × Nat × Nat) :=
  (List.range (beAt b 0 4)).filterMap fun i =>
    let e := sliceZ b (8 + 8 * i) 8
    if beAt e 0 2 % 4096 = f then some (beAt e 2 1, beAt e 3 1, beAt e 4 1 % 128) else none

/-- Entries of a forme in a period. -/
def Chip.entries (c : Chip) (n f : Nat) : List (Nat × Nat × Nat) := impositions ((c.periodCfg n).table (od 0x6005 0)) f

/-- The beam blocks that a forme dispatches in a period, ascending. -/
def Chip.blockRows (c : Chip) (n f : Nat) : List Nat := (List.range 256).filter fun b => (c.entries n f).any fun e => e.1 == b

/-- A forme that runs takes period n: its dump, and its place in dispatch and in release where it has entries there. -/
def Chip.formeTakes (c : Chip) (f n : Nat) : Chip :=
  let cfg := c.periodCfg n
  let kind := cfg.formeKind f
  let c1 := if kind = 2 then (c.wr (formeOd f 0x12) (c.dumpOf f n)).wr (formeOd f 0x16) 0
    else if c.beginsDump f n then c.dumpBegins f n else c
  if kind = 3 || (c.entries n f).isEmpty then c1
  else
    let x := c1.forme f
    let first := cfg.rd (formeOd f 3)
    let y := match x.pos with
      | none => { x with pos := some (n, first, 0) }
      | some _ => { x with later := x.later ++ [n] }
    let z := if kind ≠ 2 then y else match y.release with
      | none => { y with release := some (n, first, (c.blockRows n f).headD 0) }
      | some _ => { y with releases := y.releases ++ [n] }
    c1.setForme f z

/-- The period that the X-engine begins next (R170): a closed half, in order, while it runs and the stager is idle. -/
def Chip.nextPeriod (c : Chip) : Option Nat :=
  let idle := c.xe.periods.all fun p => decide ((localChannels (c.trussMap p.number) c.node).length ≤ p.staged)
  let ready := [(0 : Fin 2), 1].filterMap fun h =>
    let n := c.halfPeriod h
    if c.halfState h = 2 && !(c.half h).clearing && c.xOn n && (match c.xe.newest with | some m => decide (m < n) | none => true)
    then some n else none
  if !idle || !c.xRunning then none
  else ready.foldl (fun b n => match b with | none => some n | some m => some (Nat.min m n)) none

/-- Period n begins (R170): formes and sets move, setter source 5. Parents move before their proofs. -/
def Chip.periodBegins (c : Chip) (n : Nat) : Chip :=
  let l := (List.range 4096).filter fun f => (c.periodCfg n).formeKind f != 0 || c.formeState f != 0
  let proofs := l.filter fun f => (c.periodCfg n).formeKind f == 3
  let order := (l.filter fun f => !proofs.contains f) ++ proofs
  let c1 := order.foldl (fun a f => a.formeBegins f n) c
  let run := order.filter fun f => c1.formeState f == 2
  let c2 := run.foldl (fun a f => a.formeTakes f n) c1
  let c3 := { c2 with xe := { c2.xe with periods := c2.xe.periods ++ [(⟨n, c2.lc, 0, run⟩ : OpenPeriod)], newest := some n } }
  ((((c3.wr (xOd 4) 2).wr (xOd 5) n).wr (xOd 6) 0).showBeams).irq 5

/-! ### Staging (R168, R169, R270) -/

/-- A local channel lies in a forme's range in a period. -/
def Chip.inRange (c : Chip) (n f j : Nat) : Bool :=
  let a := (c.periodCfg n).rd (formeOd f 3)
  a ≤ j && j < a + (c.periodCfg n).rd (formeOd f 4)

/-- A forme has still to dispatch entries for a slab. -/
def Chip.needsSlab (c : Chip) (f n j : Nat) : Bool :=
  let x := c.forme f
  c.inRange n f j && (x.later.contains n || match x.pos with | some (m, k, _) => m == n && decide (k ≤ j) | none => false)

/-- A platen. -/
def Chip.platen (c : Chip) (p : Nat) : Platen := sget (fun _ => Platen.atReset) c.xe.platens p

/-- A platen set, and the impressions in flight shown (OD 3000.03). -/
def Chip.setPlaten (c : Chip) (p : Nat) (x : Platen) : Chip :=
  let c1 := { c with xe := { c.xe with platens := sset (fun _ => Platen.atReset) c.xe.platens p x } }
  c1.wr (xOd 3) ((c1.xe.platens.map fun e => e.2.queue.length).sum)

/-- Impressions of a platen whose last operand has not been read. -/
def Platen.reading (x : Platen) : List Impression := if x.stalled.isSome then x.queue.drop 1 else x.queue

/-- The slab of a chase half is no longer read (R168). -/
def Chip.slabDone (c : Chip) (h : Fin 2) : Bool :=
  match c.xe.chase[h] with
  | none => true
  | some s =>
    let busy := c.xe.platens.any fun e => e.2.reading.any fun i => i.period == s.period && i.channel == s.channel
    let wanted := c.xe.formes.any fun e => c.needsSlab e.1 s.period s.channel
    !busy && !wanted

/-- Base of a chase half in main SRAM (R249). -/
def chaseBase (h : Fin 2) : Nat := h.val * 67108864

/-- One input's stick copied to the chase (R169, R270): marker bytes where its place was not received, and where a unit is poisoned; the bits
of the stick map. -/
def Dev.stageStick (d : Dev) (src dst prec mark : Nat) : Dev × Nat :=
  let len := 256 * sampleBytes prec
  let m := markerBytes prec
  if !bitAt mark 0 then (d.writeSram dst m, 0)
  else
    let (r, d1) := d.readPieces (openUser 0) (unitPieces src len)
    let bytes := r.flatMap fun e => if e.2 then m.take e.1.length else e.1
    let bad := (r.filter fun e => e.2).length
    let valid := bad = 0 && bytes.take (sampleBytes prec) != m.take (sampleBytes prec)
    let d2 := { d1 with chip := d1.chip.bump (od 0x3C00 0x1A) bad }
    (d2.writeSram dst bytes, if valid then 1 + 2 * b2n (bitAt mark 1) else 0)

/-- The slab of local channel j of period n copied into a chase half (R168, R169). -/
def Dev.stageSlab (d : Dev) (n j : Nat) (h : Fin 2) : Dev :=
  let c := d.chip
  let map := c.trussMap n
  let table := c.precTable n
  let ch := (localChannels map c.node).getD j 0
  let prec := precision table ch
  let t := c.chaseT
  let b := sampleBytes prec
  let sticks := t / 256
  let g := halfOf n
  let src := c.halfBase g + slabOffset map table c.node t j
  let recv := c.half g
  let keys := (List.range (mapN map)).flatMap fun i => (List.range sticks).map fun k => ((i, k) : Nat × Nat)
  let (d1, bits_) := keys.foldl (fun (a : Dev × SMap Nat) e =>
    let place := receiptPlace map table c.node t j (e.1 / nin prec * nin prec) e.2
    let off := e.1 * t * b + 256 * e.2 * b
    let (a1, v) := a.1.stageStick (src + off) (chaseBase h + off) prec (recv.mark place)
    (a1, sset (fun _ => 0) a.2 (e.1 * sticks + e.2) v)) (d, [])
  let invalid := (keys.filter fun e => !bitAt (sget (fun _ => 0) bits_ (e.1 * sticks + e.2)) 0).length
  let c1 := (d1.chip.bump (xOd 0x16) invalid).wr (xOd 6) (if j + 1 < (localChannels map c.node).length then j + 1 else j)
  let base := chaseBase h / 8
  { d1 with chip := { c1 with xe := { c1.xe with
      chase := c1.xe.chase.set h (some ⟨n, j, bits_⟩),
      nextHalf := if h = 0 then 1 else 0,
      bad := c1.xe.bad.filter fun w => !(base ≤ w && w < base + 8388608),
      periods := c1.xe.periods.map fun p => if p.number = n then { p with staged := j + 1 } else p } } }

/-- SLAB_STAGED (R168, R169): the next slab in order is in its chase half. -/
def execSlabStaged (s : State) : Host.Outcome State Fault Refusal :=
  let d := s.dev
  let c := d.chip
  match c.xe.periods.find? fun p => decide (p.staged < (localChannels (c.trussMap p.number) c.node).length) with
  | none => ok s c
  | some p => if c.slabDone c.xe.nextHalf then done s (d.stageSlab p.number p.staged c.xe.nextHalf) else ok s c

/-! ### Dispatch (R183, R203) -/

/-- A platen is in service: its domain is not OFF (R182). -/
def Chip.platenInService (c : Chip) (p : Nat) : Bool := c.domState (38 + p / 2) != 0

/-- The platen that an entry allows, where it has room (R183). -/
def Chip.platenFor (c : Chip) (code : Nat) : Option Nat :=
  let room := fun (p : Nat) => decide ((c.platen p).queue.length < 8)
  if code < 64 then if room code then some code else none
  else
    let best := ((List.range 64).filter fun p => c.platenInService p).foldl (fun b p => match b with
      | none => some p
      | some q => if (c.platen p).queue.length < (c.platen q).queue.length then some p else some q) (none : Option Nat)
    best.filter room

/-- Slots of the ledger (R202). -/
def Chip.ledgerSlots (c : Chip) : Nat := c.rd (od 0x3400 0x02) * 1048576 / (512 * c.chaseT)

/-- The slab of a period and local channel is in the chase. -/
def Chip.slabHalf (c : Chip) (n j : Nat) : Option (Fin 2) :=
  [(0 : Fin 2), 1].find? fun h => match c.xe.chase[h] with | some s => s.period == n && s.channel == j | none => false

/-- What a forme would dispatch next: its impression, its entry's platen, and whether the entry is the first of a beam block. -/
def Chip.nextEntry (c : Chip) (f : Nat) : Option (Impression × Nat × Bool) :=
  match (c.forme f).pos with
  | none => none
  | some (n, j, e) =>
    let l := c.entries n f
    match l[e]?, c.slabHalf n j with
    | some (row, col, code), some _ =>
      let beam := (c.periodCfg n).formeKind f == 2
      let first := beam && (e == 0 || (match l[e - 1]? with | some (r, _) => r != row | none => true))
      (c.platenFor code).map fun p => (⟨n, j, f, row, col⟩, p, first)
    | _, _ => none

/-- A forme's place after an entry: the next entry, channel or period. -/
def Chip.advance (c : Chip) (f : Nat) : Chip :=
  let x := c.forme f
  match x.pos with
  | none => c
  | some (n, j, e) =>
    if e + 1 < (c.entries n f).length then c.setForme f { x with pos := some (n, j, e + 1) }
    else if c.inRange n f (j + 1) then c.setForme f { x with pos := some (n, j + 1, 0) }
    else match x.later with
      | m :: t => c.setForme f { x with pos := some (m, (c.periodCfg m).rd (formeOd f 3), 0), later := t }
      | [] => c.setForme f { x with pos := none }

/-- A row of beam sums of 0. -/
def BeamRow.zero (t : Nat) : BeamRow :=
  ⟨List.replicate t (0, 0), List.replicate (t / 256) 0, List.replicate (t / 256) false, List.replicate (t / 256) false⟩

/-- The proofs of a parent forme that run in a period (R191, R192). -/
def Chip.proofsOf (c : Chip) (parent n : Nat) : List Nat :=
  match c.xe.periods.find? fun p => p.number == n with
  | none => []
  | some p => p.formes.filter fun g => (c.periodCfg n).formeKind g == 3 && (c.periodCfg n).rd (formeOd g 0x0C) == parent

/-- A slot taken for a beam block (R203). -/
def Chip.takeSlot (c : Chip) (i : Impression) : Chip :=
  let left := ((c.entries i.period i.forme).filter fun e => e.1 == i.row).length
  let proofs := c.proofsOf i.forme i.period
  let x : LedgerSlot := ⟨i.forme, i.period, i.channel, i.row, left, proofs, List.replicate 64 (BeamRow.zero c.chaseT), none⟩
  let c1 := { c with xe := { c.xe with slots := c.xe.slots ++ [x] } }
  c1.wr (od 0x3400 0x04) c1.xe.slots.length

/-- A forme waits for a slot: counted once a beam block (R203). -/
def Chip.slotWaits (c : Chip) (f : Nat) : Chip :=
  let x := c.forme f
  if x.slotWait then c
  else ((c.setForme f { x with slotWait := true }).bump (formeOd f 0x37) 1).bump (od 0x3400 0x12) 1

/-- IMPRESSION_DISPATCH (R47, R48, R167, R183): the platen-queue arbiter grants one forme, by its PRIORITY in the period it dispatches. -/
def execImpressionDispatch (s : State) : Host.Outcome State Fault Refusal :=
  let c := s.dev.chip
  let all := c.xe.formes.filterMap fun e => (c.nextEntry e.1).map fun n => ((e.1, n) : Nat × Impression × Nat × Bool)
  let noSlot := decide (c.ledgerSlots ≤ c.xe.slots.length)
  let held := all.filter fun e => e.2.2.2 && noSlot
  let req := (all.filter fun e => !(e.2.2.2 && noSlot)).map fun e => e.1
  let c1 := held.foldl (fun a e => a.slotWaits e.1) c
  let wait := sget (fun _ => 0) c.xe.waits
  let priority := fun (f : Nat) => match all.find? fun e => e.1 == f with
    | some e => (c.periodCfg e.2.1.period).rd (formeOd f 0x0B)
    | none => 0
  match arbitrate priority (c.rd (xOd 9)) wait req with
  | none => ok s { c1 with xe := { c1.xe with waits := [] } }
  | some f =>
    match c1.nextEntry f with
    | none => ok s c1
    | some (i, p, first) =>
      let waits := (req.filter fun g => g != f).foldl (fun (m : SMap Nat) g => sset (fun _ => 0) m g (wait g + 1)) []
      let c2 := { c1 with xe := { c1.xe with waits := waits } }
      let c3 := if first then (c2.setForme f { c2.forme f with slotWait := false }).takeSlot i else c2
      let x := c3.platen p
      ok s ((c3.setPlaten p { x with queue := x.queue ++ [i] }).advance f)

/-! ### Operands (R172-R175, R253) -/

/-- What an impression reads: its slab's chase half, the period's configuration, N, T, precision, narrowing. -/
structure OperandView where
  base : Nat
  map : SMap Nat
  n : Nat
  t : Nat
  prec : Nat
  narrow : Bool
  deriving DecidableEq, Repr

/-- One operand (R172, R174): 0 for a marker, an invalid stick, an input beyond N, a lost word. -/
def Dev.operand (d : Dev) (v : OperandView) (i t : Nat) : Cx :=
  if v.n ≤ i || !bitAt (sget (fun _ => 0) v.map (i * (v.t / 256) + t / 256)) 0 then (0, 0)
  else
    let b := sampleBytes v.prec
    let a := v.base + i * v.t * b + t * b
    let bytes := getBytes d.mem.sram a b
    if bytes = (markerBytes v.prec).take b || d.chip.xe.bad.contains (a / 8) then (0, 0)
    else if v.prec = 1 then (toI (beAt bytes 0 1) 8, toI (beAt bytes 1 1) 8)
    else (toI (beAt bytes 0 1 / 16) 4, toI (beAt bytes 0 1 % 16) 4)

/-- An operand narrowed to 4+4 units, and its clips (R174). -/
def narrowed (v : OperandView) (x : Cx) : Cx × Nat :=
  if v.narrow then
    let re := rnd x.1 4
    let im := rnd x.2 4
    ((clip 7 re, clip 7 im), b2n (clipped 7 re) + b2n (clipped 7 im))
  else (x, 0)

/-- A block of 64 inputs loaded: 64 rows of T operands, and the narrowing clips. -/
def Dev.loadBlock (d : Dev) (v : OperandView) (block : Nat) : List (List Cx) × Nat :=
  let rows := (List.range 64).map fun r => (List.range v.t).map fun t => narrowed v (d.operand v (64 * block + r) t)
  (rows.map fun l => l.map fun e => e.1, (rows.map fun l => (l.map fun e => e.2).sum).sum)

/-- A word that an input's operands come from was lost (R253). -/
def Dev.inputLost (d : Dev) (v : OperandView) (i : Nat) : Bool :=
  let b := sampleBytes v.prec
  let lo := v.base + i * v.t * b
  decide (i < v.n) && d.chip.xe.bad.any fun w => lo / 8 ≤ w && 8 * w < lo + v.t * b

/-- A bit of the stick map: VALID (0) or UNSETTLED (1). -/
def OperandView.bit (v : OperandView) (k i st : Nat) : Bool :=
  decide (i < v.n) && bitAt (sget (fun _ => 0) v.map (i * (v.t / 256) + st)) k

/-- The conjugate product a * conj(b), as R172 forms it. -/
def corrProduct (a b : Cx) : Cx := (a.1 * b.1 + a.2 * b.2, a.2 * b.1 - a.1 * b.2)

/-- One cell of a correlation impression (R172, R175). -/
def Dev.corrCell (d : Dev) (v : OperandView) (rows cols : List (List Cx)) (rb cb r c : Nat) : Cell :=
  let i := 64 * rb + r
  let j := 64 * cb + c
  if rb = cb && r < c then ⟨0, 0, 0, false, false⟩
  else
    let z := List.zipWith corrProduct (rows.getD r []) (cols.getD c [])
    let both := (List.range (v.t / 256)).filter fun k => v.bit 0 i k && v.bit 0 j k
    ⟨(z.map fun e => e.1).sum, if i = j then 0 else (z.map fun e => e.2).sum, both.length,
      both.any fun k => v.bit 1 i k || v.bit 1 j k, d.inputLost v i || d.inputLost v j⟩

/-! ### Weights (R196, R197, R200, R201, R209) -/

/-- Entry of beam b and input i' in a weight bank body (R196): gain and delay; null beyond the bank. -/
def bankEntry (body : List Byte) (b i : Nat) : Int × Int × Int :=
  if beAt body 0 2 ≤ b || beAt body 2 2 ≤ i then (0, 0, 0)
  else
    let o := 8 + (b * beAt body 2 2 + i) * 6
    (toI (beAt body o 1) 8, toI (beAt body (o + 1) 1) 8, toI (beAt body (o + 2) 4) 32)

/-- The weight of an entry for a channel (R197); `rho` carries the sign of the sideband. -/
def weightOf (f ch : Nat) (rho : Int) (e : Int × Int × Int) : Cx :=
  if e.1 = 0 && e.2.1 = 0 then (0, 0)
  else
    let num : Int := -((ch : Int) * e.2.2 * 2 ^ 56) - rho * e.2.2 * f
    let theta := ofI (rdiv num (f * 2 ^ 44)) 32
    let p := phasor theta
    let w := cxMul (e.1, e.2.1) p
    (clip 127 (rnd w.1 17), clip 127 (rnd w.2 17))

/-- Where the banks stand at a channel sample (R209): the bank faded from, the bank faded to, and a, 0 .. 512. -/
def FormeX.fadeAt (x : FormeX) (s : Nat) : Nat × Nat × Nat :=
  match x.scarfs.find? fun k => k.start ≤ s with
  | none => (0, 0, 512)
  | some k =>
    if s < k.start + k.length then (1 - k.target, k.target, (rdiv (512 * ((s - k.start + 1 : Nat) : Int)) k.length).toNat)
    else (k.target, k.target, 512)

/-- The channel samples of period n at which a bank or its contents change: the starts of runs with the same two banks. -/
def Chip.weightRuns (c : Chip) (f n : Nat) : List Nat :=
  let t := c.chaseT
  let lo := n * t
  let pts := (c.forme f).scarfs.flatMap (fun k => [k.start, k.start + k.length]) ++
    c.past.map fun r => (r.tick + c.fft - 1) / c.fft
  (lo :: (pts.filter fun p => lo < p && p < lo + t)).dedup.insertionSort (· ≤ ·)

/-- Interpolated weight of a scarf (R209). -/
def fade (a : Nat) (w0 w1 : Cx) : Cx := (w0.1 + rnd (a * (w1.1 - w0.1)) 9, w0.2 + rnd (a * (w1.2 - w0.2)) 9)

/-- The banks of a forme at a channel sample. -/
def Chip.bankAt (c : Chip) (f bank s : Nat) : List Byte := (c.asOf (s * c.fft)).table (formeOd f (0x21 + bank))

/-- One row of a beam impression (R200, R201): for each run of samples the two weight rows are made once. -/
def Dev.beamRow (d : Dev) (v : OperandView) (cols : List (List Cx)) (f n ch rb cb r : Nat) : BeamRow :=
  let c := d.chip
  let cfg := c.periodCfg n
  let beam := 64 * rb + r
  let first := cfg.formeFirst f
  let nf := cfg.formeInputs f v.n
  let rho : Int := if cfg.on (formeOd f 0x2B) then -(cfg.rd (formeOd f 0x2A) : Int) else cfg.rd (formeOd f 0x2A)
  let live := fun (i : Nat) => decide (beam < cfg.rd (formeOd f 0x20)) && decide (first ≤ i) && decide (i < first + nf)
  let entry := fun (bank s k : Nat) =>
    let i := 64 * cb + k
    if live i then bankEntry (c.bankAt f bank s) beam (i - first) else (0, 0, 0)
  let starts := c.weightRuns f n
  let t0 := n * v.t
  let runs := starts.zipIdx.map fun e =>
    let stop := (starts[e.2 + 1]?).getD (t0 + v.t)
    let (b0, b1, _) := (c.forme f).fadeAt e.1
    let w0 := (List.range 64).map fun k => weightOf c.fft ch rho (entry b0 e.1 k)
    let w1 := if b1 = b0 then w0 else (List.range 64).map fun k => weightOf c.fft ch rho (entry b1 e.1 k)
    let used := (List.range 64).map fun k =>
      let a := entry b0 e.1 k
      let b := entry b1 e.1 k
      decide (a.1 ≠ 0 ∨ a.2.1 ≠ 0 ∨ b.1 ≠ 0 ∨ b.2.1 ≠ 0)
    (e.1, stop, w0, w1, used)
  let sums := runs.flatMap fun (lo, hi, w0, w1, _) => (List.range (hi - lo)).map fun q =>
    let s := lo + q
    let a := ((c.forme f).fadeAt s).2.2
    let x := cols.map fun l => l.getD (s - t0) (0, 0)
    let z := List.zipWith (fun w y => cxMul w y) (List.zipWith (fade a) w0 w1) x
    ((z.map fun e => e.1).sum, (z.map fun e => e.2).sum)
  let counted := fun (k : Nat) => (List.range 64).filter fun i =>
    v.bit 0 (64 * cb + i) k && runs.any fun (lo, hi, _, _, used) =>
      decide (lo < t0 + 256 * (k + 1)) && decide (t0 + 256 * k < hi) && used.getD i false
  let sticks := List.range (v.t / 256)
  ⟨sums, sticks.map fun k => (counted k).length,
    sticks.map fun k => (counted k).any fun i => v.bit 1 (64 * cb + i) k, sticks.map fun _ => false⟩

/-! ### An impression ends (R174-R176) -/

/-- The platen clock in MHz at the operating point in force (R419): 1 600, 1 200, 800 or 400. -/
def Chip.platenMHz (c : Chip) : Nat := 400 * (1 + c.rd (od 0x5000 0x11) % 4)

/-- What an impression reads. -/
def Chip.operandView (c : Chip) (i : Impression) (h : Fin 2) : OperandView :=
  let map := c.trussMap i.period
  let ch := (localChannels map c.node).getD i.channel 0
  let prec := precision (c.precTable i.period) ch
  ⟨chaseBase h, (match c.xe.chase[h] with | some s => s.map | none => []), mapN map, c.chaseT, prec,
    prec == 1 && (c.periodCfg i.period).rd (formeOd i.forme 7) == 1⟩

/-- The results of an impression, its narrowing clips counted (R172-R175, R200, R201). -/
def Dev.impress (d : Dev) (i : Impression) : ImpResult × Dev :=
  let c := d.chip
  match c.slabHalf i.period i.channel with
  | none => (⟨[], []⟩, d)
  | some h =>
    let v := c.operandView i h
    let (cols, k1) := d.loadBlock v i.col
    if (c.periodCfg i.period).formeKind i.forme = 2 then
      let ch := (localChannels (c.trussMap i.period) c.node).getD i.channel 0
      let rows := (List.range 64).map fun r => d.beamRow v cols i.forme i.period ch i.row i.col r
      (⟨[], rows⟩, { d with chip := (c.bump (xOd 0x15) k1).bump (formeOd i.forme 0x1D) k1 })
    else
      let (rows, k0) := if i.row = i.col then (cols, 0) else d.loadBlock v i.row
      let cells := (List.range 4096).map fun e => d.corrCell v rows cols i.row i.col (e / 64) (e % 64)
      (⟨cells, []⟩, { d with chip := (c.bump (xOd 0x15) (k0 + k1)).bump (formeOd i.forme 0x1D) (k0 + k1) })

/-- IMPRESSION_END (R176): the results of a platen's head go to its result buffer, or the platen stalls. -/
def execImpressionEnd (p : Fin 64) (s : State) : Host.Outcome State Fault Refusal :=
  let d := s.dev
  let x := d.chip.platen p.val
  match x.queue, x.stalled with
  | i :: rest, none =>
    let (r, d1) := d.impress i
    let y : Platen := match x.buffer with
      | none => ⟨rest, none, some (i, r)⟩
      | some _ => { x with stalled := some (d1.chip.lc, r) }
    done s { d1 with chip := d1.chip.setPlaten p.val y }
  | _, _ => ok s d.chip

/-! ### The accumulator (R184-R188) -/

/-- A visibility record (R184): two I40 sums, the COUNT word, STATUS. -/
structure Record where
  re : Int
  im : Int
  count : Nat
  status : Nat
  deriving DecidableEq, Repr

/-- A record read from its 16 bytes. -/
def readRecord (b : List Byte) : Record := ⟨toI (beAt b 0 5) 40, toI (beAt b 5 5) 40, beAt b 10 4, beAt b 14 2⟩

/-- The 16 bytes of a record. -/
def Record.bytes (r : Record) : List Byte :=
  beBytes 5 (ofI r.re 40) ++ (beBytes 5 (ofI r.im 40) ++ (beBytes 4 r.count ++ beBytes 2 r.status))

/-- What one impression adds to a record (R187): for an auto record the two diagonal cells. -/
structure Addition where
  auto : Bool
  re : Int
  im : Int
  even : Nat
  odd : Nat
  unsettled : Bool
  poison : Bool
  deriving DecidableEq, Repr

/-- One addition (R187): whether it is the dump's first, whether the read was poisoned, whether the dump ends at a break; and whether it
saturated. -/
def addRecord (first poisoned early : Bool) (old : Record) (a : Addition) : Record × Bool :=
  let auto := 2048 * b2n a.auto
  let z : Record := if first then ⟨0, 0, 0, auto⟩ else if poisoned then ⟨0, 0, 0, 32768 ||| (old.status &&& 0x7000) ||| auto⟩
    else { old with status := old.status ||| auto }
  let re := z.re + a.re
  let im := z.im + a.im
  let sat_ := outside 40 re || outside 40 im
  let count := if a.auto then Nat.min 65535 (z.count / 65536 + a.even) * 65536 + Nat.min 65535 (z.count % 65536 + a.odd)
    else Nat.min 0xFFFFFFFF (z.count + a.even)
  (⟨sat 40 re, sat 40 im, count,
    z.status ||| (16384 * b2n sat_) ||| (8192 * b2n a.unsettled) ||| (4096 * b2n early)⟩, sat_)

/-- The other record of a poisoned unit restarts from 0 with POISON (R187, R270). -/
def restartRecord (auto : Bool) : Record := ⟨0, 0, 0, 32768 + 2048 * b2n auto⟩

/-- The additions of a correlation impression to a set whose input range starts at `first` and holds nf inputs, by record index (R186,
R187). -/
def additions (r : ImpResult) (rb cb first nf : Nat) : List (Nat × Addition) :=
  let cell := fun (i j : Nat) => r.cells.getD (64 * (i % 64) + j % 64) ⟨0, 0, 0, false, false⟩
  let rows := (List.range 64).filterMap fun k => if first ≤ 64 * rb + k && 64 * rb + k < first + nf then some (64 * rb + k - first) else none
  let cols := (List.range 64).filterMap fun k => if first ≤ 64 * cb + k && 64 * cb + k < first + nf then some (64 * cb + k - first) else none
  let cross := rows.flatMap fun i => cols.filterMap fun j =>
    if j < i then
      let x := cell i j
      some ((i * (i - 1) / 2 + j, ⟨false, x.re, x.im, x.count, 0, x.unsettled, x.poison⟩) : Nat × Addition)
    else none
  let auto := if rb ≠ cb then [] else (rows.filter fun i => i % 2 == 0).map fun i =>
    let e := cell i i
    let o : Cell := if i + 1 < nf then cell (i + 1) (i + 1) else ⟨0, 0, 0, false, false⟩
    ((nf * (nf - 1) / 2 + i / 2, ⟨true, e.re, o.re, e.count, o.count, e.unsettled || o.unsettled, e.poison || o.poison⟩) : Nat × Addition)
  cross ++ auto

/-- One addition into a set of a forme with nf inputs (R187): the unit is read, the record added to and the whole unit written back as new
data; the unit's other record, whose bytes a poisoned read lost, restarts from 0 with POISON. -/
def Dev.accumulate (d : Dev) (f base nf m : Nat) (first early : Bool) (e : Nat × Addition) : Dev :=
  let recs := recordsOf nf
  let a := base + (m * recs + e.1) * 16
  let unit := a / 32 * 32
  let (b, bad, d1) := d.readHbm (openUser 1) unit 32
  let poisoned := 0 < bad
  let hit := (poisoned || e.2.poison) && !first
  let (rec_, sat_) := addRecord first hit early (readRecord (slice b (a - unit) 16)) e.2
  let otherAt := if a = unit then unit + 16 else unit
  let other := if poisoned then (restartRecord (decide (nf * (nf - 1) / 2 ≤ ((otherAt - base) / 16) % recs))).bytes
    else slice b (otherAt - unit) 16
  let d2 := d1.writeHbm (openUser 1) unit (if a = unit then rec_.bytes ++ other else other ++ rec_.bytes) false
  let k1 := b2n sat_
  let k2 := b2n hit
  { d2 with chip := (((d2.chip.bump (xOd 0x13) k1).bump (formeOd f 0x1B) k1).bump (xOd 0x14) k2).bump (formeOd f 0x1C) k2 }

/-! ### An impression completes (R183, R187, R191, R192, R203) -/

/-- A correlate impression's results added to its forme's set (R184-R187). -/
def Dev.toVisibility (d : Dev) (i : Impression) (r : ImpResult) : Dev :=
  let c := d.chip
  let cfg := c.periodCfg i.period
  let n := mapN (c.trussMap i.period)
  let nf := cfg.formeInputs i.forme n
  let base := cfg.setBase i.forme n (c.dumpOf i.forme i.period % 2)
  (additions r i.row i.col (cfg.formeFirst i.forme) nf).foldl
    (fun a e => a.accumulate i.forme base nf (i.channel - cfg.rd (formeOd i.forme 3)) (c.beginsDump i.forme i.period)
      (c.endsAtBreak i.forme i.period) e) d

/-- A correlate impression's results written to a proof's set: every addition is a first addition (R192). -/
def Dev.toProof (d : Dev) (g : Nat) (i : Impression) (r : ImpResult) : Dev :=
  let c := d.chip
  if !c.inRange i.period g i.channel then d
  else
    let cfg := c.periodCfg i.period
    let n := mapN (c.trussMap i.period)
    let nf := cfg.formeInputs g n
    let base := cfg.setBase g n (i.period % 2) + (i.channel - cfg.rd (formeOd g 3)) * recordsOf nf * 16
    (additions r i.row i.col (cfg.formeFirst g) nf).foldl (fun a e =>
      let (rec_, sat_) := addRecord true false (c.endsAtBreak g i.period) ⟨0, 0, 0, 0⟩ e.2
      let a1 := a.writeFresh (openUser 5) (base + e.1 * 16) rec_.bytes
      { a1 with chip := (a1.chip.bump (xOd 0x13) (b2n sat_)).bump (formeOd g 0x1B) (b2n sat_) }) d

/-- Two rows of partial sums added (R203). -/
def BeamRow.add (a b : BeamRow) : BeamRow :=
  ⟨List.zipWith (fun x y => (x.1 + y.1, x.2 + y.2)) a.sums b.sums, List.zipWith (· + ·) a.counts b.counts,
    List.zipWith (· || ·) a.unsettled b.unsettled, List.zipWith (· || ·) a.empty b.empty⟩

/-- A beam impression's partial sums added in its ledger slot (R203); a result that was lost adds nothing (R253). -/
def Chip.toLedger (c : Chip) (i : Impression) (r : ImpResult) : Chip :=
  let step := fun (x : LedgerSlot) =>
    if x.forme = i.forme && x.period = i.period && x.channel = i.channel && x.block = i.row then
      { x with left := x.left - 1, rows := if r.rows.isEmpty then x.rows else List.zipWith BeamRow.add x.rows r.rows }
    else x
  { c with xe := { c.xe with slots := c.xe.slots.map step } }

/-- A result buffer drains (R183): into the visibility set and the proofs, or into the ledger. -/
def Dev.drain (d : Dev) (i : Impression) (r : ImpResult) : Dev :=
  let c := d.chip
  let d1 := if (c.periodCfg i.period).formeKind i.forme = 2 then { d with chip := c.toLedger i r }
    else (c.proofsOf i.forme i.period).foldl (fun a g => a.toProof g i r) (d.toVisibility i r)
  { d1 with chip := (d1.chip.bump (xOd 0x10) 1).bump (formeOd i.forme 0x17) 1 }

/-- IMPRESSION_COMPLETE (R183, R187): a result buffer drains; a stalled head moves into it, and the stall is counted in platen cycles
(R176). -/
def execImpressionComplete (p : Fin 64) (s : State) : Host.Outcome State Fault Refusal :=
  let d := s.dev
  let x := d.chip.platen p.val
  match x.buffer with
  | none => ok s d.chip
  | some (i, r) =>
    let d1 := d.drain i r
    let c := d1.chip
    match x.stalled, x.queue with
    | some (since, r2), j :: rest =>
      done s { d1 with chip := (c.bump (xOd 0x13) ((c.lc - since) * c.platenMHz / 1000)).setPlaten p.val ⟨rest, none, some (j, r2)⟩ }
    | _, _ => done s { d1 with chip := c.setPlaten p.val { x with buffer := none } }

/-! ### A period completes (R170, R171, R179, R183) -/

/-- Every impression of a period is complete (R183): staged, dispatched, ended and drained. -/
def Chip.periodDone (c : Chip) (p : OpenPeriod) : Bool :=
  let n := p.number
  decide ((localChannels (c.trussMap n) c.node).length ≤ p.staged) &&
  (c.xe.formes.all fun e => !e.2.later.contains n && (match e.2.pos with | some (m, _, _) => m != n | none => true)) &&
  c.xe.platens.all fun e => (e.2.queue.all fun i => i.period != n) && (match e.2.buffer with | some (i, _) => i.period != n | none => true)

/-- The X-engine is stopped from a period: a break of every forme that runs (R171, R179). Where OD 3000.01 is 1 again it waits at once. -/
def Chip.stopBreak (c : Chip) : Chip :=
  let run := (c.formesInUse).filter fun f => c.formeState f == 2
  let c1 := run.foldl (fun a f => a.bump (formeOd f 0x19) 1) c
  let c2 := run.foldl (fun a f => a.formeTo f (b2n (a.formeOn f))) c1
  (c2.wr (xOd 4) (b2n (c.on (xOd 1) && c.xe.halt.isNone))).showBeams

/-- Halves hold a period before n that the X-engine has still to process. -/
def Chip.earlierHalf (c : Chip) (n : Nat) : Bool :=
  [(0 : Fin 2), 1].any fun h => c.halfState h != 0 && decide (c.halfPeriod h < n) && c.xOn (c.halfPeriod h)

/-- OD 3000.01 takes effect at a chase period (R171): it waits, or stops once nothing earlier is left to process. -/
def Chip.xRunEffect (c : Chip) (n : Nat) (on : Bool) : Chip :=
  if on then if c.rd (xOd 4) = 0 then c.wr (xOd 4) 1 else c
  else if c.xe.periods.isEmpty && !c.earlierHalf n then c.stopBreak else c

/-- A dump of a forme holds period n, which is complete (R189, R190): OD 8000+f.16, and the dump's end. -/
def Chip.formePeriodDone (c : Chip) (f n : Nat) : Chip :=
  let c1 := if c.rd (formeOd f 0x12) = c.dumpOf f n then c.bump (formeOd f 0x16) 1 else c
  if (c.periodCfg n).formeKind f ≠ 2 && c.endsDump f n then c1.dumpComplete f n else c1

/-- PERIOD_COMPLETE (R170): the oldest period in process is complete: its half is released, dumps may complete, and the X-engine stops
where OD 3000.01 stops it next. -/
def execPeriodComplete (s : State) : Host.Outcome State Fault Refusal :=
  let c := s.dev.chip
  match c.xe.periods with
  | [] => ok s c
  | p :: rest =>
    if !c.periodDone p then ok s c
    else
      let n := p.number
      let late := decide ((n + 2) * c.chaseT * c.fft ≤ c.tickAt (c.lc - 1))
      let c1 := p.formes.foldl (fun a f => a.formePeriodDone f n) c
      let c2 := ((c1.bump (xOd 0x11) 1).bump (xOd 0x12) (b2n late)).wr (xOd 8) ((c.lc - p.began) / 1000 % 2 ^ 32)
      let c3 := { c2 with xe := { c2.xe with periods := rest } }
      let c4 := c3.releaseHalf (halfOf n)
      let stops := rest.isEmpty && (!c.xOn (n + 1) || (!c.on (xOd 1) && !c4.earlierHalf (2 ^ 64)))
      ok s (if stops then c4.stopBreak else c4.wr (xOd 4) (if rest.isEmpty then 1 else 2))

end Sys2Proof.Machine
end

