-- ==== Sys2Proof/Machine/Output.lean ====
section
/-! DEFINITION. Output ports, output streams, frames, readout, the frame-slot scheduler and the launch queue (R333-R347, R358). -/

namespace Sys2Proof.Machine

/-- OD 4410+p.sub. -/
def portOd (p sub : Nat) : Nat := od (0x4410 + p) sub

/-- OD 4500+s.sub. -/
def outOd (s sub : Nat) : Nat := od (0x4500 + s) sub

/-- An output port beside its objects. -/
def Chip.port (c : Chip) (p : Nat) : OutPort := sget (fun _ => OutPort.atReset) c.ports p

/-- An output port set. -/
def Chip.setPort (c : Chip) (p : Nat) (x : OutPort) : Chip := { c with ports := sset (fun _ => OutPort.atReset) c.ports p x }

/-! ### Ports (R333, R335, R336) -/

/-- A port loses its lock (R335): DOWN, with a DEGRADE record, counted in OD 4410+p.13 where it was UP. -/
def Chip.portLost (c : Chip) (p : Nat) : Chip :=
  let k := portOd p 0x10
  if c.rd k = 2 then ((c.wr k 1).bump (portOd p 0x13) 1).fault .degrade .change k 2 1 0 else c

/-- The type of a port takes effect (R333, R335): OFF, or DOWN until it locks. -/
def Chip.portTypeEffect (c : Chip) (p : Nat) : Chip :=
  if c.rd (portOd p 1) = 0 then c.wr (portOd p 0x10) 0 else (c.portLost p).wr (portOd p 0x10) 1

/-- PORT_UP (R335). -/
def execPortUp (p : Fin 8) (s : State) : Host.Outcome State Fault Refusal :=
  let c := s.dev.chip
  ok s (if c.rd (portOd p.val 1) ≠ 0 && c.rd (portOd p.val 0x10) = 1 then c.wr (portOd p.val 0x10) 2 else c)

/-- PORT_DOWN (R335): a DEGRADE record, counted in OD 4410+p.13. -/
def execPortDown (p : Fin 8) (s : State) : Host.Outcome State Fault Refusal :=
  ok s (s.dev.chip.portLost p.val)

/-- PORT_RECEIVE (R336): a bad FCS, a PTP frame for the receive ring, or a frame to discard. -/
def execPortReceive (p : Fin 8) (fcsOk : Bool) (frame : List Byte) (stampLc stampFrac : Nat) (s : State) :
    Host.Outcome State Fault Refusal :=
  let d := s.dev
  if d.chip.rd (portOd p.val 0x10) ≠ 2 then ok s d.chip
  else if !fcsOk then ok s (d.chip.bump (portOd p.val 0x14) 1)
  else match ptpMessage frame with
    | some m => done s (d.ptpIn p.val frame m stampLc stampFrac)
    | none => ok s (d.chip.notPtp p.val)

/-! ### Sources (R337) -/

/-- The source that names a stream: its KIND code, and the forme of a set or of beams. -/
def Chip.source (c : Chip) (s : Nat) : Option (Nat × Nat) :=
  match (List.range 4096).find? fun f => c.formeKind f != 0 && c.rd (formeOd f 0x0A) == s with
  | some f =>
    some (match c.formeKind f with
      | 1 => 1
      | 2 => 4 + c.rd (formeOd f 0x27)
      | _ => if c.formeKind (c.rd (formeOd f 0x0C)) = 2 then 3 else 2, f)
  | none =>
    if c.rd (od 0x3800 0x06) = s then some (8, 0xFFFF)
    else if c.rd (od 0x3800 0x04) = s then some (9, 0xFFFF)
    else none

/-- OD 4500+s.10 of a stream shown. -/
def Chip.showKind (c : Chip) (s : Nat) : Chip := c.wr (outOd s 0x10) (match c.source s with | some e => e.1 | none => 0)

/-- A stream is enabled (R343, R345): its running count, its credit and its place in the peg log start. -/
def Chip.streamEnabled (c : Chip) (s : Nat) : Chip :=
  (c.setOutStream s { OutStream.atReset with since := c.lc, entry := c.rd (od 0x3800 0x1F) }).wr (outOd s 0x16) 0

/-- OD 3800.06 names a stream (R343): it sends the entries from then on. -/
def Chip.pegStreamNamed (c : Chip) (s : Nat) : Chip := c.setOutStream s { c.outStream s with entry := c.rd (od 0x3800 0x1F) }

/-! ### Headers (R340, R341) -/

/-- The Internet checksum of a byte string. -/
def inetSum (b : List Byte) : Nat :=
  let v := ((List.range ((b.length + 1) / 2)).map fun i => beAt b (2 * i) 2).sum
  let a := v % 65536 + v / 65536
  65535 - (a % 65536 + a / 65536) % 65536

/-- What a frame carries in its application header (R342). -/
structure FrameView where
  kind : Nat
  seq : Nat
  tick : Nat
  block : Nat
  first : Nat
  items : Nat
  channel : Nat
  forme : Nat
  flags : Nat
  payload : List Byte
  deriving DecidableEq, Repr

/-- Launch time of a frame (R346): 0 on an untimed stream. -/
def Chip.launchOf (g : Chip) (s tick : Nat) : Nat :=
  if g.rd (outOd s 0x0D) = 1 then (tick * 1000000000 / g.fa + g.rd (outOd s 0x0E)) % 2 ^ 64 else 0

/-- The value of a SOURCE code (R342); `g` holds the stream's objects, `c` the position. -/
def Chip.fieldValue (c g : Chip) (s : Nat) (v : FrameView) : Nat → Nat
  | 0x01 => v.seq
  | 0x02 => v.tick
  | 0x03 => v.block
  | 0x04 => v.first
  | 0x05 => v.items
  | 0x06 => v.channel
  | 0x07 => s
  | 0x08 => v.forme
  | 0x09 => 2 * c.node + c.side % 2
  | 0x0A => v.kind
  | 0x0B => v.flags
  | 0x0C => c.epochOf (v.tick / (c.chaseT * c.fft))
  | 0x0D => v.payload.length
  | 0x0E => g.launchOf s v.tick
  | 0x0F => g.rd (outOd s 4)
  | _ => 0

/-- Format table of a stream (R341). -/
def Chip.format (g : Chip) (s : Nat) : List Byte := g.table (od 0x600C (g.rd (outOd s 4) + 1))

/-- The application header (R341): the fields written over the template. -/
def Chip.appHeader (c g : Chip) (s : Nat) (v : FrameView) : List Byte :=
  let b := g.format s
  let hlen := beAt b 0 2
  (List.range (beAt b 2 2)).foldl (fun h i =>
    let e := sliceZ b (8 + hlen + 8 * i) 8
    let w := beAt e 3 1
    let x := c.fieldValue g s v (beAt e 2 1) / 2 ^ (beAt e 5 1 % 64) % 2 ^ (8 * w)
    overlay h (beAt e 0 2) (if bitAt (beAt e 4 1) 7 then leBytes w x else beBytes w x)) (sliceZ b 8 hlen)

/-- IP and UDP around a datagram's data (R340). -/
def Chip.ipDatagram (g : Chip) (s p : Nat) (data : List Byte) : List Byte :=
  let dst := g.rdDom (outOd s 0x0F)
  let opt := g.rd (outOd s 8)
  let dscp := bits opt 58 6
  let ttl := bits opt 48 8
  let ulen := 8 + data.length
  let ports := beBytes 2 (g.rd (outOd s 9)) ++ (beBytes 2 (g.rd (outOd s 0x0A)) ++ beBytes 2 ulen)
  if dst.length = 16 then
    let src := padTo 16 (g.rdDom (portOd p 8))
    let sum := inetSum (src ++ (dst ++ (beBytes 4 ulen ++ (beBytes 4 17 ++ (ports ++ (beBytes 2 0 ++ data))))))
    beBytes 4 (6 * 2 ^ 28 + dscp * 2 ^ 22 + bits opt 0 20) ++ (beBytes 2 ulen ++ (beBytes 1 17 ++ (beBytes 1 ttl ++ (src ++ (dst ++
      (ports ++ (beBytes 2 (if sum = 0 then 65535 else sum) ++ data)))))))
  else
    let h := fun (sum : Nat) => beBytes 1 0x45 ++ (beBytes 1 (4 * dscp) ++ (beBytes 2 (20 + ulen) ++ (beBytes 2 0 ++ (beBytes 2 0x4000 ++
      (beBytes 1 ttl ++ (beBytes 1 17 ++ (beBytes 2 sum ++ (beBytes 4 (g.rd (portOd p 7)) ++ dst))))))))
    h (inetSum (h 0)) ++ (ports ++ (beBytes 2 0 ++ data))

/-- A whole frame, from destination address to FCS (R340); the FCS goes out as IEEE 802.3 sends it, least significant byte first
(PRESUMED, log entry 46). -/
def Chip.outFrame (c g : Chip) (s : Nat) (v : FrameView) : OutFrame :=
  let p := g.rd (outOd s 2)
  let vlan := g.rd (outOd s 7)
  let tag := if bitAt vlan 16 then beBytes 2 0x8100 ++ beBytes 2 (bits vlan 13 3 * 8192 + bits vlan 0 12) else []
  let type := if (g.rdDom (outOd s 0x0F)).length = 16 then 0x86DD else 0x0800
  let b := beBytes 6 (g.rd (outOd s 6)) ++ (beBytes 6 (g.rd (portOd p 6)) ++ (tag ++ (beBytes 2 type ++
    g.ipDatagram s p (c.appHeader g s v ++ v.payload))))
  ⟨s, b ++ leBytes 4 (crc32 b), if g.rd (outOd s 0x0D) = 1 then some (g.launchOf s v.tick) else none, false⟩

/-- FLAGS of frame j of a block of q frames (R344). -/
def blockFlags (j q : Nat) (gap poison : Bool) : Nat := 128 * b2n (j == 0) + 64 * b2n (j + 1 == q) + 32 * b2n gap + 16 * b2n poison

/-! ### Blocks of sets and slots (R343) -/

/-- Rounded up division. -/
def ceilDiv (a b : Nat) : Nat := (a + b - 1) / b

/-- Items of a channel of a set: records, or the beams of a proof (R180, R214). -/
def Chip.channelItems (cfg : Chip) (kind f n : Nat) : Nat := if kind = 3 then cfg.proofBeams f else recordsOf (cfg.formeInputs f n)

/-- Bytes of an item of a set. -/
def itemBytes (kind : Nat) : Nat := if kind = 3 then beamProofBytes else 16

/-- What the readout of a set sends: KIND, items of a channel, channels, frames of a channel, Q. -/
structure SetShape where
  kind : Nat
  items : Nat
  channels : Nat
  per : Nat
  total : Nat
  deriving DecidableEq, Repr

/-- The shape of the set that a readout reads. -/
def Chip.setShape (c g : Chip) (s : Nat) (r : Readout) : SetShape :=
  let cfg := c.periodCfg r.first
  let kind := if cfg.formeKind r.unit ≠ 3 then 1 else if cfg.formeKind (cfg.rd (formeOd r.unit 0x0C)) = 2 then 3 else 2
  let n := cfg.channelItems kind r.unit (mapN (c.trussMap r.first))
  let per := ceilDiv n (g.rd (outOd s 0x0B))
  let ch := cfg.rd (formeOd r.unit 4)
  ⟨kind, n, ch, per, per * ch⟩

/-- Rows and streams that the readout of a slot sends. -/
def Chip.slotShape (c : Chip) (x : Slot) : Nat × List (Nat × Nat) :=
  (x.hi / 1024 - x.lo / 1024 + 1, (c.writer.ringAt (x.lo / 1024 * 1024)).layout)

/-- Payload bytes of the next frame of a readout (R338, R342), and Q. -/
def Chip.nextPayload (c g : Chip) (s : Nat) (r : Readout) : Nat × Nat :=
  let items := g.rd (outOd s 0x0B)
  if r.set_ = 2 then
    match c.trigger.slots[(Fin.ofNat 8 r.unit)] with
    | none => (0, 0)
    | some x =>
      let (rows, l) := c.slotShape x
      let per := ceilDiv l.length items
      let mine := (l.drop (r.frame % per * items)).take items
      ((mine.map fun e => 4 + 1024 * formatWidth e.2).sum, rows * per)
  else
    let z := c.setShape g s r
    (Nat.min items (z.items - r.frame % z.per * items) * itemBytes z.kind, z.total)

/-- Payload of the largest frame of a readout (R338): of a set's first one, or of the largest one of a slot's row. -/
def Chip.largestPayload (c g : Chip) (s : Nat) (r : Readout) : Nat :=
  if r.set_ ≠ 2 then (c.nextPayload g s { r with frame := 0 }).1
  else match c.trigger.slots[(Fin.ofNat 8 r.unit)] with
    | none => 0
    | some x => (List.range (ceilDiv (c.slotShape x).2.length (g.rd (outOd s 0x0B)))).foldl
        (fun m i => Nat.max m (c.nextPayload g s { r with frame := i }).1) 0

/-- The bytes of a poisoned part of a set (R270): a record of 0 with POISON, AUTO from its index; beam proof bytes of 0 (log entry 47). -/
def poisonedItems (kind nf recs index len : Nat) : List Byte :=
  if kind = 3 then List.replicate len 0
  else (List.range (len / 16)).flatMap fun i => (restartRecord (decide (nf * (nf - 1) / 2 ≤ (index + i) % recs))).bytes

/-- The next frame of a set, and its poison (R343, R345). -/
def Dev.setFrame (d : Dev) (g : Chip) (s : Nat) (r : Readout) (gap : Bool) : OutFrame × Nat × Bool × Nat × Dev :=
  let c := d.chip
  let cfg := c.periodCfg r.first
  let z := c.setShape g s r
  let map := c.trussMap r.first
  let nf := cfg.formeInputs r.unit (mapN map)
  let items := g.rd (outOd s 0x0B)
  let m := r.frame / z.per
  let first := r.frame % z.per * items
  let count := Nat.min items (z.items - first)
  let w := itemBytes z.kind
  let base := cfg.setBase r.unit (mapN map) r.set_
  let a := base + (m * z.items + first) * w
  let pieces := unitPieces a (count * w)
  let (b, d1) := d.readPieces (openUser 6) pieces
  let payload := (List.zip pieces b).flatMap fun e =>
    if e.2.2 then poisonedItems z.kind nf z.items ((e.1.1 - base) / 16) e.1.2 else e.2.1
  let poison := b.any fun e => e.2
  let ch := (localChannels map c.node).getD (cfg.rd (formeOd r.unit 3) + m) 0xFFFF
  let seq := r.block * z.total + r.frame
  let v : FrameView := ⟨z.kind, seq, c.periodStart r.first, r.block, first, count, ch, r.unit, blockFlags r.frame z.total gap poison, payload⟩
  (c.outFrame g s v, seq, poison, count, d1)

/-- One stream's block of a ring row (R107, R270, R342). -/
def Dev.streamBlock (d : Dev) (ring : Ring) (row s w : Nat) : List Byte × Bool × Dev :=
  let (b, d1) := d.readPieces (openUser 6) (unitPieces (ring.addr s (row * 1024)) (1024 * w))
  let bad := b.any fun e => e.2
  let d2 := if bad then { d1 with chip := d1.chip.flagGranule s (row * 1024) 0x80 } else d1
  let c := d2.chip
  let rank := (ring.layout.filter fun e => e.1 < s).length
  let f := sget (fun _ => (0, 0)) c.writer.flagRing (row / 64 % (ring.rows / 64) * ring.layout.length + rank)
  (beBytes 2 s ++ (beBytes 1 (if f.1 = row / 64 then f.2 else 0) ++ (beBytes 1 0 ++
    b.flatMap fun e => if e.2 then List.replicate e.1.length 0 else e.1)), bad, d2)

/-- The next frame of a slot (R343, R345). -/
def Dev.slotFrame (d : Dev) (g : Chip) (s : Nat) (r : Readout) (x : Slot) (gap : Bool) : OutFrame × Nat × Bool × Nat × Dev :=
  let c := d.chip
  let (rows, l) := c.slotShape x
  let items := g.rd (outOd s 0x0B)
  let per := ceilDiv l.length items
  let row := x.lo / 1024 + r.frame / per
  let ring := c.writer.ringAt (row * 1024)
  let mine := (l.drop (r.frame % per * items)).take items
  let (payload, poison, d1) := mine.foldl (fun (a : List Byte × Bool × Dev) e =>
    let (b, bad, d2) := a.2.2.streamBlock ring row e.1 (formatWidth e.2)
    (a.1 ++ b, a.2.1 || bad, d2)) (([], false, d) : List Byte × Bool × Dev)
  let seq := c.rd (outOd s 0x16)
  let v : FrameView := ⟨9, seq, row * 1024, x.source * 2 ^ 58 + x.msgId, (mine.map fun e => e.1).headD 0, mine.length, 0xFFFF, 0xFFFF,
    blockFlags r.frame (rows * per) gap poison, payload⟩
  (c.outFrame g s v, seq, poison, mine.length, d1)

/-! ### The peg log stream (R235, R343, R345) -/

/-- Entries that the peg log stream has skipped: it fell more than 32 768 behind (R345). -/
def Chip.skipPegs (c : Chip) (s : Nat) : Chip :=
  let x := c.outStream s
  let behind := (c.rd (od 0x3800 0x1F) + 2 ^ 32 - x.entry) % 2 ^ 32
  if 32768 < behind then
    (c.bump (outOd s 0x12) (behind - 32768)).setOutStream s { x with entry := (x.entry + behind - 32768) % 2 ^ 32, gap := true }
  else c

/-- Entries that a peg log frame holds now: at most ITEMS, and what waits (log entry 48). -/
def Chip.pegItems (c : Chip) (s : Nat) : Nat :=
  Nat.min (c.rd (outOd s 0x0B)) ((c.rd (od 0x3800 0x1F) + 2 ^ 32 - (c.outStream s).entry) % 2 ^ 32)

/-- The next frame of the peg log. -/
def Chip.pegLogFrame (c : Chip) (s n : Nat) (gap : Bool) : OutFrame × Nat :=
  let x := c.outStream s
  let payload := (List.range n).flatMap fun i => padTo 32 (sget (fun _ => []) c.trigger.log ((x.entry + i) % 32768))
  let seq := c.rd (outOd s 0x16)
  (c.outFrame c s ⟨8, seq, beAt payload 0 8, 0, x.entry, n, 0xFFFF, 0xFFFF, 32 * b2n gap, payload⟩, seq)

/-! ### Readout (R189, R244, R345) -/

/-- The set of a forme that its stream reads next: of those COMPLETE the one of the lower dump. -/
def Chip.nextSet (c : Chip) (f : Nat) : Option Nat :=
  match [0, 1].filter fun k => c.rd (setOd f k) == 2 with
  | [] => none
  | [k] => some k
  | _ => some (if c.dumpOf f (c.firstOf f 0) < c.dumpOf f (c.firstOf f 1) then 0 else 1)

/-- A readout begins: its block's first frame, all its items, and the credit of one frame (R338). -/
def Chip.beginReadout (c : Chip) (s : Nat) (r : Readout) : Chip :=
  let (bytes, _) := c.nextPayload c s r
  c.setOutStream s { c.outStream s with reading := some r, credit := bytes * 8000, since := c.lc }

/-- READOUT_START (R345): a stream starts reading its next COMPLETE set or READY slot. -/
def execReadoutStart (n : Fin 256) (s : State) : Host.Outcome State Fault Refusal :=
  let c := s.dev.chip
  let st := n.val
  if !c.on (outOd st 1) || (c.outStream st).reading.isSome then ok s c
  else match c.source st with
  | some (9, _) =>
    match c.trigger.ready with
    | [] => ok s c
    | k :: rest =>
      match c.trigger.slots[k] with
      | none => ok s c
      | some x =>
        let c1 := { c.slotTo k 3 with trigger := { c.trigger with ready := rest } }
        let (rows, l) := c.slotShape x
        ok s (c1.beginReadout st ⟨k.val, 2, x.source * 2 ^ 58 + x.msgId, 0, c.front, 0, rows * l.length⟩)
  | some (kind, f) =>
    if 4 ≤ kind then ok s c
    else match c.nextSet f with
    | none => ok s c
    | some k =>
      let n0 := c.firstOf f k
      let r : Readout := ⟨f, k, c.dumpOf f n0, n0, c.front, 0, 0⟩
      let z := c.setShape c st r
      ok s ((c.wr (setOd f k) 3).beginReadout st { r with left := z.items * z.channels })
  | none => ok s c

/-- READOUT_END (R345): every item has left: the set or slot is FREE. -/
def execReadoutEnd (n : Fin 256) (s : State) : Host.Outcome State Fault Refusal :=
  let c := s.dev.chip
  let x := c.outStream n.val
  match x.reading with
  | none => ok s c
  | some r =>
    if r.left ≠ 0 then ok s c
    else
      let c1 := c.setOutStream n.val { x with reading := none }
      ok s (if r.set_ = 2 then c1.freeSlot (Fin.ofNat 8 r.unit) else (c1.wr (setOd r.unit r.set_) 0).settleForme r.unit)

/-! ### Frame slots (R338, R346) -/

/-- Credit of a paced stream in thousandths of a bit (R338): RATE since it was last counted, at most twice a frame. -/
def Chip.creditOf (c : Chip) (s rate largest : Nat) : Nat :=
  let x := c.outStream s
  Nat.min (x.credit + rate * (c.lc - x.since)) (largest * 16000)

/-- What a stream would send next: its objects, the payload bytes, and the credit left after it where its pacing allows the frame. -/
def Chip.offer (c : Chip) (s : Nat) : Option (Chip × Nat × Nat) :=
  let x := c.outStream s
  let paced := fun (g : Chip) (bytes largest : Nat) =>
    let k := c.creditOf s (g.rd (outOd s 5)) largest
    if 0 < bytes && bytes * 8000 ≤ k then some (g, bytes, k - bytes * 8000) else none
  match x.reading with
  | some r =>
    let g := c.asOf r.since
    paced g (if r.left = 0 then 0 else (c.nextPayload g s r).1) (c.largestPayload g s r)
  | none =>
    match x.built with
    | e :: _ => some (c, e.2, 0)
    | [] => if c.on (outOd s 1) && c.rd (od 0x3800 0x06) = s then paced c (32 * c.pegItems s) (32 * c.rd (outOd s 0x0B)) else none

/-- The port of a stream's next frame, and whether the frame is timed. -/
def Chip.offerPort (c : Chip) (s : Nat) (g : Chip) : Nat × Bool :=
  match (c.outStream s).reading, (c.outStream s).built with
  | none, e :: _ => (c.rd (outOd s 2), e.1.launch.isSome)
  | _, _ => (g.rd (outOd s 2), g.rd (outOd s 0x0D) == 1)

/-- Array time in ns of view 0. -/
def Chip.arrayNs (c : Chip) : Nat := ((c.time.views[(0 : Fin 4)]).at c.lc / 2 ^ 32).toNat

/-- A frame in the launch queue, after those of the same launch time (R347). -/
def launchInsert (f : OutFrame) : List OutFrame → List OutFrame
  | [] => [f]
  | h :: t => if f.launch.getD 0 < h.launch.getD 0 then f :: h :: t else h :: launchInsert f t

/-- A built frame enters its port: the launch queue, or the MAC's next untimed frame. -/
def Chip.toPort (c : Chip) (p : Nat) (f : OutFrame) : Chip :=
  let x := c.port p
  match f.launch with
  | some l => c.setPort p { x with timed := launchInsert { f with late := decide (l < c.arrayNs) } x.timed }
  | none => c.setPort p { x with next := some f }

/-- A readout after the grant of its frame. -/
def Readout.granted (r : Readout) (n : Nat) : Readout := { r with frame := r.frame + 1, left := r.left - n }

/-- A stream's next frame built and granted (R338, R342-R344). -/
def Dev.grant (d : Dev) (s p : Nat) (g : Chip) (bytes credit : Nat) : Dev :=
  let c := d.chip
  let x := c.outStream s
  let finish := fun (e : Dev) (f : OutFrame) (seq : Nat) (poison : Bool) (y : OutStream) =>
    let c1 := ((e.chip.setOutStream s { y with credit := credit, since := c.lc, gap := false }).wr (outOd s 0x16) ((seq + 1) % 2 ^ 64)).bump
      (outOd s 0x14) (b2n poison)
    { e with chip := c1.toPort p f }
  match x.reading with
  | some r =>
    if r.set_ = 2 then
      match c.trigger.slots[(Fin.ofNat 8 r.unit)] with
      | none => d
      | some k =>
        let (f, seq, poison, n, d1) := d.slotFrame g s r k x.gap
        finish d1 f seq poison { x with reading := some (r.granted n) }
    else
      let (f, seq, poison, n, d1) := d.setFrame g s r x.gap
      finish d1 f seq poison { x with reading := some (r.granted n) }
  | none =>
    match x.built with
    | e :: rest => { d with chip := (c.setOutStream s { x with built := rest }).toPort p e.1 }
    | [] =>
      let n := bytes / 32
      let (f, seq) := c.pegLogFrame s n x.gap
      finish d f seq false { x with entry := (x.entry + n) % 2 ^ 32 }

/-- FRAME_SLOT (R346): the port's arbiter (R47, R48) grants one stream; its next frame is built and enters the port. -/
def execFrameSlot (p : Fin 8) (s : State) : Host.Outcome State Fault Refusal :=
  let d := { s.dev with chip := (List.range 256).foldl (fun a n => if a.rd (od 0x3800 0x06) = n then a.skipPegs n else a) s.dev.chip }
  let c := d.chip
  let x := c.port p.val
  let offers := (List.range 256).filterMap fun n => match c.offer n with
    | some (g, bytes, credit) =>
      let (q, timed) := c.offerPort n g
      if q = p.val && (if timed then decide (x.timed.length < 4096) else x.next.isNone) then
        some ((g.rd (outOd n 4) * 256 + n, g, bytes, credit) : Nat × Chip × Nat × Nat)
      else none
    | none => none
  let req := if c.role = 1 then [] else offers.map fun e => e.1
  let prio := fun (i : Nat) => match offers.find? fun e => e.1 == i with | some e => e.2.1.rd (outOd (i % 256) 3) | none => 0
  let wait := sget (fun _ => 0) x.waits
  match arbitrate prio (c.rd (portOd p.val 5)) wait req with
  | none => ok s (c.setPort p.val { x with waits := [] })
  | some i =>
    match offers.find? fun e => e.1 == i with
    | none => ok s c
    | some (_, g, bytes, credit) =>
      let waits := (req.filter fun j => j != i).foldl (fun (m : SMap Nat) j => sset (fun _ => 0) m j (wait j + 1)) []
      done s (({ d with chip := c.setPort p.val { x with waits := waits } }).grant (i % 256) p.val g bytes credit)

/-! ### The MAC (R335, R347) -/

/-- MAC rate of a port in Gb/s (R333). -/
def Chip.macRate (c : Chip) (p : Nat) : Nat := match c.rd (portOd p 1) with | 1 => 100 | 2 => 200 | _ => 400

/-- A frame leaves its port, or is discarded while the port is DOWN (R335); late launches are counted (R347). -/
def Chip.launch (c : Chip) (p : Nat) (f : OutFrame) (late : Bool) : Chip :=
  let c1 := (c.bump (portOd p 0x11) (b2n late)).bump (outOd f.stream 0x13) (b2n late)
  if c.rd (portOd p 0x10) = 2 then ((c1.send (.ether p f.bytes)).bump (portOd p 0x18) 1).bump (outOd f.stream 0x11) 1
  else c1.bump (portOd p 0x12) 1

/-- MAC_FRAME_BOUNDARY (R347): the head of the launch queue once its launch instant, 8 byte times on, can fall at or after L; else an untimed
frame that ends before the head must start; else idle. A frame is late that entered the queue after L, that waited behind another timed
frame until after L, or that starts more than 64 ns after L. Times are in thousandths of a ns. -/
def execMacFrameBoundary (p : Fin 8) (s : State) : Host.Outcome State Fault Refusal :=
  let c := s.dev.chip
  let y := c.port p.val
  let x := { y with behind := false }
  let idle := c.setPort p.val x
  let rate := c.macRate p.val
  let now := ((c.time.views[(0 : Fin 4)]).at c.lc * 1000 / 2 ^ 32).toNat
  let instant := now + 64000 / rate
  let unset := c.viewStatus 0 == 0
  if c.rd (portOd p.val 0x10) = 0 then ok s c
  else match x.timed with
  | h :: t =>
    let l := h.launch.getD 0 * 1000
    if h.late || unset || l ≤ instant then
      let late := h.late || unset || decide (l + 64000 < instant) || (y.behind && decide (l < instant))
      ok s ((c.setPort p.val { x with timed := t, behind := true }).launch p.val h late)
    else match x.next with
      | some f =>
        if now + (f.bytes.length + 20) * 8000 / rate + 64000 / rate ≤ l then ok s ((c.setPort p.val { x with next := none }).launch p.val f false)
        else ok s idle
      | none => ok s idle
  | [] =>
    match x.next with
    | some f => ok s ((c.setPort p.val { x with next := none }).launch p.val f false)
    | none => ok s idle

end Sys2Proof.Machine
end

