-- ==== Sys2Proof/Machine/Beams.lean ====
section
/-! DEFINITION. Beams: weight banks, swaps and scarfs, the scaler, the release of beam blocks to the output stream and to the L1 trigger
(R194-R217, R225-R230). -/

namespace Sys2Proof.Machine

/-! ### Weight banks (R196, R198, R199, R367) -/

/-- OD of weight bank 0 or 1. -/
def bankOd (f bank : Nat) : Nat := formeOd f (0x21 + bank)

/-- A bank was written inside a transaction that has not committed (R367): it reads empty and cannot be swapped to. -/
def Chip.bankHeld (c : Chip) (f bank : Nat) : Bool :=
  (match c.dict.txn with | none => false | some t => t.direct.contains (bankOd f bank)) ||
    c.dict.schedule.any fun p => p.direct.contains (bankOd f bank)


/-- The kind of a forme as a session sees it: the one its own transaction stages, else the one in force. -/
def Chip.kindFor (c : Chip) (sess f : Nat) : Val :=
  match c.dict.txn with
  | some t => if t.owner = sess then c.over t.staged (formeOd f 1) else c.over [] (formeOd f 1)
  | none => c.over [] (formeOd f 1)

/-- n_f of a forme under values laid over those in force (R177). -/
def inputsOf (first last n : Nat) : Nat := Nat.min (64 * (last + 1)) n - 64 * first

/-- The session's own transaction stages a change of the kind, of n_b or of the input range (R199), or a truss map that changes n_f. -/
def Chip.resizes (c : Chip) (sess f : Nat) : Bool :=
  match c.dict.txn with
  | none => false
  | some t =>
    let num := fun (k : Nat) => match c.over t.staged (formeOd f k) with | .num n => n | .bytes _ => 0
    let map := match c.over t.staged (od 0x6004 0) with | .num _ => [] | .bytes b => tableBody b
    t.owner == sess && (([0x01, 0x05, 0x06, 0x20].any fun k => c.openStages (formeOd f k)) ||
      inputsOf (num 5) (num 6) (mapN map) != c.formeInputs f (mapN (c.table (od 0x6004 0))))

/-- The rules of a weight bank (R196): its header, NB and NF, its length, and gains of at least -127. -/
def bankCheck (nb nf : Nat) (b : List Byte) : Status :=
  match tableCheck 0x11 b with
  | some .range => .range
  | some .crc => .tableCrc
  | none =>
    let body := tableBody b
    if beAt body 0 2 ≠ nb || beAt body 2 2 ≠ nf || body.length ≠ 8 + 6 * nb * nf then .range
    else if (List.range (nb * nf)).any fun i => beAt body (8 + 6 * i) 1 == 128 || beAt body (9 + 6 * i) 1 == 128 then .range
    else .ok

/-- A bank goes into place; the impressions of earlier ticks keep the contents they had (R198). -/
def Chip.putBank (c : Chip) (f bank : Nat) (b : List Byte) : Chip :=
  let k := bankOd f bank
  { c.wrDom k b with past := ⟨c.front, [(k, .bytes (c.rdDom k))]⟩ :: c.past }

/-- A write of a weight bank by a session (R196, R198, R199). -/
def Chip.bankWrite (c : Chip) (sess f bank : Nat) (b : List Byte) : Chip × Status :=
  let x := c.forme f
  if c.kindFor sess f ≠ .num 2 then (c, .state)
  else if c.resizes sess f then
    match tableCheck 0x11 b with
    | some .range => (c, .range)
    | some .crc => (c, .tableCrc)
    | none => if !c.loadRoom c.loadArea (bankOd f bank) (.bytes b) then (c, .stageFull) else (c.stage (bankOd f bank) (.bytes b), .ok)
  else if c.rd (formeOd f 0x30) = bank || x.fading then (c, .state)
  else
    match bankCheck (c.rd (formeOd f 0x20)) (c.formeInputs f (mapN (c.table (od 0x6004 0)))) b with
    | .ok =>
      let c1 := if c.owner == some sess then c.noteDirect (bankOd f bank) else c
      (c1.putBank f bank b, .ok)
    | st => (c, st)

/-! ### The scarf (R208, R209) -/

/-- OD 8000+f.31 shown. -/
def Chip.showScarf (c : Chip) (f : Nat) : Chip :=
  let x := c.forme f
  c.wr (formeOd f 0x31) (2 * b2n x.fading + b2n x.waiting.isSome)

/-- The bank that a request made now targets (R208). -/
def Chip.swapTarget (c : Chip) (f : Nat) : Nat :=
  let x := c.forme f
  match x.fading, x.scarfs with
  | true, k :: _ => 1 - k.target
  | _, _ => 1 - c.rd (formeOd f 0x30)

/-- A swap request enters the queue (R42, R43, R208): a spectrum that has passed is the first one that has not. -/
def Chip.swapEnter (c : Chip) (f t : Nat) : Chip :=
  let x := c.forme f
  let sp := effectSpectrum c.fft t
  let at_ := Nat.max sp (effectSpectrum c.fft c.reached)
  let k := b2n x.waiting.isSome
  (((c.bump (formeOd f 0x34) k).bump (od 0x3400 0x13) k).setForme f { x with waiting := some at_ }).showScarf f

/-- A write of OD 8000+f.23 (R208, R217, R367). -/
def Chip.swapWrite (c : Chip) (f t : Nat) : Chip × Status :=
  if c.formeKind f ≠ 2 || c.bankHeld f (c.swapTarget f) then (c, .state) else (c.swapEnter f t, .ok)

/-- The waiting swaps of banks that are held no longer start at spectrum sp at the earliest (R367). -/
def Chip.swapsAfter (c : Chip) (keys : List Nat) (sp : Nat) : Chip :=
  let formes := (keys.filter fun k => 0x8000 ≤ keyIndex k && keyIndex k < 0x9000).map fun k => keyIndex k - 0x8000
  formes.foldl (fun a f => a.setForme f { a.forme f with waiting := (a.forme f).waiting.map fun w => Nat.max w sp }) c

/-- Last channel sample of a scarf (R209). -/
def Scarf.last (k : Scarf) : Nat := k.start + k.length - 1

/-- SCARF_START (R208, R209): the waiting swap starts, at its spectrum or at the sample after the running scarf; not to a bank that a transaction
still holds (R367). -/
def execScarfStart (f : Fin 4096) (s : State) : Host.Outcome State Fault Refusal :=
  let c := s.dev.chip
  let n := f.val
  let x := c.forme n
  match x.waiting with
  | none => ok s c
  | some w =>
    let a := match x.scarfs with | [] => w | k :: _ => Nat.max w (k.last + 1)
    if x.fading || c.bankHeld n (c.swapTarget n) then ok s c
    else
      let k : Scarf := ⟨a, c.rd (formeOd n 0x24), 1 - c.rd (formeOd n 0x30)⟩
      let c1 := (c.untilFront (a * c.fft)).setForme n { x with waiting := none, scarfs := k :: x.scarfs, fading := true }
      ok s ((c1.wr (formeOd n 0x32) k.last).showScarf n)

/-- SCARF_END (R209): the target bank becomes active. -/
def execScarfEnd (f : Fin 4096) (s : State) : Host.Outcome State Fault Refusal :=
  let c := s.dev.chip
  let n := f.val
  let x := c.forme n
  match x.fading, x.scarfs with
  | true, k :: _ =>
    ok s (((((c.untilFront ((k.last + 1) * c.fft)).setForme n { x with fading := false }).wr (formeOd n 0x30) k.target).bump (formeOd n 0x33) 1).showScarf n)
  | _, _ => ok s c

/-! ### The scaler (R205-R207, R211, R214) -/

/-- The scale of n inputs (R206). -/
def scaleOf (mode n : Nat) : Nat :=
  match mode with
  | 1 => (rdiv (2 ^ 23) n).toNat
  | 2 => rsqrt 1 n (2 ^ 23)
  | _ => 2 ^ 23

/-- A sum scaled and narrowed, before the clip (R205). -/
def scaled (s g : Nat) (v : Int) : Int := rnd (v * s * g) 35

/-- One beam of a block at +-32 767, with its clips at a limit by stick, and its stick words without CLIPPED (R205, R207). -/
structure BeamOut where
  raw : List Cx
  words : List Nat
  deriving DecidableEq, Repr

/-- A stick holds a sample of a scarf (R207). -/
def FormeX.scarfIn (x : FormeX) (lo : Nat) : Bool := x.scarfs.any fun k => decide (k.start ≤ lo + 255) && decide (lo ≤ k.last)

/-- A row of sums scaled (R205, R207); `lo` is its first channel sample. -/
def scaleRow (x : FormeX) (mode g lo : Nat) (r : BeamRow) : BeamOut :=
  let k := r.counts.length
  let raw := (List.range k).flatMap fun i =>
    let n := r.counts.getD i 0
    if n = 0 || r.empty.getD i false then List.replicate 256 ((0, 0) : Cx)
    else
      let s := scaleOf mode n
      ((r.sums.drop (256 * i)).take 256).map fun v => (scaled s g v.1, scaled s g v.2)
  ⟨raw, (List.range k).map fun i =>
    let n := r.counts.getD i 0
    2 ^ 31 * b2n (n == 0 || r.empty.getD i false) + 2 ^ 30 * b2n (r.unsettled.getD i false) +
      2 ^ 29 * b2n (x.scarfIn (lo + 256 * i)) + n⟩

/-- Parts of samples beyond a limit. -/
def clipsOf (lim : Int) (l : List Cx) : Nat := (l.map fun v => b2n (clipped lim v.1) + b2n (clipped lim v.2)).sum

/-- The four Stokes values of a sample of a pair (R211). -/
def stokes (x y : Cx) : List Int :=
  let a := x.1 * x.1 + x.2 * x.2
  let b := y.1 * y.1 + y.2 * y.2
  [a + b, a - b, 2 * (x.1 * y.1 + x.2 * y.2), -2 * (x.2 * y.1 - x.1 * y.2)]

/-- Stokes sums of a pair over m samples each, narrowed by h before the clip (R211): I alone, or I, Q, U, V. -/
def stokesSums (full : Bool) (m h : Nat) (x y : List Cx) : List Int :=
  (List.range (x.length / m)).flatMap fun i =>
    let v := (List.zipWith stokes ((x.drop (m * i)).take m) ((y.drop (m * i)).take m))
    (List.range (if full then 4 else 1)).map fun q => rnd ((v.map fun e => e.getD q 0).sum) h

/-- A complete block scaled (R205-R211): the beams, output clips, Stokes clips and empty beam-sticks. -/
def Chip.scaleBlock (c : Chip) (x : LedgerSlot) : List ScaledBeam × Nat × Nat × Nat :=
  let cfg := c.periodCfg x.period
  let f := x.forme
  let form := cfg.rd (formeOd f 0x27)
  let live := Nat.min 64 (cfg.rd (formeOd f 0x20) - 64 * x.block)
  let rows := (x.rows.take live).map (scaleRow (c.forme f) (cfg.rd (formeOd f 0x25)) (cfg.rd (formeOd f 0x26)) (x.period * c.chaseT))
  let lim : Int := if form = 0 then 127 else 32767
  let sticks := c.chaseT / 256
  let part := fun (l : List Cx) (k : Nat) => (l.drop (256 * k)).take 256
  let clips := rows.map fun r => (List.range sticks).map fun k => clipsOf lim (part r.raw k)
  let wide := rows.map fun r => r.raw.map fun v => (clip 32767 v.1, clip 32767 v.2)
  let m := cfg.rd (formeOd f 0x28)
  let per := 256 / m * (if form = 3 then 4 else 1)
  let sums := (List.range live).map fun b =>
    if form < 2 || b % 2 = 1 then [] else stokesSums (form == 3) m (cfg.rd (formeOd f 0x29)) (wide.getD b []) (wide.getD (b + 1) [])
  let stokesClips := sums.map fun l => (List.range sticks).map fun k => ((l.drop (per * k)).take per).countP fun v => clipped 32767 v
  let beams := (List.range live).map fun b =>
    let words := ((rows[b]?).map fun r => r.words).getD []
    let hit := fun (k : Nat) => decide (0 < (clips.getD b []).getD k 0 + (stokesClips.getD (b / 2 * 2) []).getD k 0)
    let out := if form < 2 then (((rows[b]?).map fun r => r.raw).getD []).map fun v => (clip lim v.1, clip lim v.2)
      else (sums.getD b []).map fun v => ((clip 32767 v, 0) : Int × Int)
    (⟨words.zipIdx.map fun w => w.1 + 2 ^ 28 * b2n (hit w.2), wide.getD b [], out⟩ : ScaledBeam)
  (beams, (clips.map fun l => l.sum).sum, (stokesClips.map fun l => l.sum).sum,
    (rows.map fun r => r.words.countP fun w => decide (2 ^ 31 ≤ w)).sum)

/-- Beam blocks of a forme. -/
def Chip.blocks (cfg : Chip) (f : Nat) : Nat := (cfg.rd (formeOd f 0x20) + 63) / 64

/-- The slot of the block that a forme releases next, where it is complete. -/
def Chip.releaseSlot (c : Chip) (f : Nat) : Option LedgerSlot :=
  match (c.forme f).release with
  | none => none
  | some (n, j, b) => c.xe.slots.find? fun x =>
      x.forme == f && x.period == n && x.channel == j && x.block == b && x.left == 0

/-- A slot replaced. -/
def Chip.putSlot (c : Chip) (x : LedgerSlot) : Chip :=
  let same := fun (y : LedgerSlot) => y.forme == x.forme && y.period == x.period && y.channel == x.channel && y.block == x.block
  { c with xe := { c.xe with slots := c.xe.slots.map fun y => if same y then x else y } }

/-- Bytes of a unit of the output of a form with integration m (R342). -/
def unitBytes (form m : Nat) : Nat :=
  match form with
  | 0 => 516
  | 1 => 1028
  | 2 => 8 + 512 / m
  | _ => 8 + 2048 / m

/-- Units of a block: beams, or pairs. -/
def unitCount (form live : Nat) : Nat := if form < 2 then live else live / 2

/-- The records of a proof for the beams of a block (R214). -/
def Dev.proofBeamsOut (d : Dev) (g : Nat) (x : LedgerSlot) (l : List ScaledBeam) : Dev :=
  let c := d.chip
  let cfg := c.periodCfg x.period
  if !c.inRange x.period g x.channel then d
  else
    let np := cfg.proofBeams g
    let first := 64 * cfg.rd (formeOd g 5)
    let base := cfg.setBase g (mapN (c.trussMap x.period)) (x.period % 2)
    let m := x.channel - cfg.rd (formeOd g 3)
    l.zipIdx.foldl (fun a e =>
      let b := 64 * x.block + e.2
      if first ≤ b && b < first + np then
        a.writeFresh (openUser 5) (base + (m * np + (b - first)) * beamProofBytes) (beBytes 4 (e.1.words.headD 0) ++ (List.replicate 12 0 ++
          (e.1.wide.take 256).flatMap fun v => beBytes 2 (ofI v.1 16) ++ beBytes 2 (ofI v.2 16)))
      else a) d

/-- SLOT_DRAIN (R205, R339): the next block to release is scaled once it is complete and its stream's buffer can take it. -/
def execSlotDrain (f : Fin 4096) (s : State) : Host.Outcome State Fault Refusal :=
  let c := s.dev.chip
  let n := f.val
  match c.releaseSlot n with
  | none => ok s c
  | some x =>
    let cfg := c.periodCfg x.period
    let st := cfg.rd (formeOd n 0x0A)
    let form := cfg.rd (formeOd n 0x27)
    let live := Nat.min 64 (cfg.rd (formeOd n 0x20) - 64 * x.block)
    let need := unitCount form live * (c.chaseT / 256) * unitBytes form (cfg.rd (formeOd n 0x28))
    let used := ((c.outStream st).built.map fun e => e.2).sum
    if x.scaled.isSome then ok s c
    else if st < 256 && c.rd (outOd st 0x0C) * 1024 < used + need then
      let y := c.forme n
      ok s (if y.drainWait then c else (c.setForme n { y with drainWait := true }).bump (outOd st 0x15) 1)
    else
      let (beams, clips, stokesClips, empty) := c.scaleBlock x
      let c1 := (((c.putSlot { x with scaled := some beams }).setForme n { c.forme n with drainWait := false }).bump (formeOd n 0x35) clips).bump
        (od 0x3400 0x11) clips
      let c2 := (c1.bump (formeOd n 0x38) stokesClips).bump (formeOd n 0x36) empty
      done s (x.proofs.foldl (fun a g => a.proofBeamsOut g x beams) { s.dev with chip := c2 })

/-! ### Release to the output stream (R212, R343) -/

/-- The bytes of one unit in a stick (R342). -/
def unitPayload (form m k : Nat) (a b : ScaledBeam) : List Byte :=
  let w := fun (x : ScaledBeam) => beBytes 4 (x.words.getD k 0)
  match form with
  | 0 => w a ++ ((a.out.drop (256 * k)).take 256).flatMap fun v => beBytes 1 (ofI v.1 8) ++ beBytes 1 (ofI v.2 8)
  | 1 => w a ++ ((a.out.drop (256 * k)).take 256).flatMap fun v => beBytes 2 (ofI v.1 16) ++ beBytes 2 (ofI v.2 16)
  | _ =>
    let per := 256 / m * (if form = 3 then 4 else 1)
    w a ++ (w b ++ ((a.out.drop (per * k)).take per).flatMap fun v => beBytes 2 (ofI v.1 16))

/-- The frames of a block built into its stream's buffer (R213, R340-R343). -/
def Chip.buildBeams (c : Chip) (x : LedgerSlot) (l : List ScaledBeam) : Chip :=
  let cfg := c.periodCfg x.period
  let f := x.forme
  let st := cfg.rd (formeOd f 0x0A)
  if 256 ≤ st then c
  else
    let form := cfg.rd (formeOd f 0x27)
    let m := cfg.rd (formeOd f 0x28)
    let items := cfg.rd (outOd st 0x0B)
    let sticks := c.chaseT / 256
    let unitsOf := fun (b : Nat) => unitCount form (Nat.min 64 (cfg.rd (formeOd f 0x20) - 64 * b))
    let framesOf := fun (b : Nat) => ceilDiv (unitsOf b) items
    let perChannel := (((List.range (cfg.blocks f)).map framesOf).sum) * sticks
    let total := perChannel * cfg.rd (formeOd f 4)
    let before := ((List.range x.block).map framesOf).sum * sticks
    let j0 := (x.channel - cfg.rd (formeOd f 3)) * perChannel + before
    let units := unitsOf x.block
    let per := framesOf x.block
    let wide := if form < 2 then 1 else 2
    let ch := (localChannels (c.trussMap x.period) c.node).getD x.channel 0xFFFF
    let none_ : ScaledBeam := ⟨[], [], []⟩
    let frames := (List.range sticks).flatMap fun k => (List.range per).map fun i =>
      let j := j0 + k * per + i
      let mine := ((List.range units).drop (i * items)).take items
      let pay := mine.flatMap fun u => unitPayload form m k (l.getD (wide * u) none_) (l.getD (wide * u + 1) none_)
      let v : FrameView := ⟨4 + form, x.period * total + j, c.periodStart x.period + 256 * k * c.fft, x.period,
        64 / wide * x.block + i * items, mine.length, ch, f, blockFlags j total false false, pay⟩
      (c.outFrame cfg st v, pay.length)
    let y := c.outStream st
    (c.setOutStream st { y with built := y.built ++ frames }).wr (outOd st 0x16) ((x.period * total + j0 + per * sticks) % 2 ^ 64)

/-! ### L1 (R225-R230) -/

/-- OD 3800.sub. -/
def trigOd (sub : Nat) : Nat := od 0x3800 sub

/-- A trigger beam by forme * 4096 + beam. -/
def Chip.l1 (c : Chip) (k : Nat) : L1Beam := sget (fun _ => L1Beam.atReset) c.xe.l1 k

/-- A trigger beam set. -/
def Chip.setL1 (c : Chip) (k : Nat) (x : L1Beam) : Chip := { c with xe := { c.xe with l1 := sset (fun _ => L1Beam.atReset) c.xe.l1 k x } }

/-- A forme feeds L1 (R212, R225). -/
def Chip.feeds (cfg : Chip) (f : Nat) : Bool := cfg.formeKind f == 2 && cfg.on (formeOd f 0x2C)

/-- Number of the first trigger beam of a forme (R225). -/
def Chip.firstTrigger (cfg : Chip) (f : Nat) : Nat :=
  (((List.range f).filter fun g => cfg.feeds g).map fun g => cfg.rd (formeOd g 0x20)).sum

/-- Ring key of a decimation, a trial and an L1 sample. -/
def ringKey (dt trial q : Nat) : Nat := (dt * 512 + trial) * 2 ^ 64 + q

/-- L1 sample of a beam that starts at a sample of its block (R225, R226): its power, and the ring flags of its stick (R228). -/
def l1Power (dt h at_ : Nat) (b : ScaledBeam) : Nat × Nat :=
  let p := (((b.wide.drop at_).take dt).map fun v => v.1 * v.1 + v.2 * v.2).sum
  let w := b.words.getD (at_ / 256) 0
  (Nat.min (rnd p h).toNat 32767, 2 * b2n (bitAt w 31) + b2n (bitAt w 29))

/-- A sample of local channel j added to the rings (R228). -/
def L1Beam.addSample (x : L1Beam) (table : List Byte) (dt j q : Nat) (u : Nat × Nat) : L1Beam :=
  let cp := beAt table 2 2
  (List.range (beAt table 0 2)).foldl (fun a d =>
    let delay := beAt table (8 + d * cp + j) 1
    if delay = 0xFF then a
    else
      let k := ringKey dt d (q + delay)
      let old := sget (fun _ => (0, 0)) a.rings k
      { a with rings := sset (fun _ => (0, 0)) a.rings k (old.1 + u.1, old.2 ||| u.2) }) x

/-- A test of a boxcar (R230): S/N and flags where it meets the threshold. -/
def L1Beam.test (x : L1Beam) (k1 trial q w : Nat) : Option (Nat × Nat) :=
  if q + 1 < x.first + w then none
  else
    let l := (List.range w).map fun i => sget (fun _ => (0, 0)) x.rings (ringKey x.dt trial (q - i))
    let (m, v) := sget (fun _ => (0, 0)) x.stats trial
    let e : Int := ((l.map fun r => r.1).sum * 65536 : Nat) - (w * m : Nat)
    if 0 < e && ((k1 * k1 * w * v : Nat) : Int) ≤ e * e * 65536 then
      some (if v = 0 then 0xFFFF else Nat.min 0xFFFF (rsqrt (e.toNat * e.toNat) (w * v) 256), l.foldl (fun a r => a ||| r.2) 0)
    else none

/-- The statistics of a trial take a sample (R229). -/
def L1Beam.learn (x : L1Beam) (kl trial q : Nat) : L1Beam :=
  let (m, v) := sget (fun _ => (0, 0)) x.stats trial
  let e : Int := ((sget (fun _ => (0, 0)) x.rings (ringKey x.dt trial q)).1 * 65536 : Nat) - (m : Int)
  { x with stats := sset (fun _ => (0, 0)) x.stats trial ((m + rnd e kl).toNat, (v + rnd (e * e - v) kl).toNat) }

/-- The better of two tests (R230): higher S/N, then the lower trial, then the smaller width, then the earlier sample. -/
def betterTest (a b : Nat × Nat × Nat × Nat × Nat) : Bool :=
  if a.1 ≠ b.1 then decide (b.1 < a.1)
  else if a.2.1 ≠ b.2.1 then decide (a.2.1 < b.2.1)
  else decide (a.2.2.1 < b.2.2.1)

/-- The peg of a burst (R230, R232). -/
def Chip.burstPeg (c : Chip) (tb dt f : Nat) (u : Burst) : Chip :=
  (c.bump (trigOd 0x1E) 1).makePeg ((u.sample + 1 - 2 ^ u.code) * dt * f) 2 u.flags (tb * 4096 + u.code * 256 + u.trial) u.snr

/-- A completed sample of a trigger beam (R229, R230): every trial and width tested, the statistics, the burst, under the values that apply to its
first spectrum (R38, R248; log entry 126). -/
def Chip.l1Sample (c : Chip) (key tb q : Nat) : Chip :=
  let x := c.l1 key
  let dt := x.dt
  let at_ := q * dt * c.fft
  let cfg := c.asOf at_
  let kl := cfg.rd (trigOd 0x0B)
  let trials := List.range (beAt (cfg.table (od 0x6007 0)) 0 2)
  let widths := (List.range 9).filter fun j => bitAt (cfg.rd (trigOd 9)) j
  let frozen := cfg.rd (trigOd 0x0C) == 1 || c.frozenAt 2 at_
  let armed := x.armed || decide (4 * 2 ^ kl ≤ x.warm)
  let tests := if !armed then [] else trials.flatMap fun d => widths.filterMap fun j =>
    (x.test (cfg.rd (trigOd 0x0A)) d q (2 ^ j)).map fun r => ((r.1, d, j, q, r.2) : Nat × Nat × Nat × Nat × Nat)
  let quiet := trials.filter fun d => !(tests.any fun t => t.2.1 == d)
  let y := if frozen then x else quiet.foldl (fun a d => a.learn kl d q) x
  let best := tests.foldl (fun (b : Option (Nat × Nat × Nat × Nat × Nat)) t => match b with
    | none => some t
    | some u => if betterTest t u then some t else some u) none
  let z := { y with warm := Nat.min (x.warm + 1) (4 * 2 ^ 24), armed := armed, next := q + 1 }
  let flags := fun (r : Nat) => 8 * b2n (bitAt r 1) + 4 * b2n (bitAt r 0) + b2n frozen
  match x.burst, best with
  | none, none => c.setL1 key z
  | some u, none => (c.setL1 key { z with burst := none }).burstPeg tb dt c.fft u
  | old, some (snr, d, j, s, r) =>
    let new : Burst := match old with
      | none => ⟨1, snr, d, j, s, flags r⟩
      | some u => if betterTest (snr, d, j, s, r) (u.snr, u.trial, u.code, u.sample, u.flags) then ⟨u.count + 1, snr, d, j, s, flags r⟩
        else { u with count := u.count + 1 }
    if 256 ≤ new.count then (c.setL1 key { z with burst := none }).burstPeg tb dt c.fft new
    else c.setL1 key { z with burst := some new }

/-- A part of a period in which L1 runs under one D_t: its first L1 sample and the one past its last, those that lie in it as a whole. -/
structure L1Span where
  dt : Nat
  lo : Nat
  hi : Nat
  deriving DecidableEq, Repr

/-- The spans of period n in which L1 runs (R38, R242, R248; log entry 126): OD 3800.01 is 1, and D_t is the same. -/
def Chip.l1Spans (c : Chip) (n : Nat) : List L1Span :=
  let t0 := n * c.chaseT
  let t1 := t0 + c.chaseT
  let value := fun (s : Nat) => let cfg := c.asOf (s * c.fft); if cfg.on (trigOd 1) then cfg.rd (trigOd 7) else 0
  let points := ((t0 :: (c.past.map fun r => effectSpectrum c.fft r.tick)).filter fun p => t0 ≤ p && p < t1).dedup.insertionSort (· ≤ ·)
  let starts := points.filter fun p => p == t0 || value p != value (p - 1)
  (starts.zipIdx.filterMap fun e =>
    let dt := value e.1
    let stop := (starts[e.2 + 1]?).getD t1
    if dt = 0 then none else some (⟨dt, (e.1 + dt - 1) / dt, stop / dt⟩ : L1Span)).filter fun x => decide (x.lo < x.hi)

/-- A trigger beam before a span: it starts over with empty rings where it does not go on from the sample before (R229). -/
def L1Beam.enter (x : L1Beam) (s : L1Span) (anew : Bool) : L1Beam :=
  if x.next = s.lo && x.dt = s.dt && !anew then x else { L1Beam.atReset with dt := s.dt, first := s.lo, next := s.lo }

/-- A released block feeds L1 (R212, R228): rings that do not go on from the period before, or whose forme broke, start over (R229). -/
def Chip.feedL1 (c : Chip) (x : LedgerSlot) (l : List ScaledBeam) : Chip :=
  let f := x.forme
  let cfg := c.periodCfg x.period
  let anew := x.period ≠ 0 && c.breakAt f x.period
  let t0 := x.period * c.chaseT
  match c.l1Spans x.period with
  | [] => c
  | s :: rest =>
    if !cfg.feeds f then c
    else l.zipIdx.foldl (fun a e =>
      let key := f * 4096 + 64 * x.block + e.2
      let y := if x.channel == cfg.rd (formeOd f 3) then (a.l1 key).enter s anew else a.l1 key
      let z := (s :: rest).foldl (fun b u => (List.range (u.hi - u.lo)).foldl (fun v i =>
        let q := u.lo + i
        let at_ := c.asOf (q * u.dt * c.fft)
        v.addSample (at_.table (od 0x6007 0)) u.dt x.channel q (l1Power u.dt (at_.rd (trigOd 8)) (q * u.dt - t0) e.1)) b) y
      a.setL1 key z) c

/-- The samples of a period tested once its last block has been released (R228), and what no boxcar can reach dropped. -/
def Chip.testL1 (c : Chip) (f n : Nat) : Chip :=
  let cfg := c.periodCfg n
  if !cfg.feeds f then c
  else
    (List.range (cfg.rd (formeOd f 0x20))).foldl (fun a b =>
      let key := f * 4096 + b
      let tb := cfg.firstTrigger f + b
      let a1 := (c.l1Spans n).foldl (fun y s =>
        let x := y.l1 key
        let z := { x.enter s false with rings := x.rings }
        (List.range (s.hi - s.lo)).foldl (fun v i => v.l1Sample key tb (s.lo + i)) (y.setL1 key z)) a
      let x := a1.l1 key
      a1.setL1 key { x with rings := x.rings.filter fun e => e.1 / 2 ^ 64 / 512 == x.dt && decide (x.next ≤ e.1 % 2 ^ 64 + 256) }) c

/-- BEAM_BLOCK_RELEASE (R212): the next block in order goes to its stream and to L1, and its slot is free. -/
def execBeamBlockRelease (f : Fin 4096) (s : State) : Host.Outcome State Fault Refusal :=
  let c := s.dev.chip
  let n := f.val
  match c.releaseSlot n with
  | none => ok s c
  | some x =>
    match x.scaled with
    | none => ok s c
    | some beams =>
      let rows := c.blockRows x.period n
      let c1 := ((c.buildBeams x beams).feedL1 x beams).bump (od 0x3400 0x10) 1
      let keep := fun (y : LedgerSlot) => !(y.forme == n && y.period == x.period && y.channel == x.channel && y.block == x.block)
      let c2 := { c1 with xe := { c1.xe with slots := c1.xe.slots.filter keep } }
      let c3 := c2.wr (od 0x3400 0x04) c2.xe.slots.length
      let y := c3.forme n
      match rows.find? fun b => decide (x.block < b) with
      | some b => ok s (c3.setForme n { y with release := some (x.period, x.channel, b) })
      | none =>
        if c.inRange x.period n (x.channel + 1) then ok s (c3.setForme n { y with release := some (x.period, x.channel + 1, rows.headD 0) })
        else
          let c4 := match y.releases with
            | [] => c3.setForme n { y with release := none }
            | m :: rest =>
              let start := (m, (c3.periodCfg m).rd (formeOd n 3), (c3.blockRows m n).headD 0)
              c3.setForme n { y with release := some start, releases := rest }
          ok s (c4.testL1 n x.period)

/-- The trigger beam of a number (R225): forme * 4096 + beam. -/
def Chip.triggerBeam (c : Chip) (tb : Nat) : Option Nat :=
  ((List.range 4096).find? fun f => c.feeds f && decide (c.firstTrigger f ≤ tb) && decide (tb < c.firstTrigger f + c.rd (formeOd f 0x20))).map
    fun f => f * 4096 + (tb - c.firstTrigger f)

/-- L1_WARMUP_END (R229): a trigger beam that has taken 4 * 2^k_l samples makes pegs. -/
def execL1WarmupEnd (tb : Fin 4096) (s : State) : Host.Outcome State Fault Refusal :=
  let c := s.dev.chip
  match c.triggerBeam tb.val with
  | none => ok s c
  | some k =>
    let x := c.l1 k
    ok s (if 4 * 2 ^ (c.asOf (x.next * x.dt * c.fft)).rd (trigOd 0x0B) ≤ x.warm then c.setL1 k { x with armed := true } else c)

end Sys2Proof.Machine
end

