-- ==== Sys2Proof/Decode.lean ====
section
/-! DEFINITION. Decoding. The commands of the block have no word encoding: the table of operations and events gives no
row any bits, so no word spells a command. The setters' instructions do have one (R295-R305): a 64-bit P word, read
and written here as a number. -/

namespace Sys2Proof

/-- The command that a word spells by the table's bits: none, since no row of the table has bits. -/
def decodeTableWord (_nbits _w : Nat) : Option Instr := none

/-- The field of `n` bits from bit `lo` up of a word (R3). -/
def fieldAt (w lo n : Nat) : Nat := w / 2 ^ lo % 2 ^ n

/-- A Boolean field. -/
def flagAt (w lo : Nat) : Bool := fieldAt w lo 1 == 1

/-- A parallel move field of 18 bits (R296). -/
def decodeMove (f : Nat) : Move :=
  { en := flagAt f 17, act := Fin.ofNat 4 (fieldAt f 15 2), w := Fin.ofNat 64 (fieldAt f 9 6),
    mode := Fin.ofNat 8 (fieldAt f 6 3), pi := Fin.ofNat 8 (fieldAt f 3 3), mi := Fin.ofNat 8 (fieldAt f 0 3) }

/-- The operands of a MAC class word (R297). -/
def decodeMacOp (w : Nat) : MacOp :=
  { s := flagAt w 59, acc := Fin.ofNat 8 (fieldAt w 52 3), wa := Fin.ofNat 64 (fieldAt w 46 6),
    wb := Fin.ofNat 64 (fieldAt w 40 6),
    pb := { en := flagAt w 39, pn := Fin.ofNat 4 (fieldAt w 37 2), inc := flagAt w 36 },
    x := decodeMove (fieldAt w 18 18), y := decodeMove (fieldAt w 0 18) }

/-- The operands of an ALU class word (R299). -/
def decodeAluOp (w : Nat) : AluOp :=
  { s := flagAt w 59, wd := Fin.ofNat 64 (fieldAt w 48 6), wa := Fin.ofNat 64 (fieldAt w 42 6),
    wb := Fin.ofNat 64 (fieldAt w 36 6), x := decodeMove (fieldAt w 18 18), y := decodeMove (fieldAt w 0 18) }

/-- The operands of an accumulator class word (R300). -/
def decodeAccOp (w : Nat) : AccOp :=
  { s := flagAt w 59, accd := Fin.ofNat 8 (fieldAt w 51 3), accs := Fin.ofNat 8 (fieldAt w 48 3),
    w := Fin.ofNat 64 (fieldAt w 42 6), sh := Fin.ofNat 64 (fieldAt w 36 6), x := decodeMove (fieldAt w 18 18),
    y := decodeMove (fieldAt w 0 18) }

/-- The operands of a far class word (R302). -/
def decodeFarOp (w : Nat) : FarOp :=
  { space := Fin.ofNat 4 (fieldAt w 57 2), size := Fin.ofNat 16 (fieldAt w 53 4), w := Fin.ofNat 64 (fieldAt w 47 6),
    pn := Fin.ofNat 16 (fieldAt w 43 4), mn := Fin.ofNat 16 (fieldAt w 39 4), mode := Fin.ofNat 4 (fieldAt w 37 2),
    disp := BitVec.ofNat 16 (fieldAt w 0 16) }

/-- A MAC class word of setter `n` (R297). -/
def decodeMac (n : Fin 8) (w : Nat) : Option Instr :=
  let o := decodeMacOp w
  match fieldAt w 55 4 with
  | 0 => some (.cmul n o) | 1 => some (.cmac n o) | 2 => some (.cmsu n o) | 3 => some (.cjmul n o)
  | 4 => some (.cjmac n o) | 5 => some (.cjmsu n o) | 6 => some (.dmul n o) | 7 => some (.dmac n o)
  | 8 => some (.dmsu n o) | 9 => some (.xmac n o) | 10 => some (.pmac n o) | _ => none

/-- An ALU class word of setter `n` (R299). -/
def decodeAlu (n : Fin 8) (w : Nat) : Option Instr :=
  let o := decodeAluOp w
  match fieldAt w 54 5 with
  | 0 => some (.add n o) | 1 => some (.sub n o) | 2 => some (.cadd n o) | 3 => some (.csub n o)
  | 4 => some (.neg n o) | 5 => some (.conj n o) | 6 => some (.abs n o) | 7 => some (.min n o)
  | 8 => some (.max n o) | 9 => some (.and n o) | 10 => some (.or n o) | 11 => some (.xor n o)
  | 12 => some (.not n o) | 13 => some (.asr n o) | 14 => some (.lsr n o) | 15 => some (.asl n o)
  | 16 => some (.casr n o) | 17 => some (.pack n o) | 18 => some (.unph n o) | 19 => some (.unpl n o)
  | 20 => some (.cmp n o) | 21 => some (.mov n o) | 22 => some (.swap n o) | 23 => some (.norm n o)
  | 24 => some (.tst n o) | _ => none

/-- An accumulator class word of setter `n` (R300). -/
def decodeAcc (n : Fin 8) (w : Nat) : Option Instr :=
  let o := decodeAccOp w
  match fieldAt w 54 5 with
  | 0 => some (.clra n o) | 1 => some (.ldac n o) | 2 => some (.ldar n o) | 3 => some (.adda n o)
  | 4 => some (.suba n o) | 5 => some (.mova n o) | 6 => some (.sra n o) | 7 => some (.sla n o)
  | 8 => some (.conja n o) | 9 => some (.stc n o) | 10 => some (.str n o) | 11 => some (.sti n o)
  | 12 => some (.norma n o) | _ => none

/-- A near absolute word of setter `n` (R301). -/
def decodeNear (n : Fin 8) (w : Nat) : Option Instr :=
  let sp := Fin.ofNat 4 (fieldAt w 57 2)
  let r := Fin.ofNat 64 (fieldAt w 51 6)
  let a := BitVec.ofNat 17 (fieldAt w 0 17)
  if flagAt w 59 then some (.nearAbsoluteStore n sp r a) else some (.nearAbsoluteLoad n sp r a)

/-- An immediate word of setter `n` (R303). -/
def decodeImm (n : Fin 8) (w : Nat) : Option Instr :=
  let r := Fin.ofNat 64 (fieldAt w 50 6)
  let i := BitVec.ofNat 40 (fieldAt w 0 40)
  match fieldAt w 56 4 with
  | 0 => some (.immediateW n r i) | 1 => some (.immediateP n r i) | 2 => some (.immediateM n r i)
  | 3 => some (.immediateControl n r i) | _ => none

/-- A pointer word of setter `n` (R304). -/
def decodePtr (n : Fin 8) (w : Nat) : Option Instr :=
  let d := Fin.ofNat 16 (fieldAt w 52 4)
  let s := Fin.ofNat 16 (fieldAt w 48 4)
  let i := BitVec.ofNat 32 (fieldAt w 0 32)
  match fieldAt w 56 4 with
  | 0 => some (.addp n d s i) | 1 => some (.modp n d s) | 2 => some (.addm n d s i) | 3 => some (.cmpp n d s)
  | _ => none

/-- A register move word of setter `n` (R304). -/
def decodeMoveReg (n : Fin 8) (w : Nat) : Option Instr :=
  some (.registerMove n (Fin.ofNat 4 (fieldAt w 58 2)) (Fin.ofNat 64 (fieldAt w 52 6)) (Fin.ofNat 4 (fieldAt w 50 2))
    (Fin.ofNat 64 (fieldAt w 44 6)))

/-- A control class word of setter `n` (R305); operations without a condition ignore COND. -/
def decodeControl (n : Fin 8) (w : Nat) : Option Instr :=
  let cond := Fin.ofNat 16 (fieldAt w 51 4)
  let target := BitVec.ofNat 16 (fieldAt w 0 16)
  let pn := Fin.ofNat 16 (fieldAt w 16 4)
  let r := Fin.ofNat 64 (fieldAt w 40 6)
  match fieldAt w 55 5 with
  | 1 => some (.br n cond target) | 2 => some (.bri n cond pn) | 3 => some (.call n cond target)
  | 4 => some (.calli n cond pn) | 5 => some (.ret n cond)
  | 0 => some (.nop n) | 6 => some (.rti n)
  | 7 => some (.rpt n (flagAt w 50) r target)
  | 8 => some (.loop n (flagAt w 50) (Fin.ofNat 4 (fieldAt w 48 2)) r (BitVec.ofNat 16 (fieldAt w 16 16)) target)
  | 9 => some (.idle n) | 10 => some (.trap n (BitVec.ofNat 8 (fieldAt w 0 8))) | 11 => some (.sync n)
  | 12 => some (.brk n) | _ => none

/-- The instruction that a P word spells for setter `n`; none is an illegal instruction (R295). -/
def decodeSetter (n : Fin 8) (w : Nat) : Option Instr :=
  match fieldAt w 60 4 with
  | 0 => decodeControl n w
  | 1 => decodeMac n w
  | 2 => decodeAlu n w
  | 3 => decodeAcc n w
  | 4 => decodeNear n w
  | 5 => if flagAt w 59 then some (.farStore n (decodeFarOp w)) else some (.farLoad n (decodeFarOp w))
  | 6 => decodeImm n w
  | 7 => decodePtr n w
  | 8 => decodeMoveReg n w
  | _ => none

/-! ### The encoder, from the same tables -/

/-- A Boolean as a bit. -/
def flagBit (b : Bool) : Nat := if b then 1 else 0

/-- A parallel move field (R296). -/
def encodeMove (m : Move) : Nat :=
  flagBit m.en * 2 ^ 17 + m.act.val * 2 ^ 15 + m.w.val * 2 ^ 9 + m.mode.val * 2 ^ 6 + m.pi.val * 2 ^ 3 + m.mi.val

/-- A MAC class word with operation code `op` (R297). -/
def encodeMac (op : Nat) (o : MacOp) : Nat :=
  1 * 2 ^ 60 + flagBit o.s * 2 ^ 59 + op * 2 ^ 55 + o.acc.val * 2 ^ 52 + o.wa.val * 2 ^ 46 + o.wb.val * 2 ^ 40 +
  flagBit o.pb.en * 2 ^ 39 + o.pb.pn.val * 2 ^ 37 + flagBit o.pb.inc * 2 ^ 36 + encodeMove o.x * 2 ^ 18 + encodeMove o.y

/-- An ALU class word with operation code `op` (R299). -/
def encodeAlu (op : Nat) (o : AluOp) : Nat :=
  2 * 2 ^ 60 + flagBit o.s * 2 ^ 59 + op * 2 ^ 54 + o.wd.val * 2 ^ 48 + o.wa.val * 2 ^ 42 + o.wb.val * 2 ^ 36 +
  encodeMove o.x * 2 ^ 18 + encodeMove o.y

/-- An accumulator class word with operation code `op` (R300). -/
def encodeAcc (op : Nat) (o : AccOp) : Nat :=
  3 * 2 ^ 60 + flagBit o.s * 2 ^ 59 + op * 2 ^ 54 + o.accd.val * 2 ^ 51 + o.accs.val * 2 ^ 48 + o.w.val * 2 ^ 42 +
  o.sh.val * 2 ^ 36 + encodeMove o.x * 2 ^ 18 + encodeMove o.y

/-- A far class word (R302). -/
def encodeFar (dir : Nat) (o : FarOp) : Nat :=
  5 * 2 ^ 60 + dir * 2 ^ 59 + o.space.val * 2 ^ 57 + o.size.val * 2 ^ 53 + o.w.val * 2 ^ 47 + o.pn.val * 2 ^ 43 +
  o.mn.val * 2 ^ 39 + o.mode.val * 2 ^ 37 + o.disp.toNat

/-- A control class word (R305). -/
def encodeControl (op cond operands : Nat) : Nat := op * 2 ^ 55 + cond * 2 ^ 51 + operands

/-- The P word of a setter instruction; none for a command that is no instruction (R295-R305). -/
def encodeSetter : Instr → Option Nat
  | .cmul _ o => some (encodeMac 0 o) | .cmac _ o => some (encodeMac 1 o) | .cmsu _ o => some (encodeMac 2 o)
  | .cjmul _ o => some (encodeMac 3 o) | .cjmac _ o => some (encodeMac 4 o) | .cjmsu _ o => some (encodeMac 5 o)
  | .dmul _ o => some (encodeMac 6 o) | .dmac _ o => some (encodeMac 7 o) | .dmsu _ o => some (encodeMac 8 o)
  | .xmac _ o => some (encodeMac 9 o) | .pmac _ o => some (encodeMac 10 o)
  | .add _ o => some (encodeAlu 0 o) | .sub _ o => some (encodeAlu 1 o) | .cadd _ o => some (encodeAlu 2 o)
  | .csub _ o => some (encodeAlu 3 o) | .neg _ o => some (encodeAlu 4 o) | .conj _ o => some (encodeAlu 5 o)
  | .abs _ o => some (encodeAlu 6 o) | .min _ o => some (encodeAlu 7 o) | .max _ o => some (encodeAlu 8 o)
  | .and _ o => some (encodeAlu 9 o) | .or _ o => some (encodeAlu 10 o) | .xor _ o => some (encodeAlu 11 o)
  | .not _ o => some (encodeAlu 12 o) | .asr _ o => some (encodeAlu 13 o) | .lsr _ o => some (encodeAlu 14 o)
  | .asl _ o => some (encodeAlu 15 o) | .casr _ o => some (encodeAlu 16 o) | .pack _ o => some (encodeAlu 17 o)
  | .unph _ o => some (encodeAlu 18 o) | .unpl _ o => some (encodeAlu 19 o) | .cmp _ o => some (encodeAlu 20 o)
  | .mov _ o => some (encodeAlu 21 o) | .swap _ o => some (encodeAlu 22 o) | .norm _ o => some (encodeAlu 23 o)
  | .tst _ o => some (encodeAlu 24 o)
  | .clra _ o => some (encodeAcc 0 o) | .ldac _ o => some (encodeAcc 1 o) | .ldar _ o => some (encodeAcc 2 o)
  | .adda _ o => some (encodeAcc 3 o) | .suba _ o => some (encodeAcc 4 o) | .mova _ o => some (encodeAcc 5 o)
  | .sra _ o => some (encodeAcc 6 o) | .sla _ o => some (encodeAcc 7 o) | .conja _ o => some (encodeAcc 8 o)
  | .stc _ o => some (encodeAcc 9 o) | .str _ o => some (encodeAcc 10 o) | .sti _ o => some (encodeAcc 11 o)
  | .norma _ o => some (encodeAcc 12 o)
  | .nearAbsoluteLoad _ sp w a => some (4 * 2 ^ 60 + sp.val * 2 ^ 57 + w.val * 2 ^ 51 + a.toNat)
  | .nearAbsoluteStore _ sp w a => some (4 * 2 ^ 60 + 2 ^ 59 + sp.val * 2 ^ 57 + w.val * 2 ^ 51 + a.toNat)
  | .farLoad _ o => some (encodeFar 0 o) | .farStore _ o => some (encodeFar 1 o)
  | .immediateW _ r i => some (6 * 2 ^ 60 + r.val * 2 ^ 50 + i.toNat)
  | .immediateP _ r i => some (6 * 2 ^ 60 + 1 * 2 ^ 56 + r.val * 2 ^ 50 + i.toNat)
  | .immediateM _ r i => some (6 * 2 ^ 60 + 2 * 2 ^ 56 + r.val * 2 ^ 50 + i.toNat)
  | .immediateControl _ r i => some (6 * 2 ^ 60 + 3 * 2 ^ 56 + r.val * 2 ^ 50 + i.toNat)
  | .addp _ d s i => some (7 * 2 ^ 60 + d.val * 2 ^ 52 + s.val * 2 ^ 48 + i.toNat)
  | .modp _ d s => some (7 * 2 ^ 60 + 1 * 2 ^ 56 + d.val * 2 ^ 52 + s.val * 2 ^ 48)
  | .addm _ d s i => some (7 * 2 ^ 60 + 2 * 2 ^ 56 + d.val * 2 ^ 52 + s.val * 2 ^ 48 + i.toNat)
  | .cmpp _ d s => some (7 * 2 ^ 60 + 3 * 2 ^ 56 + d.val * 2 ^ 52 + s.val * 2 ^ 48)
  | .registerMove _ dk d sk s => some (8 * 2 ^ 60 + dk.val * 2 ^ 58 + d.val * 2 ^ 52 + sk.val * 2 ^ 50 + s.val * 2 ^ 44)
  | .nop _ => some (encodeControl 0 0 0)
  | .br _ c t => some (encodeControl 1 c.val t.toNat)
  | .bri _ c p => some (encodeControl 2 c.val (p.val * 2 ^ 16))
  | .call _ c t => some (encodeControl 3 c.val t.toNat)
  | .calli _ c p => some (encodeControl 4 c.val (p.val * 2 ^ 16))
  | .ret _ c => some (encodeControl 5 c.val 0)
  | .rti _ => some (encodeControl 6 0 0)
  | .rpt _ src w k => some (encodeControl 7 0 (flagBit src * 2 ^ 50 + w.val * 2 ^ 40 + k.toNat))
  | .loop _ src rot w e k =>
    some (encodeControl 8 0 (flagBit src * 2 ^ 50 + rot.val * 2 ^ 48 + w.val * 2 ^ 40 + e.toNat * 2 ^ 16 + k.toNat))
  | .idle _ => some (encodeControl 9 0 0)
  | .trap _ k => some (encodeControl 10 0 k.toNat)
  | .sync _ => some (encodeControl 11 0 0)
  | .brk _ => some (encodeControl 12 0 0)
  | _ => none

end Sys2Proof
end

