-- ==== Sys2Proof/Machine/SetterCore.lean ====
section
/-! DEFINITION. What every setter instruction shares (R278-R296, R306-R318): register naming, the pipeline's landings,
near addresses and parallel moves, P-bus operands, control registers, loops, faults and interrupt entry. -/

namespace Sys2Proof.Machine

/-! ### Registers -/

/-- The physical register that the name Wn selects (R278). -/
def Setter.phys (x : Setter) (n : Fin 64) : Fin 64 :=
  if n.val < 32 then n else Fin.ofNat 64 (32 + (n.val - 32 + (32 - x.rotoff.toNat)) % 32)

/-- The value that the name Wn reads. -/
def Setter.rdW (x : Setter) (n : Fin 64) : W40 := x.w[x.phys n]

/-- Real (high) 20-bit part of a word (R277). -/
def hi20 (v : W40) : Int := toI (v.toNat / 2 ^ 20) 20

/-- Imaginary (low) 20-bit part of a word. -/
def lo20 (v : W40) : Int := toI v.toNat 20

/-- A word from two 20-bit parts, their low bits kept. -/
def mk40 (re im : Int) : W40 := BitVec.ofNat 40 (ofI re 20 * 2 ^ 20 + ofI im 20)

/-- A word from an integer, its low 40 bits kept. -/
def of40 (v : Int) : W40 := BitVec.ofNat 40 (ofI v 40)

/-- An accumulator part from an integer, its low 48 bits kept. -/
def of48 (v : Int) : A48 := BitVec.ofNat 48 (ofI v 48)

/-! ### The pipeline (R291, R307, R308) -/

/-- A landing write takes effect. -/
def Setter.land (x : Setter) : Landing → Setter
  | .load w v => { x with w := x.w.set w v }
  | .store w v => { x with w := x.w.set w v }
  | .mac a re im => { x with accR := x.accR.set a re, accI := x.accI.set a im }
  | .flags z n v => { x with sr := setFlags x.sr z n v }

/-- The next instruction enters D: entries whose distance is reached land, oldest first. -/
def Setter.advance (x : Setter) : Setter :=
  let f := x.flight.map fun e => { e with left := e.left - 1 }
  let due := f.filter fun e => e.left == 0
  due.foldl (fun y e => y.land e.what) { x with flight := f.filter fun e => e.left != 0 }

/-- Every entry lands: the instructions before an interrupt, fault or TRAP entry complete (R317). -/
def Setter.flush (x : Setter) : Setter := x.advance.advance.advance

/-- A write goes into the pipeline. -/
def Setter.issue (x : Setter) (left : Nat) (l : Landing) : Setter :=
  { x with flight := x.flight ++ [⟨left, l⟩] }

/-- The entry is a near load for physical register `r`. -/
def InFlight.loads (e : InFlight) (r : Fin 64) : Bool :=
  match e.what with | .load w _ => w == r | _ => false

/-- The entry is an ACC-class result for physical register `r`. -/
def InFlight.stores (e : InFlight) (r : Fin 64) : Bool :=
  match e.what with | .store w _ => w == r | _ => false

/-- The entry is the flags of a MAC. -/
def InFlight.isFlags (e : InFlight) : Bool :=
  match e.what with | .flags _ _ _ => true | _ => false

/-- An arithmetic result written to physical register `r` at E1 (R291): a near load for it from one of the two instructions before,
which ends in the same cycle or the one before, is lost; where an ACC-class result reaches it in the same cycle, which of the two stays is a free value
(log entry 25). -/
def writeW (c : Chip) (x : Setter) (r : Fin 64) (v : W40) : Chip × Setter :=
  let y := { x with w := x.w.set r v, flight := x.flight.filter fun e => !e.loads r }
  if y.flight.any fun e => e.stores r then
    let (b, c1) := c.freeBits 1
    if b = 0 then (c1, y) else (c1, { y with flight := y.flight.filter fun e => !e.stores r })
  else (c, y)

/-- Flags set by an ALU or ACC class instruction or CMPP (R290, R308). A MAC two instructions earlier sets them in the
same cycle: which of the two stays is a free value (log entry 25). -/
def writeFlags (c : Chip) (x : Setter) (z n v : Bool) : Chip × Setter :=
  let y := { x with sr := setFlags x.sr z n v }
  if y.flight.any fun e => e.isFlags && e.left == 1 then
    let (b, c1) := c.freeBits 1
    if b = 0 then (c1, y) else (c1, { y with flight := y.flight.filter fun e => !(e.isFlags && e.left == 1) })
  else (c, y)

/-! ### Near addresses (R292-R294) -/

/-- STEP of a modifier register, signed (R280). -/
def stepOf (m : BitVec 32) : Int := toI m.toNat 16

/-- LEN of a modifier register. -/
def lenOf (m : BitVec 32) : Nat := m.toNat / 2 ^ 16

/-- A pointer moved by `delta`, in a circular buffer of `len` words unless `len` is 0 (R293). -/
def circular (p : W40) (len : Nat) (delta : Int) : W40 :=
  if len = 0 then of40 (p.toNat + delta)
  else
    let o := (p.toNat % len : Nat) + delta
    let o1 := if (len : Int) ≤ o then o - len else o
    let o2 := if o1 < 0 then o1 + len else o1
    of40 (p.toNat - (p.toNat % len : Nat) + o2)

/-- The low `k` bits of a number in reverse order. -/
def revBits : Nat → Nat → Nat
  | 0, _ => 0
  | k + 1, v => (v % 2) * 2 ^ k + revBits k (v / 2)

/-- The exponent of a power of two below 2^16; none for other numbers. -/
def log2Exact (l : Nat) : Option Nat := (List.range 17).find? fun k => 2 ^ k == l

/-- The reverse-carry update of a pointer (R294). -/
def reverseCarry (p : W40) (m : BitVec 32) : W40 :=
  match log2Exact (lenOf m) with
  | none => circular p (lenOf m) (stepOf m)
  | some k =>
    let a := revBits k (p.toNat % 2 ^ k)
    let b := revBits k (ofI (stepOf m) k)
    BitVec.ofNat 40 (p.toNat / 2 ^ k * 2 ^ k + revBits k ((a + b) % 2 ^ k))

/-- The address a mode uses and the pointer afterwards; none is the reserved mode (R292). -/
def nearMode (p : W40) (m : BitVec 32) (mode : Fin 8) : Option (W40 × W40) :=
  match mode.val with
  | 0 => some (p, p)
  | 1 => some (p, p + 1)
  | 2 => some (p, p - 1)
  | 3 => some (p, circular p (lenOf m) (stepOf m))
  | 4 => some (p, circular p (lenOf m) (-(stepOf m)))
  | 5 => some (circular p (lenOf m) (stepOf m), p)
  | 6 => some (p, reverseCarry p m)
  | _ => none

/-- The word address of a near access: P[16:0] (R280). -/
def nearAddr (a : W40) : Nat := a.toNat % 2 ^ 17

/-- A near data word. -/
def nearGet (m : SMap W40) (a : Nat) : W40 := sget (fun _ => 0) m a

/-- A near data word written. -/
def nearPut (m : SMap W40) (a : Nat) (v : W40) : SMap W40 := sset (fun _ => 0) m a v

/-! ### The P space (R284, R298, R301) -/

/-- A P word read as data under the fetch map in force; the boot ROM's contents and unmapped reads are free values. -/
def Setter.pWord (x : Setter) (a : Nat) : W64 :=
  let ram := fun k => sget (fun _ => (0 : W64)) x.pram k
  if x.mapNow then
    if a < 0x8000 then ram a else if a < 0xA000 then Config.bootRom (a - 0x8000) else Config.unmappedP a
  else
    if a < 0x2000 then Config.bootRom a else if a < 0x8000 then Config.unmappedP a else ram (a - 0x8000)

/-- Bits [39:0] of a P word. -/
def Setter.pData (x : Setter) (a : Nat) : W40 := (x.pWord a).setWidth 40

/-! ### Parallel moves (R291, R296) -/

/-- A parallel move is present and names the reserved mode. -/
def moveIllegal (m : Move) : Bool := m.en && m.mode == 7

/-- The word a load action hands to W (R296). -/
def loadAct (act : Fin 4) (v : W40) : W40 :=
  match act.val with
  | 2 => mk40 (hi20 v) (clip 524287 (-(lo20 v)))
  | 3 => mk40 (lo20 v) (hi20 v)
  | _ => v

/-- The X move of an instruction whose registers before it are those of `o`: load into the pipeline or store, and
the pointer update. -/
def xMove (o x : Setter) (m : Move) : Setter :=
  if m.en then
    let pi := Fin.ofNat 16 m.pi.val
    match nearMode o.p[pi] o.m[Fin.ofNat 16 m.mi.val] m.mode with
    | none => x
    | some (a, p') =>
      let y := { x with p := x.p.set pi p' }
      if m.act == 1 then { y with xram := nearPut y.xram (nearAddr a) (o.rdW m.w) }
      else y.issue 3 (.load (o.phys m.w) (loadAct m.act (nearGet o.xram (nearAddr a))))
  else x

/-- The Y move, in the same way, on P8-P15, M8-M15 and Y-RAM. -/
def yMove (o x : Setter) (m : Move) : Setter :=
  if m.en then
    let pi := Fin.ofNat 16 (8 + m.pi.val)
    match nearMode o.p[pi] o.m[Fin.ofNat 16 (8 + m.mi.val)] m.mode with
    | none => x
    | some (a, p') =>
      let y := { x with p := x.p.set pi p' }
      if m.act == 1 then { y with yram := nearPut y.yram (nearAddr a) (o.rdW m.w) }
      else y.issue 3 (.load (o.phys m.w) (loadAct m.act (nearGet o.yram (nearAddr a))))
  else x

/-- Both moves. The X load is issued first, so that the Y load stays where both name one register (R291). -/
def moves (o x : Setter) (mx my : Move) : Setter := yMove o (xMove o x mx) my

/-- Registers that a move reads (stores). -/
def moveReads (x : Setter) (m : Move) : List (Fin 64) := if m.en && m.act == 1 then [x.phys m.w] else []

/-! ### Faults and entries (R306, R317, R318) -/

/-- SR.IE. -/
def Setter.ie (x : Setter) : Bool := bitAt x.sr.toNat 8

/-- What SR takes of a word: IE, SV, V, N and Z; reserved bits are ignored (R6, R282). -/
def srMask (v : BitVec 32) : BitVec 32 := v &&& 0x0000010F#32

/-- SR with IE cleared. -/
def clearIe (sr : BitVec 32) : BitVec 32 := sr &&& 0xFFFFFEFF#32

/-- Registers that rotate by a loop's rotation step (R278, R305). -/
def rotStep (r : Fin 4) : Nat := match r.val with | 0 => 0 | 1 => 1 | 2 => 2 | _ => 4

/-- LPDEPTH (R281). -/
def Setter.depth (x : Setter) : Nat := if x.looping then x.loopStack.length + 1 else 0

/-- The innermost loop is left: the loop that holds it becomes the innermost (R311, R312). -/
def Setter.popLoop (x : Setter) : Setter :=
  match x.loopStack with
  | [] => { x with looping := false }
  | l :: t => { x with inner := l, loopStack := t }

/-- The address lies in the body of the innermost loop. -/
def Setter.inBody (x : Setter) (a : BitVec 16) : Bool :=
  x.looping && decide (x.inner.start.toNat ≤ a.toNat) && decide (a.toNat ≤ x.inner.last.toNat)

/-- The body of the innermost loop. -/
def Setter.body (x : Setter) : BitVec 16 × BitVec 16 := (x.inner.start, x.inner.last)

/-- The repeat cache supplies the instruction at `a` (R313): it belongs to the innermost loop, whose body it holds. -/
def Setter.cached (x : Setter) (a : BitVec 16) : Bool := x.inBody a && x.cache.body == some x.body && x.cache.full

/-- The repeat cache begins to copy the body of the innermost loop, where it fits (R313). -/
def Setter.refill (x : Setter) : Setter :=
  if x.inner.last.toNat < x.inner.start.toNat + 32 then { x with cache := ⟨some x.body, false, []⟩ } else x

/-- The instruction fetched at pc is copied while the cache fills (R313). -/
def Setter.copied (x : Setter) : Setter :=
  if x.inBody x.pc && x.cache.body == some x.body && !x.cache.full && !(x.cache.words.any fun e => e.1 == x.pc) then
    { x with cache := { x.cache with words := x.cache.words ++ [(x.pc, x.pWord x.pc.toNat)] } }
  else x

/-- The word that the setter runs at pc: the copy where the repeat cache supplies it, which a write to P-RAM does not update; an
instruction that the copying iteration passed by comes from P-RAM (R313, log entry 127). -/
def Setter.fetched (x : Setter) : W64 :=
  if x.cached x.pc then ((x.cache.words.find? fun e => e.1 == x.pc).map fun e => e.2).getD (x.pWord x.pc.toNat)
  else x.pWord x.pc.toNat

/-- The start of another iteration (R313): a cache that holds the body supplies it from now on, any other is filled again. -/
def Setter.iterate (x : Setter) : Setter :=
  if x.cache.body == some x.body then { x with cache := { x.cache with full := true } } else x.refill

/-- The loop-back decision for the instruction at LPEND that has entered D (R311): the next fetch is LPSTART while LPCNT
is above 1, with the rotation of R278; at the last iteration the loop pops. -/
def Setter.loopBack (x : Setter) : Setter :=
  if x.lpHit && x.looping then
    let y := { x with lpHit := false, inner := { x.inner with count := x.inner.count - 1 } }
    if 1 < x.inner.count.toNat then
      ({ y with pc := x.inner.start, rotoff := x.rotoff + BitVec.ofNat 5 (rotStep x.inner.rot) } : Setter).iterate
    else y.popLoop
  else { x with lpHit := false }

/-- Entry through vector `v` with the return address `ret` (R317). A SYNC before it still waits: the handler's first instruction enters D
when it has completed (log entry 127). -/
def Setter.enter (x : Setter) (v : Nat) (ret : BitVec 16) : Setter :=
  let y := x.flush
  { y with iret := ret, isr := y.sr, sr := clearIe y.sr, vecTaken := BitVec.ofNat 8 v, branch := none, rptcnt := 0,
           pc := BitVec.ofNat 16 (y.ivec.toNat / 128 * 128 + 4 * v), mode := .running }

/-- OD 4010+n.sub. -/
def setterOd (n : Fin 8) (sub : Nat) : Nat := od (0x4010 + n.val) sub

/-! ### Running one instruction -/

/-- What an instruction's own effect gives: the chip, the core, where it jumps at once (a skip), whether it only set up
what follows it (a branch issued, an RPT), and its fault. -/
structure Effect where
  chip : Chip
  core : Setter
  jump : Option (BitVec 16)
  setup : Bool
  stall : Nat
  fault : Option (BitVec 8 × BitVec 40)

/-- An effect with no jump and no fault. -/
def Effect.plain (r : Chip × Setter) : Effect := ⟨r.1, r.2, none, false, 0, none⟩

/-- A fault with none of the instruction's effects (R286, R318). -/
def Effect.faulted (c : Chip) (x : Setter) (cause : BitVec 8) (faddr : BitVec 40) : Effect :=
  ⟨c, x, none, false, 0, some (cause, faddr)⟩

/-- An illegal instruction (R306). -/
def Effect.illegal (c : Chip) (x : Setter) : Effect := Effect.faulted c x 1 0

/-- How an instruction stands in the rules on delay slots, loops and repeats. -/
structure Shape where
  /-- Control class: may not be repeated by RPT (R310). -/
  control : Bool
  /-- Branch, call, return, RTI, TRAP, LOOP or RPT: ILLEGAL in a delay slot (R309). -/
  noSlot : Bool
  /-- Branch, call, return, RTI, LOOP or RPT: ILLEGAL among the last two of a loop body (R311). -/
  noLoopEnd : Bool

/-- An instruction of no control class. -/
def Shape.data : Shape := ⟨false, false, false⟩

/-- A source is pending and enabled (R316). -/
def sourceReady (pend mask : BitVec 16) : Bool := pend &&& mask != 0

/-! ### Which instruction may be interrupted (R316) -/

/-- The parallel moves of a setter instruction, X and Y. -/
def instrMoves : Instr → List Move
  | .cmul _ o | .cmac _ o | .cmsu _ o | .cjmul _ o | .cjmac _ o | .cjmsu _ o | .dmul _ o | .dmac _ o | .dmsu _ o
  | .xmac _ o | .pmac _ o => [o.x, o.y]
  | .add _ o | .sub _ o | .cadd _ o | .csub _ o | .neg _ o | .conj _ o | .abs _ o | .min _ o | .max _ o | .and _ o
  | .or _ o | .xor _ o | .not _ o | .asr _ o | .lsr _ o | .asl _ o | .casr _ o | .pack _ o | .unph _ o | .unpl _ o
  | .cmp _ o | .mov _ o | .swap _ o | .norm _ o | .tst _ o => [o.x, o.y]
  | .clra _ o | .ldac _ o | .ldar _ o | .adda _ o | .suba _ o | .mova _ o | .sra _ o | .sla _ o | .conja _ o | .stc _ o
  | .str _ o | .sti _ o | .norma _ o => [o.x, o.y]
  | _ => []

/-- W registers that a setter instruction itself reads or writes, by name (R297-R305). -/
def instrOwnW : Instr → List (Fin 64)
  | .cmul _ o | .cmac _ o | .cmsu _ o | .cjmul _ o | .cjmac _ o | .cjmsu _ o | .dmul _ o | .dmac _ o | .dmsu _ o
  | .xmac _ o => o.wa :: (if o.pb.en then [] else [o.wb])
  | .pmac _ o => [o.wa]
  | .add _ o | .sub _ o | .cadd _ o | .csub _ o | .min _ o | .max _ o | .and _ o | .or _ o | .xor _ o | .asr _ o
  | .lsr _ o | .asl _ o | .casr _ o | .pack _ o => [o.wd, o.wa, o.wb]
  | .neg _ o | .conj _ o | .abs _ o | .not _ o | .unph _ o | .unpl _ o | .mov _ o | .swap _ o | .norm _ o => [o.wd, o.wa]
  | .cmp _ o | .tst _ o => [o.wa, o.wb]
  | .ldac _ o | .ldar _ o | .stc _ o | .str _ o | .sti _ o | .norma _ o => [o.w]
  | .nearAbsoluteLoad _ _ w _ | .nearAbsoluteStore _ _ w _ => [w]
  | .farLoad _ o | .farStore _ o => [o.w]
  | .immediateW _ r _ => [r]
  | .registerMove _ dk d sk r => (if dk == 0 then [d] else []) ++ (if sk == 0 then [r] else [])
  | .rpt _ src w _ | .loop _ src _ w _ _ => if src then [w] else []
  | _ => []

/-- W registers that a setter instruction reads or writes, those of its moves among them. -/
def instrW (i : Instr) : List (Fin 64) := instrOwnW i ++ (instrMoves i).filterMap fun m => if m.en then some m.w else none

/-- Accumulators that a setter instruction reads or writes other than as a chained MAC. -/
def instrAcc : Instr → List (Fin 8)
  | .cmul _ o | .cjmul _ o | .dmul _ o => [o.acc]
  | .clra _ o | .ldac _ o | .ldar _ o => [o.accd]
  | .adda _ o | .suba _ o | .mova _ o | .sra _ o | .sla _ o | .conja _ o => [o.accd, o.accs]
  | .stc _ o | .str _ o | .sti _ o | .norma _ o => [o.accs]
  | _ => []

/-- The entry has not reached its distance when the next instruction enters D, and that instruction names its register
or accumulator (R316). -/
def holdsOff (x : Setter) (j : Instr) (e : InFlight) : Bool :=
  decide (2 ≤ e.left) && match e.what with
    | .load w _ => (instrW j).any fun r => x.phys r == w
    | .mac a _ _ => (instrAcc j).contains a
    | _ => false

/-- The rules of R316 allow an interrupt before the next instruction. -/
def acceptable (n : Fin 8) (x : Setter) : Bool :=
  x.ie && x.branch.isNone && x.rptcnt == 0 && x.farLoads.isEmpty && !(x.inBody x.pc && x.pc != x.inner.start) &&
  match decodeSetter n x.fetched.toNat with
  | none => true
  | some i => !(x.flight.any (holdsOff x i))

/-- The setter takes instructions: its domain's clock runs (R414), and it is RUNNING, not waiting in SYNC, or IDLE with a source pending and
enabled, which ends the wait; with IE = 1 the interrupt comes first, unless R316 holds it off there (log entry 127). -/
def ready (c : Chip) (n : Fin 8) (x : Setter) : Bool :=
  c.domClock (78 + n.val) &&
  match x.mode with
  | .running => !(x.syncing && !x.farStores.isEmpty)
  | .idle => sourceReady c.ipend[n] x.imask && !acceptable n x.loopBack
  | _ => false

/-- A register that the instruction reads waits for far-load data (R286, R308). -/
def interlocked (x : Setter) (reads : List (Fin 64)) : Bool :=
  reads.any fun r => x.farLoads.any fun f => f.w == r

/-- The instruction lies among the last two of the active loop's body (R311). -/
def atLoopEnd (x : Setter) : Bool :=
  x.looping && decide (x.inner.start.toNat ≤ x.pc.toNat) &&
    (x.pc == x.inner.last || decide (x.pc.toNat + 1 = x.inner.last.toNat))

/-- The end of an instruction at `at_`: cycle count, REMAP countdown, repeat, delay slots, next address (R283, R309-R311). -/
def finish (x : Setter) (at_ : BitVec 16) (jump : Option (BitVec 16)) (setup : Bool) (stall : Nat) : Setter :=
  let hit := x.looping && at_ == x.inner.last
  let y := { x with cyc := x.cyc + BitVec.ofNat 64 (1 + stall), lpHit := hit }
  let y := match y.remap with
    | none => y
    | some (m, k) => if k ≤ 1 then { y with remap := none, mapNow := m } else { y with remap := some (m, k - 1) }
  if setup then { y with pc := jump.getD (at_ + 1) }
  else if 1 < y.rptcnt.toNat then { y with rptcnt := y.rptcnt - 1, lpHit := false }
  else
    let y := { y with rptcnt := 0 }
    match y.branch with
    | none => { y with pc := jump.getD (at_ + 1) }
    | some b =>
      if 1 < b.slots then { y with branch := some { b with slots := b.slots - 1 }, pc := at_ + 1 }
      else if !b.taken then { y with branch := none, pc := at_ + 1 }
      else
        -- the branch is taken: its target is the next fetch; it leaves the loop, or LPCNT still counts an instruction at LPEND
        let y := if b.pops && y.looping && !y.inBody b.target then { y.popLoop with lpHit := false }
          else if hit then
            let z := { y with inner := { y.inner with count := y.inner.count - 1 }, lpHit := false }
            if 1 < y.inner.count.toNat then z else z.popLoop
          else y
        let y := { y with branch := none, pc := b.target }
        if b.rti then { y with sr := srMask y.isr, fip := false } else y

/-- A fault of cause `cause` at the instruction at `at_`, taken in place of the one at pc; while FIP is set it halts the setter with a
DEGRADE fault record (R306, R318). -/
def enterFault (c : Chip) (n : Fin 8) (x : Setter) (cause : BitVec 8) (faddr : BitVec 40) (at_ : BitVec 16) :
    Chip × Setter :=
  let word := BitVec.ofNat 32 (at_.toNat * 2 ^ 16 + cause.toNat)
  let y := { x with faults := x.faults + 1, fault := word, faddr := faddr, lastFault := word, lastFaddr := faddr }
  if x.fip then
    (c.fault .degrade .change (setterOd n 0x02) 3 5 faddr.toNat, { y.flush with mode := .halted })
  else (c, { y.enter 16 x.pc with fip := true })

/-- A fault of the instruction at pc, which passes D with no other effect: the next one is the loop start after LPEND and the target
after the second delay slot of a taken branch; a branch whose second slot is cut and an RPT do not go on (R311, R318). -/
def takeFault (c : Chip) (n : Fin 8) (x : Setter) (cause : BitVec 8) (faddr : BitVec 40) : Chip × Setter :=
  if x.fip then enterFault c n { x with cyc := x.cyc + 1 } cause faddr x.pc
  else enterFault c n (finish { x with rptcnt := 0 } x.pc none false 0).loopBack cause faddr x.pc

/-- A bus fault that a far access reports when its instruction, at `at_`, has long left D: it is taken in place of the next
instruction to enter D (log entry 127). -/
def lateFault (c : Chip) (n : Fin 8) (x : Setter) (faddr : BitVec 40) (at_ : BitVec 16) : Chip × Setter :=
  enterFault c n x.loopBack 4 faddr at_

/-- One instruction enters D of setter `n`: nothing happens while the setter does not run or waits for far data; else what
is due lands, and the instruction has its effect, or its fault is taken. -/
def instruction (s : State) (n : Fin 8) (sh : Shape) (reads : Setter → List (Fin 64))
    (body : Chip → Setter → Effect) : Host.Outcome State Fault Refusal :=
  let c := s.dev.chip
  let x0 := s.dev.cores[n]
  if !ready c n x0 then ok s c
  else
    let x1 := ({ x0 with mode := .running, syncing := false } : Setter).loopBack
    if interlocked x1 (reads x1) then ok s c
    else
      let x := x1.advance.copied
      let at_ := x.pc
      let put := fun (r : Chip × Setter) =>
        Host.Outcome.next { s with dev := { s.dev with chip := r.1, cores := s.dev.cores.set n r.2 } }
      if sh.control && x.rptcnt != 0 then
        -- the RPT before it is ILLEGAL (R310)
        put (enterFault c n { x with rptcnt := 0, cyc := x.cyc + 1 } 1 0 (at_ - 1))
      else if (sh.noSlot && x.branch.isSome) || (sh.noLoopEnd && atLoopEnd x) then
        put (takeFault c n x 1 0)
      else
        let e := body c x
        match e.fault with
        | some (cause, faddr) => put (takeFault e.chip n e.core cause faddr)
        | none => put (e.chip, finish e.core at_ e.jump e.setup e.stall)

/-! ### Control registers (R281-R283, R315) -/

/-- A control register read: its value, and the core with CYC_HI latched by a read of CYC_LO; none is reserved. -/
def ctlRead (c : Chip) (n : Fin 8) (x : Setter) (r : Fin 64) : Option (W40 × Setter) :=
  let z := fun (v : Nat) => some (BitVec.ofNat 40 v, x)
  match r.val with
  | 0x00 => z x.sr.toNat
  | 0x01 => z x.mr.toNat
  | 0x02 => z x.lr.toNat
  | 0x03 => z x.rotoff.toNat
  | 0x04 => z x.inner.count.toNat
  | 0x05 => z x.inner.start.toNat
  | 0x06 => z x.inner.last.toNat
  | 0x07 => z x.depth
  | 0x08 => z x.rptcnt.toNat
  | 0x09 => z n.val
  | 0x0A => some (BitVec.ofNat 40 (x.cyc.toNat % 2 ^ 32), { x with cycHi := BitVec.ofNat 32 (x.cyc.toNat / 2 ^ 32) })
  | 0x0B => z x.cycHi.toNat
  | 0x0C => z x.fault.toNat
  | 0x0D => z x.faddr.toNat
  | 0x10 => z c.ipend[n].toNat
  | 0x11 => z x.imask.toNat
  | 0x12 => z x.iprio.toNat
  | 0x13 => z x.tcmp.toNat
  | 0x14 => z x.ivec.toNat
  | 0x15 => z x.iret.toNat
  | 0x16 => z x.isr.toNat
  | 0x17 => z (b2n x.fip * 2 ^ 31 + x.trapNo.toNat * 2 ^ 8 + x.vecTaken.toNat)
  | _ => none

/-- A control register written with the low bits of `v`; none is reserved or RO. -/
def ctlWrite (c : Chip) (n : Fin 8) (x : Setter) (r : Fin 64) (v : W40) : Option (Chip × Setter) :=
  let w16 := v.setWidth 16
  let w32 := v.setWidth 32
  match r.val with
  | 0x00 => some (c, { x with sr := srMask w32 })
  | 0x01 =>
    let new := bitAt v.toNat 0
    let y := { x with mr := w32 &&& 1#32 }
    some (c, if new == bitAt x.mr.toNat 0 then y else { y with remap := some (new, 3) })
  | 0x02 => some (c, { x with lr := w16 })
  | 0x03 => some (c, { x with rotoff := v.setWidth 5 })
  | 0x04 => some (c, { x with inner := { x.inner with count := w32 } })
  | 0x05 => some (c, { x with inner := { x.inner with start := w16 } })
  | 0x06 => some (c, { x with inner := { x.inner with last := w16 } })
  | 0x0C => some (c, { x with fault := w32 &&& 0xFFFF00FF#32 })
  | 0x0D => some (c, { x with faddr := v })
  | 0x10 => some ({ c with ipend := c.ipend.set n (c.ipend[n] &&& ~~~ w16) }, x)
  | 0x11 => some (c, { x with imask := w16 })
  | 0x12 => some (c, { x with iprio := w32 })
  | 0x13 => some (c, { x with tcmp := w32 })
  | 0x14 => some (c, { x with ivec := w16 })
  | 0x15 => some (c, { x with iret := w16 })
  | 0x16 => some (c, { x with isr := srMask w32 })
  | _ => none

end Sys2Proof.Machine
end

