-- ==== Sys2Proof/Machine/SetterMem.lean ====
section
/-! DEFINITION. Loads, stores, immediates, pointer operations and register moves of the setters (R286, R301-R304). -/

namespace Sys2Proof.Machine

/-- NEAR_ABSOLUTE_LOAD (R301): a word from X, Y or P space, with the two delay slots of a load. -/
def execNearAbsoluteLoad (n : Fin 8) (space : Fin 4) (w : Fin 64) (addr : BitVec 17) (s : State) :
    Host.Outcome State Fault Refusal :=
  instruction s n Shape.data (fun _ => []) fun c x =>
    let put := fun (v : W40) => Effect.plain (c, x.issue 3 (.load (x.phys w) v))
    match space.val with
    | 0 => put (nearGet x.xram addr.toNat)
    | 1 => put (nearGet x.yram addr.toNat)
    | 2 => put (x.pData (addr.toNat % 2 ^ 16))
    | _ => Effect.illegal c x

/-- NEAR_ABSOLUTE_STORE (R301): a word to X or Y space; a store to P is an illegal instruction. -/
def execNearAbsoluteStore (n : Fin 8) (space : Fin 4) (w : Fin 64) (addr : BitVec 17) (s : State) :
    Host.Outcome State Fault Refusal :=
  instruction s n Shape.data (fun x => [x.phys w]) fun c x =>
    match space.val with
    | 0 => Effect.plain (c, { x with xram := nearPut x.xram addr.toNat (x.rdW w) })
    | 1 => Effect.plain (c, { x with yram := nearPut x.yram addr.toNat (x.rdW w) })
    | _ => Effect.illegal c x

/-! ### Far accesses (R286, R302) -/

/-- Bytes of a far access by SIZE code; none is reserved (R302). -/
def farBytes (size : Fin 16) : Option Nat :=
  match size.val with
  | 0 | 1 => some 1
  | 2 | 3 | 8 => some 2
  | 4 | 5 | 9 => some 4
  | 6 => some 5
  | 7 => some 8
  | _ => none

/-- Alignment that a SIZE code needs (R302). -/
def farAlign (size : Fin 16) : Nat :=
  match size.val with
  | 2 | 3 | 8 => 2
  | 4 | 5 | 9 => 4
  | 7 => 8
  | _ => 1

/-- The word that loaded bytes give (R302). -/
def farWord (size : Fin 16) (b : List Byte) : W40 :=
  match size.val with
  | 0 => of40 (toI (beAt b 0 1) 8)
  | 1 => BitVec.ofNat 40 (beAt b 0 1)
  | 2 => of40 (toI (beAt b 0 2) 16)
  | 3 => BitVec.ofNat 40 (beAt b 0 2)
  | 4 => of40 (toI (beAt b 0 4) 32)
  | 5 => BitVec.ofNat 40 (beAt b 0 4)
  | 6 => BitVec.ofNat 40 (beAt b 0 5)
  | 7 => BitVec.ofNat 40 (beAt b 3 5)
  | 8 => mk40 (toI (beAt b 0 1) 8) (toI (beAt b 1 1) 8)
  | _ => mk40 (toI (beAt b 0 2) 16) (toI (beAt b 2 2) 16)

/-- The bytes that a stored word gives (R302): the low bits, without saturation. -/
def farData (size : Fin 16) (v : W40) : List Byte :=
  match size.val with
  | 0 | 1 => beBytes 1 v.toNat
  | 2 | 3 => beBytes 2 v.toNat
  | 4 | 5 => beBytes 4 v.toNat
  | 6 => beBytes 5 v.toNat
  | 7 => List.replicate 3 (if v.getLsbD 39 then 0xFF#8 else 0#8) ++ beBytes 5 v.toNat
  | 8 => beBytes 1 (v.toNat / 2 ^ 20) ++ beBytes 1 v.toNat
  | _ => beBytes 2 (ofI (hi20 v) 16) ++ beBytes 2 (ofI (lo20 v) 16)

/-- The address bits that a space uses (R286). -/
def farMask (space : Fin 4) (a : W40) : Nat :=
  match space.val with
  | 0 => a.toNat % 2 ^ 28
  | 1 => a.toNat % 2 ^ 24
  | _ => a.toNat % 2 ^ 38

/-- The bytes from `a` lie inside the window `base`, `size` (R323); a size of 0 closes it. -/
def inWindow (base size a len : Nat) : Bool := base ≤ a && a + len ≤ base + size

/-- The setter may reach the address: its SRAM or HBM window, or a 32-bit control-space access (R286, R322, R323). -/
def farReachable (c : Chip) (n : Fin 8) (space : Fin 4) (a len : Nat) : Bool :=
  match space.val with
  | 0 => inWindow (c.rd (setterOd n 0x05)) (c.rd (setterOd n 0x06)) a len
  | 1 => len == 4
  | _ => inWindow (c.rd (setterOd n 0x07)) (c.rd (setterOd n 0x08)) a len

/-- The pointer after a far access (R302). -/
def farPointer (x : Setter) (o : FarOp) (len : Nat) : W40 :=
  match o.mode.val with
  | 0 => x.p[o.pn]
  | 1 => x.p[o.pn] + BitVec.ofNat 40 len
  | _ => of40 (x.p[o.pn].toNat + stepOf x.m[o.mn])

/-- The far address: Pn + DISP (R302). -/
def farAddr (x : Setter) (o : FarOp) : W40 := of40 (x.p[o.pn].toNat + o.disp.toInt)

/-- A far access checked: the fault of lowest code, or its length in bytes (R286, R302, R306). -/
def farCheck (c : Chip) (n : Fin 8) (x : Setter) (o : FarOp) : Except (BitVec 8 × BitVec 40) Nat :=
  let a := farAddr x o
  let bad := o.space == 3 || o.mode == 3
  match farBytes o.size with
  | none => .error (1, 0)
  | some len =>
    if bad then .error (1, 0)
    else if farMask o.space a % farAlign o.size != 0 then .error (3, a)
    else if farReachable c n o.space (farMask o.space a) len then .ok len
    else .error (4, a)

/-- FAR_LOAD (R302): issued through the matrix, its destination interlocked; a faulting load writes 0 there (R286). -/
def execFarLoad (n : Fin 8) (o : FarOp) (s : State) : Host.Outcome State Fault Refusal :=
  instruction s n Shape.data (fun _ => []) fun c x =>
    match farCheck c n x o with
    | .error (cause, fa) =>
      if cause == 1 then Effect.illegal c x
      else
        let (c1, y) := writeW c x (x.phys o.w) 0
        Effect.faulted c1 y cause fa
    | .ok len =>
      let f : FarLoad := ⟨o.space, x.phys o.w, o.size, farAddr x o, x.pc⟩
      Effect.plain (c, { x with p := x.p.set o.pn (farPointer x o len), farLoads := x.farLoads ++ [f] })

/-- FAR_STORE (R302): posted through the matrix; a faulting store writes nothing (R286). -/
def execFarStore (n : Fin 8) (o : FarOp) (s : State) : Host.Outcome State Fault Refusal :=
  instruction s n Shape.data (fun x => [x.phys o.w]) fun c x =>
    match farCheck c n x o with
    | .error (cause, fa) => Effect.faulted c x cause fa
    | .ok len =>
      let f : FarStore := ⟨o.space, farAddr x o, farData o.size (x.rdW o.w), x.pc⟩
      Effect.plain (c, { x with p := x.p.set o.pn (farPointer x o len), farStores := x.farStores ++ [f] })

/-! ### Immediates, pointers, moves (R303, R304) -/

/-- IMMEDIATE_W: W[REG] := IMM. -/
def execImmediateW (n : Fin 8) (reg : Fin 64) (imm : BitVec 40) (s : State) : Host.Outcome State Fault Refusal :=
  instruction s n Shape.data (fun _ => []) fun c x => Effect.plain (writeW c x (x.phys reg) imm)

/-- IMMEDIATE_P: P[REG[3:0]] := IMM. -/
def execImmediateP (n : Fin 8) (reg : Fin 64) (imm : BitVec 40) (s : State) : Host.Outcome State Fault Refusal :=
  instruction s n Shape.data (fun _ => []) fun c x => Effect.plain (c, { x with p := x.p.set (Fin.ofNat 16 reg.val) imm })

/-- IMMEDIATE_M: M[REG[3:0]] := IMM[31:0]. -/
def execImmediateM (n : Fin 8) (reg : Fin 64) (imm : BitVec 40) (s : State) : Host.Outcome State Fault Refusal :=
  instruction s n Shape.data (fun _ => []) fun c x =>
    Effect.plain (c, { x with m := x.m.set (Fin.ofNat 16 reg.val) (imm.setWidth 32) })

/-- IMMEDIATE_CONTROL: control register REG := IMM, narrowed; a reserved or RO register is an illegal instruction (R281). -/
def execImmediateControl (n : Fin 8) (reg : Fin 64) (imm : BitVec 40) (s : State) : Host.Outcome State Fault Refusal :=
  instruction s n Shape.data (fun _ => []) fun c x =>
    match ctlWrite c n x reg imm with
    | some r => Effect.plain r
    | none => Effect.illegal c x

/-- ADDP: P[D] := P[S] + IMM. -/
def execAddp (n : Fin 8) (d r : Fin 16) (imm : BitVec 32) (s : State) : Host.Outcome State Fault Refusal :=
  instruction s n Shape.data (fun _ => []) fun c x =>
    Effect.plain (c, { x with p := x.p.set d (of40 (x.p[r].toNat + imm.toInt)) })

/-- MODP: P[D] := P[D] + STEP of M[S], linear. -/
def execModp (n : Fin 8) (d r : Fin 16) (s : State) : Host.Outcome State Fault Refusal :=
  instruction s n Shape.data (fun _ => []) fun c x =>
    Effect.plain (c, { x with p := x.p.set d (of40 (x.p[d].toNat + stepOf x.m[r])) })

/-- ADDM: M[D] := M[S] + IMM, 32-bit. -/
def execAddm (n : Fin 8) (d r : Fin 16) (imm : BitVec 32) (s : State) : Host.Outcome State Fault Refusal :=
  instruction s n Shape.data (fun _ => []) fun c x =>
    Effect.plain (c, { x with m := x.m.set d (x.m[r] + imm) })

/-- CMPP: flags from P[D] − P[S], 40-bit. -/
def execCmpp (n : Fin 8) (d r : Fin 16) (s : State) : Host.Outcome State Fault Refusal :=
  instruction s n Shape.data (fun _ => []) fun c x =>
    let v := x.p[d].toInt - x.p[r].toInt
    let w := of40 v
    Effect.plain (writeFlags c x (w == 0) (w.getLsbD 39) (outside 40 v))

/-- The registers that a register move reads. -/
def moveSource (x : Setter) (skind : Fin 4) (sreg : Fin 64) : List (Fin 64) := if skind == 0 then [x.phys sreg] else []

/-- A register move (R281, R304): widths convert, a narrower source is zero-extended, a wider one keeps its low bits. -/
def regMove (n : Fin 8) (dkind : Fin 4) (dreg : Fin 64) (skind : Fin 4) (sreg : Fin 64) (c : Chip) (x : Setter) : Effect :=
  let src : Option (W40 × Setter) :=
    match skind.val with
    | 0 => some (x.rdW sreg, x)
    | 1 => some (x.p[Fin.ofNat 16 sreg.val], x)
    | 2 => some ((x.m[Fin.ofNat 16 sreg.val]).setWidth 40, x)
    | _ => ctlRead c n x sreg
  match src with
  | none => Effect.illegal c x
  | some (v, y) =>
    match dkind.val with
    | 0 => Effect.plain (writeW c y (y.phys dreg) v)
    | 1 => Effect.plain (c, { y with p := y.p.set (Fin.ofNat 16 dreg.val) v })
    | 2 => Effect.plain (c, { y with m := y.m.set (Fin.ofNat 16 dreg.val) (v.setWidth 32) })
    | _ => match ctlWrite c n y dreg v with
      | some r => Effect.plain r
      | none => Effect.illegal c x

/-- REGISTER_MOVE (R304). -/
def execRegisterMove (n : Fin 8) (dkind : Fin 4) (dreg : Fin 64) (skind : Fin 4) (sreg : Fin 64) (s : State) :
    Host.Outcome State Fault Refusal :=
  instruction s n Shape.data (fun x => moveSource x skind sreg) (regMove n dkind dreg skind sreg)

/-- CYC_LO_READ (R281): a register move from CYC_LO, which latches bits [63:32] into CYC_HI. -/
def execCycLoRead (n : Fin 8) (dkind : Fin 4) (dreg : Fin 64) (s : State) : Host.Outcome State Fault Refusal :=
  instruction s n Shape.data (fun _ => []) (regMove n dkind dreg 3 0x0A)

end Sys2Proof.Machine
end

