-- ==== Sys2Proof/Machine/Matrix.lean ====
section
/-! DEFINITION. The bus matrix, the control space, doorbells, and the boot and firmware of the setters (R286,
R320-R325). -/

namespace Sys2Proof.Machine

/-! ### Setter memories as the matrix sees them (R322, R328) -/

/-- The 8-byte slot that an X-RAM or Y-RAM word appears as (R322). -/
def slotBytes (v : W40) : List Byte := List.replicate 3 (if v.getLsbD 39 then 0xFF#8 else 0#8) ++ beBytes 5 v.toNat

/-- Bytes of a setter's memory; `kind` 0 P-RAM, 1 X-RAM, 2 Y-RAM (R328). -/
def Setter.memBytes (x : Setter) (kind off : Nat) : Nat → List Byte
  | 0 => []
  | n + 1 =>
    let slot := match kind with
      | 0 => beBytes 8 (sget (fun _ => (0 : W64)) x.pram (off / 8)).toNat
      | 1 => slotBytes (nearGet x.xram (off / 8))
      | _ => slotBytes (nearGet x.yram (off / 8))
    slot.getD (off % 8) 0 :: x.memBytes kind (off + 1) n

/-- One byte of a setter's memory written; of an X-RAM or Y-RAM slot the low 40 bits are kept. -/
def Setter.putMemByte (x : Setter) (kind off : Nat) (v : Byte) : Setter :=
  let put := fun (slot : List Byte) => beVal (overlay slot (off % 8) [v])
  match kind with
  | 0 =>
    let w := BitVec.ofNat 64 (put (beBytes 8 (sget (fun _ => (0 : W64)) x.pram (off / 8)).toNat))
    { x with pram := sset (fun _ => (0 : W64)) x.pram (off / 8) w }
  | 1 =>
    let w := BitVec.ofNat 40 (put (slotBytes (nearGet x.xram (off / 8))))
    { x with xram := nearPut x.xram (off / 8) w }
  | _ =>
    let w := BitVec.ofNat 40 (put (slotBytes (nearGet x.yram (off / 8))))
    { x with yram := nearPut x.yram (off / 8) w }

/-- Bytes of a setter's memory written. -/
def Setter.putMem (x : Setter) (kind off : Nat) : List Byte → Setter
  | [] => x
  | v :: t => (x.putMemByte kind off v).putMem kind (off + 1) t

/-- Bytes of a setter memory: 256 KiB of P-RAM, 131 072 slots of 8 bytes of X-RAM and of Y-RAM (R252, R322). -/
def setterMemSize (kind : Nat) : Nat := match kind with | 0 => 262144 | 1 => 1048576 | 2 => 1048576 | _ => 0

/-! ### The control space (R324) -/

/-- Objects of a DMA channel. -/
def dmaOd (ch sub : Nat) : Nat := od (0x4040 + ch) sub

/-- Objects of a completion queue. -/
def cqOd (q sub : Nat) : Nat := od (0x4060 + q) sub

/-- A DMA channel; an unlisted one has no work. -/
def Chip.dma (c : Chip) (ch : Nat) : DmaChannel := sget (fun _ => DmaChannel.atReset) c.matrix.channels ch

/-- A DMA channel set. -/
def Chip.setDma (c : Chip) (ch : Nat) (x : DmaChannel) : Chip :=
  { c with matrix := { c.matrix with channels := sset (fun _ => DmaChannel.atReset) c.matrix.channels ch x } }

/-- State of a DMA channel, OD 4040+c.06 (R326). -/
def Chip.dmaState (c : Chip) (ch : Nat) : Nat := c.rd (dmaOd ch 0x06)

/-- A change of the SRAM or HBM partition table is pending (R251, R257). -/
def Chip.partitionPending (c : Chip) : Bool := c.pendingWrites (od 0x600A 0) || c.pendingWrites (od 0x600B 0)

/-- START (R326): an IDLE channel of the enabled engine loads its descriptor; STATE otherwise, and while a partition change
is pending (R251). -/
def Chip.dmaStart (c : Chip) (ch : Nat) : Chip × Status :=
  if !c.on (od 0x4000 0x01) || c.dmaState ch != 0 || c.partitionPending then (c, .state)
  else
    let x := { DmaChannel.atReset with descAddr := c.rd (dmaOd ch 0x01) }
    ((c.setDma ch x).wr (dmaOd ch 0x06) 1, .ok)

/-- Source 3 pends at the channel's owner when it is a setter (R314). -/
def Chip.ownerIrq (c : Chip) (ch : Nat) : Chip :=
  let o := c.rd (dmaOd ch 0x05)
  if o < 8 then c.irqTo (Fin.ofNat 8 o) 3 else c

/-- A completion record appended to its queue, or dropped when the queue is full (R331). -/
def Dev.appendRecord (d : Dev) (q ch status : Nat) (poison chainEnd : Bool) (tag residue desc : Nat) : Dev :=
  let c := d.chip
  let seq := c.rd (cqOd q 0x06)
  let c1 := c.bump (cqOd q 0x06) 1
  let head := c.rd (cqOd q 0x03)
  let used := (head + 2 ^ 32 - c.rd (cqOd q 0x04)) % 2 ^ 32
  let entries := c.rd (cqOd q 0x02)
  if entries ≤ used then
    let marked := if c1.matrix.overflow.contains q then c1.matrix.overflow else c1.matrix.overflow ++ [q]
    { d with chip := { (c1.bump (cqOd q 0x07) 1) with matrix := { c1.matrix with overflow := marked } } }
  else
    let ovf := c1.matrix.overflow.contains q
    let rec_ := beBytes 4 seq ++ (beBytes 1 ch ++ (beBytes 1 status ++
      (beBytes 1 (128 * b2n poison + 64 * b2n ovf + 32 * b2n chainEnd) ++ (beBytes 1 0 ++ (beBytes 4 tag ++
      (beBytes 4 residue ++ (beBytes 4 desc ++ (beBytes 4 0 ++ beBytes 8 c.lc))))))))
    let d1 := d.writeSram (c.rd (cqOd q 0x01) + head % entries * 32) rec_
    let c2 := { c1 with matrix := { c1.matrix with overflow := c1.matrix.overflow.filter fun x => x != q } }
    let c3 := c2.bump (cqOd q 0x03) 1
    let targets := c.rd (cqOd q 0x05)
    let c4 := (List.range 8).foldl (fun a n => if bitAt targets n then a.irqTo (Fin.ofNat 8 n) 2 else a) c3
    let c5 := if bitAt targets 8 then c4.event 0x0003 (beBytes 1 q ++ (beBytes 7 0 ++ rec_)) else c4
    { d1 with chip := c5 }

/-- A descriptor of a channel ends with a status; the chain goes on, or the channel is IDLE (R327, R330, R331). -/
def Dev.dmaEnd (d : Dev) (ch status : Nat) : Dev :=
  let c := d.chip
  let x := c.dma ch
  let residue := x.desc.length - x.written
  let goes := status == 0 && x.desc.chain
  let c1 := (c.wr (dmaOd ch 0x07) residue).wr (dmaOd ch 0x06) (if goes then 1 else 0)
  let c2 := if goes then c1.setDma ch { DmaChannel.atReset with descAddr := x.desc.next }
    else (c1.setDma ch { DmaChannel.atReset with desc := x.desc, descAddr := x.descAddr }).wr (dmaOd ch 0x08) status
  let c3 := if status = 0 then c2 else c2.ownerIrq ch
  let d1 := { d with chip := c3 }
  if x.desc.record || !goes then d1.appendRecord x.desc.cq ch status x.poison (!goes) x.desc.tag residue x.descAddr
  else d1

/-- ABORT (R330): a READY channel ends at once; a LOADING one after its descriptor read; a RUNNING one after its piece. -/
def Dev.dmaAbort (d : Dev) (ch : Nat) : Dev :=
  let c := d.chip
  let x := c.dma ch
  match c.dmaState ch with
  | 1 => { d with chip := c.setDma ch { x with ending := some 1 } }
  | 2 => { d with chip := (c.setDma ch { x with ending := some (x.ending.getD 1) }).wr (dmaOd ch 0x06) 4 }
  | 3 => d.dmaEnd ch 1
  | _ => d

/-- Who drives the control space: the setter whose access it is, DMA, or another master. -/
inductive CtlMaster where
  | setter (n : Fin 8)
  | dma
  | other
  deriving DecidableEq, Repr

/-- The doorbell of a setter is written: inbound mailbox and source 0 (R314, R324). -/
def Dev.ring (d : Dev) (n : Fin 8) (v : BitVec 32) : Dev :=
  { d with chip := d.chip.irqTo n 0, cores := d.cores.set n { d.cores[n] with inMail := v } }

/-- A 32-bit read of the control space; none is a bus fault (R324). The command word of a channel reads as a free value. -/
def Dev.ctlRead32 (d : Dev) (a : Nat) : Option (Nat × Dev) :=
  let c := d.chip
  let o := a % 16
  if a % 4 ≠ 0 then none
  else if a < 0x100000 then
    some (beAt (sget (fun _ => List.replicate 16 0#8) c.reports (a / 16)) o 4, d)
  else if a < 0x100080 then
    let x := d.cores[Fin.ofNat 8 ((a - 0x100000) / 16)]
    if o = 4 then some (x.inMail.toNat, d) else if o = 8 then some (x.outMail.toNat, d) else none
  else if 0x101000 ≤ a && a < 0x101400 then
    let ch := (a - 0x101000) / 32
    match a % 32 with
    | 0 => some (c.rd (dmaOd ch 0x01), d)
    | 4 => let (v, c1) := c.freeBits 32; some (v, { d with chip := c1 })
    | 8 => some (c.rd (dmaOd ch 0x06), d)
    | 12 => some (c.rd (dmaOd ch 0x07), d)
    | 16 => some (c.rd (dmaOd ch 0x08), d)
    | _ => none
  else if 0x102000 ≤ a && a < 0x102200 then
    let q := (a - 0x102000) / 32
    match a % 32 with
    | 0 => some (c.rd (cqOd q 0x03), d)
    | 4 => some (c.rd (cqOd q 0x04), d)
    | 8 => some (c.rd (cqOd q 0x06), d)
    | _ => none
  else if a = 0x103000 then
    some (c.lc % 2 ^ 32, { d with chip := { c with time := { c.time with latchLc := BitVec.ofNat 32 (c.lc / 2 ^ 32) } } })
  else if a = 0x103004 then some (c.time.latchLc.toNat, d)
  else if a = 0x103008 then
    some (c.front % 2 ^ 32,
      { d with chip := { c with time := { c.time with latchFront := BitVec.ofNat 32 (c.front / 2 ^ 32) } } })
  else if a = 0x10300C then some (c.time.latchFront.toNat, d)
  else if 0x104000 ≤ a && a < 0x104180 then
    let k := (a - 0x104000) / 4
    some (256 * b2n (c.domClock k) + c.domState k % 8, d)
  else none

/-- A 32-bit write of the control space; none is a bus fault (R324): a reserved or read-only word, the DMA registers by DMA,
the outbound mailbox by anyone but its setter, and a START that is refused. -/
def Dev.ctlWrite32 (d : Dev) (m : CtlMaster) (a v : Nat) : Option Dev :=
  let c := d.chip
  if a % 4 ≠ 0 then none
  else if 0x100000 ≤ a && a < 0x100080 then
    let n := Fin.ofNat 8 ((a - 0x100000) / 16)
    if a % 16 = 0 then some (d.ring n (BitVec.ofNat 32 v))
    else if a % 16 = 8 && m == .setter n then
      some { d with cores := d.cores.set n { d.cores[n] with outMail := BitVec.ofNat 32 v } }
    else none
  else if 0x101000 ≤ a && a < 0x101400 && m != .dma then
    let ch := (a - 0x101000) / 32
    match a % 32 with
    | 0 => some { d with chip := c.wr (dmaOd ch 0x01) v }
    | 4 =>
      let r := if bitAt v 0 then c.dmaStart ch else (c, .ok)
      match r.2 with
      | .ok =>
        let d1 := { d with chip := r.1 }
        some (if bitAt v 1 then d1.dmaAbort ch else d1)
      | _ => none
    | _ => none
  else if 0x102000 ≤ a && a < 0x102200 && a % 32 = 4 then
    some { d with chip := c.wr (cqOd ((a - 0x102000) / 32) 0x04) v }
  else none

/-! ### Target ports (R322, R323) -/

/-- The target ports: 0-3 the quadrants of main SRAM, 4 HBM, 5 the control space, 6-13 the memories of setters 0-7 (address
bits [21:20] P, X or Y, [19:0] byte), 14 the setter debug registers. -/
def portDomain (c : Chip) (port a : Nat) : Nat :=
  if port < 4 then 92 + port
  else if port = 4 then
    match c.translate a with
    | some ro => 86 + ro.1 / 3
    | none => 86
  else if 6 ≤ port && port < 14 then 78 + (port - 6)
  else 2

/-- The master may reach the address through the port (R322, R323). -/
def portAllows (c : Chip) (port : Nat) (r : MatrixReq) : Bool :=
  let m := r.master.val
  let inside := fun (b s : Nat) => decide (b ≤ r.addr) && decide (r.addr + r.len ≤ b + s)
  let exists_ :=
    if port < 4 then inside (port * 67108864) 67108864
    else if port = 4 then decide (r.addr + r.len ≤ c.hbmTop)
    else if port = 5 then r.len == 4 && r.addr % 4 == 0
    else if port < 14 then decide (r.addr % 1048576 + r.len ≤ setterMemSize (r.addr / 1048576 % 4)) &&
      decide (r.addr < 4194304)
    else true
  exists_ &&
  (if m < 8 then
    (if port < 4 then inside (c.rd (od (0x4010 + m) 0x05)) (c.rd (od (0x4010 + m) 0x06))
     else if port = 4 then inside (c.rd (od (0x4010 + m) 0x07)) (c.rd (od (0x4010 + m) 0x08))
     else port == 5)
   else if port = 14 then m == 11
   else true)

/-- A granted piece performed: refused, or done with the bytes it reads. A poisoned read is a bus error to a hub master and a mark to DMA, and is
counted for both (R270). -/
def Dev.portAccess (d : Dev) (port : Nat) (r : MatrixReq) : Option (List Byte) × Dev :=
  let m : CtlMaster := if r.master.val < 8 then .setter (Fin.ofNat 8 r.master.val)
    else if r.master.val < 10 then .dma else .other
  let or_ := fun (x : Option (List Byte × Dev)) => match x with
    | some e => (some e.1, e.2)
    | none => (none, d)
  if port < 4 then
    if r.write then (some [], d.writeSram r.addr r.data) else (some (d.readSram r.addr r.len), d)
  else if port = 4 then
    if r.write then (some [], d.writeHbm hubUser r.addr r.data false)
    else
      let (b, bad, d1) := d.readHbm hubUser r.addr r.len
      (if bad = 0 || m == .dma then some b else none, d1)
  else if port = 5 then
    or_ (if r.write then (d.ctlWrite32 m r.addr (beVal r.data)).map fun x => ([], x)
      else (d.ctlRead32 r.addr).map fun x => (beBytes 4 x.1, x.2))
  else if port < 14 then
    let n := Fin.ofNat 8 (port - 6)
    let kind := r.addr / 1048576 % 4
    if r.write then
      (some [], { d with cores := d.cores.set n (d.cores[n].putMem kind (r.addr % 1048576) r.data) })
    else (some (d.cores[n].memBytes kind (r.addr % 1048576) r.len), d)
  else
    -- the spec does not give the contents of the debug registers: they read as free values (log entry 32)
    if r.write then (some [], d)
    else
      let (v, c1) := d.chip.freeBits (8 * Nat.min r.len 8)
      (some (beBytes r.len v), { d with chip := c1 })

/-- MATRIX_ACCESS (R322, R323): the port grants one master's piece under R47 and R48, and it is performed or refused. A
setter's or debug's access into a domain whose clock is stopped is never granted (R325, R461). -/
def execMatrixAccess (target : Fin 15) (offered : List MatrixReq) (s : State) : Host.Outcome State Fault Refusal :=
  let d := s.dev
  let c := d.chip
  let port := target.val
  let key := fun m => port * 16 + m
  let wait := fun m => sget (fun _ => 0) c.matrix.waits (key m)
  let heads := (List.range 12).filterMap fun m => offered.find? fun r => r.master.val == m
  let hangs := fun (r : MatrixReq) =>
    (r.master.val < 8 || r.master.val == 11) && !c.domClock (portDomain c port r.addr)
  let req := (heads.filter fun r => !hangs r).map fun r => r.master.val
  let won := arbitrate (fun m => c.rd (od 0x4001 (1 + m))) (c.rd (od 0x4000 0x03)) wait req
  let waits := (List.range 12).foldl (fun w m =>
    let v := if won == some m then 0 else if heads.any fun r => r.master.val == m then wait m + 1 else 0
    sset (fun _ => 0) w (key m) v) c.matrix.waits
  let d1 : Dev := { d with chip := { c with matrix := { c.matrix with waits := waits } } }
  match won with
  | none => done s d1
  | some m =>
    match heads.find? fun r => r.master.val == m with
    | none => done s d1
    | some r =>
      let refuse := fun (x : Dev) => { x with chip := (x.chip.bump (od 0x4000 0x10) 1).send (.matrix port false []) }
      if !portAllows c port r then done s (refuse d1)
      else if !c.domOpen (portDomain c port r.addr) then
        -- refused for the domain's state (R325, R417), not under R322
        done s { d1 with chip := d1.chip.send (.matrix port false []) }
      else match d1.portAccess port r with
        | (none, d2) =>
          -- a poisoned read is an error response, but no access that R322 refuses
          done s (if port = 4 then { d2 with chip := d2.chip.send (.matrix port false []) } else refuse d2)
        | (some b, d2) => done s { d2 with chip := d2.chip.send (.matrix port true b) }

/-- CONTROL_COUNTER_READ (R324): a read of the Local Counter or the ingest front through the control space, whose low word
latches the high one; other addresses are no counters, and nothing happens. -/
def execControlCounterRead (which : BitVec 24) (s : State) : Host.Outcome State Fault Refusal :=
  if 0x103000 ≤ which.toNat && which.toNat < 0x103010 then
    match s.dev.ctlRead32 which.toNat with
    | some (v, d) => done s { d with chip := d.chip.send (.matrix 5 true (beBytes 4 v)) }
    | none => ok s s.dev.chip
  else ok s s.dev.chip

/-- DOORBELL (R324): by OD 4010+n.03 or through the control space. -/
def execDoorbell (by_ : Requester) (n : Fin 8) (value : BitVec 32) (s : State) : Host.Outcome State Fault Refusal :=
  match by_ with
  | .session k => done s (s.dev.request k.val (setterOd n 0x03) (.num value.toNat) fun d => (d.ring n value, .ok))
  | _ => done s (s.dev.ring n value)

/-! ### Far accesses of a setter reach their target (R286) -/

/-- Domain of the target of a far access. -/
def farDomain (c : Chip) (space : Fin 4) (a : Nat) : Nat :=
  match space.val with
  | 0 => portDomain c (a / 67108864) a
  | 1 => portDomain c 5 a
  | _ => portDomain c 4 a

/-- A far access of setter `n` performed at its target: the bytes read, none for a bus fault. -/
def Dev.farRead (d : Dev) (n : Fin 8) (space : Fin 4) (a len : Nat) : Option (List Byte) × Dev :=
  let m := Fin.ofNat 12 n.val
  match space.val with
  | 0 => d.portAccess (a / 67108864) ⟨m, false, a, len, []⟩
  | 1 => d.portAccess 5 ⟨m, false, a, len, []⟩
  | _ => d.portAccess 4 ⟨m, false, a, len, []⟩

/-- FAR_LOAD_DATA (R286): the oldest load outstanding for physical register `w` reads its target, and its word releases the interlock;
poison and a refusal are bus faults that write 0. The data never arrive while the clock of the target's domain is stopped: the setter
hangs until it is reset. A near load in flight for the same register still lands after its distance (R308). -/
def execFarLoadData (n : Fin 8) (w : Fin 64) (reply : FarReply) (s : State) : Host.Outcome State Fault Refusal :=
  let d := s.dev
  match (d.cores[n]).farLoads.find? fun f => f.w == w with
  | none => done s d
  | some f =>
    let a := farMask f.space f.addr
    let dom := farDomain d.chip f.space a
    if !d.chip.domClock dom then done s d
    else
      let take := fun (e : Dev) (v : W40) =>
        { e.cores[n] with farLoads := (e.cores[n]).farLoads.erase f, w := (e.cores[n]).w.set w v }
      let (bytes, d1) := if reply == .done && d.chip.domOpen dom then d.farRead n f.space a ((farBytes f.size).getD 1)
        else (none, d)
      match bytes with
      | some b => done s { d1 with cores := d1.cores.set n (take d1 (farWord f.size b)) }
      | none =>
        let (c1, y) := lateFault d1.chip n (take d1 0) f.addr f.pc
        let refused := d.chip.domOpen dom && (reply == .error || f.space == 1)
        done s { d1 with chip := if refused then c1.bump (od 0x4000 0x10) 1 else c1, cores := d1.cores.set n y }

/-- FAR_STORE_COMPLETE (R286): the oldest posted store is written, or is a bus fault; into a domain whose clock is stopped it never
completes. -/
def Dev.storeComplete (d : Dev) (n : Fin 8) (accepted : Bool) : Dev :=
  let x := d.cores[n]
  match x.farStores with
  | [] => d
  | f :: t =>
    let a := farMask f.space f.addr
    let dom := farDomain d.chip f.space a
    if !d.chip.domClock dom then d
    else
      let d1 := { d with cores := d.cores.set n { x with farStores := t } }
      let r : Option Dev :=
        if !accepted || !d.chip.domOpen dom then none
        else match f.space.val with
          | 0 => some (d1.writeSram a f.bytes)
          | 1 => d1.ctlWrite32 (.setter n) a (beVal f.bytes)
          | _ => some (d1.writeHbm hubUser a f.bytes false)
      match r with
      | some d2 => d2
      | none =>
        let (c2, y) := lateFault d1.chip n d1.cores[n] f.addr f.pc
        { d1 with chip := if d.chip.domOpen dom then c2.bump (od 0x4000 0x10) 1 else c2, cores := d1.cores.set n y }

/-- FAR_STORE_COMPLETE. -/
def execFarStoreComplete (n : Fin 8) (reply : FarReply) (s : State) : Host.Outcome State Fault Refusal :=
  match reply with
  | .done => done s (s.dev.storeComplete n true)
  | _ => done s (s.dev.storeComplete n false)

/-! ### Boot and firmware (R320, R321) -/

/-- The verdict of the boot ROM on the header in P-RAM words 0-1: boot status and entry (R320, R321). -/
def bootVerdict (x : Setter) : Nat × Nat :=
  let w0 := (sget (fun _ => (0 : W64)) x.pram 0).toNat
  let w1 := (sget (fun _ => (0 : W64)) x.pram 1).toNat
  let len := bits w0 0 16
  let entry := bits w1 0 16
  if bits w0 24 16 ≠ 0x5A17 || bits w0 16 8 ≠ 1 then (2, entry)
  else if len < 4 || 32768 < len then (3, entry)
  else if entry < 4 || len ≤ entry then (4, entry)
  else (1, entry)

/-- Free values in the registers that the boot ROM may have used, from free value `f` on: 64 W, 16 P, 16 M, SR flags and
the cycle counter (log entry 24). -/
def bootLeavings (x : Setter) (f : Nat) : Setter :=
  { x with w := Vector.ofFn fun i => (Config.freeWord (f + i.val)).setWidth 40,
           p := Vector.ofFn fun i => (Config.freeWord (f + 64 + i.val)).setWidth 40,
           m := Vector.ofFn fun i => (Config.freeWord (f + 80 + i.val)).setWidth 32,
           sr := (Config.freeWord (f + 96)).setWidth 32 &&& 0xF#32,
           cyc := Config.freeWord (f + 97) }

/-- The setter leaves reset and runs its boot ROM, taken as one whole (R321): running at ENTRY, or BOOT_FAILED. -/
def Dev.boot (d : Dev) (n : Fin 8) : Dev :=
  let x := d.cores[n]
  let y := bootLeavings { x with xram := [], yram := [] } d.chip.free
  let (st, entry) := bootVerdict x
  let z := if st = 1 then
      { y with bootStatus := 1, ivec := 0x9F80, mr := 1, mapNow := true, pc := BitVec.ofNat 16 entry, mode := .running }
    else { y with bootStatus := BitVec.ofNat 8 st, mode := .bootFailed }
  { d with chip := { d.chip with free := d.chip.free + 98 }, cores := d.cores.set n z }

/-- `k` posted stores complete. -/
def Dev.drainStores (d : Dev) (n : Fin 8) : Nat → Dev
  | 0 => d
  | k + 1 => (d.storeComplete n true).drainStores n k

/-- Accesses of the setter that hang in a domain whose clock is stopped: a posted store, with what is posted behind it, and loads. -/
def Dev.hung (d : Dev) (n : Fin 8) : Nat :=
  let x := d.cores[n]
  x.farStores.length +
    (x.farLoads.filter fun f => !d.chip.domClock (farDomain d.chip f.space (farMask f.space f.addr))).length

/-- The setter is reset: its outstanding accesses complete, then everything but its memories takes its reset value
(R321). The reset ends an access that hangs (R286): it is discarded at the crossing and counted (R460). -/
def Dev.resetSetter (d : Dev) (n : Fin 8) : Dev :=
  let d1 := d.drainStores n d.cores[n].farStores.length
  let x := d1.cores[n]
  { d1 with cores := d1.cores.set n (Setter.resetKeep x.xram x.yram x.pram),
            chip := { d1.chip with ipend := d1.chip.ipend.set n 0 }.crossing (d1.hung n) }

/-- Domain of setter n. -/
def setterDomain (n : Fin 8) : Nat := 78 + n.val

/-- The firmware image of setter n was written inside a transaction that has not committed (R367). -/
def Chip.imageHeld (c : Chip) (n : Fin 8) : Bool :=
  (match c.dict.txn with | none => false | some t => t.direct.contains (setterOd n 0x10)) ||
    c.dict.schedule.any fun p => p.direct.contains (setterOd n 0x10)

/-- A write of OD 4010+n.01 (R321, R367, R416). -/
def Dev.runControl (d : Dev) (n : Fin 8) (v : Nat) : Dev × Status :=
  let c := d.chip
  let was := c.rd (setterOd n 0x01)
  if v = 1 then
    if was = 1 then (d, .ok)
    else if !c.domOpen (setterDomain n) || c.imageHeld n then (d, .state)
    else (({ d with chip := c.wr (setterOd n 0x01) 1 }).boot n, .ok)
  else (({ d with chip := c.wr (setterOd n 0x01) 0 }).resetSetter n, .ok)

/-- RUN_CONTROL. -/
def execRunControl (sess : Fin 9) (n : Fin 8) (value : BitVec 8) (s : State) : Host.Outcome State Fault Refusal :=
  done s (s.dev.request sess.val (setterOd n 0x01) (.num value.toNat) fun d => d.runControl n value.toNat)

/-- A complete firmware image (R320, R374): checked and written into P-RAM from word 0. -/
def Dev.firmware (d : Dev) (sess : Nat) (n : Fin 8) (b : List Byte) : Dev × Status :=
  let body := tableBody b
  if d.chip.rd (setterOd n 0x01) = 1 then (d, .state)
  else match tableCheck 0x12 b with
    | some .range => (d, .range)
    | some .crc => (d, .tableCrc)
    | none =>
      if 32768 * 8 < body.length || body.length % 8 ≠ 0 then (d, .range)
      else
        let c1 := if d.chip.owner == some sess then d.chip.noteDirect (setterOd n 0x10) else d.chip
        ({ d with chip := c1, cores := d.cores.set n (d.cores[n].putMem 0 0 body) }, .ok)

/-- FIRMWARE_IMAGE. -/
def execFirmwareImage (sess : Fin 9) (n : Fin 8) (table : List Byte) (s : State) : Host.Outcome State Fault Refusal :=
  done s (s.dev.request sess.val (setterOd n 0x10) (.bytes table) fun d => d.firmware sess.val n table)

end Sys2Proof.Machine
end

