-- ==== Sys2Proof/Machine/Dma.lean ====
section
/-! DEFINITION. The DMA engine and its completion queues (R326-R332). -/

namespace Sys2Proof.Machine

/-- DMA_START (R326): by OD 4040+c.02 or through the control space; a setter's START that is refused is a bus fault
(R324). -/
def execDmaStart (by_ : Requester) (c : Fin 32) (s : State) : Host.Outcome State Fault Refusal :=
  match by_ with
  | .session k => ok s (s.dev.chip.request k.val (dmaOd c.val 0x02) (.num 1) fun x => x.dmaStart c.val)
  | .debug => ok s (s.dev.chip.dmaStart c.val).1
  | .setter n =>
    match s.dev.chip.dmaStart c.val with
    | (c1, .ok) => ok s c1
    | _ =>
      let x := s.dev.cores[n]
      let (c2, y) := lateFault s.dev.chip n x (BitVec.ofNat 40 (0x101004 + 32 * c.val)) x.pc
      .next { s with dev := { s.dev with chip := c2, cores := s.dev.cores.set n y } }

/-- DMA_ABORT (R330): by OD 4040+c.03 or through the control space. -/
def execDmaAbort (by_ : Requester) (c : Fin 32) (s : State) : Host.Outcome State Fault Refusal :=
  match by_ with
  | .session k => done s (s.dev.request k.val (dmaOd c.val 0x03) (.num 1) fun d => (d.dmaAbort c.val, .ok))
  | _ => done s (s.dev.dmaAbort c.val)

/-! ### Descriptors (R327, R328) -/

/-- A descriptor from its 32 bytes. -/
def readDescriptor (b : List Byte) : Descriptor :=
  let f := beAt b 20 4
  { src := beAt b 0 8, dst := beAt b 8 8, length := beAt b 16 4, chain := bitAt f 31, record := bitAt f 30,
    swap := bits f 28 2, srcClose := bitAt f 27, dstClose := bitAt f 26, srcFixed := bitAt f 25, dstFixed := bitAt f 24, cq := bits f 20 4, next := beAt b 24 4,
    tag := beAt b 28 4 }

/-- The swap unit in bytes (R327). -/
def swapUnit (k : Nat) : Nat := match k with | 1 => 2 | 2 => 4 | 3 => 4 | _ => 1

/-- The space code of a DMA address (R328). -/
def dmaSpace (a : Nat) : Nat := a / 2 ^ 60

/-- The address within its space. -/
def dmaOffset (a : Nat) : Nat := a % 2 ^ 60

/-- An address of `len` bytes (one beat when the address is fixed) lies in its space (R327, R328). -/
def dmaInSpace (c : Chip) (a len : Nat) (fixed : Bool) : Bool :=
  let o := dmaOffset a
  let n := if fixed then Nat.min len (if dmaSpace a = 3 then 4 else 32) else len
  match dmaSpace a with
  | 0 => decide (o + n ≤ 2 ^ 28)
  | 1 => decide (o + n ≤ c.hbmTop)
  | 2 => decide (o < 2 ^ 27) && bits o 22 2 == 0 && decide (o % 1048576 + n ≤ setterMemSize (bits o 20 2))
  | 3 => decide (o + n ≤ 2 ^ 24)
  | _ => false

/-- The checks of R327; false ends the descriptor with RANGE. -/
def descriptorOk (c : Chip) (x : Descriptor) : Bool :=
  let u := swapUnit x.swap
  let ctl := fun a => dmaSpace a != 3 || (a % 4 == 0 && x.length % 4 == 0)
  decide (dmaSpace x.src ≤ 3) && decide (dmaSpace x.dst ≤ 3) && x.length != 0 &&
  dmaInSpace c x.src x.length x.srcFixed && dmaInSpace c x.dst x.length x.dstFixed &&
  x.length % u == 0 && x.src % u == 0 && x.dst % u == 0 && ctl x.src && ctl x.dst

/-- DESCRIPTOR_LOADED (R327): the 32 bytes are read and checked; an aborted channel moves nothing (R330). -/
def execDescriptorLoaded (c : Fin 32) (s : State) : Host.Outcome State Fault Refusal :=
  let d := s.dev
  let ch := c.val
  if d.chip.dmaState ch ≠ 1 then ok s d.chip
  else
    let x := d.chip.dma ch
    let ds := readDescriptor (d.readSram (x.descAddr % 2 ^ 28) 32)
    let y := { x with desc := ds }
    let d1 := { d with chip := d.chip.setDma ch y }
    match x.ending with
    | some st => done s (d1.dmaEnd ch st)
    | none =>
      if x.descAddr % 32 ≠ 0 || 2 ^ 28 ≤ x.descAddr || !descriptorOk d.chip ds then done s (d1.dmaEnd ch 2)
      else done s { d1 with chip := (d1.chip.wr (dmaOd ch 0x06) 3).wr (dmaOd ch 0x07) ds.length }

/-! ### Moving beats (R325, R329, R330) -/

/-- The domain that a DMA address lies in (R325). -/
def dmaDomain (c : Chip) (a : Nat) : Nat :=
  let o := dmaOffset a
  match dmaSpace a with
  | 0 => 92 + o / 67108864
  | 1 => match c.translate o with
    | some ro => 86 + ro.1 / 3
    | none => 86
  | 2 => 78 + bits o 24 3
  | _ => 2

/-- Groups of `u` bytes of a beat, each changed by `f`. -/
def inUnits (u : Nat) (f : List Byte → List Byte) (b : List Byte) : List Byte :=
  ((List.range (b.length / u)).map fun i => f (slice b (u * i) u)).flatten

/-- SWAP applied to a beat (R327). -/
def swapBytes (k : Nat) (b : List Byte) : List Byte :=
  match k with
  | 1 => inUnits 2 List.reverse b
  | 2 => inUnits 4 (fun x => x.drop 2 ++ x.take 2) b
  | 3 => inUnits 4 List.reverse b
  | _ => b

/-- `k` 32-bit reads of the control space from address `a`, four bytes apart unless it is fixed. -/
def Dev.ctlReads (d : Dev) (a : Nat) (fixed : Bool) : Nat → Option (List Byte × Dev)
  | 0 => some ([], d)
  | k + 1 =>
    match d.ctlRead32 a with
    | none => none
    | some (v, d1) =>
      match d1.ctlReads (if fixed then a else a + 4) fixed k with
      | none => none
      | some (b, d2) => some (beBytes 4 v ++ b, d2)

/-- 32-bit writes of the control space by DMA. -/
def Dev.ctlWrites (d : Dev) (a : Nat) (fixed : Bool) : List Nat → Option Dev
  | [] => some d
  | v :: t =>
    match d.ctlWrite32 .dma a v with
    | none => none
    | some d1 => d1.ctlWrites (if fixed then a else a + 4) fixed t

/-- A channel as a user of the HBM controller: the class of the port it holds, and a descriptor's page hint (R259, R261). -/
def dmaUser (x : DmaChannel) (close : Bool) : HbmUser := ⟨7 + (match x.port with | some p => p.val | none => 0), close⟩

/-- A beat read at a source address: bytes, poison; none is a refusal by the target. `keep` says that the destination takes
poisoned bytes with their indication; any other receives them as 0 (R330). -/
def Dev.dmaRead (d : Dev) (u : HbmUser) (a n : Nat) (fixed keep : Bool) : Option (List Byte × Bool × Dev) :=
  let o := dmaOffset a
  match dmaSpace a with
  | 0 => some (d.readSram o n, false, d)
  | 1 =>
    let (r, d1) := d.readPieces u (unitPieces o n)
    let b := r.flatMap fun e => if e.2 && !keep then List.replicate e.1.length 0#8 else e.1
    some (b, r.any fun e => e.2, d1)
  | 2 => some (d.cores[Fin.ofNat 8 (bits o 24 3)].memBytes (bits o 20 2) (o % 1048576) n, false, d)
  | _ => (d.ctlReads o fixed (n / 4)).map fun x => (x.1, false, x.2)

/-- A beat written at a destination address; none is a refusal by the target. -/
def Dev.dmaWrite (d : Dev) (u : HbmUser) (a : Nat) (b : List Byte) (poison fixed : Bool) : Option Dev :=
  let o := dmaOffset a
  match dmaSpace a with
  | 0 => some (d.writeSram o b)
  | 1 => some (d.writeHbm u o b poison)
  | 2 =>
    let n := Fin.ofNat 8 (bits o 24 3)
    some { d with cores := d.cores.set n (d.cores[n].putMem (bits o 20 2) (o % 1048576) b) }
  | _ => d.ctlWrites o fixed ((List.range (b.length / 4)).map fun i => beAt b (4 * i) 4)

/-- The source position is the first byte of a piece: pieces end at 256-byte boundaries of the address (R323, R329). -/
def atPiece (x : DmaChannel) : Bool :=
  if x.desc.srcFixed then x.read % 256 == 0 else x.read == 0 || (x.desc.src + x.read) % 256 == 0

/-- Beats of the buffer that belong to pieces before the one being read. -/
def earlierBeats (x : DmaChannel) : List (List Byte × Bool) :=
  let start := if x.desc.srcFixed then x.read / 256 * 256 else x.read - (x.desc.src + x.read) % 256
  (x.buffer.foldl (fun (a : List (List Byte × Bool) × Nat) e =>
    (if a.2 < start then a.1 ++ [e] else a.1, a.2 + e.1.length)) ([], x.written)).1

/-- The write half of a channel's beat: the oldest beat leaves the buffer once two are held or no more is read. -/
def Dev.beatWrite (d : Dev) (ch : Nat) : Dev :=
  let x := d.chip.dma ch
  match x.buffer with
  | [] => d
  | (b, bad) :: t =>
    if t.isEmpty && !x.stop && x.read < x.desc.length then d
    else
      let a := if x.desc.dstFixed then x.desc.dst else x.desc.dst + x.written
      match d.dmaWrite (dmaUser x x.desc.dstClose) a (swapBytes x.desc.swap b) bad x.desc.dstFixed with
      | none =>
        { d with chip := d.chip.setDma ch { x with buffer := [], stop := true, ending := some 3 } }
      | some d1 =>
        let y := { x with buffer := t, written := x.written + b.length }
        { d1 with chip := (d1.chip.setDma ch y).bump (dmaOd ch 0x09) b.length }

/-- The read half of a channel's beat, with the checks before each piece (R325) and the stop of an abort at a piece's end
(R330). -/
def Dev.beatRead (d : Dev) (ch : Nat) : Dev :=
  let c := d.chip
  let x := c.dma ch
  if x.stop || x.desc.length ≤ x.read then d
  else if atPiece x && x.ending.isSome then { d with chip := c.setDma ch { x with stop := true } }
  else
    let a := if x.desc.srcFixed then x.desc.src else x.desc.src + x.read
    let b := if x.desc.dstFixed then x.desc.dst else x.desc.dst + x.read
    if atPiece x && !(c.domOpen (dmaDomain c a) && c.domOpen (dmaDomain c b)) then
      { d with chip := c.setDma ch { x with stop := true, ending := some 4 } }
    else
      let n := Nat.min 32 (x.desc.length - x.read)
      match d.dmaRead (dmaUser x x.desc.srcClose) a n x.desc.srcFixed (dmaSpace x.desc.dst == 1) with
      | none => { d with chip := c.setDma ch { x with stop := true, ending := some 3, buffer := earlierBeats x } }
      | some (v, bad, d1) =>
        let y := { x with buffer := x.buffer ++ [(v, bad)], read := x.read + n, poison := x.poison || bad }
        { d1 with chip := d1.chip.setDma ch y }

/-- The end of a descriptor, when there is nothing left to write. -/
def Dev.beatEnd (d : Dev) (ch : Nat) : Dev :=
  let x := d.chip.dma ch
  if x.written = x.desc.length then
    if x.desc.chain && x.ending.isSome then d.dmaEnd ch (x.ending.getD 1) else d.dmaEnd ch 0
  else if x.stop && x.buffer.isEmpty then d.dmaEnd ch (x.ending.getD 1)
  else { d with chip := d.chip.wr (dmaOd ch 0x07) (x.desc.length - x.written) }

/-- One beat of a channel that holds a port; one that moves restarts its watchdog (R330). -/
def Dev.channelBeat (d : Dev) (ch : Nat) : Dev :=
  let x := d.chip.dma ch
  let d1 := (d.beatWrite ch).beatRead ch
  let y := d1.chip.dma ch
  let d2 := if x.read = y.read && x.written = y.written then d1 else { d1 with chip := d1.chip.setDma ch { y with beat := d1.chip.lc } }
  d2.beatEnd ch

/-- Channel `i` ranks before `j` at the DMA arbiter: R47 and R48, with the rule of R329 for channels that hold a port. -/
def dmaRanks (c : Chip) (i j : Nat) : Bool :=
  let limit := c.rd (od 0x4000 0x02)
  let wi := (c.dma i).waited
  let wj := (c.dma j).waited
  let pi := c.rd (dmaOd i 0x04)
  let pj := c.rd (dmaOd j 0x04)
  let hi := (c.dma i).port.isSome
  let hj := (c.dma j).port.isSome
  if limit < wi || limit < wj || pi != pj || hi == hj then
    ranks (fun k => c.rd (dmaOd k 0x04)) limit (fun k => (c.dma k).waited) i j
  else hi

/-- The best of the ready channels. -/
def bestChannel (c : Chip) (l : List Nat) : Option Nat :=
  l.foldl (fun b i => match b with
    | none => some i
    | some j => if dmaRanks c i j then some i else some j) none

/-- Channels that want a port: READY, RUNNING or ENDING. -/
def Chip.dmaReady (c : Chip) : List Nat :=
  (List.range 32).filter fun k => 2 ≤ c.dmaState k && c.dmaState k ≤ 4

/-- A channel as the arbiter leaves it at a beat: granted `port`, or waiting and, if it held one, pre-empted (R329). -/
def Chip.grantPort (c : Chip) (ch : Nat) (port : Option (Fin 2)) : Chip :=
  let x := c.dma ch
  match port with
  | some p =>
    let c1 := c.setDma ch { x with port := some p, waited := 0, beat := if c.dmaState ch = 3 then c.lc else x.beat }
    if c.dmaState ch = 3 then c1.wr (dmaOd ch 0x06) 2 else c1
  | none =>
    let c1 := c.setDma ch { x with port := none, waited := x.waited + 1 }
    let c2 := if x.port.isSome then c1.bump (dmaOd ch 0x0A) 1 else c1
    if c.dmaState ch = 2 then c2.wr (dmaOd ch 0x06) 3 else c2

/-- DMA_BEAT (R329): the ports go to the two channels that rank highest, and each moves one beat. -/
def execDmaBeat (s : State) : Host.Outcome State Fault Refusal :=
  let c := s.dev.chip
  let ready := c.dmaReady
  let w1 := bestChannel c ready
  let w2 := bestChannel c (ready.filter fun k => w1 != some k)
  let won := w1.toList ++ w2.toList
  let held := won.filterMap fun k => (c.dma k).port
  let free := ([0, 1] : List (Fin 2)).filter fun p => !held.contains p
  let fresh := won.filter fun k => (c.dma k).port.isNone
  let portFor := fun k => match (c.dma k).port with
    | some p => some p
    | none => ((fresh.zip free).find? fun e => e.1 == k).map fun e => e.2
  let c1 := ready.foldl (fun a k => a.grantPort k (if won.contains k then portFor k else none)) c
  done s (won.foldl (fun d k => d.channelBeat k) { s.dev with chip := c1 })

/-- DMA_WATCHDOG (R49, R330): a RUNNING channel that moved no beat for the watchdog time, in hub cycles of 1.25 ns, ends; its piece in progress is
discarded. With the watchdog off nothing happens. -/
def execDmaWatchdog (c : Fin 32) (s : State) : Host.Outcome State Fault Refusal :=
  let d := s.dev
  let ch := c.val
  let limit := d.chip.rd (od 0x4000 0x04)
  if d.chip.dmaState ch = 2 && limit != 0 then
    let x := d.chip.dma ch
    let d1 : Dev := { d with chip := d.chip.untilLc (x.beat + limit * 5 / 4 + 1) }
    done s (d1.dmaEnd ch (if x.written = x.desc.length then 0 else 5))
  else ok s d.chip

/-! ### Completion queues (R331, R332) -/

/-- A channel that is not IDLE names the queue, by the descriptor that it has read. -/
def Chip.queueBusy (c : Chip) (q : Nat) : Bool :=
  (List.range 32).any fun ch => 2 ≤ c.dmaState ch && (c.dma ch).desc.cq == q

/-- A write of a queue's base or size (R332): head, tail and SEQ return to 0; STATE while a channel that names the queue is
not IDLE. -/
def Chip.queueConfigure (c : Chip) (q sub v : Nat) : Chip × Status :=
  if c.queueBusy q then (c, .state)
  else if sub = 2 && (log2Exact v).isNone && v ≠ 65536 then (c, .range)
  else
    let c1 := (((c.wr (cqOd q sub) v).wr (cqOd q 0x03) 0).wr (cqOd q 0x04) 0).wr (cqOd q 0x06) 0
    ({ c1 with matrix := { c1.matrix with overflow := c1.matrix.overflow.filter fun x => x != q } }, .ok)

/-- QUEUE_CONFIGURE: OD 4060+q.01 or .02. -/
def execQueueConfigure (sess : Fin 9) (q : Fin 16) (sub : BitVec 8) (value : BitVec 32) (s : State) :
    Host.Outcome State Fault Refusal :=
  ok s (s.dev.chip.request sess.val (cqOd q.val sub.toNat) (.num value.toNat) fun c =>
    if sub.toNat = 1 || sub.toNat = 2 then c.queueConfigure q.val sub.toNat value.toNat
    else (c.wr (cqOd q.val sub.toNat) value.toNat, .ok))

/-- QUEUE_TAIL_WRITE: OD 4060+q.04 or the control space. -/
def execQueueTailWrite (by_ : Requester) (q : Fin 16) (value : BitVec 32) (s : State) :
    Host.Outcome State Fault Refusal :=
  match by_ with
  | .session k => ok s (s.dev.chip.request k.val (cqOd q.val 0x04) (.num value.toNat) fun c =>
      (c.wr (cqOd q.val 0x04) value.toNat, .ok))
  | _ => ok s (s.dev.chip.wr (cqOd q.val 0x04) value.toNat)

end Sys2Proof.Machine
end

