-- ==== Sys2Proof/Machine/Retire.lean ====
section
/-! DEFINITION. Rank retirement, migration and the shrink of partition space (R271-R275). -/

namespace Sys2Proof.Machine

/-- OD 3C00.sub. -/
def hbmOd (sub : Nat) : Nat := od 0x3C00 sub

/-- OD 3C10+r.sub. -/
def rankOd (r sub : Nat) : Nat := od (0x3C10 + r) sub

/-- The X-engine and the truss stop at the next chase period (R275, R465). -/
def Chip.haltPaths (c : Chip) : Chip :=
  c.stopAtPeriod.trussEffect (c.reached / (c.chaseT * c.fft) + 1) false

/-- A stack has failed (R272). -/
def Chip.stackFailed (c : Chip) (k : Fin 6) : Bool := (c.hbm.training[k]).failed

/-! ### The pack store leaves its rank (R273, R275) -/

/-- The frames held in the pack store that have not started are discarded, and the store is empty; the sticks in production lose what it held
of them and carry MISSING (log entry 50). -/
def Chip.dropPack (c : Chip) : Chip :=
  let peers := (List.range 64).flatMap fun p => [c.rd (peerOd p 1), c.rd (peerOd p 2)].map fun b => ((p, b) : Nat × Nat)
  let c1 := peers.foldl (fun a e =>
    if 256 ≤ e.2 then a
    else
      let x := a.bundle e.2
      let b := (List.range x.samples.length).foldl (fun z _ => z.sendDiscard e.1) a
      b.setBundle e.2 { x with samples := [] }) c
  let c2 := { c1 with fe := { c1.fe with pack := [] } }
  (List.range 1024).foldl (fun a s => match a.acc s with
    | none => a
    | some k => a.setAcc s (some { k with flags := k.flags ||| 128 })) c2

/-- The pack store moves into partition space (R273, R275). -/
def Chip.movePack (c : Chip) : Chip := if c.rd (hbmOd 0x0E) = 0xFF then c else c.dropPack.wr (hbmOd 0x0E) 0xFF

/-! ### The shrink (R275) -/

/-- Capture slots that are not FREE are released and counted in OD 3800.1D. -/
def Chip.releaseCaptures (c : Chip) : Chip :=
  allSlots.foldl (fun a k => if a.slotState k = 0 then a else (a.freeSlot k).bump (od 0x3800 0x1D) 1) c

/-- The sets of a proof forme no longer fit the proof partition. -/
def Chip.proofTooLarge (c : Chip) (f : Nat) : Bool :=
  let n := mapN (c.table (od 0x6004 0))
  c.formeKind f == 3 && decide (c.rd (od 0x3C01 3) < c.rd (formeOd f 9) + round4k (c.setSize f n) + c.setSize f n)

/-- The truncation of half 1 when the galley shrinks: it moves, and the frames in it count as unreceived. -/
def Chip.moveHalf (c : Chip) : Chip := c.setHalf 1 { c.half 1 with marks := [], crcs := [] }

/-- The visibility sets of the enabled correlate formes, and what R13 requires of the galley, lie below an end of partition space (R275). -/
def Chip.setsHeld (c : Chip) (top : Nat) : Bool :=
  let n := mapN (c.table (od 0x6004 0))
  let need := c.rd (hbmOd 0x0C)
  (need == 0 || decide (c.galleyBase + need ≤ top)) &&
    (c.formesInUse.filter fun f => c.formeKind f == 1 && c.on (formeOd f 2)).all fun f =>
      decide (c.rd (formeOd f 9) + round4k (c.setSize f n) + c.setSize f n ≤ top)

/-- Partition space gives what unbacked ranks and a moved pack store need, or takes back what they need no more (R275). -/
def Chip.shrink (c : Chip) : Chip :=
  let have_ := ([1, 2, 3, 4, 5].map fun k => c.rd (od 0x3C01 k)).sum
  let top := c.hbmTop - c.packMoved
  let need := have_ - top
  let free := Nat.min need (c.rd (od 0x3C01 5))
  let c1 := (c.wr (od 0x3C01 5) (c.rd (od 0x3C01 5) - free + (top - have_))).showRanks
  let (c2, d2, g2) := shrinkStep c1 (od 0x3C01 4) 0 (need - free)
  let c3 := if g2 = 0 then c2 else (c2.restartRing c2.nextSpectrumTick).releaseCaptures
  let (c4, d4, g4) := shrinkStep c3 (od 0x3C01 3) 0 d2
  let c5 := if g4 = 0 then c4 else (c4.formesInUse.filter fun f => c4.proofTooLarge f).foldl (fun a f => a.formeTo f 0) c4
  let (c6, d6, g6) := shrinkStep c5 (od 0x3C01 2) (c5.rd (hbmOd 0x0C)) d4
  let c7 := if g6 = 0 then c6 else c6.moveHalf
  if d6 = 0 || c7.setsHeld top then c7 else (c7.fault .fail .condition (hbmOd 3) 0 (d6 / 1073741824) 0).haltPaths

/-- The redirected chunks whose target differs from the one they had while `old` was unbacked are written with POISON tags (R275, log entry 51). -/
def Dev.poisonRedirected (d : Dev) (old : List Nat) : Dev :=
  let c := d.chip
  let nL := c.logicalRanks
  let un := c.unbacked
  let target := fun (l : List Nat) (k : Nat) =>
    if l.contains (k % nL) && k < (nL - l.length) * rankChunks then some (redirect nL l k) else none
  let moved := (List.range ((nL - un.length) * rankChunks)).filterMap fun k => if target un k = target old k then none else target un k
  { d with mem := moved.foldl (fun m t => match c.rankOf (t % nL) with
      | some r => m.poisonRange (physical (r, t / nL * 4096)) (physical (r, t / nL * 4096) + 4096)
      | none => m) d.mem }

/-! ### Migrations (R273, R274) -/

/-- A rank whose stack has failed. -/
def Chip.onFailed (c : Chip) (r : Nat) : Bool := c.stackFailed (Fin.ofNat 6 (r / 3))

/-- The migration target: the lowest SPARE rank that does not hold the pack store, in a stack that has not failed (R273). -/
def Chip.spareRank (c : Chip) : Option Nat :=
  (List.range 18).find? fun r => c.rankState r == 0 && !c.onFailed r && c.rd (hbmOd 0x0E) != r

/-- The only SPARE rank holds the pack store. -/
def Chip.packSpare (c : Chip) : Bool := c.spareRank.isNone && (List.range 18).any fun r => c.rankState r == 0 && !c.onFailed r

/-- A rank that no target can take: it backs nothing any more (R275). -/
def Dev.unback (d : Dev) (r : Nat) : Dev :=
  let d1 := ({ d with chip := (d.chip.wr (rankOd r 1) 4).wr (rankOd r 2) 0xFF }).poisonRedirected d.chip.unbacked
  { d1 with chip := d1.chip.shrink }

/-- A migration of a rank starts, or the rank is left unbacked. -/
def Dev.migrate (d : Dev) (r : Nat) : Dev :=
  let move := d.chip.packSpare
  let c := if move then d.chip.movePack.shrink else d.chip
  match c.spareRank with
  | none => { d with chip := c }.unback r
  | some t =>
    let lost := c.rankLost r
    let c1 := ((c.wr (rankOd r 1) (if lost then 4 else 2)).wr (rankOd t 1) 3).wr (od 0x3C01 6) 0
    { d with chip := { c1 with hbm := { c1.hbm with migration := some ⟨r, t, 0, lost⟩ } }.showRanks }

/-- The retired ranks that wait, in rank order, one migration at a time; none while a change of OD 600B.00 is pending (R257, R273). A rank
that is left unbacked lets the next one on. -/
def Dev.startMigrations : Nat → Dev → Dev
  | 0, d => d
  | n + 1, d =>
    let c := d.chip
    if c.hbm.migration.isSome || c.pendingWrites (od 0x600B 0) then d
    else match c.hbm.waiting with
    | [] => d
    | r :: rest => ({ d with chip := { c with hbm := { c.hbm with waiting := rest } } }.migrate r).startMigrations n

/-- A rank inserted among those that wait, in rank order. -/
def rankInsert (r : Nat) : List Nat → List Nat
  | [] => [r]
  | a :: t => if r < a then r :: a :: t else if r = a then a :: t else a :: rankInsert r t

/-- A target is left for one more migration: a SPARE rank beyond those that waiting ranks take (R271, R273). -/
def Chip.targetLeft (c : Chip) : Bool :=
  decide (c.hbm.waiting.length < ((List.range 18).filter fun r => c.rankState r == 0 && !c.onFailed r).length)

/-- A rank in service is retired (R271, R272): a DEGRADE record, and its migration, which waits its turn; RETIRED at once where no target is left. -/
def Dev.retire (d : Dev) (r detail : Nat) : Dev :=
  let c := d.chip
  if c.rankState r ≠ 1 then d
  else
    let new := if c.rankLost r || !c.targetLeft then 4 else 2
    let c1 := (c.wr (rankOd r 1) new).fault .degrade .change (rankOd r 1) 1 new detail
    ({ d with chip := { c1 with hbm := { c1.hbm with waiting := rankInsert r c1.hbm.waiting } } }).startMigrations 18

/-- A rank of a failed stack that backs nothing, or is being copied, is out of service (R271, R272); what is copied into it starts over with
another target (log entry 52). -/
def Dev.loseRank (d : Dev) (r : Nat) : Dev :=
  let c := d.chip
  match c.rankState r with
  | 0 =>
    let c1 := (c.wr (rankOd r 1) 4).fault .degrade .change (rankOd r 1) 0 4 0
    { d with chip := if c.rd (hbmOd 0x0E) = r then c1.movePack.shrink else c1.showRanks }
  | 1 => d.retire r 0
  | 2 =>
    let c1 := c.wr (rankOd r 1) 4
    { d with chip := { c1 with hbm := { c1.hbm with migration := c1.hbm.migration.map fun m => if m.src = r then { m with lost := true } else m } } }
  | 3 =>
    let c1 := (c.wr (rankOd r 1) 4).fault .degrade .change (rankOd r 1) 3 4 0
    match c1.hbm.migration with
    | some m =>
      if m.dst = r then
        ({ d with chip := { c1 with hbm := { c1.hbm with migration := none, waiting := rankInsert m.src c1.hbm.waiting } } }).startMigrations 18
      else { d with chip := c1 }
    | none => { d with chip := c1 }
  | _ => d

/-- A stack fails (R272): its three ranks retire together and their contents are lost. -/
def Dev.failStack (d : Dev) (k : Fin 6) : Dev :=
  if d.chip.stackFailed k then d
  else
    let t := { d.chip.hbm.training[k] with failed := true, pass := none }
    let d1 := { d with chip := { d.chip with hbm := { d.chip.hbm with training := d.chip.hbm.training.set k t } } }
    let p := if d1.chip.rd (hbmOd 0x0E) / 3 = k.val then { d1 with chip := d1.chip.movePack.shrink } else d1
    [3 * k.val, 3 * k.val + 1, 3 * k.val + 2].foldl Dev.loseRank p

/-- RETIRE (R272): 1 written to OD 3C10+r.05. -/
def execRetire (sess : Fin 9) (r : Fin 18) (s : State) : Host.Outcome State Fault Refusal :=
  done s (s.dev.request sess.val (rankOd r.val 5) (.num 1) fun d =>
    if d.chip.rankState r.val ≠ 1 then (d, .state) else (d.retire r.val 0, .ok))

/-- The queued writes to a physical range reach their stack before it is copied. -/
def Dev.flushRange (d : Dev) (lo hi : Nat) : Dev :=
  (d.chip.hbm.pcs.map fun e => e.1).foldl (fun a k =>
    let q := a.chip.hbm.pc k
    let hit := q.writes.filter fun w => decide (lo ≤ w.addr) && decide (w.addr < hi)
    if hit.isEmpty then a
    else { a with mem := hit.foldl Mem.store a.mem,
                  chip := { a.chip with hbm := a.chip.hbm.setPc k { q with
                    writes := q.writes.filter fun w => !(decide (lo ≤ w.addr) && decide (w.addr < hi)) } } }) d

/-- Bytes of a migration block (R274). -/
def blockBytes : Nat := 8192

/-- MIGRATION_BLOCK (R270, R274): the next 8 KiB go to the target with their tags, poisoned units counted; of a failed stack's rank, only POISON tags. -/
def execMigrationBlock (s : State) : Host.Outcome State Fault Refusal :=
  let d := s.dev
  match d.chip.hbm.migration with
  | none => ok s d.chip
  | some m =>
    if rankBytes ≤ m.copied then ok s d.chip
    else
      let src := physical (m.src, m.copied)
      let dst := physical (m.dst, m.copied)
      let d1 := d.flushRange src (src + blockBytes)
      let mem := if m.lost then d1.mem.poisonRange dst (dst + blockBytes)
        else
          let copy := { d1.mem with hbm := putBytes d1.mem.hbm dst (getBytes d1.mem.hbm src blockBytes) }
          (List.range (blockBytes / 32)).foldl (fun (a : Mem) i => a.setTag (dst / 32 + i) (d1.mem.poisoned (src / 32 + i))) copy
      let to_ := m.copied + blockBytes
      let poisoned := if m.lost then 0 else ((List.range (blockBytes / 32)).filter fun i => d1.mem.poisoned (src / 32 + i)).length
      let c := d1.chip.bump (hbmOd 0x12) poisoned
      let c1 := { c with hbm := { c.hbm with migration := some { m with copied := to_ } } }
      done s { d1 with mem := mem, chip := c1.wr (od 0x3C01 6) (to_ / 1048576) }

/-- A copy is finished (R274): the rank map points at the target, the source is RETIRED, a NOTE is raised and the next migration starts. -/
def Dev.migrationEnds (d : Dev) : Dev :=
  let c := d.chip
  match c.hbm.migration with
  | none => d
  | some m =>
    let l := c.rd (rankOd m.src 2)
    let old := c.rankState m.src
    let c1 := (((c.wr (rankOd m.dst 2) l).wr (rankOd m.dst 1) 1).wr (rankOd m.src 2) 0xFF).wr (rankOd m.src 1) 4
    let c2 := ({ c1 with hbm := { c1.hbm with migration := none } }.bump (hbmOd 0x16) 1).showRanks
    ({ d with chip := c2.fault .note .change (rankOd m.src 1) old 4 0 } : Dev).startMigrations 18

/-- MIGRATION_COMPLETE (R274). -/
def execMigrationComplete (s : State) : Host.Outcome State Fault Refusal :=
  let d := s.dev
  match d.chip.hbm.migration with
  | none => ok s d.chip
  | some m => if m.copied < rankBytes then ok s d.chip else done s d.migrationEnds

end Sys2Proof.Machine
end

