-- ==== Sys2Proof/Machine/Envelope.lean ====
section
/-! DEFINITION. The envelope that every COMMIT must meet (R9-R19, R21 and the checks of other chapters that R392 lists), and the objects that
show parts of it. -/

namespace Sys2Proof.Machine

/-! ### Values that will hold after a commit -/

/-- A write laid over the values in force; a new HBM partition table sets the partition sizes, an operating-point request the point; new rates of
a lane or a bundle disabled end a fallback limit (R77); a domain goes OFF or comes back (R415). -/
def Chip.layOver (g : Chip) (e : Nat × Val) : Chip :=
  let g1 := g.put e
  if e.1 = od 0x600B 0 then
    let b := g1.hbmTable
    (((g1.wr (od 0x3C01 1) (beAt b 0 8)).wr (od 0x3C01 2) (beAt b 8 8)).wr (od 0x3C01 3) (beAt b 16 8)).wr (od 0x3C01 4) (beAt b 24 8)
  else if e.1 = od 0x5000 0x10 then g1.wr (od 0x5000 0x11) (g1.rd (od 0x5000 0x10))
  else
    let i := keyIndex e.1
    let sub := keySub e.1
    let unlimited := fun (a : Chip) (l : Nat) => a.wr (laneOd l 0x25) (a.rd (laneOd l 3))
    if 0x2100 ≤ i && i < 0x2300 && sub == 3 && g.rd e.1 != g1.rd e.1 then unlimited g1 (i - 0x2100)
    else if 0x2300 ≤ i && i < 0x2400 && sub == 1 && g1.rd e.1 == 0 then (g1.bundleLanes (i - 0x2300)).foldl unlimited g1
    else if 0x5100 ≤ i && i < 0x5160 && sub == 1 && g.rd e.1 != g1.rd e.1 then g1.wr (od i 3) (g1.rd e.1)
    else g1

/-- The chip with the values that will hold after a commit of the writes: those in force, those of every pending transaction, and
these (R21). -/
def Chip.afterCommit (c : Chip) (w : List (Nat × Val)) : Chip :=
  (c.dict.schedule.flatMap (fun p => p.writes) ++ w).foldl Chip.layOver c

/-- The enabled rows of the input map: stream and row. -/
def Chip.enabledRows (g : Chip) : List (Nat × List Byte) :=
  let body := g.table (od 0x6000 0)
  (List.range 1024).filterMap fun s => let r := mapRow body s; if rowOn r then some (s, r) else none

/-- Bytes per channel sample of a system channel (R133, R134). -/
def Chip.channelBytes (g : Chip) (ch : Nat) : Nat := sampleBytes (precision (g.table (od 0x6003 0)) ch)

/-- The truss map. -/
def Chip.mapBody (g : Chip) : List Byte := g.table (od 0x6004 0)

/-- The position's local channels. -/
def Chip.locals (g : Chip) : List Nat := localChannels g.mapBody g.node

/-- Kerf in µs. -/
def Chip.kerf (g : Chip) : Nat := g.rd (od 0x2C00 2)

/-- Formes that have a kind. -/
def Chip.kindFormes (g : Chip) : List Nat := (List.range 4096).filter fun f => g.formeKind f != 0

/-- Formes of a kind that are enabled. -/
def Chip.enabledFormes (g : Chip) (kind : Nat) : List Nat :=
  g.kindFormes.filter fun f => g.formeKind f == kind && g.on (formeOd f 2)

/-! ### Rates and sizes -/

/-- Rate of a stream as R10 counts it: the larger of f_a and f_a M / L, twice for complex samples (R10, R99). -/
def Chip.countedRate (g : Chip) (r : List Byte) : Rat :=
  let fa : Rat := (g.fa : Rat)
  let v := if rowUnity r || rowL r = 0 then fa else max fa (fa * (rowM r : Rat) / (rowL r : Rat))
  if rowFormat r = 3 then 2 * v else v

/-- Bytes of F-engine memory that the enabled streams need (R11). -/
def Chip.fengineNeed (g : Chip) : Nat :=
  (g.enabledRows.map fun e => (g.fft * (g.taps - 1) + rowSpan e.2) * formatWidth (rowFormat e.2) + g.fft / 2 * 4).sum

/-- Bytes that the galley needs (R13). -/
def Chip.galleyNeed (g : Chip) : Nat := 2 * (g.locals.map fun ch => mapN g.mapBody * g.chaseT * g.channelBytes ch).sum

/-- Factor k of an impression of a forme (R174). -/
def Chip.modeFactor (g : Chip) (f ch : Nat) : Nat :=
  let wide := g.channelBytes ch == 2 && g.rd (formeOd f 7) == 0
  if wide then 4 else if g.formeKind f = 1 then 1 else 2

/-- Impressions of a forme for a channel (R16, R215). -/
def Chip.impressionsOf (g : Chip) (f : Nat) : Nat :=
  let b := g.rd (formeOd f 6) + 1 - g.rd (formeOd f 5)
  if g.formeKind f = 1 then b * (b + 1) / 2 else g.blocks f * b

/-- Platen cycles of a chase period (R16). -/
def Chip.platenCycles (g : Chip) : Nat :=
  let fs := g.enabledFormes 1 ++ g.enabledFormes 2
  (g.locals.zipIdx.map fun e => g.chaseT * ((fs.filter fun f =>
      decide (g.rd (formeOd f 3) ≤ e.2) && decide (e.2 < g.rd (formeOd f 3) + g.rd (formeOd f 4))).map fun f =>
        g.modeFactor f e.1 * g.impressionsOf f).sum + 4096).sum

/-- Platens in service (R182). -/
def Chip.platensIn (g : Chip) : Nat := ((List.range 64).filter fun p => g.platenInService p).length

/-- Platen-cycles that a chase period offers at a platen clock in MHz, times f_a (R16). -/
def Chip.platenRoom (g : Chip) (mhz : Nat) : Nat := g.platensIn * mhz * 1000000 * g.chaseT * g.fft

/-- U exceeds its bound at a platen clock in MHz (R16, R17). -/
def Chip.overloaded (g : Chip) (mhz : Nat) : Bool :=
  let span : Int := (1000000 * g.chaseT * g.fft : Nat) - (g.kerf * g.fa : Nat)
  decide (span * (g.platensIn * mhz * 1000000 : Nat) < ((g.platenCycles * g.fa * 1000000 : Nat) : Int))

/-- U in Q16.16 (OD 3000.07). -/
def Chip.platenLoad (g : Chip) : Nat :=
  let room := g.platenRoom g.platenMHz
  if room = 0 then 0 else Nat.min (g.platenCycles * g.fa * 65536 / room) (2 ^ 32 - 1)

/-- Payload rate of a rate code in Mb/s (R52). -/
def payloadMbps (code : Nat) : Nat := [1000, 2000, 2500, 5000, 10000, 25000, 50000].getD code 0

/-- Lanes of a bundle that count for R18: those whose fallback limit leaves them the target rate (R21, R77). -/
def Chip.countedLanes (g : Chip) (b : Nat) : Nat :=
  ((List.range 512).filter fun l => g.laneBundle l == b && bitAt (g.rd (laneOd l 0x25)) (g.rd (bunOd b 2))).length

/-- SAMPLE frames of a stick that go to a peer (R145). -/
def Chip.framesTo (g : Chip) (p : Nat) : Nat :=
  let m := g.mapBody
  let n0 := (g.frameInputs m 0).length
  let n1 := (g.frameInputs m 1).length
  (((List.range (mapC m)).filter fun ch => mapOwner m ch == p).map fun ch => if g.channelBytes ch = 2 then n1 else n0).sum

/-- The bundles to a peer. -/
def Chip.bundlesTo (g : Chip) (p : Nat) : List Nat := [g.rd (peerOd p 1), g.rd (peerOd p 2)].filter fun b => decide (b < 256)

/-- Peers that own a channel or feed an input group. -/
def Chip.peersNeeded (g : Chip) : List Nat :=
  let m := g.mapBody
  let owners := (List.range (mapC m)).map (mapOwner m)
  let origins := (List.range ((mapN m + 15) / 16)).map (mapOrigin m)
  (List.range 64).filter fun p => p != g.node && (owners.contains p || origins.contains p)

/-- Payload bytes of a full frame of a stream of a kind (R342). -/
def Chip.fullPayload (g : Chip) (s kind f : Nat) : Nat :=
  let items := g.rd (outOd s 0x0B)
  match kind with
  | 1 | 2 => items * 16
  | 3 => items * beamProofBytes
  | 4 | 5 | 6 | 7 => items * unitBytes (kind - 4) (g.rd (formeOd f 0x28))
  | 8 => items * 32
  | _ => ((g.enabledRows.take items).map fun e => 4 + 1024 * formatWidth (rowFormat e.2)).sum

/-- Bytes of the IP datagram of a full frame (R340). -/
def Chip.datagramBytes (g : Chip) (s payload : Nat) : Nat :=
  (if (g.rdDom (outOd s 0x0F)).length = 16 then 40 else 20) + 8 + beAt (g.format s) 0 2 + payload

/-- Wire bytes of a frame (R338). -/
def Chip.wireBytes (g : Chip) (s payload : Nat) : Nat :=
  14 + 4 * b2n (bitAt (g.rd (outOd s 7)) 16) + g.datagramBytes s payload + 4 + 20

/-- Wire bytes of the frames that a beam stream sends in a chase period, the last frame of a short block with its own length (R19, R338, R343). -/
def Chip.beamWire (g : Chip) (s kind f : Nat) : Nat :=
  let items := g.rd (outOd s 0x0B)
  let size := unitBytes (kind - 4) (g.rd (formeOd f 0x28))
  let per := (List.range (g.blocks f)).map fun b =>
    let n := unitCount (g.rd (formeOd f 0x27)) (Nat.min 64 (g.rd (formeOd f 0x20) - 64 * b))
    n / items * g.wireBytes s (items * size) + (if n % items = 0 then 0 else g.wireBytes s (n % items * size))
  per.sum * (g.chaseT / 256) * g.rd (formeOd f 4)

/-- Sustained rate of a stream on the wire in bits a second (R19, R338). -/
def Chip.wireRate (g : Chip) (s kind f : Nat) : Rat :=
  let pay := g.fullPayload s kind f
  if pay = 0 then 0
  else
    let wire : Rat := (g.wireBytes s pay : Rat)
    if 4 ≤ kind && kind ≤ 7 then
      ((g.beamWire s kind f * 8 * g.fa : Nat) : Rat) / ((g.chaseT * g.fft : Nat) : Rat)
    else (g.rd (outOd s 5) * 1000000 : Nat) * wire / (pay : Rat)

/-- The streams that a source names, with KIND and forme. -/
def Chip.namedStreams (g : Chip) : List (Nat × Nat × Nat) :=
  let formes := g.kindFormes.filterMap fun f =>
    let s := g.rd (formeOd f 0x0A)
    if s < 256 then some (s, (match g.formeKind f with
      | 1 => 1
      | 2 => 4 + g.rd (formeOd f 0x27)
      | _ => if g.formeKind (g.rd (formeOd f 0x0C)) = 2 then 3 else 2), f) else none
  let pegs := if g.rd (trigOd 6) < 256 then [(g.rd (trigOd 6), 8, 0xFFFF)] else []
  let slots := if g.rd (trigOd 4) < 256 then [(g.rd (trigOd 4), 9, 0xFFFF)] else []
  formes ++ (pegs ++ slots)

/-- MAC rate of a port in Gb/s; 0 when OFF (R333). -/
def Chip.portGbps (g : Chip) (p : Nat) : Nat := match g.rd (portOd p 1) with | 1 => 100 | 2 => 200 | 3 => 400 | _ => 0

/-- Bytes that the ingest share must hold (R112). -/
def Chip.ingestNeed (g : Chip) : Nat :=
  let rows := g.enabledRows
  let ring := mkRing (g.table (od 0x6000 0)) 0 (g.rd (od 0x3C01 4)) 0
  (rows.map fun e => (g.rd (strOd e.1 9) + 2048) * formatWidth (rowFormat e.2)).sum + ring.rows / 64 * rows.length

/-- Bytes that the truss share must hold (R163): the buffers of every MESH and TWIN bundle, and two receipt maps of the larger of the halves'
and of the layout to come. -/
def Chip.trussNeed (g : Chip) : Nat :=
  let buffers := ((List.range 256).map fun b => (g.advertised b).sum * 64).sum
  let map := receiptBytes g.mapBody (g.table (od 0x6003 0)) g.node g.chaseT
  buffers + 2 * Nat.max map (Nat.max (g.half 0).bytes (g.half 1).bytes) + 262144

/-- Weight store and ledger share, in bytes (R216). -/
def Chip.weightStore (g : Chip) : Nat := g.rd (od 0x3400 1) * 1048576
/-- The ledger share in bytes. -/
def Chip.ledgerShare (g : Chip) : Nat := g.rd (od 0x3400 2) * 1048576
/-- The trigger share in bytes (R216). -/
def Chip.triggerShare (g : Chip) : Nat := g.sramPart 2 - (g.weightStore + g.ledgerShare)

/-- Bytes that the weight store must hold (R216). -/
def Chip.weightNeed (g : Chip) : Nat :=
  ((g.kindFormes.filter fun f => g.formeKind f == 2).map fun f => 12 * g.rd (formeOd f 0x20) * g.formeInputs f (mapN g.mapBody)).sum

/-- Number of trigger beams (R225). -/
def Chip.triggerBeams (g : Chip) : Nat := ((g.kindFormes.filter fun f => g.feeds f).map fun f => g.rd (formeOd f 0x20)).sum

/-- Largest DELAY of a trial table below 0xFF (R227). -/
def maxDelay (b : List Byte) : Nat :=
  ((b.drop 8).take (beAt b 0 2 * beAt b 2 2)).foldl (fun a x => if x.toNat < 255 then Nat.max a x.toNat else a) 0

/-- Largest enabled boxcar width (R228). -/
def maxBoxcar (mask : Nat) : Nat := (List.range 9).foldl (fun a j => if bitAt mask j then 2 ^ j else a) 0

/-- Bytes that the trigger share must hold (R231). -/
def Chip.triggerNeed (g : Chip) : Nat :=
  let b := g.table (od 0x6007 0)
  let d := beAt b 0 2
  let nt := g.triggerBeams
  nt * d * (g.chaseT / g.rd (trigOd 7) + maxDelay b + maxBoxcar (g.rd (trigOd 9))) * 4 + nt * d * 16 + d * beAt b 2 2 + 1048576

/-- P_k (R258). -/
def Chip.packNeed (g : Chip) : Nat :=
  512 * g.enabledRows.length * ((List.range (g.fft / 2)).map fun ch => g.channelBytes ch).sum

/-- Bytes of output staging (R339). -/
def Chip.outputStaging (g : Chip) : Nat := g.sramPart 4 - 1048576 - g.loadArea

/-- Bytes that output staging must hold (R339). -/
def Chip.outputNeed (g : Chip) : Nat :=
  (((List.range 256).filter fun s => g.on (outOd s 1)).map fun s => g.rd (outOd s 0x0C) * 1024).sum + 262144

/-! ### The checks, each the object concerned on failure -/

/-- R9: two enabled rows feed one system input. -/
def Chip.check9 (g : Chip) : Option Nat :=
  let ins := g.enabledRows.map fun e => rowInput e.2
  if ins.Nodup then none else some (od 0x6000 0)

/-- R10: at most 128 streams and 51.2 GS/s for an F slice. -/
def Chip.check10 (g : Chip) : Option Nat :=
  if (List.range 8).any fun f =>
      let l := g.enabledRows.filter fun e => rowSlice e.2 == f
      decide (128 < l.length) || decide ((51200000000 : Rat) < (l.map fun e => g.countedRate e.2).foldl (· + ·) 0)
  then some (od 0x6000 0) else none

/-- R11. -/
def Chip.check11 (g : Chip) : Option Nat := if g.sramPart 1 < g.fengineNeed then some (od 0x6000 0) else none

/-- R12: every slab fits a chase half. -/
def Chip.check12 (g : Chip) : Option Nat :=
  if (List.range (mapC g.mapBody)).any fun ch => decide (67108864 < mapN g.mapBody * g.chaseT * g.channelBytes ch)
  then some (od 0x2C00 7) else none

/-- R13. -/
def Chip.check13 (g : Chip) : Option Nat := if g.rd (od 0x3C01 2) < g.galleyNeed then some (od 0x6004 0) else none

/-- R14 and R180: the two sets of every enabled correlate forme. -/
def Chip.check14 (g : Chip) : Option Nat :=
  let r := (g.enabledFormes 1).foldl (fun (a : Nat × Option Nat) f =>
    let t := a.1 + 2 * g.setSize f (mapN g.mapBody)
    (t, if a.2.isNone && decide (g.rd (od 0x3C01 1) < t) then some (formeOd f 9) else a.2)) (0, none)
  r.2

/-- R15: a dump of at most 65 535 sticks. -/
def Chip.check15 (g : Chip) : Option Nat :=
  (g.kindFormes.find? fun f => g.formeKind f == 1 && decide (65535 < g.rd (formeOd f 8) * g.chaseT / 256)).map fun f => formeOd f 8

/-- R16. -/
def Chip.check16 (g : Chip) : Option Nat := if g.overloaded g.platenMHz then some (od 0x6005 0) else none

/-- R18, R28, R142: a bundle to every peer, each with the SAMPLE traffic, 519 blocks a frame (R62), within 90 % of its payload rate. -/
def Chip.check18 (g : Chip) : Option Nat :=
  (g.peersNeeded.find? fun p =>
    let bits := g.framesTo p * 4152 * 8 * g.fa
    (g.bundlesTo p).isEmpty || (g.bundlesTo p).any fun b =>
      decide (9 * (g.countedLanes b * payloadMbps (g.rd (bunOd b 2)) * 1000000) * (256 * g.fft) < 10 * bits)).map fun p => peerOd p 1

/-- R19: 95 % of the MAC rate on each port, and a visibility set read out before it is reused. -/
def Chip.check19 (g : Chip) : Option Nat :=
  let named := g.namedStreams.filter fun e => g.on (outOd e.1 1)
  let slow := named.find? fun e => e.2.1 == 1 &&
    decide ((g.rd (outOd e.1 5) * (g.rd (formeOd e.2.2 8) * g.chaseT * g.fft * 1000000 + g.kerf * g.fa) : Nat) <
      g.setSize e.2.2 (mapN g.mapBody) * 8 * g.fa)
  match slow with
  | some e => some (outOd e.1 5)
  | none =>
    ((List.range 8).find? fun p => g.portGbps p != 0 &&
      decide (((95 * g.portGbps p * 10000000 : Nat) : Rat) <
        ((named.filter fun e => g.rd (outOd e.1 2) == p).map fun e => g.wireRate e.1 e.2.1 e.2.2).foldl (· + ·) 0)).map fun p => portOd p 1

/-- R112. -/
def Chip.check112 (g : Chip) : Option Nat :=
  if g.rd (od 0x2400 3) * 1048576 < g.ingestNeed then some (od 0x2400 3) else none

/-- R163. -/
def Chip.check163 (g : Chip) : Option Nat :=
  if g.sramPart 3 < g.trussNeed + g.rd (od 0x2400 3) * 1048576 then some (od 0x2400 3) else none

/-- R202: an enabled beam forme has a ledger slot. -/
def Chip.check202 (g : Chip) : Option Nat :=
  if !(g.enabledFormes 2).isEmpty && g.ledgerSlots == 0 then some (od 0x3400 2) else none

/-- R216. -/
def Chip.check216 (g : Chip) : Option Nat :=
  if g.weightStore < g.weightNeed then some (od 0x3400 1)
  else if g.sramPart 2 < g.weightStore + g.ledgerShare then some (od 0x3400 2) else none

/-- R225. -/
def Chip.check225 (g : Chip) : Option Nat :=
  if 4096 < g.triggerBeams then ((g.kindFormes.filter fun f => g.feeds f).getLast?).map fun f => formeOd f 0x2C else none

/-- R231. -/
def Chip.check231 (g : Chip) : Option Nat := if g.triggerShare < g.triggerNeed then some (od 0x6007 0) else none

/-- R258: at most 12 GiB. -/
def Chip.check258 (g : Chip) : Option Nat := if rankBytes < g.packNeed then some (od 0x6003 0) else none

/-- R339: the buffers fit, and a beam stream's buffer holds a beam block. -/
def Chip.check339 (g : Chip) : Option Nat :=
  if g.outputStaging < g.outputNeed then some (od 0x4400 1)
  else
    (g.namedStreams.find? fun e => decide (4 ≤ e.2.1) && decide (e.2.1 ≤ 7) && g.on (outOd e.1 1) &&
      decide (g.rd (outOd e.1 0x0C) * 1024 < 64 * (g.chaseT / 256) * unitBytes (e.2.1 - 4) (g.rd (formeOd e.2.2 0x28)))).map fun e =>
        outOd e.1 0x0C

/-- R99: no stream above 6.4 GS/s. -/
def Chip.check99 (g : Chip) : Option Nat :=
  if g.enabledRows.any fun e => decide ((6400000000 : Rat) < g.countedRate e.2) then some (od 0x6000 0) else none

/-- R144: under a truss map every enabled row feeds an input below N, in a group of this position. -/
def Chip.check144 (g : Chip) : Option Nat :=
  let m := g.mapBody
  if !m.isEmpty && g.enabledRows.any fun e =>
      decide (mapN m ≤ rowInput e.2) || mapOrigin m (rowInput e.2 / 16) != g.node
  then some (od 0x6000 0) else none

/-- R251: the shares fit their partitions; output staging is at least 2 MiB. -/
def Chip.check251 (g : Chip) : Option Nat :=
  if g.sramPart 3 < (g.rd (od 0x2400 3) + 1) * 1048576 then some (od 0x2400 3)
  else if g.sramPart 4 < 3145728 + g.loadArea then some (od 0x4400 1) else none

/-- The checks in the order of their codes (R21, R392). -/
def envelopeChecks : List (Nat × (Chip → Option Nat)) :=
  [(1, Chip.check9), (2, Chip.check10), (3, Chip.check11), (4, Chip.check12), (5, Chip.check13), (6, Chip.check14),
   (7, Chip.check15), (8, Chip.check16), (9, Chip.check18), (0xA, Chip.check19), (0xB, Chip.check112), (0xC, Chip.check163),
   (0xD, Chip.check202), (0xE, Chip.check216), (0xF, Chip.check225), (0x10, Chip.check231), (0x11, Chip.check258),
   (0x12, Chip.check339), (0x13, Chip.check99), (0x14, Chip.check144), (0x15, Chip.check251)]

/-- The first check that fails, and its object (R21). -/
def Chip.envelope (g : Chip) : Option (Nat × Nat) :=
  envelopeChecks.findSome? fun e => (e.2 g).map fun o => (e.1, o)

/-! ### What the objects show of it -/

/-- The objects that show parts of the envelope follow a transaction's effect. -/
def Chip.showEnvelope (c : Chip) : Chip :=
  let sets := ((List.range 4096).filter fun f => c.formeKind f != 0 || c.rd (formeOd f 0x11) != 0).map fun f => (formeOd f 0x11, c.setSize f (mapN c.mapBody))
  let l := sets ++ [(od 0x3000 7, c.platenLoad), (hbmOd 0x0C, c.galleyNeed), (hbmOd 0x0D, c.packNeed),
    (trigOd 0x0F, c.triggerBeams % 65536), (trigOd 0x10, c.triggerShare), (trigOd 0x11, c.triggerNeed % 2 ^ 32),
    (od 0x3400 3, c.ledgerSlots % 65536), (od 0x4400 2, c.outputStaging), (od 0x4400 3, c.outputNeed % 2 ^ 32),
    (od 0x3000 2, c.platensIn)]
  l.foldl (fun a e => a.wr e.1 e.2) c

/-! ### The conditions of a partition change (R251, R257) -/

/-- The value of an object in force, in every pending transaction and in the given writes. -/
def Chip.everyValue (c : Chip) (w : List (Nat × Val)) (k : Nat) : List Val :=
  c.over [] k :: ((c.dict.schedule.flatMap (fun p => p.writes) ++ w).filter fun e => e.1 == k).map fun e => e.2

/-- Some row of an input map is enabled. -/
def anyRowOn (v : Val) : Bool :=
  match v with
  | .num _ => false
  | .bytes b => (List.range 1024).any fun s => rowOn (mapRow (tableBody b) s)

/-- The conditions of R251 hold, with run and enable objects judged over a transaction's writes. -/
def Chip.partitionFree (c : Chip) (w : List (Nat × Val)) : Bool :=
  c.rd (od 0x2800 9) == 0 && c.rd (od 0x3000 4) == 0 && c.halfState 0 == 0 && c.halfState 1 == 0 &&
  (c.everyValue w (trigOd 1)).all (fun v => v == .num 0) && (c.everyValue w (od 0x6000 0)).all (fun v => !anyRowOn v) &&
  (List.range 32).all fun ch => c.dmaState ch == 0

/-- The further conditions of a change of the HBM partition table (R257). -/
def Chip.hbmFree (c : Chip) : Bool :=
  (c.formesInUse.all fun f => c.formeState f != 2) && c.hbm.migration.isNone && c.hbm.waiting.isEmpty

end Sys2Proof.Machine
end

