-- ==== Sys2Proof/Machine/Reply.lean ====
section
/-! DEFINITION. How a request is answered: by a status, by a BDP response (R376-R384) or by an SDO frame (R387-R390). -/

namespace Sys2Proof.Machine

/-- Session k. -/
def Chip.session (c : Chip) (k : Nat) : Session := c.dict.sessions[(Fin.ofNat 9 k)]

/-- Session k set. -/
def Chip.setSession (c : Chip) (k : Nat) (x : Session) : Chip :=
  { c with dict := { c.dict with sessions := c.dict.sessions.set (Fin.ofNat 9 k) x } }

/-- The nonces that the tag of a request takes: 0 for OPEN (R384). -/
def Chip.nonces (c : Chip) (op sess : Nat) : List Byte × List Byte :=
  if op = 1 || sess = 0 || 8 < sess then (nonce0, nonce0) else ((c.session sess).nonceD, (c.session sess).nonceH)

/-- A header and body sent to where a request came from, with its tag while authorization is on (R376, R384). -/
def Chip.bdpOut (c : Chip) (op sess : Nat) (d : Bdp) (dg : List Byte) : Chip :=
  let (nd, nh) := c.nonces op sess
  let tag := if c.on (od 0x1400 1) then bdpTag c.dict.key nd nh dg else []
  c.send (.udp d.v6 d.ip d.port.toNat d.mac.toNat (dg ++ tag))

/-- A BDP response, kept for a repeat of its request, and sent to the repeats that came before it (R377, R382). -/
def Chip.bdpReply (c : Chip) (op sess : Nat) (d : Bdp) (more : Bool) (st : Status) (body : List Byte) : Chip :=
  let dg := bdpHeader (c.on (od 0x1400 1)) more op sess d.reqId.toNat st.code body.length ++ body
  if 1 ≤ sess && sess ≤ 8 then
    let x := c.session sess
    let c1 := c.setSession sess { x with lastReply := dg, repeats := [] }
    x.repeats.foldl (fun a r => a.bdpOut op sess r dg) (c1.bdpOut op sess d dg)
  else c.bdpOut op sess d dg

/-- Some subindex of an index exists. -/
def indexExists (i : Nat) : Bool := (objGroup i).isSome

/-- The SDO abort code of a status (R390). -/
def abortCode (key : Nat) (reading : Bool) : Status → Nat
  | .noObject => if indexExists (keyIndex key) then 0x06090011 else 0x06020000
  | .access =>
    if reading then 0x06010001
    else match objRow (keyIndex key) (keySub key) with
      | some r => if r.acc == .const || r.acc == .ro then 0x06010002 else 0x06010000
      | none => 0x06010000
  | .type => 0x06070010
  | .range => 0x06090030
  | .stageFull => 0x05040005
  | .domainOff => 0x08000021
  | _ => 0x08000022

/-- A CAN frame from the SDO server (R387). -/
def Chip.sdoSend (c : Chip) (frame : List Byte) : Chip := c.send (.can (0x580 + c.rd (od 0x1100 9)) frame)

/-- An SDO frame's command byte and object (R387). -/
def sdoHead (cmd key : Nat) : List Byte := beBytes 1 cmd ++ (leBytes 2 (keyIndex key) ++ beBytes 1 (keySub key))

/-- An SDO transfer aborted with a code (R387, R390). -/
def Chip.sdoAbort (c : Chip) (key code : Nat) : Chip := c.sdoSend (sdoHead 0x80 key ++ leBytes 4 code)

/-- A request ends with a status (R365); a COMMIT response has its fields 0 where they do not apply (R378). -/
def Chip.reply (c : Chip) (a : Asker) (st : Status) : Chip :=
  match a with
  | .nobody => c
  | .plain sess key => c.answer sess key st
  | .bdp op d => c.bdpReply op d.session.toNat d false st (if op = 0x21 then List.replicate 20 0 else [])
  | .sdo frame key =>
    let c1 := c.wr (od 0x1100 0x0C) st.code
    if st = .ok then (c1.sdoSend frame).bump (od 0x1100 0x12) 1 else c1.sdoAbort key (abortCode key false st)

/-- The answer of a request that has ended; one that has not is answered later. -/
def Chip.replyIf (c : Chip) (a : Asker) : Option Status → Chip
  | some st => c.reply a st
  | none => c

/-- A single write by a session whose effect may end later (R361, R365). -/
def Dev.ask (d : Dev) (sess key : Nat) (v : Val) (act : Dev → Asker → Dev × Option Status) : Dev :=
  match d.chip.gate false sess key v with
  | .act =>
    let (d1, st) := act d (.plain sess key)
    { d1 with chip := d1.chip.replyIf (.plain sess key) st }
  | _ => { d with chip := d.chip.request sess key v fun c => (c, .ok) }

end Sys2Proof.Machine
end

