-- ==== Sys2Proof/Machine/Power.lean ====
section
/-! DEFINITION. Power domains, operating points, the HBM rate, regulators, SLEEP and wake (R413-R430). -/

namespace Sys2Proof.Machine

/-- OD 5000.sub. -/
def powOd (sub : Nat) : Nat := od 0x5000 sub
/-- OD 5020+i.sub. -/
def regOd (i sub : Nat) : Nat := od (0x5020 + i) sub
/-- OD 5100+d.sub. -/
def domOd (d sub : Nat) : Nat := od (0x5100 + d) sub

/-- A power event's report (R429). -/
def Chip.powerEvent (c : Chip) (code dom dstate detail : Nat) (st : Status) : Chip :=
  c.event 8 (beBytes 1 code ++ (beBytes 1 c.device ++ (beBytes 1 dom ++ (beBytes 1 dstate ++ (beBytes 1 detail ++ (beBytes 1 st.code ++
    (beBytes 2 0 ++ beBytes 8 c.lc)))))))

/-- A power request ends: OD 5000.04 and the answer (R430). -/
def Chip.powerEnds (c : Chip) (a : Asker) (st : Status) : Chip := (c.wr (powOd 4) st.code).reply a st

/-- The status of a request that ends at once, in OD 5000.04 too. -/
def Chip.powerStatus (c : Chip) (st : Status) : Chip := c.wr (powOd 4) st.code

/-! ### Moving one domain (R415-R418) -/

/-- The table of R415 allows a domain the state: IDLE, NAP, or OFF. -/
def domAllows (d v : Nat) : Bool :=
  if v = 2 || v = 3 then 3 ≤ d && d ≤ 85 else if v = 0 then 6 ≤ d && d ≤ 85 else false

/-- The lane is in an enabled bundle or in a test mode. -/
def Chip.laneUsed (c : Chip) (l : Nat) : Bool := c.bundleOn (c.laneBundle l) || c.laneState l == 0x0D

/-- The domain's users are stopped (R415). -/
def Dev.usersStopped (d : Dev) (dom : Nat) : Bool :=
  let c := d.chip
  if dom < 3 then false
  else if dom = 3 then c.halfState 0 == 0 && c.halfState 1 == 0 && (List.range 256).all fun b => !(c.bundleOn b && c.credited b)
  else if dom = 4 then c.rd (trigOd 1) == 0 &&
    c.formesInUse.all fun f => !(c.formeKind f == 2 && (c.formeState f == 2 || c.formeState f == 3))
  else if dom = 5 then (List.range 256).all fun s => !c.on (outOd s 1)
  else if dom < 38 then
    ((List.range 16).all fun i => !c.laneUsed (16 * (dom - 6) + i)) &&
      (List.range 8).all fun p => c.rd (portOd p 1) == 0 || (448 + 8 * p) / 16 != dom - 6
  else if dom < 70 then c.rd (xOd 4) == 0
  else if dom < 78 then c.rd (chanOd 9) == 0
  else if dom < 86 then
    let mode := (d.cores[(Fin.ofNat 8 (dom - 78))]).mode
    (mode == .off || mode == .reset || mode == .idle || mode == .halted) &&
      (List.range 32).all fun ch => c.dmaState ch == 0 ||
        (dmaDomain c (c.dma ch).desc.src != dom && dmaDomain c (c.dma ch).desc.dst != dom)
  else false

/-- A domain's state shown. -/
def Chip.domTo (c : Chip) (dom st : Nat) : Chip := c.wr (domOd dom 3) st

/-- The contents of a domain that goes OFF: its objects, and what its units hold, take their reset values (R414, R415); a
setter's accesses in flight are discarded at the crossing (R460). -/
def Dev.domLost (d : Dev) (dom : Nat) : Dev :=
  let c := d.chip
  let c1 := { c with obj := c.obj.filter (fun e => domainOf e.1 != dom), dom := c.dom.filter (fun e => domainOf e.1 != dom) }
  if dom < 6 then { d with chip := c1 }
  else if dom < 38 then
    { d with chip := { c1 with lanes := c1.lanes.filter fun e => e.1 / 16 != dom - 6 } }
  else if dom < 70 then
    { d with chip := { c1 with xe := { c1.xe with platens := c1.xe.platens.filter fun e => e.1 / 2 != dom - 38 } } }
  else if dom < 78 then
    let mine := fun (s : Nat) => rowSlice (c.row s) == dom - 70
    { d with chip := { c1 with fe := { c1.fe with accs := c1.fe.accs.filter fun e => !mine e.1,
                                                  reports := c1.fe.reports.filter fun r => !mine r.stream } } }
  else
    let n : Fin 8 := Fin.ofNat 8 (dom - 78)
    let flying := d.cores[n].farLoads.length + d.cores[n].farStores.length
    { d with chip := c1.crossing flying, cores := d.cores.set n Setter.atReset }

/-- A domain starts to drain (R417); whoever asked is answered when it has drained. -/
def Chip.startDrain (c : Chip) (dom target : Nat) (a : Asker) : Chip :=
  let c1 := c.domTo dom 5
  { c1 with power := { c1.power with drains := c1.power.drains ++ [⟨dom, target, a, c.lc⟩] } }

/-- A write of OD 5100+d.02 (R415, R418). -/
def Dev.domainRequest (d : Dev) (dom v : Nat) (a : Asker) : Dev × Option Status :=
  let c := d.chip
  let st := c.domState dom
  let ends := fun (x : Chip) (r : Status) => (({ d with chip := x.powerStatus r } : Dev), some r)
  if v = 1 then
    if st = 1 then ends (c.wr (domOd dom 2) 1) .ok
    else if st = 2 || st = 3 then ends (c.wr (domOd dom 2) 1) .ok
    else ends c .state
  else if !domAllows dom v then ends c .range
  else if st = 2 || st = 3 then ends ((c.wr (domOd dom 2) v).domTo dom v) .ok
  else if st ≠ 1 || !d.usersStopped dom then ends c .state
  else (({ d with chip := (c.wr (domOd dom 2) v).startDrain dom v a } : Dev), none)

/-- DOMAIN_STATE_REQUEST. -/
def execDomainStateRequest (sess : Fin 9) (d : Fin 96) (value : BitVec 8) (s : State) : Host.Outcome State Fault Refusal :=
  done s (s.dev.ask sess.val (domOd d.val 2) (.num value.toNat) fun x a => x.domainRequest d.val value.toNat a)

/-- The effect of OD 5100+d.01 (R415): 0 drains the domain towards OFF; 1 powers, clocks and resets it. -/
def Dev.configuredEffect (d : Dev) (dom old new : Nat) : Dev :=
  let c := d.chip
  if old = new then d
  else if new = 0 then
    if c.domState dom = 1 then { d with chip := c.startDrain dom 0 .nobody }
    else
      let d1 := d.domLost dom
      { d1 with chip := (d1.chip.domTo dom 0).powerEvent 6 dom 0 0 .ok }
  else
    let d1 := { d with chip := (((c.domTo dom 1).wr (domOd dom 2) 1).powerEvent 6 dom 1 0 .ok).showEnvelope }
    if 78 ≤ dom && dom ≤ 85 then
      let n : Fin 8 := Fin.ofNat 8 (dom - 78)
      { d1 with cores := d1.cores.set n (Setter.resetKeep [] [] []) }
    else d1

/-- DOMAIN_DRAIN_COMPLETE (R417). -/
def execDomainDrainComplete (d : Fin 96) (s : State) : Host.Outcome State Fault Refusal :=
  let c := s.dev.chip
  match c.power.drains.find? fun x => x.dom == d.val with
  | none => ok s c
  | some x =>
    let c1 := { c with power := { c.power with drains := c.power.drains.filter fun y => y.dom != d.val } }
    let d1 := ({ s.dev with chip := c1 } : Dev)
    let d2 := if x.target = 0 then d1.domLost d.val else d1
    let c2 := ((d2.chip.domTo d.val x.target).powerEvent 6 d.val x.target 0 .ok).showEnvelope
    done s { d2 with chip := c2.powerEnds x.asker .ok }

/-- A stack's training state set. -/
def Chip.setTraining (c : Chip) (k : Fin 6) (t : StackTraining) : Chip :=
  { c with hbm := { c.hbm with training := c.hbm.training.set k t } }

/-- Temperature of a stack as OD 3C10+r.06 shows it. -/
def Chip.rankTemp (c : Chip) (k : Fin 6) : Int := toI (c.rd (rankOd (3 * k.val) 6)) 8

/-- No training step holds up a SLEEP any more (R265, R425). -/
def Chip.noDeferral (c : Chip) : Chip :=
  { c with hbm := { c.hbm with training := c.hbm.training.map fun t => { t with deferred := false } } }

/-- A SLEEP request ends without sleep: every domain returns to its previous state (R425). -/
def Chip.sleepBack (c : Chip) (x : SleepCtl) : Chip :=
  let c1 := ((x.prev.zipIdx.foldl (fun a e => a.domTo e.2 e.1) c).wr (powOd 1) 0).noDeferral
  { c1 with power := { c1.power with sleep := none } }

/-- The stacks that are in a training step defer a SLEEP, each counted once (R265). -/
def Chip.deferSleep (c : Chip) : Chip :=
  ([0, 1, 2, 3, 4, 5] : List (Fin 6)).foldl (fun a k =>
    let t := a.hbm.training[k]
    if t.pass.isSome && !t.deferred then (a.setTraining k { t with deferred := true }).bump (hbmOd 0x14) 1 else a) c

/-- A drain timeout counted (R417). -/
def Chip.countDrain (c : Chip) (dom : Nat) : Chip := (c.bump (powOd 0x1B) 1).bump (domOd dom 4) 1

/-- Local Counter value at which a drain that began at another one has lasted the drain limit of OD 5000.05 (R417). -/
def Chip.drainLimit (c : Chip) (since : Nat) : Nat := since + c.rd (powOd 5) * 1000

/-- DRAIN_TIMEOUT (R417, R425). -/
def execDrainTimeout (d : Fin 96) (s : State) : Host.Outcome State Fault Refusal :=
  let c := s.dev.chip
  if c.domState d.val ≠ 5 then ok s c
  else match c.power.drains.find? fun x => x.dom == d.val with
  | some x =>
    let c := c.untilLc (c.drainLimit x.since)
    let c1 := { c with power := { c.power with drains := c.power.drains.filter fun y => y.dom != d.val } }
    let c2 := (((c1.domTo d.val 1).wr (domOd d.val 2) 1).countDrain d.val).powerEvent 3 d.val 1 0 .drainTimeout
    ok s (c2.powerEnds x.asker .drainTimeout)
  | none =>
    match c.power.sleep with
    | none => ok s c
    | some x =>
      let c := c.untilLc (c.drainLimit x.since)
      let c1 := ((c.sleepBack x).countDrain d.val).powerEvent 3 d.val (x.prev.getD d.val 1) 0 .drainTimeout
      ok s (c1.powerEnds x.asker .drainTimeout)

/-- DOMAIN_RETURN_COMPLETE (R418). -/
def execDomainReturnComplete (d : Fin 96) (s : State) : Host.Outcome State Fault Refusal :=
  let c := s.dev.chip
  let st := c.domState d.val
  if (st = 2 || st = 3) && c.rd (domOd d.val 2) == 1 then ok s ((c.domTo d.val 1).powerEvent 6 d.val 1 0 .ok) else ok s c

/-! ### Regulators (R422) -/

/-- Regulator i is configured: it has a rail and an address. -/
def Chip.regOn (c : Chip) (i : Nat) : Bool := c.rd (regOd i 1) != 0 && c.rd (regOd i 2) != 0xFF

/-- The regulators of VDD_CORE. -/
def Chip.coreRegs (c : Chip) : List Nat := (List.range 16).filter fun i => c.regOn i && c.rd (regOd i 1) == 1

/-- The VOUT_MODE read from a regulator. -/
def Chip.voutMode (c : Chip) (i : Nat) : Option Nat := sget (fun _ => none) c.power.modes i

/-- Millivolts in ULINEAR16 under a VOUT_MODE: the nearest code (R422). -/
def toLinear (mode mv : Nat) : Nat :=
  let e := toI mode 5
  (rdiv ((mv * 2 ^ (-e).toNat : Nat) : Int) (1000 * 2 ^ e.toNat)).toNat % 65536

/-- A ULINEAR16 code in millivolts, to the nearest. -/
def ofLinear (mode code : Nat) : Nat :=
  let e := toI mode 5
  (rdiv ((code * 1000 * 2 ^ e.toNat : Nat) : Int) (2 ^ (-e).toNat)).toNat

/-- VOUT_COMMAND sent to a regulator; where its VOUT_MODE was never read, the code is a free value (log entry 3). -/
def Chip.sendVout (c : Chip) (mv i : Nat) : Chip :=
  match c.voutMode i with
  | some m => c.send (.pmbus (c.rd (regOd i 2)) 0x21 (toLinear m mv))
  | none => let (v, c1) := c.freeBits 16; c1.send (.pmbus (c.rd (regOd i 2)) 0x21 v)

/-- VDD_CORE asked for a voltage. -/
def Chip.setCore (c : Chip) (mv : Nat) : Chip := c.coreRegs.foldl (fun a i => a.sendVout mv i) c

/-- VDD_CORE of an operating point in mV (R419). -/
def pointMv (p : Nat) : Nat := [600, 660, 740, 830].getD p 740

/-- A VDD_CORE regulator reports another VOUT_MODE than ULINEAR16 (R422): a DEGRADE, once. -/
def Chip.modeRead (c : Chip) (i mode : Nat) : Chip :=
  let c1 := { c with power := { c.power with modes := sset (fun _ => none) c.power.modes i (some mode) } }
  if mode / 32 = 0 || c.rd (regOd i 1) ≠ 1 || c1.power.badMode then c1
  else ({ c1 with power := { c1.power with badMode := true } }.fault .degrade .condition (regOd i 1) 0 mode 0).powerEvent 8 0xFF 0xFF i .ok

/-- One regulator's reading (R422). -/
def Chip.regRead (c : Chip) (r : RegReading) : Chip :=
  let i := r.reg.val
  if !c.regOn i then c
  else
    let mv := ofLinear r.voutMode.toNat r.vout.toNat % 65536
    let c1 := c.modeRead i r.voutMode.toNat
    let c2 := [(regOd i 3, mv), (regOd i 4, r.iout.toNat), (regOd i 5, r.statusWord.toNat), (regOd i 6, r.temperature.toNat)].foldl
      (fun a e => a.wr e.1 e.2) c1
    if c.rd (regOd i 1) = 1 then c2.wr (powOd 0x14) mv else c2

/-- PMBUS_POLL (R422): every configured regulator is read. -/
def execPmbusPoll (readings : List RegReading) (s : State) : Host.Outcome State Fault Refusal :=
  ok s (readings.foldl Chip.regRead s.dev.chip)

/-- A STATUS_WORD read at an alert: logged when a fault bit is set; a fault of an HBM supply fails its stacks (R422, R272). -/
def Dev.regAlert (d : Dev) (e : Nat × Nat) : Dev :=
  let i := e.1
  let w := e.2 % 65536
  let c := d.chip
  if 16 ≤ i || !c.regOn i then d
  else
    let c1 := (c.send (.pmbus (c.rd (regOd i 2)) 0x79 0)).wr (regOd i 5) w
    if w = 0 then { d with chip := c1 }
    else
      let c2 := (c1.fault .degrade .condition (regOd i 5) 0 w 0).powerEvent 8 0xFF 0xFF i .ok
      let d1 := { d with chip := c2 }
      if c.rd (regOd i 1) = 7 then
        ([0, 1, 2, 3, 4, 5] : List (Fin 6)).foldl (fun (a : Dev) k => if bitAt (c.rd (regOd i 7)) k.val then a.failStack k else a) d1
      else d1

/-! ### Wake sources (R425, R426) -/

/-- A wake source occurs: latched while a SLEEP is in progress or held, where OD 5000.06 enables it. -/
def Chip.latchWake (c : Chip) (bit : Nat) : Chip :=
  match c.power.sleep with
  | some x =>
    if bitAt (c.rd (powOd 6)) bit && (c.device == 1 || c.device == 2) then
      { c with power := { c.power with sleep := some { x with latched := x.latched ||| 2 ^ bit } } }
    else c
  | none => c

/-- A wake source is enabled and the chip is entering SLEEP or in it. -/
def Chip.wakes (c : Chip) (bit : Nat) : Bool := bitAt (c.rd (powOd 6)) bit && (c.device == 1 || c.device == 2)

/-- PMB_ALERT (R422, R426). -/
def execPmbAlert (words : List (Nat × Nat)) (s : State) : Host.Outcome State Fault Refusal :=
  done s (words.foldl Dev.regAlert { s.dev with chip := s.dev.chip.latchWake 4 })

/-- OD 5020+i.08 written (R422). -/
def Chip.clearReg (c : Chip) (i v : Nat) : Chip :=
  if v = 1 && c.rd (regOd i 2) != 0xFF then c.send (.pmbus (c.rd (regOd i 2)) 0x03 0) else c

/-- CLEAR_FAULTS (R422). -/
def execClearFaults (sess : Fin 9) (i : Fin 16) (s : State) : Host.Outcome State Fault Refusal :=
  ok s (s.dev.chip.request sess.val (regOd i.val 8) (.num 1) fun c => (c.clearReg i.val 1, .ok))

/-- WAKE_L_ASSERT (R426): low for at least 1 µs. -/
def execWakeLAssert (heldNs : Nat) (s : State) : Host.Outcome State Fault Refusal :=
  ok s (if 1000 ≤ heldNs then s.dev.chip.latchWake 0 else s.dev.chip)

/-- CAN_WAKE_FRAME (R426): the frame is not answered. -/
def execCanWakeFrame (s : State) : Host.Outcome State Fault Refusal := ok s (s.dev.chip.latchWake 1)

/-- MGT_WAKE_DATAGRAM (R426): the datagram is discarded. -/
def execMgtWakeDatagram (s : State) : Host.Outcome State Fault Refusal := ok s (s.dev.chip.latchWake 2)

/-- SILL_WAKE_TIMER (R426): OD 5000.08 ms of XO count, at 50 000 counts a ms, have passed since c_s, so it runs in SLEEP; 0 is off. -/
def execSillWakeTimer (s : State) : Host.Outcome State Fault Refusal :=
  let c := s.dev.chip
  match c.power.sleep with
  | some x => ok s (if c.device = 2 && c.rd (powOd 8) != 0 then (c.untilXo (x.entered + c.rd (powOd 8) * 50000)).latchWake 3 else c)
  | none => ok s c

/-! ### Operating points (R419, R420) -/

/-- A write of OD 5000.10, or its effect (R17, R419, R420, R422). -/
def Chip.operatingPoint (c : Chip) (v : Nat) (a : Asker) : Chip × Option Status :=
  let now := c.rd (powOd 0x11)
  let ends := fun (x : Chip) (r : Status) => (x.powerStatus r, some r)
  if c.power.badMode && v != 2 then ends c .state
  else if v = now then ends (c.wr (powOd 0x10) v) .ok
  else if v < now && c.overloaded (400 * (1 + v)) then ends c .budget
  else
    let c1 := c.wr (powOd 0x10) v
    let c2 := if v < now then (c1.wr (powOd 0x11) v).showEnvelope else c1
    let c3 := c2.setCore (pointMv v)
    ({ c3 with power := { c3.power with op := some ⟨v, now, c.lc, a⟩ } }, none)

/-- OPERATING_POINT_REQUEST. -/
def execOperatingPointRequest (sess : Fin 9) (value : BitVec 8) (s : State) : Host.Outcome State Fault Refusal :=
  done s (s.dev.ask sess.val (powOd 0x10) (.num value.toNat) fun d a =>
    let (c, st) := d.chip.operatingPoint value.toNat a
    (({ d with chip := c } : Dev), st))

/-- VDD_CORE has reached its target, or has not, at a poll (R420): whether the change has completed. -/
def Chip.voutPolled (c : Chip) (mv : Nat) : Chip × Bool :=
  let c1 := c.wr (powOd 0x14) (mv % 65536)
  match c.power.op with
  | none => (c, false)
  | some x =>
    let t := pointMv x.target
    if t ≤ mv + 10 && mv ≤ t + 10 then
      -- a raise waits another 50 µs before the clock switches
      let c1 := if x.old < x.target then c1.untilLc (c1.lc + 50000) else c1
      let c2 := ((c1.wr (powOd 0x11) x.target).bump (powOd 0x1C) 1).showEnvelope
      let c3 := { c2 with power := { c2.power with op := none } }.powerEvent 7 0xFF 0xFF x.target .ok
      (c3.powerEnds x.asker .ok, true)
    else (c1, false)

/-- The change is abandoned after 2 ms (R420). -/
def Chip.opAbandoned (c : Chip) : Chip :=
  match c.power.op with
  | none => c
  | some x =>
    let c1 := { c with power := { c.power with op := none } }
    let c2 := if x.old < x.target then c1.setCore (pointMv x.old) else c1
    (c2.fault .degrade .condition (powOd 0x11) 0 (c2.rd (powOd 0x11)) 0).powerEnds x.asker .state

/-! ### The HBM rate (R421, R264, R265) -/

/-- The first stack from `k` on that has not failed. -/
def Chip.liveStack (c : Chip) (k : Nat) : Option (Fin 6) :=
  ([0, 1, 2, 3, 4, 5] : List (Fin 6)).find? fun i => decide (k ≤ i.val) && !c.stackFailed i

/-- The rate change goes on with the first live stack from `k` on; after the last one it is complete. A stack in a training step defers it
(R265, OD 3C00.14). -/
def Chip.rateNext (c : Chip) (rate k : Nat) : Chip :=
  match c.liveStack k with
  | none => { c.wr (powOd 0x13) rate with power := { c.power with rate := none } }
  | some i =>
    let t := c.hbm.training[i]
    let c1 := { c with power := { c.power with rate := some ⟨rate, i.val⟩ } }
    if t.pass.isSome then (c1.bump (hbmOd 0x14) 1).setTraining i { t with deferred := true }
    else c1.setTraining i { t with changing := true, pass := some (0, 0) }

/-- A write of OD 5000.12, or its effect (R421). -/
def Chip.hbmRate (c : Chip) (v : Nat) : Chip × Status :=
  if !c.partitionFree [] || c.power.rate.isSome then (c.powerStatus .state, .state)
  else
    let c1 := (c.wr (powOd 0x12) v).powerStatus .ok
    (if v = c.rd (powOd 0x13) then c1 else c1.rateNext v 0, .ok)

/-- HBM_RATE_CHANGE. -/
def execHbmRateChange (sess : Fin 9) (value : BitVec 8) (s : State) : Host.Outcome State Fault Refusal :=
  ok s (s.dev.chip.request sess.val (powOd 0x12) (.num value.toNat) fun c => c.hbmRate value.toNat)

/-! ### SLEEP (R423-R428) -/

/-- The conditions of R423. -/
def Dev.sleepFree (d : Dev) : Bool :=
  let c := d.chip
  c.partitionFree [] && (List.range 256).all (fun b => !c.bundleOn b) && (List.range 256).all (fun s => !c.on (outOd s 1)) &&
  c.dict.txn.isNone && c.dict.schedule.isEmpty && c.device == 0 &&
  ([0, 1, 2, 3, 4, 5, 6, 7] : List (Fin 8)).all fun n =>
    let m := (d.cores[n]).mode
    m == .off || m == .reset || m == .idle || m == .halted

/-- A write of OD 5000.02 (R423, R424): every domain in RUN starts to drain. -/
def Dev.sleepRequest (d : Dev) (kind : Nat) (a : Asker) : Dev × Option Status :=
  let c := d.chip
  if !d.sleepFree then (({ d with chip := c.powerStatus .state } : Dev), some .state)
  else
    let prev := (List.range 96).map fun i => c.domState i
    let moves := (List.range 96).filter fun i => c.domState i == 1 && i != 0 && (i != 1 || kind == 2)
    let c1 := (moves.foldl (fun x i => x.domTo i 5) c).wr (powOd 1) 1
    (({ d with chip := { c1 with power := { c1.power with sleep := some ⟨kind == 2, a, prev, 0, none, c.lc, 0⟩ } } } : Dev), none)

/-- SLEEP_REQUEST: held while an HBM-rate change runs (R423). -/
def execSleepRequest (sess : Fin 9) (kind : BitVec 8) (s : State) : Host.Outcome State Fault Refusal :=
  let c := s.dev.chip
  if c.serves && c.power.rate.isSome then
    ok s { c with dict := { c.dict with held := c.dict.held ++ [.write sess.val (powOd 2) (.num kind.toNat)] } }
  else done s (s.dev.ask sess.val (powOd 2) (.num kind.toNat) fun d a => d.sleepRequest kind.toNat a)

/-- Every domain that is not OFF moves to SLEEP, but the sill and, with its clock left running, PD_CLK (R424). -/
def Chip.allAsleep (c : Chip) (parks : Bool) : Chip :=
  ((List.range 96).filter fun i => i != 0 && (i != 1 || parks) && c.domState i != 0).foldl (fun a i => a.domTo i 4) c

/-- SLEEP_ENTRY (R265, R424, R425): the drains have completed at c_s; while a stack is in a training step the entry waits for its end. -/
def execSleepEntry (s : State) : Host.Outcome State Fault Refusal :=
  let c := s.dev.chip
  match c.power.sleep with
  | none => ok s c
  | some x =>
    if c.device ≠ 1 then ok s c
    else if x.latched ≠ 0 then
      let c1 := ((c.sleepBack x).bump (powOd 0x1A) 1).powerEvent 2 0xFF 0xFF x.latched .sleepAbandoned
      ok s (c1.powerEnds x.asker .sleepAbandoned)
    else if c.hbm.training.any fun t => t.pass.isSome then ok s c.deferSleep
    else
      let c1 := (c.powerEnds x.asker .ok).bump (powOd 0x19) 1
      let c2 := ((c1.wr (powOd 1) 2).powerEvent 1 0xFF 0xFF 0 .ok).allAsleep x.parks
      let y := { x with asker := .nobody, stopped := if x.parks then some (c.lc, c.xo) else none, entered := c.xo }
      let c3 := if x.parks then c2.wr (clkOd 1) 0 else c2
      ok s { c3 with power := { c3.power with sleep := some y, mark := if x.parks then none else c3.power.mark } }

/-- WAKE (R427): a latched source is acted on; PD_HUB returns on the start clock. With PD_CLK parked the report waits for the APLL, whose
lock restarts the Local Counter that it carries (R429). -/
def execWake (startClockKHz : Nat) (s : State) : Host.Outcome State Fault Refusal :=
  let c := s.dev.chip
  match c.power.sleep with
  | none => ok s c
  | some x =>
    if c.device ≠ 2 || x.latched = 0 then ok s c
    else
      let c1 := [(domOd 2 3, 1), (powOd 0x15, 0), (powOd 0x21, startClockKHz % 2 ^ 32), (powOd 7, x.latched), (powOd 1, 3)].foldl
        (fun a e => a.wr e.1 e.2) c
      ok s (if x.stopped.isSome then c1 else c1.powerEvent 4 0xFF 0xFF x.latched .ok)

/-- The time clock runs again after a park (R428): the Local Counter takes the count it would have had, and every view that kept time is
ESTIMATED. -/
def Chip.unpark (c : Chip) (x : SleepCtl) (lcp xop : Nat) : Chip :=
  let adv := c.rd (powOd 0x17) * (c.xo - xop) / 2 ^ 32
  let c1 := { c.wr (powOd 0x18) adv with lc := lcp + adv }
  let views := c1.time.views.map fun v => if v.written.isSome && !v.estimated then { v with estimated := true } else v
  let c2 := { c1 with time := { c1.time with views := views }, power := { c1.power with sleep := some { x with stopped := none } } }
  (c2.domTo 1 1).powerEvent 4 0xFF 0xFF x.latched .ok

/-- RESUME (R427): the hub takes the cleaned clock, the stacks are trained, every domain returns to the state it held. -/
def Chip.resume (c : Chip) : Chip × Status :=
  match c.power.sleep with
  | some x =>
    if c.device ≠ 3 || c.clockState = 0 then (c.powerStatus .state, .state)
    else
      let live := ([0, 1, 2, 3, 4, 5] : List (Fin 6)).filter fun k => !c.stackFailed k
      let c1 := live.foldl (fun a k => a.setTraining k { a.hbm.training[k] with lastPass := a.lc, lastTemp := a.rankTemp k, pass := none }) c
      let c2 := (c1.bump (hbmOd 0x15) live.length).wr (powOd 0x15) 1
      let c3 := ((x.prev.zipIdx.foldl (fun a e => a.domTo e.2 e.1) c2).wr (powOd 1) 0)
      let c4 := { c3 with power := { c3.power with sleep := none } }
      ((c4.powerEvent 5 0xFF 0xFF x.latched .ok).powerStatus .ok, .ok)
  | none => (c.powerStatus .state, .state)

/-- RESUME. -/
def execResume (sess : Fin 9) (s : State) : Host.Outcome State Fault Refusal :=
  ok s (s.dev.chip.request sess.val (powOd 3) (.num 1) Chip.resume)

end Sys2Proof.Machine
end

