-- ==== Sys2Proof/Machine/Hbm.lean ====
section
/-! DEFINITION. The HBM controller's cycle: requests, reads, refresh, pages, training and scrub (R259-R269), and uncorrectable words
of the on-chip memories (R253). -/

namespace Sys2Proof.Machine

/-! ### Addresses -/

/-- The physical unit address of a class's request: the pack store's offsets lie in its rank, or at the top of partition space once it has
moved (R258, R275); every other class addresses partition space (R256). -/
def Chip.unitPlace (c : Chip) (cls a : Nat) : Option Nat :=
  let r := c.rd (hbmOd 0x0E)
  if cls = 3 then
    if r = 0xFF then (c.translate (c.hbmTop - c.packMoved + a)).map physical
    else if a < rankBytes then some (r * rankBytes + a) else none
  else (c.translate a).map physical

/-- The partition-space address of a physical one, for fault records (R256, R462). -/
def Chip.partAddr (c : Chip) (p : Nat) : Nat :=
  let o := p % rankBytes
  (o / 4096 * c.logicalRanks + c.rd (rankOd (p / rankBytes) 2)) * 4096 + o % 4096

/-- Key of a pseudo-channel. -/
def pcKey (stack : Fin 6) (pc : Fin 32) : Nat := stack.val * 32 + pc.val

/-- A pseudo-channel's state set. -/
def Chip.setPc (c : Chip) (k : Nat) (q : PseudoChannel) : Chip := { c with hbm := c.hbm.setPc k q }

/-! ### A cycle of the arbiter (R260, R262, R266, R267) -/

/-- The page hint of a request: CLOSE for the hub, the descriptor's bit for DMA, OPEN otherwise (R259). -/
def closes (u : HbmUnit) : Bool := u.cls.val == 9 || ((u.cls.val == 7 || u.cls.val == 8) && u.close)

/-- The requests of a class that wait at a pseudo-channel. -/
def PseudoChannel.classQueue (q : PseudoChannel) (cls : Nat) : List HbmUnit := sget (fun _ => []) q.classes cls

/-- The requests of a class set. -/
def PseudoChannel.setClass (q : PseudoChannel) (cls : Nat) (l : List HbmUnit) : PseudoChannel :=
  { q with classes := sset (fun _ => []) q.classes cls l }

/-- A request is split into units, which enter the queues of its class in address order, each at its pseudo-channel (R259, R260). -/
def Chip.enqueue (c : Chip) (u : HbmUnit) : Chip :=
  (unitPieces u.addr (if u.write then u.data.length else u.len)).foldl (fun a e =>
    match a.unitPlace u.cls.val e.1 with
    | none => a
    | some p =>
      let q := a.hbm.pc (pcOf p)
      let x : HbmUnit := { u with addr := e.1, len := e.2, data := slice u.data (e.1 - u.addr) e.2 }
      a.setPc (pcOf p) (q.setClass u.cls.val (q.classQueue u.cls.val ++ [x]))) c

/-- A write unit as it enters the queue: a partial one is merged with its unit, atomically (R267). -/
def Dev.mergedWrite (d : Dev) (q : PseudoChannel) (u : HbmUnit) (a p : Nat) : WriteUnit :=
  let off := a % 32
  if off = 0 && u.data.length = 32 then ⟨u.cls.val, p, u.data, u.poison, closes u⟩
  else
    let (old, bad) := match q.queuedFor d.chip.compare u.cls.val p with
      | some w => (w.data, w.poison)
      | none => (getBytes d.mem.hbm p 32, d.mem.poisoned (p / 32) || d.chip.rankLost (p / rankBytes))
    ⟨u.cls.val, p, overlay old off u.data, u.poison || bad, closes u⟩

/-- A write enters the queue; with address compare it replaces an earlier one of another class to its unit (R266). -/
def PseudoChannel.push (q : PseudoChannel) (compare : Bool) (w : WriteUnit) : PseudoChannel :=
  let hit := fun (x : WriteUnit) => compare && x.addr == w.addr && x.cls != w.cls
  match q.writes.find? hit with
  | some _ => { q with writes := q.writes.map fun x => if hit x then w else x }
  | none => { q with writes := q.writes ++ [w] }

/-- The turn of the bus (R262). -/
def PseudoChannel.turn (q : PseudoChannel) : PseudoChannel :=
  if !q.writing && (decide (48 ≤ q.writes.length) || q.reads.isEmpty) then { q with writing := true }
  else if q.writing && decide (q.writes.length ≤ 16) && !q.reads.isEmpty then { q with writing := false }
  else q

/-- The head write reaches the stack while the bus writes (R262). -/
def Dev.issueWrite (d : Dev) (k : Nat) : Dev :=
  let q := (d.chip.hbm.pc k).turn
  match q.writing, q.writes with
  | true, w :: rest =>
    { d with mem := d.mem.store w, chip := d.chip.setPc k (({ q with writes := rest } : PseudoChannel).access d.chip.lc w.addr w.close) }
  | _, _ => { d with chip := d.chip.setPc k q }

/-- The chosen unit is accepted (R260, R266): a read returns what the queued writes and the stack hold now. -/
def Dev.acceptUnit (d : Dev) (k : Nat) (u : HbmUnit) (p : Nat) : Dev :=
  let c := d.chip
  let q := c.hbm.pc k
  if u.write then { d with chip := c.setPc k (q.push c.compare (d.mergedWrite q u u.addr p)) }
  else
    let read := fun (data : List Byte) (poison queued : Bool) =>
      c.setPc k { q with reads := q.reads ++ [⟨u.cls.val, p, closes u, data, poison, queued⟩] }
    match q.queuedFor c.compare u.cls.val p with
    | some w => { d with chip := (read w.data w.poison true).bump (hbmOd 0x13) (b2n c.compare) }
    | none => { d with chip := read (getBytes d.mem.hbm p 32) (d.mem.poisoned (p / 32)) false }

/-- The arbiter of a pseudo-channel accepts at most one unit among the heads of the classes (R47, R48, R260). -/
def Dev.arbitrateUnit (d : Dev) (k : Nat) : Dev :=
  let c := d.chip
  let q := c.hbm.pc k
  let room := fun (u : HbmUnit) => if u.write then decide (q.writes.length < 64) else decide (q.reads.length < 64)
  let head := fun (cls : Nat) => (q.classQueue cls).head?
  let asked := (List.range 11).filter fun cls => (head cls).isSome
  let req := asked.filter fun cls => match head cls with | some u => room u | none => false
  let win := arbitrate (fun i => c.rd (od 0x3C02 (1 + i))) (c.rd (hbmOd 0x0A)) (fun i => q.waits.getD i 0) req
  let waits := (List.range 11).map fun i => if some i = win || !asked.contains i then 0 else q.waits.getD i 0 + 1
  let d1 : Dev := { d with chip := c.setPc k { q with waits := waits } }
  match win with
  | none => d1
  | some cls =>
    match q.classQueue cls with
    | [] => d1
    | u :: rest =>
      let d2 : Dev := { d with chip := c.setPc k ({ q with waits := waits }.setClass cls rest) }
      match c.unitPlace u.cls.val u.addr with
      | some p => d2.acceptUnit k u (p / 32 * 32)
      | none => d2

/-- HBM_REQUEST (R259, R260): the requests that classes issue enter their queues, and a pseudo-channel that is in no training step has one cycle
of its arbiter and its bus (R262, R264). -/
def execHbmRequest (stack : Fin 6) (pc : Fin 32) (offered : List HbmUnit) (s : State) : Host.Outcome State Fault Refusal :=
  let k := pcKey stack pc
  let c := offered.foldl Chip.enqueue s.dev.chip
  let d : Dev := { s.dev with chip := c }
  done s (if c.pcBusy k then d else ((d.arbitrateUnit k).issueWrite k).drainWriter)

/-! ### Reads, ECC and poison (R269, R270, R272) -/

/-- The corrected-error counts of the clock hour (R272). -/
def Chip.correctedIn (c : Chip) (r : Nat) : Nat × Chip :=
  let h := c.arrayNs / 3600000000000
  let l := if c.hbm.hour = h then c.hbm.hourly else []
  let n := sget (fun _ => 0) l r + 1
  (n, { c with hbm := { c.hbm with hour := h, hourly := sset (fun _ => 0) l r n } })

/-- The maintenance class writes a corrected unit back, unless a newer write to the unit is queued (R269). -/
def Dev.writeBack (d : Dev) (p : Nat) : Dev :=
  let k := pcOf p
  let q := d.chip.hbm.pc k
  if q.writes.any fun w => w.addr == p then d
  else { d with chip := d.chip.setPc k { q with writes := q.writes ++ [⟨10, p, getBytes d.mem.hbm p 32, d.mem.poisoned (p / 32), false⟩] } }

/-- A corrected unit is counted and written back, and retires its rank at the threshold (R269, R272). -/
def Dev.corrected (d : Dev) (p : Nat) : Dev :=
  let r := p / rankBytes
  let (n, c) := ((d.chip.bump (hbmOd 0x10) 1).bump (rankOd r 3) 1).correctedIn r
  let d1 := ({ d with chip := c } : Dev).writeBack p
  if c.rd (hbmOd 9) ≤ n then d1.retire r (c.partAddr p) else d1

/-- A new uncorrectable unit gets the POISON tag, is counted, and retires its rank at the threshold (R269, R272). -/
def Dev.uncorrectable (d : Dev) (p : Nat) : Dev :=
  let r := p / rankBytes
  let c := ((d.chip.bump (hbmOd 0x11) 1).bump (rankOd r 4) 1).bump (rankOd r 7) 1
  let d1 : Dev := { d with mem := d.mem.setTag (p / 32) true, chip := c }
  if c.rd (hbmOd 8) ≤ c.rd (rankOd r 7) then d1.retire r (c.partAddr p) else d1

/-- The outcome of a read of a unit at its stack: whether it carries a poison indication (R269). -/
def Dev.readOutcome (d : Dev) (p : Nat) (ecc : Ecc) : Bool × Dev :=
  if d.chip.rankLost (p / rankBytes) then (true, d)
  else
    let tagged := d.mem.poisoned (p / 32)
    match ecc with
    | .clean => (tagged, d)
    | .corrected => (tagged, d.corrected p)
    | .uncorrectable => if tagged then (true, d) else (true, d.uncorrectable p)

/-- A poisoned unit of the pack store: the inputs of a frame that have a byte in it are MISSING (R270; log entry 49). -/
def Chip.packPoison (c : Chip) (off : Nat) : Chip :=
  (List.range 32).foldl (fun (a : Chip) i =>
    let e := Config.packPlace (off + i)
    let hit := fun (k : Nat) => decide (k / 16384 % 2 = e.1 % 2) && decide (k % 16384 = e.2.1)
    let mark := fun (x : Nat × List Nat) =>
      if hit x.1 then (x.1, x.2.zipIdx.map fun y => if y.2 = e.2.2 then y.1 ||| 128 else y.1) else x
    { a with fe := { a.fe with friskets := a.fe.friskets.map mark } }) c

/-- Where a physical unit lies in the pack store. -/
def Chip.packOffset (c : Chip) (p : Nat) : Nat :=
  let r := c.rd (hbmOd 0x0E)
  if r = 0xFF then c.partAddr p - (c.hbmTop - c.packMoved) else p - r * rankBytes

/-- HBM_READ_COMPLETE (R262, R264, R266, R269, R270): the oldest read of a pseudo-channel returns, unless a training step holds it. What poison
does, and its count, belong to the command that takes the data of a class; of the pack store and of maintenance, to this one (log entry 125). -/
def execHbmReadComplete (stack : Fin 6) (pc : Fin 32) (ecc : Ecc) (s : State) : Host.Outcome State Fault Refusal :=
  let d := s.dev
  let k := pcKey stack pc
  let q := d.chip.hbm.pc k
  match q.reads with
  | [] => ok s d.chip
  | u :: rest =>
    if d.chip.pcBusy k then ok s d.chip
    else
      let q1 : PseudoChannel := { q with reads := rest }
      let (bad, d1) := if u.forwarded then (u.poison, ({ d with chip := d.chip.setPc k q1 } : Dev))
        else (let (b, x) := ({ d with chip := d.chip.setPc k (q1.access d.chip.lc u.addr u.close) } : Dev).readOutcome u.addr ecc
              (b || u.poison, x))
      let c1 := d1.chip.send (.hbm u.cls u.addr u.data bad)
      let counts := bad && (u.cls == 3 || u.cls == 10)
      let c2 := c1.bump (hbmOd 0x12) (b2n counts)
      done s { d1 with chip := if bad && u.cls == 3 then c2.packPoison (c2.packOffset u.addr) else c2 }

/-! ### Refresh and pages (R261, R263) -/

/-- Requests for a bank wait. -/
def PseudoChannel.bankWaits (q : PseudoChannel) (b : Nat) : Bool :=
  (q.reads.any fun u => (Config.hbmBank u.addr).val == b) || q.writes.any fun u => (Config.hbmBank u.addr).val == b

/-- REFRESH (R263): postponed while requests for the bank wait, at most 8 times; else issued with those postponed. -/
def execRefresh (stack : Fin 6) (pc : Fin 32) (bank : Fin 64) (s : State) : Host.Outcome State Fault Refusal :=
  let c := s.dev.chip
  let k := pcKey stack pc
  let q := c.hbm.pc k
  let b := q.bank bank.val
  let n := if q.bankWaits bank.val then (if b.postponed < 8 then b.postponed + 1 else 8) else 0
  ok s (c.setPc k (q.setBank bank.val { b with postponed := n }))

/-- OPEN_PAGE_TIMEOUT (R261): a bank with an open row has been idle for OD 3C00.0B controller cycles of 1 ns. -/
def execOpenPageTimeout (stack : Fin 6) (pc : Fin 32) (bank : Fin 64) (s : State) : Host.Outcome State Fault Refusal :=
  let k := pcKey stack pc
  let b := (s.dev.chip.hbm.pc k).bank bank.val
  if b.row.isNone then ok s s.dev.chip
  else
    let c := s.dev.chip.untilLc (b.used + s.dev.chip.rd (hbmOd 0x0B))
    let q := c.hbm.pc k
    ok s (c.setPc k (q.setBank bank.val { q.bank bank.val with row := none }))

/-! ### Training (R264, R265) -/

/-- Temperature of a stack shown (OD 3C10+r.06). -/
def Chip.stackTemp (c : Chip) (k : Fin 6) (t : Int) : Chip :=
  [0, 1, 2].foldl (fun a i => a.wr (rankOd (3 * k.val + i) 6) (ofI (sat 8 t) 8)) c

/-- RETRAIN_START (R264, R265): the interval has passed since the last pass, or the temperature has moved by the step. No step starts while the
stack changes its rate or the chip enters SLEEP. -/
def execRetrainStart (stack : Fin 6) (temperature : Int) (s : State) : Host.Outcome State Fault Refusal :=
  let c := s.dev.chip.stackTemp stack temperature
  let t := c.hbm.training[stack]
  let moved := decide ((c.rd (hbmOd 5) : Int) ≤ (temperature - t.lastTemp).natAbs)
  if t.failed || t.changing || t.pass.isSome || c.device != 0 then ok s c
  else ok s ((if moved then c else c.untilLc (t.lastPass + c.rd (hbmOd 4) * 1000000)).setTraining stack { t with pass := some (0, 0) })

/-- A rate change that stack k has completed, or can no longer make, goes on with the next stack (R421). -/
def Chip.rateAfter (c : Chip) (k : Fin 6) : Chip :=
  match c.power.rate with
  | some x => if x.stack = k.val then c.rateNext x.rate (k.val + 1) else c
  | none => c

/-- A training step ends (R264, R265). -/
def Dev.trainStep (d : Dev) (k : Fin 6) (good : Bool) : Dev :=
  let c := d.chip
  let t := c.hbm.training[k]
  match t.pass with
  | none => d
  | some (p, st) =>
    if st = 3 && !good && 2 ≤ t.failures then
      let d1 := { d with chip := c.setTraining k { t with pass := none, changing := false, deferred := false } }
      let d2 := d1.failStack k
      { d2 with chip := d2.chip.rateAfter k }
    else if t.deferred && c.device != 0 then { d with chip := c.setTraining k { t with pass := none, failures := 0, deferred := false } }
    else if t.deferred then
      { d with chip := c.setTraining k { t with pass := some (0, 0), failures := 0, deferred := false, changing := true } }
    else if st < 3 then { d with chip := c.setTraining k { t with pass := some (p, st + 1) } }
    else if !good then { d with chip := c.setTraining k { t with pass := some (p, 0), failures := t.failures + 1 } }
    else if p < 31 then { d with chip := c.setTraining k { t with pass := some (p + 1, 0), failures := 0 } }
    else
      let t1 := { t with pass := none, failures := 0, lastPass := c.lc, lastTemp := c.rankTemp k, changing := false }
      let c1 := (c.setTraining k t1).bump (hbmOd 0x15) 1
      { d with chip := if t.changing then c1.rateAfter k else c1 }

/-! ### Scrub (R269) -/

/-- The first rank in service from `r` on, going round. -/
def Chip.serviceFrom (c : Chip) (r : Nat) : Option Nat :=
  ((List.range 18).map fun i => (r + i) % 18).find? fun i => c.rankState i == 1

/-- SCRUB_READ (R269): the next unit of a rank in service. -/
def execScrubRead (ecc : Ecc) (s : State) : Host.Outcome State Fault Refusal :=
  let d := s.dev
  let c := d.chip
  let r := c.hbm.scrub / rankBytes % 18
  match c.serviceFrom r with
  | none => ok s c
  | some r1 =>
    let p := if r1 = r then c.hbm.scrub % (18 * rankBytes) else r1 * rankBytes
    let d1 : Dev := { d with chip := { c with hbm := { c.hbm with scrub := (p + 32) % (18 * rankBytes) } } }
    let (bad, d2) := match (c.hbm.pc (pcOf p)).queuedFor c.compare 10 p with
      | some w => (w.poison, ({ d1 with chip := d1.chip.bump (hbmOd 0x13) (b2n c.compare) } : Dev))
      | none => ({ d1 with chip := d1.chip.touch (openUser 10) p } : Dev).readOutcome p ecc
    done s { d2 with chip := d2.chip.bump (hbmOd 0x12) (b2n bad) }

/-! ### Uncorrectable words of the on-chip memories (R253) -/

/-- The samples of a word of a stream's F-engine history are missing; which word it is, is free (R253, R136). -/
def Chip.loseHistory (c0 : Chip) (s : Nat) : Chip :=
  let (f, c) := c0.freeBits 32
  let x := c.stream s
  match x.hist[f % Nat.max x.hist.length 1]? with
  | none => c
  | some e =>
    let n := 8 / formatWidth (rowFormat (c.row s))
    let lose := fun (y : Nat × Smp) => if y.1 / n = e.1 / n then (y.1, { y.2 with re := 0, im := 0, missing := true }) else y
    c.setStream s { x with hist := x.hist.map lose }

/-- The two equalizer entries of a word act as 0 until they are rewritten (R253, R129). -/
def Chip.loseEqualizer (c : Chip) (s ch : Nat) : Chip :=
  let k := strOd s 0x48
  let b := c.rdDom k
  let full := if (tableBody b).isEmpty then mkTable 0x10 ((List.range (c.fft / 2)).flatMap fun _ => beBytes 2 4096 ++ beBytes 2 0) else b
  c.wrDom k (overlay full (16 + ch / 2 * 8) (List.replicate 8 0))

/-- A beam-stick of a ledger slot is EMPTY; which one it is, is free (R253). -/
def Chip.loseLedger (c0 : Chip) (slot : Nat) : Chip :=
  let (f, c) := c0.freeBits 32
  let stick := fun (r : BeamRow) =>
    let marked := r.empty.zipIdx.map fun y => y.1 || y.2 == f / 64 % Nat.max r.empty.length 1
    { r with empty := marked }
  let step := fun (x : LedgerSlot) =>
    let rows := x.rows.zipIdx.map fun e => if e.2 = f % 64 then stick e.1 else e.1
    { x with rows := rows }
  let slots := c.xe.slots.zipIdx.map fun e => if e.2 = slot then step e.1 else e.1
  { c with xe := { c.xe with slots := slots } }

/-- A frame of a stream's receive buffer is discarded; which one it is, is free (R253). -/
def Chip.loseFrame (c0 : Chip) (s : Nat) : Chip :=
  let (f, c1) := c0.freeBits 32
  let (n, c) := c1.freeBits 16
  let x := c.stream s
  let first := f % Nat.max x.buf.length 1
  let kept := x.buf.zipIdx.filter fun e => !(decide (first ≤ e.2) && decide (e.2 ≤ first + n))
  c.setStream s { x with buf := kept.map fun e => e.1 }

/-- A frame that waits in a stream's output buffer is discarded, and the next one carries GAP (R253, R345). -/
def Chip.loseOutput (c0 : Chip) (s : Nat) : Chip :=
  let (f, c) := c0.freeBits 32
  let x := c.outStream s
  if x.built.isEmpty then c
  else c.setOutStream s { x with built := x.built.eraseIdx (f % x.built.length), gap := true }

/-- One item of a list, or none of an empty one, discarded; which one it is, is free (R253). -/
def discardOne {α : Type} (f : Nat) (l : List α) : List α := l.eraseIdx (f % Nat.max l.length 1)

/-- A frame that waits in the truss staging of a bundle is discarded: one received, else one to be sent (R253). -/
def Chip.loseTruss (c0 : Chip) (b : Nat) : Chip :=
  let (f, c) := c0.freeBits 32
  let x := c.bundle b
  c.setBundle b (if x.ready.isEmpty then { x with samples := discardOne f x.samples } else { x with ready := discardOne f x.ready })

/-- A word at the source of a DMA channel: the channel ends with ECC after its earlier pieces (R330). -/
def Chip.loseDma (c : Chip) (ch : Nat) : Chip :=
  let x := c.dma ch
  if 2 ≤ c.dmaState ch && x.ending.isNone then c.setDma ch { x with stop := true, ending := some 6, buffer := earlierBeats x } else c

/-- A segment of a stream's kern queue is discarded (R253). -/
def Chip.loseSegment (c0 : Chip) (s : Nat) : Chip :=
  let (f, c) := c0.freeBits 32
  let x := c.stream s
  c.setStream s { x with segments := discardOne f x.segments }

/-- An entry of the stick report ring is discarded (R253). -/
def Chip.loseReport (c0 : Chip) : Chip :=
  let (f, c) := c0.freeBits 32
  { c with reports := discardOne f c.reports }

/-- A request that waits at a pseudo-channel is discarded: of a class, else a queued write, else a queued read (R253). -/
def Chip.loseRequest (c0 : Chip) (k : Nat) : Chip :=
  let (f, c) := c0.freeBits 32
  let q := c.hbm.pc k
  c.setPc k (match q.classes with
    | e :: _ => q.setClass e.1 (discardOne f e.2)
    | [] => if q.writes.isEmpty then { q with reads := discardOne f q.reads } else { q with writes := discardOne f q.writes })

/-- A staged write is discarded: of the open transaction, else of a pending one (R253). -/
def Chip.loseStaged (c0 : Chip) : Chip :=
  let (f, c) := c0.freeBits 32
  let drop := fun (p : Pending) => { p with writes := discardOne f p.writes }
  let d := match c.dict.txn, c.dict.schedule with
    | some t, _ => { c.dict with txn := some { t with staged := discardOne f t.staged } }
    | none, p :: rest => { c.dict with schedule := drop p :: rest }
    | none, [] => c.dict
  ({ c with dict := d } : Chip).showStaging

/-- The entry of the peg log that holds a word is discarded (R253). -/
def Chip.loseEntry (c : Chip) (a : Nat) : Chip :=
  match c.pegLogAt a with
  | some (i, _) => { c with trigger := { c.trigger with log := sset (fun _ => []) c.trigger.log i [] } }
  | none => c

/-- The main SRAM address of a place, where it has one (R462). -/
def sramAddr : SramPlace → Nat
  | .chase h off => chaseBase h + off
  | .mainWord a => a
  | _ => 0

/-- SRAM_UNCORRECTABLE (R253, R465): counted, a DEGRADE, and the effect of its place. -/
def execSramUncorrectable (place : SramPlace) (s : State) : Host.Outcome State Fault Refusal :=
  let c := s.dev.chip.countFault .degrade (hbmOd 0x19) (sramAddr place)
  let chase := fun (a : Nat) =>
    let bad := if c.xe.bad.contains (a / 8) then c.xe.bad else (a / 8) :: c.xe.bad
    { c with xe := { c.xe with bad := bad } }
  ok s (match place with
    | .chase h off => chase (chaseBase h + off)
    | .mainWord a => if a < 134217728 then chase a else c.loseEntry a
    | .fengine n => c.loseHistory n.val
    | .equalizer n ch => c.loseEqualizer n.val ch
    | .ledger slot => c.loseLedger slot
    | .ingest n => c.loseFrame n.val
    | .output n => c.loseOutput n.val
    | .resultBuffer p =>
      let x := c.platen p.val
      c.setPlaten p.val { x with buffer := x.buffer.map fun e => (e.1, (⟨[], []⟩ : ImpResult)) }
    | .queueEntry p =>
      let x := c.platen p.val
      ((c.setPlaten p.val { x with queue := x.queue.dropLast }).fault .fail .condition (hbmOd 0x19) 0 0 0).haltPaths
    | .formeState _ => (c.fault .fail .condition (hbmOd 0x19) 0 0 0).haltPaths
    | .truss b => c.loseTruss b.val
    | .dma ch => c.loseDma ch.val
    | .segmentQueue n => c.loseSegment n.val
    | .reportRing => c.loseReport
    | .hbmQueue k p => c.loseRequest (pcKey k p)
    | .stagingStore => c.loseStaged
    | .weightStore _ | .trigger => c)

end Sys2Proof.Machine
end

