-- ==== Sys2Proof/Machine/Twin.lean ====
section
/-! DEFINITION. Twin operation from heartbeats to hand-over (R431-R443): roles, mirror messages sent, the snapshot, pegs of the lead, and
how a period begins, where a joining side becomes SHADOW. -/

namespace Sys2Proof.Machine

/-- OD 5400.sub. -/
def twinOd (sub : Nat) : Nat := od 0x5400 sub

/-! ### Values replaced at an effect tick (R38) -/

/-- Objects take new values from a tick on; what they held before stays known to earlier ticks (R38). -/
def Chip.replace (c : Chip) (tick : Nat) (w : List (Nat × Val)) : Chip :=
  let olds := w.map fun e => ((e.1, c.over [] e.1) : Nat × Val)
  let c1 := w.foldl Chip.put c
  { c1 with past := (⟨tick, olds⟩ : Replaced) :: c1.past }

/-! ### Roles (R433) -/

/-- A role change, with its fault record (R433): an entry into LEAD takes its LEAD_SINCE (R436). -/
def Chip.setRole (c : Chip) (r : Nat) (sev : Severity) : Chip :=
  let old := c.role
  if old = r then c
  else
    let c1 := c.wr (twinOd 0x10) r
    let t := { c1.twin with leadSince := if r = 2 then c1.tick else 0, seekSince := if r = 1 then c1.lc else c1.twin.seekSince, shadowFrom := none, swapAt := none, waiting := false }
    ({ c1 with twin := t }).fault sev .change (twinOd 0x10) old r 0

/-- This side is the preferred lead (OD 5400.03). -/
def Chip.preferred (c : Chip) : Bool := c.rd (twinOd 3) == c.side

/-- OD 5400.01 takes effect (R433). -/
def Chip.twinEffect (c : Chip) (on : Bool) : Chip :=
  if on then if c.role = 0 then c.setRole 1 .note else c
  else
    let c1 := c.setRole 0 .note
    let t := { c1.twin with heard := none, part := none, staged := [], snapshot := false, startAt := none, runs := [] }
    { c1 with twin := t }

/-! ### Mirror messages sent (R434, R436) -/

/-- The body of a heartbeat (R436): the last numbers given are those before the next ones. -/
def Chip.heartbeatBody (c : Chip) : List Byte :=
  beBytes 1 c.role ++ (beBytes 1 (b2n (c.role == 2 || c.role == 3)) ++ (beBytes 2 0 ++ (beBytes 8 c.twin.leadSince ++
    (beBytes 6 ((c.trigger.seq + 65535) % 65536) ++ (beBytes 6 ((c.trigger.msgId + (2 ^ 48 - 1)) % 2 ^ 48) ++
      (beBytes 4 (c.rd (od 0x1200 9)) ++ beBytes 4 0))))))

/-- A heartbeat sent. -/
def Chip.sendHeartbeat (c : Chip) : Chip := c.mirror 0x13 c.heartbeatBody

/-- TWIN_HEARTBEAT_SEND (R434). -/
def execTwinHeartbeatSend (s : State) : Host.Outcome State Fault Refusal :=
  let c := s.dev.chip
  ok s (if c.role = 0 then c else c.sendHeartbeat)

/-- The bytes that a value has on the wire: a scalar's by its type, a DOMAIN's own (R360). -/
def valBytes (k : Nat) : Val → List Byte
  | .num n => match objRow (keyIndex k) (keySub k) with | some r => beBytes r.ty.size n | none => []
  | .bytes b => b

/-- A WRITE series of an object (R436): segments of up to 8156 bytes, LAST on the final one. -/
def Chip.mirrorWrite (c : Chip) (k : Nat) (b : List Byte) (staged : Bool) (seq : Nat) : Chip :=
  let n := Nat.max 1 ((b.length + 8155) / 8156)
  (List.range n).foldl (fun a i =>
    let flags := 128 * b2n staged + 64 * b2n (i + 1 == n)
    a.mirror 0x10 (beBytes 2 (keyIndex k) ++ (beBytes 1 (keySub k) ++ (beBytes 1 flags ++ (beBytes 4 (8156 * i) ++ (beBytes 4 b.length ++
      (beBytes 4 (if staged then seq else 0) ++ slice b (8156 * i) 8156))))))) c

/-- A COMMIT message for a transaction of the schedule (R436). -/
def Chip.mirrorCommitOf (c : Chip) (p : Pending) : Chip :=
  let n := (p.writes.map fun e => (valBytes e.1 e.2).length).sum
  c.mirror 0x11 (beBytes 4 p.seq ++ (beBytes 8 (p.spectrum * c.fft) ++ (beBytes 2 p.writes.length ++ (beBytes 2 0 ++ beBytes 4 n))))

/-- A committed transaction to the shadow: a WRITE series for each staged object, then the COMMIT (R436). -/
def Chip.mirrorPending (c : Chip) (p : Pending) : Chip :=
  let w := p.writes.filter fun e => mirrored e.1
  (w.foldl (fun a e => a.mirrorWrite e.1 (valBytes e.1 e.2) true p.seq) c).mirrorCommitOf { p with writes := w }

/-- Writes that are never mirrored (R436): clear commands, the transaction commands, and what belongs to one chip. -/
def neverMirrored (k : Nat) : Bool :=
  let i := keyIndex k
  let b := keySub k
  (match objRow i b with | some r => !r.clears.isEmpty | none => true) ||
  (i == 0x1200 && 0x10 ≤ b) || (0x3C10 ≤ i && i < 0x3C22 && b == 5) || (i == 0x2800 && (b == 0x1A || b == 0x1B)) ||
  (i == 0x3800 && (b == 0x0D || b == 0x0E || (0x51 ≤ b && b ≤ 0x58)))

/-- The object belongs to the lead's state that a snapshot sends (R363, R440). -/
def snapshotObject (k : Nat) : Bool :=
  mirrored k && !neverMirrored k && (match objRow (keyIndex k) (keySub k) with | some r => r.acc == .rw || r.acc == .rwt | none => false)

/-- A delay segment as the record that gives it (R124). -/
def segmentRecord (f : Nat) (g : Segment) : List Byte :=
  beBytes 8 (g.start * f) ++ (beBytes 8 (ofI g.a0 64) ++ (beBytes 8 (ofI g.a1 64) ++ (beBytes 8 (ofI g.a2 64) ++
    (beBytes 8 (ofI g.a3 64) ++ (beBytes 4 g.phase ++ beBytes 4 0)))))

/-- What a snapshot sends outside the schedule: objects that differ from their defaults, and each kern queue, current segment first (R440). -/
def Chip.snapshotList (c : Chip) : List (Nat × List Byte) :=
  let nums := (c.obj.filter fun e => snapshotObject e.1).map fun e => ((e.1, valBytes e.1 (.num e.2)) : Nat × List Byte)
  let doms := (c.dom.filter fun e => snapshotObject e.1).map fun e => ((e.1, e.2) : Nat × List Byte)
  let kerns := c.streams.flatMap fun e =>
    ((match e.2.segment with | some g => [g] | none => []) ++ e.2.segments).map fun g =>
      ((strOd e.1 0x40, segmentRecord c.fft g) : Nat × List Byte)
  nums ++ (doms ++ kerns)

/-- The lead sends a snapshot (R440). -/
def Chip.sendSnapshot (c : Chip) : Chip :=
  let l := c.snapshotList
  let pend := c.dict.schedule.flatMap fun p => (p.writes.filter fun e => mirrored e.1).map fun e => valBytes e.1 e.2
  let n := l.length + pend.length
  let bytes := (l.map fun e => e.2.length).sum + (pend.map fun b => b.length).sum
  let mark := fun (a : Chip) (st : Nat) => a.mirror 0x14 (beBytes 1 st ++ (beBytes 3 0 ++ (beBytes 4 n ++ beBytes 8 bytes)))
  let c1 := l.foldl (fun a e => a.mirrorWrite e.1 e.2 false 0) (mark c 0)
  let c2 := mark (c.dict.schedule.foldl Chip.mirrorPending c1) 1
  (c2.wr (twinOd 0x13) bytes).bump (twinOd 0x26) 1

/-! ### Data paths of a joining side (R440) -/

/-- The run objects of the data paths. -/
def runObjects : List Nat := [chanOd 1, od 0x2C00 1, xOd 1, od 0x3800 1]

/-- The first chase period that begins at or after a tick. -/
def Chip.periodFrom (c : Chip) (t : Nat) : Nat := (t + c.chaseT * c.fft - 1) / (c.chaseT * c.fft)

/-- Run objects set from chase period n on, with what that starts or stops (R139, R160, R171). -/
def Chip.runAt (c : Chip) (n : Nat) (keys : List Nat) (on : Bool) : Chip :=
  let v := b2n on
  let l := keys.filter fun k => c.rd k != v
  let c1 := c.replace (c.periodStart n) (l.map fun k => ((k, .num v) : Nat × Val))
  l.foldl (fun a k =>
    if k = chanOd 1 then a.runEffect (n * a.chaseT) on
    else if k = od 0x2C00 1 then a.trussEffect n on
    else if k = xOd 1 then a.xRunEffect n on else a) c1

/-- A side enters JOINING with its data paths stopped (R433, R440). -/
def Chip.enterJoining (c : Chip) (sev : Severity) : Chip :=
  let c1 := (c.setRole 4 sev).runAt (c.reached / (c.chaseT * c.fft) + 1) runObjects false
  { c1 with twin := { c1.twin with part := none, staged := [], snapshot := false, startAt := none, runs := [] } }

/-- Every enabled correlate and beam forme is RUNNING. -/
def Chip.formesRun (c : Chip) : Bool :=
  (List.range 4096).all fun f => !((c.formeKind f == 1 || c.formeKind f == 2) && c.on (formeOd f 2)) || c.formeState f == 2

/-- A joining side whose data paths have started becomes SHADOW once every enabled correlate and beam forme runs (R440). -/
def Chip.joinSettle (c : Chip) : Chip :=
  if c.role = 4 && c.twin.startAt.isSome && c.twin.runs.isEmpty && !c.twin.snapshot && c.formesRun then c.setRole 3 .note else c

/-- JOINING_DATA_PATH_START (R440): the data paths that run at the lead start. -/
def execJoiningDataPathStart (s : State) : Host.Outcome State Fault Refusal :=
  let c := s.dev.chip
  match c.twin.startAt with
  | none => ok s c
  | some n =>
    if c.role = 0 then ok s c
    else
      let c0 := c.untilFront (c.periodStart n)
      let c1 := { c0 with twin := { c0.twin with runs := [] } }
      ok s (c1.runAt n c.twin.runs true).joinSettle

/-! ### Frames from the partner (R150, R155, R436) -/

/-- A CONTROL frame of a TYPE taken from the TWIN bundle: the chip after the checks, and the message's body unless it was discarded. -/
def Chip.twinIn (c : Chip) (b type : Nat) (frame : List Byte) : Chip × Option (List Byte) :=
  if c.bundleRole b ≠ 3 || beAt frame 3 1 ≠ type then (c.refuseFrame b, none)
  else match c.takeFrame b 0 frame with
  | none => (c.refuseFrame b, none)
  | some c1 =>
    let (c2, good) := c1.admitFrame b 0 frame
    if !good then (c2, none)
    else
      let (fresh, c3) := c2.controlNew (beAt frame 1 1 / 4) type (beAt frame 10 6)
      if !fresh then (c3.bump (od 0x2C00 0x12) 1, none)
      else (c3.bump (twinOd 0x23) 1, some (slice frame 16 (frame.length - 20)))

/-! ### Heartbeats (R433, R434, R443) -/

/-- The standby queue numbered, in ascending TICK, KIND, key (R441, R442). -/
def Chip.numberStandby (c : Chip) : Chip :=
  let before := fun (a b : Peg × Nat) =>
    if a.1.tick ≠ b.1.tick then decide (a.1.tick < b.1.tick)
    else if a.1.kind ≠ b.1.kind then decide (a.1.kind < b.1.kind) else decide (a.1.key ≤ b.1.key)
  let l := c.trigger.standby.insertionSort fun a b => before a b = true
  l.foldl (fun a e => a.numberPeg e.1.tick e.1.kind e.1.flags e.1.detail e.1.amplitude)
    { c with trigger := { c.trigger with standby := [] } }

/-- What a side that leads gives up, or keeps, when its partner leads too (R443). -/
def Chip.yields (c : Chip) (since : Nat) : Bool :=
  if c.rd (twinOd 4) = 1 then !c.preferred
  else if c.twin.leadSince ≠ since then decide (since < c.twin.leadSince) else !c.preferred

/-- The numbers that the lead has given (R436, R441). -/
def Chip.takeNumbers (c : Chip) (body : List Byte) : Chip :=
  { c with trigger := { c.trigger with seq := (beAt body 16 2 + 1) % 65536, msgId := (beAt body 18 6 + 1) % 2 ^ 48 } }

/-- A heartbeat of the partner (R433, R434, R440, R442, R443). -/
def Chip.heartbeatIn (c : Chip) (body : List Byte) : Chip :=
  let was := c.rd (twinOd 0x11)
  let r := beAt body 0 1
  let from_ := if r = 3 then (match c.twin.shadowFrom with | some t => some t | none => some c.front) else none
  let t := { c.twin with heard := some c.lc, partnerSince := beAt body 4 8, partnerIn := bitAt (beAt body 1 1) 0, shadowFrom := from_ }
  let c1 := ({ c with twin := t }.wr (twinOd 0x11) r).wr (twinOd 0x12) 1
  match c1.role with
  | 1 => if r = 2 then c1.enterJoining .note else if r = 1 && c1.preferred then c1.setRole 2 .note else c1
  | 2 =>
    if r = 2 then if c1.yields (beAt body 4 8) then c1.enterJoining .note else c1
    else if r = 4 && was ≠ 4 then c1.sendSnapshot
    else if r = 3 && c1.twin.waiting then
      ({ c1 with twin := { c1.twin with waiting := false } }.takeNumbers body).numberStandby
    else c1
  | 3 => if r = 2 then c1.takeNumbers body else c1
  | 4 => if r = 2 then c1.takeNumbers body else c1
  | _ => c1

/-- HEARTBEAT (R433). -/
def execHeartbeat (b : Fin 256) (frame : List Byte) (s : State) : Host.Outcome State Fault Refusal :=
  match s.dev.chip.twinIn b.val 0x13 frame with
  | (c, none) => ok s c
  | (c, some body) => ok s (if c.role = 0 then c else c.heartbeatIn body)

/-- START_TIMEOUT (R433): the start timeout has passed in SEEKING since the entry and since the last heartbeat. -/
def execStartTimeout (s : State) : Host.Outcome State Fault Refusal :=
  let c := s.dev.chip
  let t := Nat.max c.twin.seekSince (c.twin.heard.getD 0)
  ok s (if c.role = 1 then (c.untilLc (t + c.rd (twinOd 7) * 1000000)).setRole 2 .note else c)

/-! ### Take-over (R441) -/

/-- The suppressed decisions still held are issued, in the order in which they were made. -/
def Chip.issueSuppressed (c : Chip) : Chip :=
  c.trigger.suppressed.foldl (fun a e => a.issue e.1) { c with trigger := { c.trigger with suppressed := [] } }

/-- No heartbeat has arrived for the take-over timeout (R441, R442): a shadow or joining side leads; a new lead numbers its pegs. -/
def Chip.partnerGone (c : Chip) : Chip :=
  let c1 := c.wr (twinOd 0x12) 0
  if c1.role = 3 || c1.role = 4 then
    let c2 := { c1 with twin := { c1.twin with part := none, staged := [], snapshot := false } }
    ((c2.numberStandby.issueSuppressed).setRole 2 .degrade).bump (twinOd 0x20) 1
  else if c1.role = 2 && c1.twin.waiting then { c1 with twin := { c1.twin with waiting := false } }.numberStandby
  else c1

/-- TAKE_OVER (R441): a heartbeat that arrives in the same cycle prevents it (R49). -/
def execTakeOver (s : State) : Host.Outcome State Fault Refusal :=
  let c := s.dev.chip
  match c.twin.heard with
  | none => ok s c
  | some t => ok s (if c.role ≠ 0 then (c.untilLc (t + c.rd (twinOd 6) * 1000)).partnerGone else c)

/-! ### Hand-over (R442) -/

/-- The lead names the first chase period that begins at least 20 ms ahead. -/
def Chip.handOver (c : Chip) : Chip :=
  let h := c.periodStart (c.periodFrom (c.tick + (c.fa + 49) / 50))
  let c1 := c.mirror 0x15 (beBytes 8 h)
  { c1 with twin := { c1.twin with swapAt := some h } }

/-- OD 5400.14 (R442). -/
def Chip.handOverWrite (c : Chip) (v : Nat) : Chip × Status :=
  if v ≠ 1 then (c, .ok) else if c.role ≠ 2 then (c, .state) else (c.handOver, .ok)

/-- HAND_OVER. -/
def execHandOver (sess : Fin 9) (s : State) : Host.Outcome State Fault Refusal :=
  ok s (s.dev.chip.request sess.val (twinOd 0x14) (.num 1) fun c => c.handOverWrite 1)

/-- HANDOVER (R442): the shadow learns H. -/
def execHandover (b : Fin 256) (frame : List Byte) (s : State) : Host.Outcome State Fault Refusal :=
  match s.dev.chip.twinIn b.val 0x15 frame with
  | (c, none) => ok s c
  | (c, some body) => ok s (if c.role = 3 then { c with twin := { c.twin with swapAt := some (beAt body 0 8) } } else c)

/-- HANDOVER_TICK (R442): the old lead becomes SHADOW and sends its last peg SEQ; the new lead takes the duties and waits for it. -/
def execHandoverTick (s : State) : Host.Outcome State Fault Refusal :=
  match s.dev.chip.twin.swapAt with
  | none => ok s s.dev.chip
  | some h =>
    let c := s.dev.chip.untilTick h
    if c.role = 2 then ok s ((c.setRole 3 .note).bump (twinOd 0x21) 1).sendHeartbeat
    else if c.role = 3 then
      let c1 := (c.setRole 2 .note).bump (twinOd 0x21) 1
      ok s { c1 with twin := { c1.twin with waiting := true } }
    else ok s c

/-! ### Pegs of the lead, and the standby queue (R437, R438) -/

/-- A numbered peg of the lead is the shadow's own: it is spread, and the standby peg that equals it is discarded. -/
def Chip.leadPeg (c : Chip) (bytes : List Byte) : Chip :=
  let p : Peg := ⟨bytes, c.node⟩
  let same := fun (e : Peg × Nat) => e.1.tick == p.tick && e.1.kind == p.kind && e.1.key == p.key
  ({ c with trigger := { c.trigger with seq := (p.seq + 1) % 65536, standby := c.trigger.standby.filter fun e => !same e } }).spreadPeg p

/-- PEGS (R437). -/
def execPegs (b : Fin 256) (frame : List Byte) (s : State) : Host.Outcome State Fault Refusal :=
  match s.dev.chip.twinIn b.val 0x12 frame with
  | (c, none) => ok s c
  | (c, some body) =>
    if c.shadow || (c.role = 2 && c.twin.waiting) then
      ok s ((List.range (beAt body 0 1)).foldl (fun a i => a.leadPeg (slice body (8 + 16 * i) 16)) c)
    else ok s c

/-- STANDBY_EXPIRY (R437, R438): what has been held for the standby time is discarded; pegs are counted. -/
def execStandbyExpiry (s : State) : Host.Outcome State Fault Refusal :=
  let c0 := s.dev.chip
  let held := (c0.trigger.standby.map fun e => e.2) ++ c0.trigger.suppressed.map fun e => e.2
  let c := match held with | [] => c0 | t :: r => c0.untilLc (r.foldl Nat.min t + c0.rd (twinOd 9) * 1000)
  let old := fun (t : Nat) => decide (t + c.rd (twinOd 9) * 1000 ≤ c.lc)
  let n := (c.trigger.standby.filter fun e => old e.2).length
  let c1 := { c with trigger := { c.trigger with standby := c.trigger.standby.filter fun e => !old e.2,
                                                 suppressed := c.trigger.suppressed.filter fun e => !old e.2 } }
  ok s (c1.bump (twinOd 0x25) n)

/-! ### Periods (R170, R440, R443) -/

/-- The returning side has completed one dump of every correlate forme as SHADOW by period n (R443). -/
def Chip.partnerDumped (c : Chip) (n : Nat) : Bool :=
  match c.twin.shadowFrom with
  | none => false
  | some t =>
    (List.range 4096).all fun f =>
      let p := Nat.max 1 (c.dumpPeriod f)
      !(c.formeKind f == 1 && c.on (formeOd f 2)) || decide ((c.periodFrom t + p - 1) / p * p + p ≤ n)

/-- RECLAIM (R443): the lead hands over to the preferred side that has returned. -/
def Chip.reclaim (c : Chip) (n : Nat) : Chip :=
  if c.role = 2 && c.rd (twinOd 4) = 1 && !c.preferred && c.twin.swapAt.isNone && c.partnerDumped n then c.handOver else c

/-- PERIOD_BEGIN (R170): the X-engine begins the next period that is closed; twin roles follow it (R440, R443). -/
def execPeriodBegin (s : State) : Host.Outcome State Fault Refusal :=
  let c := s.dev.chip
  match c.nextPeriod with
  | none => ok s c
  | some n => ok s (((c.periodBegins n).joinSettle).reclaim n)

end Sys2Proof.Machine
end

