-- ==== Sys2Proof/Machine/Reset.lean ====
section
/-! DEFINITION. Reset sources and scopes, bring-up, acknowledgement of faults (R446-R464), the TAP (R485, R486), the thermal sensors (R488)
and the MGT link (R376). -/

namespace Sys2Proof.Machine

/-- OD 5800.sub. -/
def rstOd (sub : Nat) : Nat := od 0x5800 sub

/-! ### Reset (R448, R449) -/

/-- The CAN port of the chip is on: it has started, is enabled, and has a node ID (R386). -/
def Chip.canOn (c : Chip) : Bool := decide (1 ≤ c.bringUp) && c.on (od 0x1100 0x0B) && decide (c.rd (od 0x1100 9) ≤ 127) && c.rd (od 0x1100 9) != 0

/-- Objects that a warm reset keeps (R449): the CAN and MGT settings and counters, the heartbeat time, the straps, everything of PD_CLK, the fault
counts, the counters of PD_SILL. -/
def keptWarm (k : Nat) : Bool :=
  let i := keyIndex k
  let b := keySub k
  i == 0x1017 || (i == 0x1080 && b ≤ 3) || (i == 0x1100 && b ≤ 0x13 && b != 0x0C) || (0x4800 ≤ i && i < 0x5000) ||
  (i == 0x5000 && ((0x19 ≤ b && b ≤ 0x1C) || b == 0x17)) || (0x5100 ≤ i && i < 0x5160 && b == 4) ||
  (i == 0x5800 && (b == 7 || b == 0x11 || (0x15 ≤ b && b ≤ 0x17))) || (i == 0x5810 && (b == 0x14 || b == 0x15))

/-- A power-on reset (R448): the whole chip, held in reset. What has left the chip, and the count of free values used, are the model's. -/
def Dev.coldReset (d : Dev) (cause : Nat) : Dev :=
  let c := { Chip.atReset with free := d.chip.free, out := d.chip.out }
  { chip := c.wr (rstOd 2) cause, cores := Vector.replicate 8 Setter.atReset, mem := Mem.atReset }

/-- A warm reset (R449): every domain but PD_SILL and PD_CLK. -/
def Dev.warmReset (d : Dev) : Dev :=
  let c := d.chip
  let p := { Chip.atReset.power with mark := c.power.mark }
  let c1 := { Chip.atReset with
    lc := c.lc, xo := c.xo, free := c.free, out := c.out, time := c.time, clock := c.clock, faults := c.faults, power := p,
    frontSeen := c.frontSeen, frontAny := c.frontAny,
    obj := c.obj.filter fun e => keptWarm e.1, dom := c.dom.filter fun e => keptWarm e.1,
    pkg := { Package.atReset with ir := c.pkg.ir, boundary := c.pkg.boundary } }
  { chip := ((c1.wr (rstOd 2) 5).bump (rstOd 7) 1).refSettle, cores := Vector.replicate 8 Setter.atReset, mem := Mem.atReset }

/-- POWER_ON_RESET (R448). -/
def execPowerOnReset (s : State) : Host.Outcome State Fault Refusal := done s (s.dev.coldReset 1)

/-- PWR_GOOD_LOW (R446). -/
def execPwrGoodLow (s : State) : Host.Outcome State Fault Refusal := done s (s.dev.coldReset 2)

/-- RESET_L_ASSERT (R448). -/
def execResetLAssert (s : State) : Host.Outcome State Fault Refusal := done s (s.dev.coldReset 3)

/-- OD 5800.03 (R448): the reset begins 100 µs after the response. -/
def Chip.resetWrite (c : Chip) (v : Nat) : Chip × Status :=
  if v = 0xC55C then ({ c with rst := { c.rst with command := some 4, asked := c.lc } }, .ok)
  else if v = 0xA55A then ({ c with rst := { c.rst with command := some 5, asked := c.lc } }, .ok)
  else (c, .range)

/-- COLD_RESET_COMMAND (R448). -/
def execColdResetCommand (sess : Fin 9) (s : State) : Host.Outcome State Fault Refusal :=
  ok s (s.dev.chip.request sess.val (rstOd 3) (.num 0xC55C) fun c => c.resetWrite 0xC55C)

/-- WARM_RESET_COMMAND (R449). -/
def execWarmResetCommand (sess : Fin 9) (s : State) : Host.Outcome State Fault Refusal :=
  ok s (s.dev.chip.request sess.val (rstOd 3) (.num 0xA55A) fun c => c.resetWrite 0xA55A)

/-- RESET_COMMAND_START (R448): 100 µs after the response. -/
def execResetCommandStart (s : State) : Host.Outcome State Fault Refusal :=
  match s.dev.chip.rst.command with
  | none => ok s s.dev.chip
  | some 5 => done s ({ s.dev with chip := s.dev.chip.untilLc (s.dev.chip.rst.asked + 100000) } : Dev).warmReset
  | some k => done s (s.dev.coldReset k)

/-! ### Bring-up (R450-R453) -/

/-- A CAN heartbeat (R389). -/
def Chip.canBeat (c : Chip) (v : Nat) : Chip :=
  if c.canOn then c.send (.can (0x700 + c.rd (od 0x1100 9)) (beBytes 1 v)) else c

/-- RESET_RELEASE (R447, R450, R386, R389): state SILL. A warm reset leaves the straps and the CAN port as they are. -/
def execResetRelease (nodeId : Fin 64) (twinSide : Fin 2) (bootSrc : Fin 4) (s : State) : Host.Outcome State Fault Refusal :=
  let c := s.dev.chip
  if c.bringUp ≠ 0 then ok s c
  else
    let c1 := { c.wr (rstOd 1) 1 with rst := ⟨none, 0, c.xo, false⟩ }
    if c.rd (rstOd 2) = 5 then ok s c1
    else
      let c2 := (((c1.wr (od 0x1080 1) nodeId.val).wr (od 0x1080 2) twinSide.val).wr (od 0x1080 3) bootSrc.val).wr (od 0x1100 9)
        (nodeId.val + 1 + 64 * twinSide.val)
      ok s ((c2.canBeat 0).canBeat 0x7F)

/-- State MEMORY: the hub is on the cleaned clock (R450). -/
def Chip.toMemory (c : Chip) : Chip := (c.wr (rstOd 1) 3).wr (powOd 0x15) 1

/-- SRAM_CLEAR_COMPLETE (R450): SILL ends; CLOCK ends at once where the APLL has locked already. -/
def execSramClearComplete (s : State) : Host.Outcome State Fault Refusal :=
  let c := s.dev.chip
  if c.bringUp ≠ 1 then ok s c
  else
    let c1 := c.wr (rstOd 1) 2
    done s { s.dev with chip := if c1.clockState = 0 then c1 else c1.toMemory, mem := { s.dev.mem with sram := ByteMem.zero } }

/-- APLL_LOCK (R405, R428, R450): NO_CLOCK becomes FREE_RUN; bring-up leaves CLOCK, a parked time clock runs again. -/
def execApllLock (s : State) : Host.Outcome State Fault Refusal :=
  let c := s.dev.chip
  if c.clockState ≠ 0 || c.bringUp = 0 || c.rst.noXo || c.device = 2 then ok s c
  else
    let c0 := match c.power.sleep with
      | some x => (match x.stopped with | some (l, n) => c.unpark x l n | none => c)
      | none => c
    let c1 := c0.enterFreeRun.refSettle
    ok s (if c1.bringUp = 2 then c1.toMemory else c1)

/-- XO_EDGE_TIMEOUT (R451): no edge since the release. -/
def execXoEdgeTimeout (s : State) : Host.Outcome State Fault Refusal :=
  let c := s.dev.chip
  if (c.bringUp ≠ 1 && c.bringUp ≠ 2) || c.clockState ≠ 0 || c.xo ≠ c.rst.since then ok s c
  else ok s ({ c with rst := { c.rst with noXo := true } }.fault .fail .condition (rstOd 1) 0 c.bringUp 0)

/-- Bring-up ends in READY or CONFIG_FAILED (R450): the time since the release, 20 ns an XO count. -/
def Chip.bringUpEnds (c : Chip) (st : Nat) : Chip := (c.wr (rstOd 1) st).wr (rstOd 6) ((c.xo - c.rst.since) / 50 % 2 ^ 32)

/-- CONFIG begins (R453): the flash is read, or skipped. -/
def Chip.toConfig (c : Chip) : Chip :=
  match c.rd (od 0x1080 3) with
  | 0 => c.wr (rstOd 1) 4
  | 1 => c.wr (rstOd 1) 4
  | 2 => (c.wr (rstOd 4) 6).bringUpEnds 5
  | _ => ((c.wr (rstOd 4) 6).bringUpEnds 5).fault .note .condition (rstOd 4) 0 6 0

/-- HBM_FILL_COMPLETE (R450, R452): failed stacks have retired, with nothing to copy, every stack has had its
first pass (R264), and every unit is 0 with a clean tag. -/
def execHbmFillComplete (failedStacks : List (Fin 6)) (s : State) : Host.Outcome State Fault Refusal :=
  let d := s.dev
  if d.chip.bringUp ≠ 3 then ok s d.chip
  else
    let d1 := failedStacks.foldl Dev.failStack d
    let d2 := (List.range 18).foldl (fun (a : Dev) _ => a.migrationEnds) d1
    let c := ([0, 1, 2, 3, 4, 5] : List (Fin 6)).foldl (fun a k =>
      a.setTraining k { a.hbm.training[k] with lastPass := a.lc, lastTemp := a.rankTemp k }) d2.chip
    done s { d2 with chip := c.toConfig, mem := { d2.mem with hbm := ByteMem.zero, lost := [], tag := [] } }

/-! ### Faults acknowledged (R464) -/

/-- Records up to a SEQ are acknowledged (R464). -/
def Chip.acknowledge (c : Chip) (seq : Nat) : Chip :=
  let after_ := fun (q : Nat) => let d := (q + 2 ^ 32 - seq % 2 ^ 32) % 2 ^ 32; decide (1 ≤ d) && decide (d < 2 ^ 31)
  { c with faults := { c.faults with active := c.faults.active.filter fun a => after_ a.seq } }

/-- FAULT_ACKNOWLEDGE (R464). -/
def execFaultAcknowledge (sess : Fin 9) (seq : BitVec 32) (s : State) : Host.Outcome State Fault Refusal :=
  ok s (s.dev.chip.request sess.val (rstOd 0x13) (.num seq.toNat) fun c => (c.acknowledge seq.toNat, .ok))

/-- ATTN_L is driven low: a record is active (R464). -/
def Chip.attention (c : Chip) : Bool := !c.faults.active.isEmpty

/-! ### The TAP (R485, R486) -/

/-- Instructions under which the boundary register drives the pins (R486): EXTEST, CLAMP, HIGHZ, EXTEST_PULSE, EXTEST_TRAIN. -/
def drivesPins (ir : Nat) : Bool := ir == 0 || ir == 3 || ir == 4 || ir == 8 || ir == 9

/-- The boundary register drives the pins. -/
def Chip.pinsDriven (c : Chip) : Bool := drivesPins c.pkg.ir

/-- Every lane that is not OFF goes to LISTEN, and the MGT link restarts (R486). -/
def Chip.testLeft (c : Chip) : Chip :=
  ((List.range 512).foldl (fun a l => if a.laneState l = 0 then a else a.toListen l) c).wr (od 0x1100 2) 0

/-- An instruction enters the TAP's instruction register; a reserved code acts as BYPASS (R485). -/
def Chip.tap (c : Chip) (code : Nat) : Chip :=
  let c1 := { c with pkg := { c.pkg with ir := code } }
  if drivesPins c.pkg.ir && !drivesPins code then c1.testLeft else c1

/-- TAP_RESET (R448, R485): IDCODE is selected. -/
def execTapReset (s : State) : Host.Outcome State Fault Refusal := ok s (s.dev.chip.tap 2)

/-- EXTEST. -/
def execExtest (s : State) : Host.Outcome State Fault Refusal := ok s (s.dev.chip.tap 0)

/-- SAMPLE_PRELOAD: the boundary register of 1074 cells is selected and loaded (R485). -/
def execSamplePreload (cells : List Bool) (s : State) : Host.Outcome State Fault Refusal :=
  let c := s.dev.chip.tap 1
  ok s { c with pkg := { c.pkg with boundary := cells.take 1074 } }

/-- The device identification register of stepping A2 (R485). -/
def idCode : Nat := 0x26400553

/-- IDCODE: the device identification register is selected, and is what TDO shifts out. -/
def execIdcode (s : State) : Host.Outcome State Fault Refusal := ok s ((s.dev.chip.tap 2).send (.tdo idCode 32))

/-- CLAMP. -/
def execClamp (s : State) : Host.Outcome State Fault Refusal := ok s (s.dev.chip.tap 3)

/-- HIGHZ. -/
def execHighz (s : State) : Host.Outcome State Fault Refusal := ok s (s.dev.chip.tap 4)

/-- EXTEST_PULSE. -/
def execExtestPulse (s : State) : Host.Outcome State Fault Refusal := ok s (s.dev.chip.tap 8)

/-- EXTEST_TRAIN. -/
def execExtestTrain (s : State) : Host.Outcome State Fault Refusal := ok s (s.dev.chip.tap 9)

/-- A code of the table other than BYPASS. -/
def namedCode (code : Nat) : Bool := code ≤ 4 || code == 8 || code == 9

/-- BYPASS, or a reserved code, which acts as BYPASS; a code that the table gives another instruction is that instruction. -/
def execBypass (code : BitVec 8) (s : State) : Host.Outcome State Fault Refusal :=
  ok s (s.dev.chip.tap (if namedCode code.toNat then code.toNat else 0xFF))

/-- TAP_TEST_EXIT (R486): the TAP leaves a pin-driving instruction for another one. -/
def execTapTestExit (code : BitVec 8) (s : State) : Host.Outcome State Fault Refusal :=
  ok s (s.dev.chip.tap (if namedCode code.toNat then code.toNat else 0xFF))

/-! ### Thermal sensors (R488) -/

/-- OD 5810.sub. -/
def tempOd (sub : Nat) : Nat := od 0x5810 sub

/-- A temperature object, Q8.8 in °C. -/
def Chip.temp (c : Chip) (sub : Nat) : Int := toI (c.rd (tempOd sub)) 16

/-- A thermal trip (R488): every domain but PD_SILL and PD_CLK enters NAP at once, and what is in flight is lost. -/
def Dev.trip (d : Dev) (hottest : Int) : Dev :=
  let c := d.chip
  let c1 := (c.bump (tempOd 0x15) 1).fault .fail .condition (tempOd 0x13) 0 (ofI hottest 32) 0
  let c2 := { c1 with pkg := { c1.pkg with tripped := true } }
  let c3 := ((List.range 96).filter fun i => 2 ≤ i && c2.domState i != 0).foldl (fun a i => a.domTo i 3) c2
  let c4 := ((List.range 512).filter fun l => c3.laneState l != 0).foldl (fun a l => a.laneTo l 0) c3
  { d with chip := { c4 with lanes := [], bundles := [], ports := [], outs := [], fe := FEngine.atReset, truss := Truss.atReset,
                             xe := XEngine.atReset, streams := [], matrix := ⟨[], [], []⟩, hbm := { c4.hbm with pcs := [] },
                             dict := { c4.dict with txn := none, validating := none, held := [], sdo := none } } }

/-- A reading compared with the thresholds (R488); a threshold that stays passed raises no new record. -/
def Dev.thermal (d : Dev) : Dev :=
  let c := d.chip
  let h := c.temp 0x11
  let warn := (c.rd (tempOd 0x12) : Int) * 256
  let c1 := if warn ≤ h && !c.pkg.warned then
      { c with pkg := { c.pkg with warned := true } }.fault .note .condition (tempOd 0x12) 0 (ofI h 32) 0
    else if h ≤ warn - 768 then { c with pkg := { c.pkg with warned := false } } else c
  let hot := decide (24320 ≤ h)
  let c2 := { c1 with pkg := { c1.pkg with hot := hot } }
  let c3 := if hot && !c1.pkg.hot then c2.fault .degrade .condition (tempOd 0x11) 0 (ofI h 32) 0 else c2
  if (c3.rd (tempOd 0x13) : Int) * 256 ≤ h && !c3.pkg.tripped then ({ d with chip := c3 } : Dev).trip h else { d with chip := c3 }

/-- SENSOR_READING (R488): the sensor, the hottest of the sixteen, the highest since reset. -/
def execSensorReading (sensor : Fin 16) (q88 : Int) (s : State) : Host.Outcome State Fault Refusal :=
  let c := s.dev.chip.wr (tempOd (1 + sensor.val)) (ofI (sat 16 q88) 16)
  let h := (List.range 15).foldl (fun a i => max a (c.temp (2 + i))) (c.temp 1)
  let c1 := (c.wr (tempOd 0x11) (ofI h 16)).wr (tempOd 0x14) (ofI (max h (c.temp 0x14)) 16)
  done s ({ s.dev with chip := c1 } : Dev).thermal

/-! ### The MGT link (R376) -/

/-- MGT_LINK_UP: at 10GBASE-R unless OD 1100.01 is 2, at 1000BASE-X unless it is 1. -/
def execMgtLinkUp (baseR : Bool) (s : State) : Host.Outcome State Fault Refusal :=
  let c := s.dev.chip
  let allowed := if baseR then c.rd (od 0x1100 1) != 2 else c.rd (od 0x1100 1) != 1
  ok s (if allowed && 1 ≤ c.bringUp then c.wr (od 0x1100 2) (1 + b2n baseR) else c)

/-- MGT_LINK_DOWN. -/
def execMgtLinkDown (s : State) : Host.Outcome State Fault Refusal := ok s (s.dev.chip.wr (od 0x1100 2) 0)

end Sys2Proof.Machine
end

