-- ==== Sys2Proof/Machine/Writes.lean ====
section
/-! DEFINITION. What a write does that acts at once, object by object (R361, R367): a setting takes its value, a command acts. The transaction
commands of OD 1200 (R366-R371, R388), and the mirroring of accepted writes (R436). -/

namespace Sys2Proof.Machine

/-! ### Counters cleared -/

/-- Objects `lo .. hi` of an index return to 0. -/
def Chip.clearRange (c : Chip) (i lo hi : Nat) : Chip :=
  (List.range (hi + 1 - lo)).foldl (fun a m => a.wr (od i (lo + m)) 0) c

/-- A clear command (R85 and its likes): the counters that its index lists return to 0; OD 4800.20 clears those of every candidate (R412), and
OD 4010+n.20 the fault count of the setter (R332). -/
def Dev.clear (d : Dev) (k : Nat) : Dev :=
  let i := keyIndex k
  match objRow i (keySub k) with
  | none => d
  | some r =>
    let c1 := r.clears.foldl (fun a e => a.clearRange i e.1 e.2) d.chip
    let c2 := if k = clkOd 0x20 then (List.range 7).foldl (fun a m => a.clearRange (0x4810 + m) 0x16 0x18) c1 else c1
    let d1 := ({ d with chip := c2 } : Dev)
    if 0x4010 ≤ i && i < 0x4018 then
      let n : Fin 8 := Fin.ofNat 8 (i - 0x4010)
      { d1 with cores := d1.cores.set n { d1.cores[n] with faults := 0 } }
    else d1

/-! ### Transactions opened and closed (R366, R370, R371) -/

/-- The last commit's status, check and object (R368, OD 1200.06-.08). -/
def Chip.commitStatus (c : Chip) (st : Status) (check object : Nat) : Chip :=
  ((c.wr (od 0x1200 6) st.code).wr (od 0x1200 7) check).wr (od 0x1200 8) object

/-- BEGIN (R366). -/
def Chip.begin (c : Chip) (sess : Nat) : Chip × Status :=
  match c.dict.txn with
  | some _ => (c, .txnBusy)
  | none =>
    let c1 := { c with dict := { c.dict with txn := some ⟨sess, c.lc, [], []⟩ } }
    (((c1.wr (od 0x1200 1) 1).wr (od 0x1200 2) sess).showStaging, .ok)

/-- The open transaction is no longer open. -/
def Chip.closeTxn (c : Chip) : Chip :=
  let c1 := { c with dict := { c.dict with txn := none } }
  ((c1.wr (od 0x1200 1) 0).wr (od 0x1200 2) 0xFF).showStaging

/-- An object that a rolled-back transaction wrote into place reads empty: its content is lost (R367). -/
def Dev.emptied (d : Dev) (k : Nat) : Dev :=
  let i := keyIndex k
  if 0x4010 ≤ i && i < 0x4018 then
    let n : Fin 8 := Fin.ofNat 8 (i - 0x4010)
    { d with cores := d.cores.set n { d.cores[n] with pram := [] } }
  else { d with chip := d.chip.wrDom k [] }

/-- The open transaction is rolled back (R370). -/
def Dev.rollBack (d : Dev) : Dev :=
  match d.chip.dict.txn with
  | none => d
  | some t =>
    let c := d.chip.closeTxn
    t.direct.foldl Dev.emptied { d with chip := c.swapsAfter t.direct (effectSpectrum c.fft c.reached) }

/-- A session that owns no transaction asks to end one: EXPIRED once after an expiry, else NO_TXN (R366, R371). -/
def Chip.noTxn (c : Chip) (sess : Nat) : Chip × Status :=
  let x := c.session sess
  if x.expired then (c.setSession sess { x with expired := false }, .expired) else (c, .noTxn)

/-- ROLLBACK (R370). -/
def Dev.rollbackBy (d : Dev) (sess : Nat) : Dev × Status :=
  if d.chip.owner = some sess then (d.rollBack, .ok)
  else
    let (c, st) := d.chip.noTxn sess
    ({ d with chip := c }, st)

/-- COMMIT (R368): step 1 at once; the rest is validated. -/
def Chip.commitBy (c : Chip) (sess : Nat) (tick : Option Nat) (a : Asker) : Chip × Option Status :=
  if c.owner = some sess then ({ c with dict := { c.dict with validating := some ⟨sess, tick, a⟩ } }, none)
  else
    let (c1, st) := c.noTxn sess
    (c1.commitStatus st 0 0, some st)

/-! ### Writes of scalars that act -/

/-- A setting takes its value. -/
def Chip.setting (c : Chip) (k n : Nat) : Chip × Status := (c.wr k n, .ok)

/-- A command object acts on 1; 0 does nothing. -/
def Chip.onOne (c : Chip) (n : Nat) (f : Chip → Chip) : Chip × Status := (if n = 1 then f c else c, .ok)

/-- A CAN setting (R386, R389): a port that starts by it sends its boot-up message. -/
def Chip.canSetting (c : Chip) (k n : Nat) : Chip × Status :=
  let c1 := c.wr k n
  (if !c.canOn && c1.canOn then c1.canBeat 0 else c1, .ok)

/-- A candidate's setting (R394, R412); a LANE candidate takes the received QL of the lane it names, 0 where three equal ones have not come
(R67, R396). -/
def Chip.candSetting (c : Chip) (k b n : Nat) : Chip × Status :=
  let role := c.laneRole n
  if b = 4 && n != 0xFFFF && !(role == 1 || role == 2 || role == 3) then (c, .range)
  else if b = 7 && n < c.rd (od (keyIndex k) 6) then (c, .range)
  else
    let c1 := c.wr k n
    let seen := (c.lane n).qlSeen
    (if b = 4 then (c1.wr (od (keyIndex k) 0x12) (if n < 512 && seen.2 = 3 then seen.1 else 0)).refSettle else c1.refSettle, .ok)

/-- The L0 noise estimate (R222): STATE while it runs. -/
def Chip.noiseSetting (c : Chip) (s n : Nat) : Chip × Status :=
  let x := c.stream s
  if x.l0.on && c.rd (strOd s 0x64) = 0 && !c.frozenAt 1 (x.next.getD 0) then (c, .state) else (c.wr (strOd s 0x65) n, .ok)

/-- Writes of scalars below index 0x4000 that act. -/
def Chip.writeLow (c : Chip) (k n : Nat) : Chip × Status :=
  let i := keyIndex k
  let b := keySub k
  if k = od 0x1100 9 || k = od 0x1100 0x0B then c.canSetting k n
  else if k = od 0x1400 1 then if n = 1 && !c.on (od 0x1400 3) then (c, .state) else c.setting k n
  else if 0x2100 ≤ i && i < 0x2300 then
    let l := i - 0x2100
    if b = 5 then c.testMode l n
    else if 6 ≤ b && b ≤ 8 || b = 0x0A then c.testSetting l b n
    else if b = 9 then c.onOne n fun x => x.injectError l
    else if b = 0x31 then c.onOne n fun x => x.laneRestart l
    else c.setting k n
  else if k = chanOd 0x1B then c.onOne n Chip.skArm
  else if i = 0x3800 && 0x51 ≤ b && b ≤ 0x58 then
    c.onOne n fun x => if x.slotState (Fin.ofNat 8 (b - 0x51)) = 0 then x else x.freeSlot (Fin.ofNat 8 (b - 0x51))
  else c.setting k n

/-- Writes of scalars from index 0x4000 up that act on the chip alone. -/
def Chip.writeHigh (c : Chip) (k n : Nat) : Chip × Status :=
  let i := keyIndex k
  let b := keySub k
  if 0x4040 ≤ i && i < 0x4060 && b = 2 then if n = 1 then c.dmaStart (i - 0x4040) else (c, .ok)
  else if 0x4060 ≤ i && i < 0x4070 && (b = 1 || b = 2) then c.queueConfigure (i - 0x4060) b n
  else if i = 0x4800 then ((c.wr k n).refSettle, .ok)
  else if 0x4810 ≤ i && i < 0x4817 then c.candSetting k b n
  else if k = od 0x4C00 0x11 then c.armPair n
  else if 0x4C10 ≤ i && i < 0x4C14 then
    let v : Fin 4 := Fin.ofNat 4 (i - 0x4C10)
    if b = 3 then c.viewRate v (BitVec.ofNat 64 n)
    else if b = 4 then c.viewStep v (toI n 64)
    else c.viewUncertainty v n
  else if k = powOd 3 then if n = 1 then c.resume else (c, .ok)
  else if k = powOd 0x12 then c.hbmRate n
  else if 0x5020 ≤ i && i < 0x5030 && b = 8 then c.onOne n fun x => x.clearReg (i - 0x5020) n
  else if k = twinOd 6 then if n < 3 * c.rd (twinOd 5) then (c, .range) else c.setting k n
  else if k = twinOd 0x14 then c.handOverWrite n
  else if k = rstOd 3 then c.resetWrite n
  else if k = rstOd 0x13 then (c.acknowledge n, .ok)
  else if 0x8000 ≤ i && i < 0x9000 then
    let f := i - 0x8000
    if b = 0x23 then c.swapWrite f n else c.setting k n
  else if 0x9000 ≤ i && i < 0x9400 then
    let s := i - 0x9000
    if b = 6 then c.dcMean s false n
    else if b = 7 then c.dcMean s true n
    else if b = 0x44 then if c.fft / 2 < n then (c, .range) else c.setting k n
    else if b = 0x47 then c.onOne n fun x => x.segmentsClear s
    else if b = 0x65 then c.noiseSetting s n
    else c.setting k n
  else c.setting k n

/-- A write of a scalar that acts at once; `none` while the answer is still to come. Whoever asked is kept by what answers later. -/
def Dev.writeNum (d : Dev) (sess k n : Nat) (a : Asker) : Dev × Option Status :=
  let i := keyIndex k
  let b := keySub k
  let c := d.chip
  let up := fun (r : Chip × Status) => (({ d with chip := r.1 } : Dev), some r.2)
  let upd := fun (r : Dev × Status) => (r.1, some r.2)
  let upo := fun (r : Chip × Option Status) => (({ d with chip := r.1 } : Dev), r.2)
  match objRow i b with
  | none => (d, some .noObject)
  | some r =>
    if 0x8000 ≤ i && i < 0x9000 && 0x20 ≤ b && c.formeKind (i - 0x8000) ≠ 2 then (d, some .state)
    else if !r.clears.isEmpty then (if n = 1 then d.clear k else d, some .ok)
    else if i = 0x1200 && b = 0x10 then up (if n = 1 then c.begin sess else (c, .ok))
    else if i = 0x1200 && b = 0x11 then upo (c.commitBy sess (some n) a)
    else if i = 0x1200 && b = 0x12 then upo (if n = 1 then c.commitBy sess none a else (c, some .ok))
    else if i = 0x1200 && b = 0x13 then upd (if n = 1 then d.rollbackBy sess else (d, .ok))
    else if 0x3C10 ≤ i && i < 0x3C22 && b = 5 then
      let q := i - 0x3C10
      if n ≠ 1 then (d, some .ok) else if c.rankState q ≠ 1 then (d, some .state) else (d.retire q 0, some .ok)
    else if 0x4010 ≤ i && i < 0x4018 && b = 1 then upd (d.runControl (Fin.ofNat 8 (i - 0x4010)) n)
    else if 0x4010 ≤ i && i < 0x4018 && b = 3 then (d.ring (Fin.ofNat 8 (i - 0x4010)) (BitVec.ofNat 32 n), some .ok)
    else if 0x4040 ≤ i && i < 0x4060 && b = 3 then (if n = 1 then d.dmaAbort (i - 0x4040) else d, some .ok)
    else if k = powOd 2 then d.sleepRequest n a
    else if k = powOd 0x10 then upo (c.operatingPoint n a)
    else if 0x5100 ≤ i && i < 0x5160 && b = 2 then d.domainRequest (i - 0x5100) n a
    else if i < 0x4000 then up (c.writeLow k n)
    else up (c.writeHigh k n)

/-! ### Writes of DOMAINs that act -/

/-- The key (R385): the response to its write still carries the tag of the old one, so the write is answered here. -/
def Chip.keyWrite (c : Chip) (b : List Byte) (a : Asker) : Chip :=
  let c1 := c.reply a .ok
  { c1.wr (od 0x1400 3) 1 with dict := { c1.dict with key := b } }

/-- The holdover curve table (R374, R409). -/
def Chip.curvesWrite (c : Chip) (b : List Byte) : Chip × Status :=
  match tableCheck 0x0E b with
  | some .range => (c, .range)
  | some .crc => (c, .tableCrc)
  | none => if curvesOk (tableBody b) then (c.wrDom (od 0x600D 0) b, .ok) else (c, .range)

/-- A complete DOMAIN write that acts at once. -/
def Dev.writeBytes (d : Dev) (sess k : Nat) (b : List Byte) (a : Asker) : Dev × Option Status :=
  let i := keyIndex k
  let s := keySub k
  let c := d.chip
  let up := fun (r : Chip × Status) => (({ d with chip := r.1 } : Dev), some r.2)
  if k = od 0x1400 2 then ({ d with chip := c.keyWrite b a }, none)
  else if k = od 0x600D 0 then up (c.curvesWrite b)
  else if k = od 0x3800 0x0D then up (c.softPeg b)
  else if k = od 0x3800 0x0E then up (c.softDecision b)
  else if 0x4C10 ≤ i && i < 0x4C14 then up (c.viewSet (Fin.ofNat 4 (i - 0x4C10)) b)
  else if 0x8000 ≤ i && i < 0x9000 then up (c.bankWrite sess (i - 0x8000) (s - 0x21) b)
  else if 0x9000 ≤ i && i < 0x9400 then up (c.segmentEnter (i - 0x9000) b)
  else if 0x4010 ≤ i && i < 0x4018 then
    let r := d.firmware sess (Fin.ofNat 8 (i - 0x4010)) b
    (r.1, some r.2)
  else up (c.wrDom k b, .ok)

/-- A write that acts at once. -/
def Dev.writeNow (d : Dev) (sess k : Nat) (v : Val) (a : Asker) : Dev × Option Status :=
  match v with
  | .num n => d.writeNum sess k n a
  | .bytes b => d.writeBytes sess k b a

/-! ### Writes accepted from a session -/

/-- A mirror-class write accepted outside a transaction goes to the shadow (R436). -/
def Chip.mirrorAccepted (c : Chip) (sess k : Nat) (v : Val) : Chip :=
  if c.role = 2 && mirrored k && !neverMirrored k && !(directObject k && c.owner == some sess) then c.mirrorWrite k (valBytes k v) false 0 else c

/-- A write that passed the gate acts, and is mirrored. -/
def Dev.accept (d : Dev) (sess k : Nat) (v : Val) (a : Asker) : Dev × Option Status :=
  let (d1, st) := d.writeNow sess k v a
  if st = some .ok then ({ d1 with chip := d1.chip.mirrorAccepted sess k v }, st) else (d1, st)

/-- A write by a session, with who is to be answered (R359-R369): the request waits while the server handles another, and a SLEEP request
while the HBM rate changes (R423). -/
def Dev.put (d : Dev) (sess k : Nat) (v : Val) (a : Asker) (held : Held) : Dev :=
  let c := d.chip
  if c.serves && k == powOd 2 && c.power.rate.isSome then { d with chip := { c with dict := { c.dict with held := c.dict.held ++ [held] } } }
  else match c.gate false sess k v with
  | .lost => d
  | .hold => { d with chip := { c with dict := { c.dict with held := c.dict.held ++ [held] } } }
  | .refuse st => { d with chip := c.reply a st }
  | .stage => { d with chip := (c.stage k v).reply a .ok }
  | .act =>
    let (d1, st) := d.accept sess k v a
    { d1 with chip := d1.chip.replyIf a st }

/-- A single write by a session. -/
def Dev.write (d : Dev) (sess k : Nat) (v : Val) : Dev := d.put sess k v (.plain sess k) (.write sess k v)

/-- The value that bytes give an object: a scalar's length must be its type's (R360). -/
def valOf (k : Nat) (b : List Byte) : Option Val :=
  match objRow (keyIndex k) (keySub k) with
  | none => some (.bytes b)
  | some r => if r.ty.size = 0 then some (.bytes b) else if b.length = r.ty.size then some (.num (beVal b)) else none

/-- A single write whose value comes as bytes; a scalar of the wrong length is refused with TYPE (R360). -/
def Dev.writeRaw (d : Dev) (sess k : Nat) (b : List Byte) : Dev :=
  match valOf k b with
  | some v => d.write sess k v
  | none => d.write sess k (.bytes b)

/-! ### The commands -/

/-- REGISTER_WRITE (R361). -/
def execRegisterWrite (sess : Fin 9) (index : BitVec 16) (sub : BitVec 8) (data : List Byte) (s : State) :
    Host.Outcome State Fault Refusal := done s (s.dev.writeRaw sess.val (od index.toNat sub.toNat) data)

/-- CLEAR_COUNTERS (R85). -/
def execClearCounters (sess : Fin 9) (index : BitVec 16) (sub : BitVec 8) (data : List Byte) (s : State) :
    Host.Outcome State Fault Refusal := done s (s.dev.writeRaw sess.val (od index.toNat sub.toNat) data)

/-- KEY_WRITE (R385). -/
def execKeyWrite (sess : Fin 9) (key : List Byte) (s : State) : Host.Outcome State Fault Refusal :=
  done s (s.dev.write sess.val (od 0x1400 2) (.bytes key))

/-- CAN_BEGIN (R388). -/
def execCanBegin (s : State) : Host.Outcome State Fault Refusal := done s (s.dev.write 0 (od 0x1200 0x10) (.num 1))

/-- CAN_COMMIT_AT_TICK (R388). -/
def execCanCommitAtTick (tick : BitVec 64) (s : State) : Host.Outcome State Fault Refusal :=
  done s (s.dev.write 0 (od 0x1200 0x11) (.num tick.toNat))

/-- CAN_COMMIT_NOW (R388). -/
def execCanCommitNow (s : State) : Host.Outcome State Fault Refusal := done s (s.dev.write 0 (od 0x1200 0x12) (.num 1))

/-- CAN_ROLLBACK (R388). -/
def execCanRollback (s : State) : Host.Outcome State Fault Refusal := done s (s.dev.write 0 (od 0x1200 0x13) (.num 1))

/-- WEIGHT_BANK_WRITE (R198). -/
def execWeightBankWrite (sess : Fin 9) (f : Fin 4096) (bank : Fin 2) (table : List Byte) (s : State) :
    Host.Outcome State Fault Refusal := done s (s.dev.write sess.val (bankOd f.val bank.val) (.bytes table))

/-- SWAP_REQUEST (R208). -/
def execSwapRequest (sess : Fin 9) (f : Fin 4096) (tick : BitVec 64) (s : State) : Host.Outcome State Fault Refusal :=
  done s (s.dev.write sess.val (formeOd f.val 0x23) (.num tick.toNat))

/-- DC_MEAN_WRITE: OD 9000+s.06 or .07. -/
def execDcMeanWrite (sess : Fin 9) (n : Fin 1024) (imaginary : Bool) (value : Int) (s : State) :
    Host.Outcome State Fault Refusal :=
  done s (s.dev.write sess.val (strOd n.val (if imaginary then 7 else 6)) (.num (ofI value 32)))

/-- DELAY_SEGMENT_WRITE (R124). -/
def execDelaySegmentWrite (sess : Fin 9) (n : Fin 1024) (record : List Byte) (s : State) :
    Host.Outcome State Fault Refusal := done s (s.dev.write sess.val (strOd n.val 0x40) (.bytes record))

/-- CLEAR_SEGMENTS: OD 9000+s.47. -/
def execClearSegments (sess : Fin 9) (n : Fin 1024) (s : State) : Host.Outcome State Fault Refusal :=
  done s (s.dev.write sess.val (strOd n.val 0x47) (.num 1))

end Sys2Proof.Machine
end

