-- ==== Sys2Proof/Machine/Rules.lean ====
section
/-! DEFINITION. Steps 2 and 3 of the validation of a COMMIT (R368): every staged table's header, and each chapter's rules for the objects
written, in ascending index and subindex. Where an object meets several rules, what its value allows by itself (RANGE) is tested before what the
state of the machine allows. -/

namespace Sys2Proof.Machine

/-- A commit as its rules see it: the device, the values that will hold just before it and after it (R21), its staged writes, its effect
tick, and that it comes from the lead, so that the shadow's refusal does not apply (R435, R436). -/
structure Check where
  d : Dev
  old : Chip
  new : Chip
  w : List (Nat × Val)
  tick : Nat
  fromLead : Bool

/-- The commit of staged writes. -/
def Check.of (d : Dev) (w : List (Nat × Val)) (tick : Nat) (fromLead : Bool) : Check :=
  ⟨d, d.chip.afterCommit [], d.chip.afterCommit w, w, tick, fromLead⟩

/-- The effect tick of a write of the commit (R38). -/
def Check.due (x : Check) (k : Nat) (v : Val) : Nat := x.d.chip.dueAt ⟨0, 0, 0, x.tick, [], [], false, 0⟩ k v

/-- The values in force at the effect point of a write of the commit: those of the commits that come before it, and its own. -/
def Check.here (x : Check) (k : Nat) (v : Val) : Chip :=
  let c := x.d.chip
  let t := x.due k v
  (c.dict.schedule.flatMap (fun p => p.writes.filter fun e => decide (c.dueAt p e.1 e.2 ≤ t)) ++ x.w).foldl Chip.layOver c

/-- The commit changes an object. -/
def Check.changes (x : Check) (k : Nat) : Bool := x.old.over [] k != x.new.over [] k

/-- The commit writes an object. -/
def Check.writes (x : Check) (k : Nat) : Bool := x.w.any fun e => e.1 == k

/-- The first test that fails gives the status; none, OK. -/
def firstFail : List (Bool × Status) → Status
  | [] => .ok
  | (bad, st) :: t => if bad then st else firstFail t

/-- A run object is written 1 in the commit, or by a pending transaction (R251). -/
def Check.startsAnywhere (x : Check) (k : Nat) : Bool := ((x.d.chip.everyValue x.w k).drop 1).any fun v => v == .num 1

/-- A pending transaction writes a run object 1. -/
def Check.pendingStart (x : Check) (k : Nat) : Bool := ((x.d.chip.everyValue [] k).drop 1).any fun v => v == .num 1

/-- A change of the SRAM or HBM partition table is pending whose effect point the write of a run object would not come after (R251, R257). -/
def Check.partitionAhead (x : Check) (k : Nat) : Bool :=
  x.d.chip.dict.schedule.any fun p => decide (x.due k (.num 1) ≤ p.tick) && p.writes.any fun e => e.1 == od 0x600A 0 || e.1 == od 0x600B 0

/-! ### Tables (R373, R374) -/

/-- The body of a staged table. -/
def Val.body : Val → List Byte
  | .num _ => []
  | .bytes b => tableBody b

/-- Step 2 for one staged object. -/
def tableStatus (k : Nat) (v : Val) : Status :=
  match tableKind (keyIndex k) (keySub k), v with
  | some kind, .bytes b =>
    match tableCheck kind b with
    | some .range => .range
    | some .crc => .tableCrc
    | none => .ok
  | _, _ => .ok

/-! ### Links and ports (R50, R51, R82, R333, R416) -/

/-- The quads of a port's lanes for a type (R333). -/
def portQuads (p type : Nat) : List Nat :=
  match type with
  | 0 => []
  | 3 => [112 + 2 * p, 113 + 2 * p]
  | _ => [112 + 2 * p]

/-- Every quad of a port that is not OFF has the ETHERNET role. -/
def Chip.portQuadsOk (g : Chip) (p : Nat) : Bool := (portQuads p (g.rd (portOd p 1))).all fun q => g.rd (od 0x2001 (q + 1)) == 4

/-- The lanes of a bundle have one role (R51). -/
def Chip.oneRole (g : Chip) (b : Nat) : Bool :=
  let roles := (g.bundleLanes b).map g.laneRole
  roles.all fun r => some r == roles.head?

/-- The banks of a bundle's lanes are configured and run, and for a MESH or TWIN bundle the truss does (R416). -/
def Check.bundlePowered (x : Check) (b : Nat) : Bool :=
  ((x.new.bundleLanes b).all fun l => x.d.chip.domOpen (6 + l / 16) && x.new.on (domOd (6 + l / 16) 1)) &&
    (!(x.new.credited b) || x.d.chip.domOpen 3)

/-- A protocol that allows Twiah-1 on a bundle that is not INGEST (OD 2300+b.08). -/
def Chip.badProtocol (g : Chip) (b : Nat) : Bool := g.rd (bunOd b 8) == 1 && g.bundleRole b != 1 && !(g.bundleLanes b).isEmpty

/-- The rules of OD 2001.q+1. -/
def Check.quadRule (x : Check) (q n : Nat) : Status :=
  let lanes := [4 * q, 4 * q + 1, 4 * q + 2, 4 * q + 3]
  firstFail [(n == 4 && decide (q < 112), .range),
    (lanes.any fun l => decide (x.new.laneBundle l < 256) && (!x.new.oneRole (x.new.laneBundle l) || x.new.badProtocol (x.new.laneBundle l)), .range),
    ((List.range 8).any fun p => !x.new.portQuadsOk p && (portQuads p (x.new.rd (portOd p 1))).contains q, .range),
    (x.changes (od 0x2001 (q + 1)) && (lanes.any fun l => x.old.bundleOn (x.old.laneBundle l)), .laneBusy)]

/-- The rules of OD 2100+l.01 and .02. -/
def Check.laneRule (x : Check) (l : Nat) : Status :=
  let b0 := x.old.laneBundle l
  let b1 := x.new.laneBundle l
  let moved := x.changes (laneOd l 1) || x.changes (laneOd l 2)
  firstFail [(decide (b1 < 256) && (!x.new.oneRole b1 || x.new.badProtocol b1), .range),
    (moved && (x.old.bundleOn b0 || x.old.bundleOn b1), .laneBusy),
    (moved && x.new.bundleOn b1 && !x.bundlePowered b1, .state)]

/-- The rules of OD 2300+b. -/
def Check.bundleRule (x : Check) (b sub n : Nat) : Status :=
  firstFail [((sub == 1 || sub == 8) && x.new.badProtocol b, .range),
    (sub == 1 && n == 1 && !x.new.oneRole b, .range),
    ((sub == 2 || sub == 8) && x.changes (bunOd b sub) && x.old.bundleOn b, .laneBusy),
    (sub == 1 && n == 1 && !x.bundlePowered b, .state)]

/-- The rules of OD 4410+p.01 and .06 (R333, R358, R416). -/
def Check.portRule (x : Check) (p sub : Nat) : Status :=
  let type := x.new.rd (portOd p 1)
  let lanes := match type with | 1 => 2 | 2 => 4 | 3 => 8 | _ => 0
  firstFail [(type != 0 && x.new.rd (portOd p 6) == 0, .range),
    (!x.new.portQuadsOk p, .range),
    (sub == 1 && (List.range lanes).any fun i => !(x.d.chip.domOpen (6 + (448 + 8 * p + i) / 16)), .state)]

/-! ### Ingest and channelizer -/

/-- The F slice of an enabled row runs, as a row that names it needs (R416): never OFF, and in RUN while the slices are to run. -/
def Check.sliceOk (x : Check) (r : List Byte) : Bool :=
  let st := x.d.chip.domState (70 + rowSlice r)
  if x.new.on (chanOd 1) then st == 1 else st != 0

/-- What R97 and R98 bar in an enabled row. -/
def Chip.rowBad (g : Chip) (r : List Byte) : Bool :=
  let link := fun (b : Nat) => g.bundleRole b == 1 || g.bundleRole b == 3
  let span := rowSpan r
  rowL r == 0 || rowM r == 0 || Nat.gcd (rowL r) (rowM r) != 1 || span % 256 != 0 || decide (span < 256) || decide (262144 < span) ||
    !(rowFormat r == 1 || rowFormat r == 2 || rowFormat r == 3) || !link (rowPrimary r) || (rowAlt r != 0xFFFF && !link (rowAlt r)) ||
    (!rowUnity r && beAt (g.table (od 0x6001 (rowUnifier r + 1))) 0 2 != rowL r)

/-- A value of ALT_BUNDLE that R97 bars in any row. -/
def altBad (r : List Byte) : Bool := decide (255 < rowAlt r) && rowAlt r != 0xFFFF

/-- The rules of the input map (R97, R98, R251, R416). -/
def Check.mapRule (x : Check) (b : List Byte) : Status :=
  let rows := (List.range 1024).map fun s => mapRow b s
  let live := rows.filter rowOn
  firstFail [(b.length != 0 && b.length != 32768, .range), (b.length != 0 && rows.any altBad, .range), (live.any x.new.rowBad, .range),
    (live.any fun r => !x.sliceOk r, .state), (!live.isEmpty && x.partitionAhead (od 0x6000 0), .state)]

/-- The rules of a unifier table (R104). -/
def unifierBad (b : List Byte) : Bool :=
  let l := beAt b 0 2
  b.length != 0 && (l == 0 || decide (1023 < l) || beAt b 2 2 != 16 || b.length != 16 + 64 * l ||
    (List.range (16 * l)).any fun i => let v := toI (beAt b (16 + 4 * i) 4) 32; decide (v < -131072) || decide (131071 < v))

/-- The filter table in force fits the tap count and F (R116). -/
def Chip.filterValid (g : Chip) : Bool :=
  let b := g.table (od 0x6002 0)
  beAt b 0 1 == g.taps && beAt b 4 4 == g.fft && b.length == 8 + g.taps * g.fft

/-- The units that count F, the tap count, T and f_a are stopped, and no pending transaction starts them (R35, R349). -/
def Check.slicesStopped (x : Check) : Bool := x.d.chip.rd (chanOd 9) == 0 && !x.pendingStart (chanOd 1)
/-- The X-engine likewise. -/
def Check.xStopped (x : Check) : Bool := x.d.chip.rd (xOd 4) == 0 && !x.pendingStart (xOd 1)
/-- The truss likewise. -/
def Check.trussStopped (x : Check) : Bool :=
  x.d.chip.halfState 0 == 0 && x.d.chip.halfState 1 == 0 && !x.pendingStart (od 0x2C00 1)

/-- The rules of OD 2800.01 set to 1 (R117, R251, R416). -/
def Check.runRule (x : Check) : Status :=
  firstFail [(!(x.here (chanOd 1) (.num 1)).filterValid, .state), (x.new.enabledRows.any fun e => !x.sliceOk e.2, .state),
    (x.partitionAhead (chanOd 1), .state)]

/-- The rules of OD 3000.01 set to 1 (R251, R416): every configured platen domain runs. -/
def Check.xRunRule (x : Check) : Status :=
  firstFail [((List.range 32).any fun i => x.new.on (domOd (38 + i) 1) && !(x.d.chip.domOpen (38 + i)), .state), (x.partitionAhead (xOd 1), .state)]

/-- The rules of the objects of the channelizer and of f_a and T (R35, R117, R139, R160, R349). -/
def Check.timingRule (x : Check) (k : Nat) : Status :=
  if !x.changes k then .ok
  else if k = chanOd 4 then firstFail [(x.d.chip.rd (chanOd 9) != 0, .timingBusy)]
  else if k = chanOd 2 || k = chanOd 3 then firstFail [(!(x.slicesStopped && x.xStopped), .timingBusy)]
  else firstFail [(!(x.slicesStopped && x.xStopped && x.trussStopped) || (k == od 0x2C00 7 && x.old.on (od 0x2C00 1)), .timingBusy)]

/-- The rules of the filter coefficients (R116, R117). -/
def Check.filterRule (x : Check) (b : List Byte) : Status :=
  let g := x.here (od 0x6002 0) (.bytes b)
  firstFail [(if b.length = 0 then g.on (chanOd 1) else !g.filterValid, .range), (x.d.chip.pendingWrites (od 0x6002 0), .state)]

/-- A precision table that does not fit C (R134). -/
def Chip.precisionBad (g : Chip) (b : List Byte) : Bool :=
  let c := g.fft / 2
  b.length != 0 && (beAt b 0 4 != c || b.length != 4 + (c + 7) / 8)

/-- A truss map that does not fit C (R143). -/
def Chip.mapBad (g : Chip) (b : List Byte) : Bool :=
  let n := mapN b
  b.length != 0 && (n == 0 || decide (16384 < n) || mapC b != g.fft / 2 || b.length != (8 + mapC b + (n + 15) / 16 + 3) / 4 * 4)

/-! ### Formes (R177-R182, R191-R199, R211) -/

/-- The range that an object of a forme without a kind describes is empty or out of range (R177). -/
def Chip.idleRangeBad (g : Chip) (f sub : Nat) : Bool :=
  let channels := g.rd (formeOd f 4) == 0 || decide (g.locals.length < g.rd (formeOd f 3) + g.rd (formeOd f 4))
  let inputs := decide (g.rd (formeOd f 6) < g.rd (formeOd f 5)) || decide ((mapN g.mapBody + 63) / 64 ≤ g.rd (formeOd f 6))
  g.formeKind f == 0 && ((sub == 3 || sub == 4) && channels || (sub == 5 || sub == 6) && inputs)

/-- The ranges of a forme that has a kind are inside what they must lie in (R177, R191, R214). -/
def Chip.formeBad (g : Chip) (f : Nat) : Bool :=
  let kind := g.formeKind f
  if kind = 0 then false
  else
    let c0 := g.rd (formeOd f 3)
    let n := g.rd (formeOd f 4)
    let b0 := g.rd (formeOd f 5)
    let b1 := g.rd (formeOd f 6)
    let p := g.rd (formeOd f 0x0C)
    let pk := g.formeKind p
    let blocks := if kind = 3 && pk = 2 then g.blocks p else (mapN g.mapBody + 63) / 64
    let inParent := decide (g.rd (formeOd p 3) ≤ c0) && decide (c0 + n ≤ g.rd (formeOd p 3) + g.rd (formeOd p 4)) &&
      (pk == 2 || (decide (g.rd (formeOd p 5) ≤ b0) && decide (b1 ≤ g.rd (formeOd p 6))))
    n == 0 || decide (g.locals.length < c0 + n) || decide (b1 < b0) || decide (blocks ≤ b1) ||
      (kind == 3 && (decide (4095 < p) || !(pk == 1 || pk == 2) || !inParent)) ||
      (kind == 2 && (g.rd (formeOd f 8) != 1 || g.rd (formeOd f 9) != 0 ||
        (decide (2 ≤ g.rd (formeOd f 0x27)) && g.rd (formeOd f 0x20) % 2 == 1)))

/-- Where the two sets of a forme lie, by partition-relative address: the first byte and the end (R180, R192). -/
def Chip.setSpan (g : Chip) (f : Nat) : Nat × Nat :=
  let s := g.setSize f (mapN g.mapBody)
  (g.rd (formeOd f 9), g.rd (formeOd f 9) + round4k s + s)

/-- The formes whose sets lie in the same partition: correlate formes in the visibility partition, proofs in the proof partition. -/
def Chip.setsWith (g : Chip) (kind : Nat) : List Nat := g.kindFormes.filter fun f => g.formeKind f == kind

/-- The sets of a forme run past their partition or into those of another (R180, R192). -/
def Chip.setsBad (g : Chip) (f : Nat) : Bool :=
  let kind := g.formeKind f
  if kind = 1 || kind = 3 then
    let s := g.setSpan f
    decide (g.rd (od 0x3C01 kind) < s.2) ||
      (g.setsWith kind).any fun h => h != f && (let t := g.setSpan h; decide (s.1 < t.2) && decide (t.1 < s.2))
  else false

/-- The formes that a change of forme f touches: itself, and the proofs that copy it. -/
def Chip.formeGroup (g : Chip) (f : Nat) : List Nat := f :: g.kindFormes.filter fun h => g.formeKind h == 3 && g.rd (formeOd h 0x0C) == f

/-- n_b or the input range of a beam forme changes (R199). -/
def Check.beamResized (x : Check) (f : Nat) : Bool :=
  x.old.formeKind f == 2 && x.new.formeKind f == 2 &&
    (x.changes (formeOd f 0x20) || x.old.formeFirst f != x.new.formeFirst f ||
      x.old.formeInputs f (mapN x.old.mapBody) != x.new.formeInputs f (mapN x.new.mapBody))

/-- What R199 asks of such a change. -/
def Check.resizeRule (x : Check) (f : Nat) : Status :=
  if !x.beamResized f then .ok
  else
    let s := x.d.chip.forme f
    firstFail [(!(x.writes (bankOd f 0) && x.writes (bankOd f 1)), .range), (s.fading || s.waiting.isSome, .state)]

/-- The block pairs of a correlate forme in order (R182). -/
def blockPairs (b0 b1 : Nat) : List (Nat × Nat) :=
  (List.range (b1 + 1 - b0)).flatMap fun i => (List.range (i + 1)).map fun j => ((b0 + i, b0 + j) : Nat × Nat)

/-- The block pairs of a beam forme (R195). -/
def beamPairs (blocks b0 b1 : Nat) : List (Nat × Nat) :=
  (List.range blocks).flatMap fun i => (List.range (b1 + 1 - b0)).map fun j => ((i, b0 + j) : Nat × Nat)

/-- A list with runs of equal neighbours collapsed. -/
def runsOf : List Nat → List Nat
  | [] => []
  | [a] => [a]
  | a :: b :: t => if a = b then runsOf (b :: t) else a :: runsOf (b :: t)

/-- The rules of the imposition table (R181, R182, R195). -/
def Chip.impositionBad (g : Chip) (b : List Byte) : Bool :=
  let e := beAt b 0 4
  let bad := fun (i : Nat) =>
    let r := sliceZ b (8 + 8 * i) 8
    let kind := g.formeKind (beAt r 0 2 % 4096)
    let p := beAt r 4 1 % 128
    !(kind == 1 || kind == 2) || (decide (64 ≤ p) && p != 127) || (decide (p < 64) && !g.platenInService p)
  let formeBad := fun (f : Nat) =>
    let l := (impositions b f).map fun x => ((x.1, x.2.1) : Nat × Nat)
    let b0 := g.rd (formeOd f 5)
    let b1 := g.rd (formeOd f 6)
    match g.formeKind f with
    | 1 => let want := blockPairs b0 b1; l.length != want.length || want.any fun q => !l.contains q
    | 2 =>
      let want := beamPairs (g.blocks f) b0 b1
      l.length != want.length || (want.any fun q => !l.contains q) || !decide (runsOf (l.map fun q => q.1)).Nodup
    | _ => false
  (b.length != 0 && (decide (65536 < e) || b.length != 8 + 8 * e || (List.range e).any bad)) || g.kindFormes.any formeBad

/-- The rules of a forme's objects. -/
def Check.formeRule (x : Check) (f sub : Nat) (v : Val) : Status :=
  let g := x.new
  let k := formeOd f sub
  firstFail [((0x20 ≤ sub && sub < 0x40) && g.formeKind f != 2, .state),
    ([0x01, 0x03, 0x04, 0x05, 0x06, 0x08, 0x09, 0x0C, 0x20, 0x27].contains sub && ((g.formeGroup f).any g.formeBad || g.idleRangeBad f sub), .range),
    ([0x01, 0x03, 0x04, 0x05, 0x06, 0x09, 0x0C, 0x20].contains sub && (g.formeGroup f).any g.setsBad, .range),
    (sub == 9 && x.changes k && x.d.chip.formeState f != 0, .state),
    (sub == 2 && v == .num 1 && g.formeKind f == 2 && !(x.d.chip.domOpen 4), .state)]

/-- The rules of a staged weight bank (R196, R198, R199): without a change of its dimensions it may not be in use. -/
def Check.bankRule (x : Check) (f bank : Nat) (v : Val) : Status :=
  match v with
  | .num _ => .ok
  | .bytes b =>
    let st := bankCheck (x.new.rd (formeOd f 0x20)) (x.new.formeInputs f (mapN x.new.mapBody)) b
    let held := x.d.chip.rd (formeOd f 0x30) == bank || (x.d.chip.forme f).fading
    if st == .ok && x.old.formeKind f == 2 && !x.beamResized f && held then .state else st

/-- The rules of the truss map (R143, R144, R177, R180, R199). -/
def Check.trussRule (x : Check) (b : List Byte) : Status :=
  let epoch := match x.w.find? fun e => e.1 == od 0x2C00 3 with
    | some e => e.2 != .num (x.old.rd (od 0x2C00 3))
    | none => false
  let beams := x.new.kindFormes.map fun f => x.resizeRule f
  firstFail [((x.here (od 0x6004 0) (.bytes b)).mapBad b, .range), (x.new.kindFormes.any fun f => x.new.formeBad f || x.new.setsBad f, .range),
    (beams.contains .range, .range), (x.changes (od 0x6004 0) && !epoch, .state), (beams.contains .state, .state)]

/-! ### Triggers (R219, R227, R236-R240) -/

/-- L0 profiles that R219 bars. -/
def profilesBad (b : List Byte) : Bool :=
  b.length != 0 && (b.length != 544 || (List.range 8).any fun i =>
    let t := beAt b (68 * i) 1
    t == 0 || decide (32 < t) || decide (31 < beAt b (68 * i + 1) 1))

/-- A trial table that R227 bars. -/
def Chip.trialsBad (g : Chip) (b : List Byte) : Bool :=
  let d := beAt b 0 2
  let cp := beAt b 2 2
  b.length != 0 && (d == 0 || decide (256 < d) || cp != g.locals.length || b.length != 8 + d * cp)

/-- The longest trial delay exceeds T / D_t (R227). -/
def Chip.delayTooLong (g : Chip) : Bool := decide (g.chaseT / g.rd (trigOd 7) < maxDelay (g.table (od 0x6007 0)))

/-- A row of the groups that R236 bars. -/
def groupBad (r : List Byte) : Bool :=
  let kinds := beAt r 0 1
  bitAt kinds 0 || decide (32 ≤ kinds) || decide (2 < beAt r 1 1) || beAt r 2 1 == 0 || decide (64 < beAt r 2 1) || beAt r 24 4 == 0

/-- The groups table that R236 bars. -/
def groupsBad (b : List Byte) : Bool :=
  let n := beAt b 0 2
  b.length != 0 && (decide (256 < n) || b.length != 8 + 32 * n || (List.range n).any fun g => groupBad (sliceZ b (8 + 32 * g) 32))

/-- A machine table that R238 and R240 bar beside the groups. -/
def machineBad (groups b : List Byte) : Bool :=
  let n := beAt b 2 2
  let states := beAt b 0 1
  let bad := fun (r : List Byte) =>
    let ev := beAt r 1 1 / 64
    let arg := beAt r 2 1
    let act := beAt r 4 1
    decide (states ≤ beAt r 0 1 / 8) || decide (states ≤ beAt r 3 1 / 8) || decide (2 ≤ ev) || (ev == 1 && decide (3 < arg)) ||
      (bitAt act 5 && beAt r 8 4 == 0) ||
      (ev == 0 && (decide (beAt groups 0 2 ≤ arg) || decide (beAt b 8 4 < rowHold (sliceZ groups (8 + 32 * arg) 32))))
  b.length != 0 && (b.length != 24 + 12 * n || n == 0 || decide (256 < n) || states == 0 || decide (32 < states) || decide (states ≤ beAt b 1 1) ||
    (decide (63 < beAt b 4 1) && beAt b 4 1 != 255) || decide (2 ^ 32 - 1 < beAt b 16 4 + beAt b 20 4) || (transitions b).any bad)

/-- The machines of the new values that their groups bar. -/
def Chip.machinesBad (g : Chip) : Bool :=
  (List.range 64).any fun m => machineBad (g.table (od 0x6008 0)) (g.table (od 0x6009 (m + 1)))

/-! ### Partitions (R250, R251, R257) -/

/-- An SRAM partition table that R250 bars. -/
def sramBad (b : List Byte) : Bool :=
  let s := (List.range 5).map fun i => beAt b (2 * i) 2
  b.length != 0 && (b.length != 16 || s.getD 0 0 != 128 || s.any (fun n => decide (n < 4)) || s.sum != 256)

/-- An HBM partition table that R257 bars. -/
def Chip.hbmBad (g : Chip) (b : List Byte) : Bool :=
  let s := (List.range 4).map fun i => beAt b (8 * i) 8
  let spares := beAt b 32 1
  b.length != 0 && (b.length != 40 || (s.any fun n => n % 67108864 != 0) || spares == 0 || decide (3 < spares) ||
    decide ((18 - spares - g.unbacked.length) * rankBytes < s.sum))

/-- The conditions of R251 on the units that run: what is in force, pending and in the commit. -/
def Check.partitionRule (x : Check) (k : Nat) : Bool :=
  x.changes k && (!x.d.chip.partitionFree x.w || x.startsAnywhere (chanOd 1) || x.startsAnywhere (xOd 1) || x.startsAnywhere (od 0x2C00 1))

/-! ### Output streams (R337-R342) -/

/-- A format table that R341 bars. -/
def formatBad (b : List Byte) : Bool :=
  let h := beAt b 0 2
  let n := beAt b 2 2
  let entry := fun (i : Nat) => sliceZ b (8 + h + 8 * i) 8
  let first := fun (i : Nat) => beAt (entry i) 0 2
  let width := fun (i : Nat) => beAt (entry i) 3 1
  let bad := fun (i : Nat) =>
    let s := beAt (entry i) 2 1
    s == 0 || decide (0x0F < s) || !([1, 2, 4, 6, 8].contains (width i)) || decide (h < first i + width i) ||
      (List.range i).any fun j => decide (first i < first j + width j) && decide (first j < first i + width i)
  b.length != 0 && (decide (256 < h) || h % 4 != 0 || decide (32 < n) || b.length != 8 + h + 8 * n || (List.range n).any bad)

/-- ITEMS that a kind allows (R342). -/
def Chip.itemsOk (g : Chip) (kind n : Nat) : Bool :=
  match kind with
  | 1 | 2 => decide (1 ≤ n) && decide (n ≤ 4096)
  | 3 => decide (1 ≤ n) && decide (n ≤ 8)
  | 4 => [1, 2, 4, 8, 16].contains n
  | 5 => [1, 2, 4, 8].contains n
  | 6 | 7 => [1, 2, 4, 8, 16, 32].contains n
  | 8 => decide (1 ≤ n) && decide (n ≤ 256)
  | _ => decide (1 ≤ n) && decide (n ≤ g.enabledRows.length)

/-- A named stream that R337, R338, R340 or R342 bars; `l` are all that are named. -/
def Chip.namedBad (g : Chip) (l : List (Nat × Nat × Nat)) (e : Nat × Nat × Nat) : Bool :=
  let s := e.1
  let kind := e.2.1
  decide (1 < (l.filter fun x => x.1 == s).length) || !g.on (outOd s 1) || g.portGbps (g.rd (outOd s 2)) == 0 ||
    (!(decide (4 ≤ kind) && decide (kind ≤ 7)) && g.rd (outOd s 5) == 0) || !g.itemsOk kind (g.rd (outOd s 0x0B)) ||
    decide (9000 < g.datagramBytes s (g.fullPayload s kind e.2.2))

/-- Some named stream that a test picks is barred. -/
def Check.streamsBad (x : Check) (pick : Nat × Nat × Nat → Bool) : Bool :=
  let l := x.new.namedStreams
  l.any fun e => pick e && x.new.namedBad l e

/-- The objects of a stream or a forme whose commit R337-R342 judge: which named streams they touch. -/
def Check.streamRule (x : Check) (k : Nat) : Bool :=
  let i := keyIndex k
  let b := keySub k
  if 0x8000 ≤ i && i < 0x9000 then
    (b == 1 || b == 0x0A || b == 0x0C || b == 0x27 || b == 0x28) && x.streamsBad fun e => (x.new.formeGroup (i - 0x8000)).contains e.2.2
  else if k = trigOd 4 then x.streamsBad fun e => e.2.1 == 9
  else if k = trigOd 6 then x.streamsBad fun e => e.2.1 == 8
  else if 0x4500 ≤ i && i < 0x4600 then x.streamsBad fun e => e.1 == i - 0x4500
  else if 0x4410 ≤ i && i < 0x4418 then x.streamsBad fun e => x.new.rd (outOd e.1 2) == i - 0x4410
  else if i = 0x600C then x.streamsBad fun e => x.new.rd (outOd e.1 4) + 1 == b
  else false

/-! ### Objects that act when they are written -/

/-- A staged write that is no RWT object is judged as it would be alone, on the values that will hold (R368, R375). -/
def Check.actRule (x : Check) (k : Nat) (v : Val) : Status :=
  let c := x.d.chip.afterCommit (x.w.filter fun e => e.1 != k)
  let c1 := { c with dict := { c.dict with txn := none, schedule := [], validating := none } }
  match ({ x.d with chip := c1 }.writeNow 255 k v .nobody).2 with
  | some .range => .range
  | some .state => .state
  | some .timingBusy => .timingBusy
  | some .laneBusy => .laneBusy
  | some .budget => .budget
  | _ => .ok

/-! ### Step 3 -/

/-- The rules of scalars below index 0x6000. -/
def Check.scalarRule (x : Check) (k n : Nat) : Status :=
  let i := keyIndex k
  let b := keySub k
  if i = 0x2001 then x.quadRule (b - 1) n
  else if 0x2100 ≤ i && i < 0x2300 then if b = 1 || b = 2 then x.laneRule (i - 0x2100) else .ok
  else if 0x2300 ≤ i && i < 0x2400 then x.bundleRule (i - 0x2300) b n
  else if k = od 0x2400 3 then firstFail [(decide (x.new.sramPart 3 < (n + 1) * 1048576), .range)]
  else if k = chanOd 1 then if n = 1 then x.runRule else .ok
  else if k = chanOd 2 || k = chanOd 3 || k = chanOd 4 || k = od 0x4C00 2 then x.timingRule k
  else if k = od 0x2C00 7 then firstFail [(x.new.delayTooLong, .range), (x.timingRule k != .ok, .timingBusy)]
  else if k = od 0x2C00 1 then
    firstFail [(n == 1 && (!(x.d.chip.domOpen 3) || x.partitionAhead k), .state)]
  else if k = xOd 1 then if n = 1 then x.xRunRule else .ok
  else if k = trigOd 1 then firstFail [(n == 1 && (!(x.d.chip.domOpen 4) || x.partitionAhead k), .state)]
  else if k = trigOd 7 then firstFail [(x.new.delayTooLong, .range)]
  else if 0x4410 ≤ i && i < 0x4418 then
    if b = 1 || b = 6 then firstFail [(x.portRule (i - 0x4410) b != .ok, x.portRule (i - 0x4410) b), (x.streamRule k, .range)] else .ok
  else if 0x5100 ≤ i && i < 0x5160 then
    let dom := i - 0x5100
    if b = 1 && n = 0 then
      firstFail [(!domAllows dom 0, .range), (!(x.d.usersStopped dom && { x.d with chip := x.new }.usersStopped dom), .state)]
    else .ok
  else if k = od 0x5400 1 || k = od 0x5400 2 then
    let tb := x.new.rd (od 0x5400 2)
    firstFail [(x.new.on (od 0x5400 1) && (decide (255 < tb) || x.new.bundleRole tb != 3), .range)]
  else if k = trigOd 4 || k = trigOd 6 then firstFail [(x.streamRule k, .range)]
  else if 0x4500 ≤ i && i < 0x4600 then firstFail [(x.streamRule k, .range), (b == 1 && n == 1 && !(x.d.chip.domOpen 5), .state)]
  else .ok

/-- The rules of the tables of index 0x6000 to 0x6FFF. -/
def Check.tableRule (x : Check) (k : Nat) (b : List Byte) : Status :=
  let i := keyIndex k
  if i = 0x6000 then x.mapRule b
  else if i = 0x6001 then firstFail [(unifierBad b, .range)]
  else if i = 0x6002 then x.filterRule b
  else if i = 0x6003 then firstFail [((x.here k (.bytes b)).precisionBad b, .range)]
  else if i = 0x6004 then x.trussRule b
  else if i = 0x6005 then firstFail [((x.here k (.bytes b)).impositionBad b, .range)]
  else if i = 0x6006 then firstFail [(profilesBad b, .range)]
  else if i = 0x6007 then firstFail [(x.new.trialsBad b || x.new.delayTooLong, .range)]
  else if i = 0x6008 then firstFail [(groupsBad b || x.new.machinesBad, .range)]
  else if i = 0x6009 then firstFail [(machineBad (x.new.table (od 0x6008 0)) b, .range)]
  else if i = 0x600A then firstFail [(sramBad b, .range), (x.partitionRule k, .state)]
  else if i = 0x600B then
    firstFail [(x.d.chip.hbmBad b || x.new.kindFormes.any x.new.setsBad, .range),
      (x.partitionRule k || (x.changes k && !x.d.chip.hbmFree), .state)]
  else if i = 0x600C then firstFail [(formatBad b || x.streamRule k, .range)]
  else .ok

/-- The rules of an ingest stream's objects (R106, R129). -/
def Check.streamObjRule (x : Check) (s sub : Nat) (v : Val) : Status :=
  match v with
  | .num n => firstFail [(sub == 8 && decide (Nat.max 1 (rowSpan ((x.here (strOd s sub) v).row s)) ≤ n), .range)]
  | .bytes b => firstFail [(sub == 0x48 && (tableBody b).length != 0 && (tableBody b).length != (x.here (strOd s sub) v).fft / 2 * 4, .range)]

/-- Step 3 for one staged object. -/
def Check.rule (x : Check) (k : Nat) (v : Val) : Status :=
  let i := keyIndex k
  let b := keySub k
  if x.d.chip.shadow && mirrored k && !x.fromLead then .state
  else if 0x8000 ≤ i && i < 0x9000 then
    let f := i - 0x8000
    let st := x.formeRule f b v
    if st != .ok then st
    else if b = 0x21 || b = 0x22 then x.bankRule f (b - 0x21) v
    else if !isRwt k then x.actRule k v
    else firstFail [(x.streamRule k, .range), ((b == 5 || b == 6 || b == 0x20) && x.resizeRule f != .ok, x.resizeRule f)]
  else if !isRwt k then x.actRule k v
  else if 0x9000 ≤ i && i < 0x9400 then x.streamObjRule (i - 0x9000) b v
  else match v with
  | .num n => x.scalarRule k n
  | .bytes b => if 0x6000 ≤ i && i < 0x7000 then x.tableRule k (tableBody b) else
      firstFail [(x.streamRule k, .range)]

/-- The first staged object that fails a test, with its status. -/
def Check.first (x : Check) (test : Nat → Val → Status) : Option (Status × Nat) :=
  x.w.findSome? fun e => let st := test e.1 e.2; if st = .ok then none else some (st, e.1)

end Sys2Proof.Machine
end

