-- ==== Sys2Proof/Machine/Effects.lean ====
section
/-! DEFINITION. What the objects of a transaction do when they take effect (R35, R38, R42, R372): the values change together, and each object
starts, stops or moves what its chapter says. -/

namespace Sys2Proof.Machine

/-! ### Changes of F and T (R34, R35) -/

/-- A number of spectra carried over to another F: the first one that begins at or after it. -/
def carry (old new sp : Nat) : Nat := (sp * old + (new - 1)) / new

/-- F or T has changed at effect tick t: spectra, sticks and chase periods are counted anew, and halves that wait for frames open for the first
new periods (R34, R35). -/
def Chip.retime (c : Chip) (fOld t : Nat) : Chip :=
  let f := c.fft
  let sp := effectSpectrum f t
  let n := (t + (c.chaseT * f - 1)) / (c.chaseT * f)
  let seg := fun (g : Segment) => { g with start := carry fOld f g.start }
  let streams := c.streams.map fun e =>
    let x := e.2
    ((e.1, { x with spec := sp, unsettled := [], straddle := [], segments := x.segments.map seg, segment := x.segment.map seg }) : Nat × Stream)
  let fe := { c.fe with accs := [], pack := [], friskets := [], marks := [], ready := none, top := none }
  let form := fun (x : FormeX) =>
    let d := match x.offsets with | e :: _ => e.2 | [] => 0
    let sc := x.scarfs.map fun (k : Scarf) => { k with start := carry fOld f k.start }
    { x with offsets := if d = 0 then [] else [(0, d)], scarfs := sc, waiting := x.waiting.map (carry fOld f) }
  let xe := { c.xe with newest := none, formes := c.xe.formes.map fun e => ((e.1, form e.2) : Nat × FormeX), l1 := [] }
  let c1 := { c with streams := streams, fe := fe, xe := xe, truss := { c.truss with newest := none, startAt := n, stopAt := none } }
  let c2 := (c1.idleHalf 0).idleHalf 1
  let c3 := if c1.halfState 0 != 0 || c1.halfState 1 != 0 then c2.trussEffect n (c2.on (od 0x2C00 1)) else c1
  { c3 with twin := { c3.twin with startAt := c3.twin.startAt.map fun m => (m * c.chaseT * fOld + (c.chaseT * f - 1)) / (c.chaseT * f) } }

/-! ### What the objects show -/

/-- OD 2800.08: 0 no valid table, 1 valid, 2 a change is pending (R117, R141). -/
def Chip.showCoef (c : Chip) : Chip :=
  c.wr (chanOd 8) (if c.pendingWrites (od 0x6002 0) then 2 else if c.filterValid then 1 else 0)

/-- OD 2C00.05 and .06 (R163). -/
def Chip.showTruss (c : Chip) : Chip :=
  (c.wr (od 0x2C00 5) ((c.sramPart 3 / 1048576 - c.rd (od 0x2400 3)) % 256)).wr (od 0x2C00 6) (c.trussNeed % 2 ^ 32)

/-- OD 2000.01: quads whose role is not OFF. -/
def Chip.showQuads (c : Chip) : Chip :=
  c.wr (od 0x2000 1) (((List.range 128).filter fun q => c.rd (od 0x2001 (q + 1)) != 0).length)

/-- OD 1200.0A and 1210: the commit schedule (R42). -/
def Chip.showSchedule (c : Chip) : Chip :=
  let l := c.dict.schedule
  (List.range 16).foldl (fun a i => a.wrDom (od 0x1210 (i + 1))
    (match l[i]? with | some p => beBytes 4 p.seq ++ beBytes 8 p.tick | none => [])) (c.wr (od 0x1200 0x0A) l.length)

/-- Where the PTP rings lie: behind the peg log and the DMA staging in the DMA and output staging partition (R339, R357; log entry 41). -/
def Chip.showPtpRings (c : Chip) : Chip :=
  let base := c.pegLogBase + 1048576 + c.loadArea
  (c.wr (od 0x4C30 1) base).wr (od 0x4C30 2) (base + 131072)

/-! ### Partitions (R251, R257, R258) -/

/-- Undefined bytes in the place of as many. -/
def undefBytes (seed : Nat) (b : List Byte) : List Byte := b.zipIdx.map fun e => Config.freeByte seed e.2

/-- The bytes of an object past a head become undefined. -/
def Chip.undefObject (c : Chip) (head k : Nat) : Chip :=
  let b := c.rdDom k
  if b.isEmpty then c else { c.wrDom k (b.take head ++ undefBytes c.free (b.drop head)) with free := c.free + 1 }

/-- The equalizers of the F-engine partition become undefined. -/
def Chip.undefEqualizers (c : Chip) : Chip := (List.range 1024).foldl (fun a s => a.undefObject 16 (od (0x9000 + s) 0x48)) c

/-- The weight banks, the ledger and the L1 rings of the ledger and trigger partition become undefined; the head of a bank stays, as its NB and
NF are those of its forme. -/
def Chip.undefLedger (c : Chip) : Chip :=
  let banks := c.kindFormes.flatMap fun f => [bankOd f 0, bankOd f 1]
  let c1 := banks.foldl (fun a k => a.undefObject 24 k) c
  let value := fun (n : Nat) => toI (Config.freeWord (c1.free + n)).toNat 32
  let row := fun (n : Nat) (r : BeamRow) =>
    ({ r with sums := r.sums.zipIdx.map fun e => ((value (n + 2 * e.2), value (n + 2 * e.2 + 1)) : Int × Int) } : BeamRow)
  let slot := fun (x : LedgerSlot) (n : Nat) => { x with rows := x.rows.zipIdx.map fun e => row (n + 2 ^ 20 * e.2) e.1 }
  { c1 with xe := { c1.xe with slots := c1.xe.slots.zipIdx.map (fun e => slot e.1 (2 ^ 26 * e.2)), l1 := [] },
            free := c1.free + 2 ^ 26 * c1.xe.slots.length }

/-- The peg log and the output frames of the DMA and output staging partition become undefined. -/
def Chip.undefOutput (c : Chip) : Chip :=
  let log := c.trigger.log.map fun e => (e.1, undefBytes (c.free + e.1) e.2)
  let built := fun (x : OutStream) (n : Nat) =>
    { x with built := x.built.zipIdx.map fun e => ({ e.1.1 with bytes := undefBytes (c.free + 32768 + 2 ^ 20 * n + e.2) e.1.1.bytes }, e.1.2) }
  { c with trigger := { c.trigger with log := log }, outs := c.outs.map fun e => (e.1, built e.2 e.1), free := c.free + 2 ^ 29 }

/-- A new SRAM partition table: what moved or changed its size holds undefined contents (R251; log entry 53). -/
def Dev.sramEffect (d : Dev) (old : Chip) : Dev :=
  let moved := (List.range 5).filter fun i => old.sramLayout[i]? != d.chip.sramLayout[i]?
  let spans := moved.filterMap fun i => d.chip.sramLayout[i]?
  let d1 := spans.foldl (fun (a : Dev) e =>
    { a with mem := { a.mem with sram := a.mem.sram.lose e.1 (e.1 + e.2) a.chip.free }, chip := { a.chip with free := a.chip.free + 1 } }) d
  let c1 := if moved.contains 1 then d1.chip.undefEqualizers else d1.chip
  let c2 := if moved.contains 2 then c1.undefLedger else c1
  { d1 with chip := if moved.contains 4 then c2.undefOutput else c2 }

/-- A new number of spares: a logical rank that no longer exists frees its rank, and a new one takes the lowest spare that does not hold the
pack store (R256-R258). -/
def Chip.spares (c : Chip) (nOld nNew : Nat) : Chip :=
  let drop := ((List.range 18).filter fun l => nNew ≤ l && l < nOld).foldl (fun (a : Chip) l =>
    match a.rankOf l with
    | some r => (a.wr (rankOd r 1) 0).wr (rankOd r 2) 0xFF
    | none => a) c
  ((List.range 18).filter fun l => nOld ≤ l && l < nNew).foldl (fun (a : Chip) l =>
    match a.spareRank with
    | some r => (a.wr (rankOd r 1) 1).wr (rankOd r 2) l
    | none => a) drop

/-- A new HBM partition table: sizes, spares, undefined contents, a restart of the transient ring; a rank that retired meanwhile migrates next
(R111, R257). -/
def Dev.hbmEffect (d : Dev) (old : Chip) (t : Nat) : Dev :=
  let c := d.chip
  let b := c.hbmTable
  let c1 := (List.range 4).foldl (fun (a : Chip) i => a.wr (od 0x3C01 (i + 1)) (beAt b (8 * i) 8)) c
  let c2 := (c1.spares old.logicalRanks c1.logicalRanks)
  let used := ((List.range 4).map fun i => beAt b (8 * i) 8).sum
  let c3 := ((c2.wr (od 0x3C01 5) (c2.hbmTop - c2.packMoved - used)).showRanks).ringMoved old t
  { d with chip := { c3 with free := c3.free + 1 }, mem := { d.mem with hbm := d.mem.hbm.lose 0 (18 * rankBytes) c3.free } }

/-! ### The objects one by one -/

/-- A bundle's lanes and its state follow a change of its lane list. -/
def Chip.lanesMoved (c : Chip) (old : Chip) (l : Nat) : Chip :=
  let settle := fun (a : Chip) (b : Nat) => if b < 256 then a.bundleSettle b else a
  settle (settle (c.laneSettle l) (old.laneBundle l)) (c.laneBundle l)

/-- The expected values of a bundle changed (R72): its lanes in MISMATCH exchange CAPs anew. -/
def Chip.expectAnew (c : Chip) (b : Nat) : Chip :=
  ((c.bundleLanes b).filter fun l => c.laneState l == 4).foldl (fun a l =>
    (a.setLane l { a.lane l with gotCap := false, gotAck := false }).laneTo l 3) c

/-- Streams whose naming object changed show their kind; a stream that the peg log names starts at its end (R337, R343). -/
def Chip.renamed (c : Chip) (old new : Nat) : Chip :=
  let show_ := fun (a : Chip) (s : Nat) => if s < 256 then a.showKind s else a
  show_ (show_ c old) new

/-- The commit beacon of a transaction that changes the epoch (R151): to every peer chip, and from a lead to its shadow (R436). -/
def Chip.beacon (c : Chip) (p : Pending) (epoch : Nat) : Chip :=
  let body := beBytes 8 p.tick ++ (beBytes 1 epoch ++ (beBytes 3 0 ++ beBytes 4 p.seq))
  if c.role = 1 then c
  else
    let c1 := c.meshBundles.foldl (fun a b => a.queueControl b 1 p.seq body) c
    match c1.twinBundle with
    | some b => if c1.role = 2 then (c1.queueControl b 1 p.seq body).bump (twinOd 0x22) 1 else c1
    | none => c1

/-- What a scalar object of a transaction starts or stops at effect tick t; `old` is the chip before. -/
def Chip.numEffect (c old : Chip) (t k : Nat) : Chip :=
  let i := keyIndex k
  let b := keySub k
  let v := c.rd k
  let w := old.rd k
  let sp := effectSpectrum c.fft t
  let n := t / (c.chaseT * c.fft)
  if i = 0x2001 then
    let q := b - 1
    ([4 * q, 4 * q + 1, 4 * q + 2, 4 * q + 3].foldl (fun a l => a.lanesMoved old l) c).showQuads
  else if 0x2100 ≤ i && i < 0x2300 then
    let l := i - 0x2100
    if b = 3 then (if v ≠ w then c.wr (laneOd l 0x25) v else c) else c.lanesMoved old l
  else if 0x2300 ≤ i && i < 0x2400 then
    let u := i - 0x2300
    if b = 1 && v ≠ w then c.bundleApply u else if b = 3 then c.bundleSettle u
    else if 4 ≤ b && b ≤ 7 && v ≠ w then c.expectAnew u else c
  else if k = chanOd 1 then if v ≠ w then c.runEffect sp (v = 1) else c
  else if k = chanOd 2 || k = od 0x2C00 7 then if v ≠ w then c.retime (if k = chanOd 2 then w else c.fft) t else c
  else if k = od 0x4C00 2 then c.mapEffect t (c.table (od 0x6000 0)) (c.table (od 0x6000 0))
  else if k = od 0x2C00 1 then if v ≠ w then c.trussEffect n (v = 1) else c
  else if k = xOd 1 then if v ≠ w then c.xRunEffect n (v = 1) else c
  else if k = trigOd 1 then if v ≠ w then ((List.range 1024).filter fun s => bitAt (c.rd (strOd s 0x60)) 7).foldl Chip.l0Set c else c
  else if k = trigOd 4 then c.renamed w v
  else if k = trigOd 6 then
    let c1 := c.renamed w v
    if v < 256 && v ≠ w then c1.pegStreamNamed v else c1
  else if k = od 0x4400 1 then c.showPtpRings
  else if 0x4410 ≤ i && i < 0x4418 then if b = 1 && v ≠ w then c.portTypeEffect (i - 0x4410) else c
  else if 0x4500 ≤ i && i < 0x4600 then if b = 1 && v = 1 && w = 0 then c.streamEnabled (i - 0x4500) else c
  else if k = twinOd 1 then if v ≠ w then c.twinEffect (v = 1) else c
  else if 0x8000 ≤ i && i < 0x9000 then
    let f := i - 0x8000
    let s := c.rd (formeOd f 0x0A)
    if b = 2 then if v ≠ w then c.enableEffect f (v = 1) else c
    else if b = 8 then if v ≠ w then c.dumpPeriodEffect f n w v else c
    else if b = 0x0A then c.renamed w v
    else if b = 1 then
      let c1 := c.renamed s s
      if v = 0 then if c1.formeState f = 1 then c1.formeTo f 0 else c1 else if c1.on (formeOd f 2) then c1.enableEffect f true else c1
    else if b = 0x0C || b = 0x27 then c.renamed s s
    else c
  else if 0x9000 ≤ i && i < 0x9400 then
    let s := i - 0x9000
    if b = 8 && v ≠ w then c.delayEffect s t else if b = 4 && v ≠ w then c.dcModeEffect s t v else if b = 0x60 then c.l0Set s else c
  else c

/-- What a table of a transaction starts at effect tick t. -/
def Chip.tableEffect (c old : Chip) (t k : Nat) : Chip :=
  let i := keyIndex k
  let sp := effectSpectrum c.fft t
  let a := old.table k
  let b := c.table k
  if i = 0x6000 then (c.mapEffect t a b).rowStarts sp a b
  else if i = 0x6002 then c.filterEffect sp
  else if i = 0x6008 then
    (List.range (Nat.max (beAt a 0 2) (beAt b 0 2))).foldl (fun x g =>
      let row := fun (l : List Byte) => groupFields (sliceZ l (8 + 32 * g) 32)
      if row a != row b || !decide (g < beAt a 0 2) || !decide (g < beAt b 0 2) then x.clearGroup g t else x) c
  else if i = 0x6009 then c.newMachine (keySub k - 1) t a b
  else if i = 0x600A then c.showPtpRings
  else c

/-- What one object of a transaction does at its effect tick, its value having changed already. -/
def Dev.objEffect (d : Dev) (old : Chip) (t : Nat) (e : Nat × Val) : Dev :=
  let k := e.1
  let i := keyIndex k
  match e.2 with
  | .num v =>
    if 0x5100 ≤ i && i < 0x5160 then d.configuredEffect (i - 0x5100) (old.rd k) v
    else { d with chip := d.chip.numEffect old t k }
  | .bytes _ =>
    let d1 := { d with chip := d.chip.tableEffect old t k }
    if k = od 0x600A 0 then d1.sramEffect old
    else if k = od 0x600B 0 && old.hbmTable.take 33 != d.chip.hbmTable.take 33 then d1.hbmEffect old t
    else d1

/-- A staged write that is no RWT object acts at the commit point, as it would alone (R124, R208, R367); what it answers goes to nobody. -/
def Dev.actEffect (d : Dev) (e : Nat × Val) : Dev :=
  let i := keyIndex e.1
  match e.2 with
  | .num n =>
    if 0x8000 ≤ i && i < 0x9000 && keySub e.1 == 0x23 then { d with chip := d.chip.swapEnter (i - 0x8000) n }
    else (d.writeNow 255 e.1 e.2 .nobody).1
  | .bytes _ => (d.writeNow 255 e.1 e.2 .nobody).1

/-- Writes of a transaction that take effect at one tick: their values change together, then each object acts, F and T first (R34, R39). -/
def Dev.applyWrites (d : Dev) (t : Nat) (w : List (Nat × Val)) : Dev :=
  let old := d.chip
  let vals := w.filter fun e => valueClass e.1
  let acts := w.filter fun e => !valueClass e.1
  let timing := fun (e : Nat × Val) => e.1 == chanOd 2 || e.1 == od 0x2C00 7
  let d1 := { d with chip := d.chip.replace t vals }
  let d2 := (vals.filter timing ++ vals.filter fun e => !timing e).foldl (fun a e => a.objEffect old t e) d1
  let d3 := acts.foldl Dev.actEffect d2
  let links := w.any fun e => 0x2001 ≤ keyIndex e.1 && keyIndex e.1 < 0x2400
  let c := if links then d3.chip.refSettle else d3.chip
  let c1 := (c.showCoef.showTruss).showEnvelope
  { d3 with chip := if c1.packMoved = old.packMoved then c1 else c1.shrink }

/-! ### The commit schedule runs (R42, R372) -/

/-- A step of the schedule that is due: its tick, its granularity, its place in the schedule. -/
structure Due where
  tick : Nat
  cls : Nat
  place : Nat
  deriving DecidableEq, Repr

/-- The steps of a transaction that no earlier one holds back, with their ticks: its effect point itself until it is reached, then each
write (R39, R369). -/
def Chip.dueSteps (c : Chip) (place : Nat) (p : Pending) : List Due :=
  let held := fun (k : Nat) => (c.dict.schedule.take place).any fun q => q.writes.any fun e => e.1 == k
  let own := if p.begun && !p.writes.isEmpty then [] else [(⟨p.tick, 0, place⟩ : Due)]
  own ++ (p.writes.filter fun e => !held e.1).map fun e => ⟨c.dueAt p e.1 e.2, classOf e.1, place⟩

/-- A step that comes before another: by tick, then spectra before chase periods before dumps, then in commit order. -/
def Due.before (a b : Due) : Bool :=
  if a.tick ≠ b.tick then decide (a.tick < b.tick) else if a.cls ≠ b.cls then decide (a.cls < b.cls) else decide (a.place < b.place)

/-- The next step of the schedule. -/
def Chip.nextStep (c : Chip) : Option Due :=
  (c.dict.schedule.zipIdx.flatMap fun e => c.dueSteps e.2 e.1).foldl (fun b x => match b with
    | none => some x
    | some y => if x.before y then some x else some y) none

/-- The next step of the schedule, where the ingest front has reached it. -/
def Chip.nextDue (c : Chip) : Option Due := c.nextStep.filter fun x => decide (x.tick ≤ c.reached)

/-- The transactions with nothing left to do leave the schedule, each with its event report (R372). -/
def Chip.leaveSchedule (c : Chip) : Chip :=
  let gone := c.dict.schedule.filter fun p => p.begun && p.writes.isEmpty
  let c1 := { c with dict := { c.dict with schedule := c.dict.schedule.filter fun p => !(p.begun && p.writes.isEmpty) } }
  let c2 := gone.foldl (fun (a : Chip) p => a.event 0x0005 (beBytes 4 p.seq ++ (beBytes 4 0 ++ beBytes 8 p.tick))) c1
  (c2.showSchedule.showStaging).showCoef

/-- The epoch that will be in force just before a transaction's own (R144). -/
def Chip.epochBefore (c : Chip) (place : Nat) : Nat :=
  let l : List (Nat × Val) := ((c.dict.schedule.take place).flatMap fun p => p.writes).filter fun e => e.1 == od 0x2C00 3
  match l.getLast? with
  | some (_, .num n) => n
  | _ => c.rd (od 0x2C00 3)

/-- One step of the schedule: the writes of a transaction with this tick and granularity take effect; at its effect point the objects written
into place become usable, and a changed epoch is announced (R151, R367). -/
def Dev.dueStep (d : Dev) (x : Due) : Dev :=
  let c := d.chip
  match c.dict.schedule[x.place]? with
  | none => d
  | some p =>
    let held := fun (k : Nat) => (c.dict.schedule.take x.place).any fun q => q.writes.any fun e => e.1 == k
    let mine := fun (e : Nat × Val) => classOf e.1 == x.cls && c.dueAt p e.1 e.2 == x.tick && !held e.1
    let now := p.writes.filter mine
    let timed := p.writes.any fun e => e.1 == chanOd 2 || e.1 == od 0x2C00 7
    let period := if p.begun then p.period else if timed then c.chaseT * c.fft else 0
    let rest := { p with writes := p.writes.filter fun e => !mine e, begun := true, direct := [], period := period }
    let c1 := { c with dict := { c.dict with schedule := c.dict.schedule.set x.place rest } }
    let c2 := match p.begun, p.writes.find? fun e => e.1 == od 0x2C00 3 with
      | false, some (_, .num n) => if n ≠ c.epochBefore x.place then c1.beacon p n else c1
      | _, _ => c1
    let d1 := ({ d with chip := c2.swapsAfter p.direct (effectSpectrum c.fft x.tick) } : Dev).applyWrites x.tick now
    ({ d1 with chip := d1.chip.leaveSchedule } : Dev).startMigrations 18

/-- The steps that are due, up to a number. -/
def Dev.runSchedule : Nat → Dev → Dev
  | 0, d => d
  | n + 1, d =>
    match d.chip.nextDue with
    | none => d
    | some x => (d.dueStep x).runSchedule n

/-- Steps that a schedule can take. -/
def Chip.scheduleSteps (c : Chip) : Nat := (c.dict.schedule.map fun p => p.writes.length + 1).sum

/-- TRANSACTION_EFFECT (R42): the ingest front has reached the next effect point; what it has reached takes effect, in order. -/
def execTransactionEffect (s : State) : Host.Outcome State Fault Refusal :=
  let c := s.dev.chip
  let c1 := match c.nextStep with | some x => c.untilFront x.tick | none => c
  done s (({ s.dev with chip := c1 } : Dev).runSchedule c1.scheduleSteps)

end Sys2Proof.Machine
end

