-- ==== Sys2Proof/Machine/Commit.lean ====
section
/-! DEFINITION. COMMIT from its validation to its place in the commit schedule (R35, R39, R41, R42, R368, R369), the end of a transaction by its
lifetime, and the sessions that time out (R371, R380, R382). -/

namespace Sys2Proof.Machine

/-! ### Validation (R368) -/

/-- What the validation of a commit finds: its status, the failed check and object, that step 3 or 4 failed, the effect spectrum. -/
structure Verdict where
  st : Status
  check : Nat
  object : Nat
  named : Bool
  spectrum : Nat
  deriving DecidableEq, Repr

/-- The effect spectrum of a COMMIT with a tick, or without: the first spectrum that the ingest front has not reached (R37, R41). -/
def Chip.effectOf (c : Chip) (tick : Option Nat) : Nat :=
  match tick with
  | some t => effectSpectrum c.fft t
  | none => c.reached / c.fft + 1

/-- An object that a pending transaction of a later effect tick writes too (R369). -/
def Chip.crossed (c : Chip) (tick : Nat) (keys : List Nat) : Option Nat :=
  keys.find? fun k => c.dict.schedule.any fun p => decide (tick < p.tick) && (p.direct.contains k || p.writes.any fun e => e.1 == k)

/-- Steps 2 to 7 for staged writes and objects written into place (R41, R42, R368, R369). -/
def Dev.validate (d : Dev) (w : List (Nat × Val)) (direct : List Nat) (tick : Option Nat) (fromLead : Bool) : Verdict :=
  let c := d.chip
  let sp := c.effectOf tick
  let x := Check.of d w (sp * c.fft) fromLead
  match x.first tableStatus with
  | some (st, k) => ⟨st, 0, k, false, sp⟩
  | none =>
  match x.first x.rule with
  | some (st, k) => ⟨st, 0, k, true, sp⟩
  | none =>
  match x.new.envelope with
  | some (code, k) => ⟨.envelope, code, k, true, sp⟩
  | none =>
  match c.crossed (sp * c.fft) (w.map (fun e => e.1) ++ direct) with
  | some k => ⟨.conflict, 0, k, false, sp⟩
  | none =>
    if tick.isSome && c.frontPassed (sp * c.fft) then ⟨.late, 0, 0, false, sp⟩
    else if 16 ≤ c.dict.schedule.length then ⟨.schedFull, 0, 0, false, sp⟩
    else ⟨.ok, 0, 0, false, sp⟩

/-- A validated commit enters the schedule under a commit sequence number (R39, R42). -/
def Chip.enterSchedule (c : Chip) (seq owner sp : Nat) (w : List (Nat × Val)) (direct : List Nat) : Chip :=
  let p : Pending := ⟨seq, owner, sp, sp * c.fft, w, direct, false, 0⟩
  let c1 := { c with dict := { c.dict with schedule := c.dict.schedule ++ [p] } }
  (((c1.wr (od 0x1200 9) seq).showSchedule).showStaging).showCoef

/-- The staged writes of a transaction for its shadow (R436): with the weight banks that it wrote into place. -/
def Chip.mirroredWrites (c : Chip) (w : List (Nat × Val)) (direct : List Nat) : List (Nat × Val) :=
  (direct.filter mirrored).foldl (fun a k => stageInsert k (.bytes (c.rdDom k)) a) w

/-- The response of a COMMIT (R378): sequence number and effect tick on OK, the check and the object when step 3 or 4 failed. -/
def Chip.replyCommit (c : Chip) (a : Asker) (v : Verdict) (seq tick : Nat) : Chip :=
  match a with
  | .bdp op d =>
    let good := v.st == .ok
    let body := beBytes 4 (if good then seq else 0) ++ (beBytes 8 (if good then tick else 0) ++ (beBytes 2 (if v.named then v.check else 0) ++ (beBytes 2 0 ++
      beBytes 4 (if v.named then v.object else 0))))
    c.bdpReply op d.session.toNat d false v.st body
  | _ => c.reply a v.st

/-- The validation of a COMMIT ends (R41, R368): it is accepted, or the transaction stays open. -/
def Dev.commitEnds (d : Dev) : Dev :=
  match d.chip.dict.validating, d.chip.dict.txn with
  | some x, some t =>
    let c := { d.chip with dict := { d.chip.dict with validating := none } }
    let v := ({ d with chip := c } : Dev).validate t.staged t.direct x.tick false
    if v.st = .ok then
      let seq := (c.rd (od 0x1200 9) + 1) % 2 ^ 32
      let c1 := ((c.closeTxn).enterSchedule seq t.owner v.spectrum t.staged t.direct).commitStatus .ok 0 0
      let c2 := if c1.role = 2 then
          let p : Pending := ⟨seq, t.owner, v.spectrum, v.spectrum * c.fft, c1.mirroredWrites t.staged t.direct, [], false, 0⟩
          c1.mirrorPending p
        else c1
      { d with chip := c2.replyCommit x.asker v seq (v.spectrum * c.fft) }
    else { d with chip := (c.commitStatus v.st v.check v.object).replyCommit x.asker v 0 0 }
  | some _, none => { d with chip := { d.chip with dict := { d.chip.dict with validating := none } } }
  | none, _ => d

/-! ### Transactions and sessions that end by themselves (R371, R380, R382) -/

/-- Nanoseconds that a transaction may stay open: OD 1200.03, or 2^32 ticks if that is less (R371). -/
def Chip.lifetime (c : Chip) : Nat := Nat.min (c.rd (od 0x1200 3) * 1000000) (2 ^ 32 * 1000000000 / c.fa)

/-- The transaction event report of a rollback (R371, R383). -/
def Chip.expiredEvent (c : Chip) (sess : Nat) : Chip := c.event 0x0006 (beBytes 2 sess)

/-- TRANSACTION_EXPIRED (R371): not while its COMMIT is validated. -/
def execTransactionExpired (s : State) : Host.Outcome State Fault Refusal :=
  let d := s.dev
  let c := d.chip
  match c.dict.txn with
  | none => ok s c
  | some t =>
    if c.dict.validating.isSome then ok s c
    else
      let d1 := ({ d with chip := c.untilLc (t.opened + c.lifetime) } : Dev).rollBack
      let c1 := d1.chip.setSession t.owner { d1.chip.session t.owner with expired := true }
      done s { d1 with chip := c1.expiredEvent t.owner }

/-- A session ends: its transaction is rolled back, with the event report (R371, R382). Its nonces stay, so that a request under its old number
still passes its tag and gets SESSION (R371). -/
def Dev.endSession (d : Dev) (k : Nat) : Dev :=
  let own := d.chip.owner == some k
  let d1 := if own then d.rollBack else d
  let c1 := if own then d1.chip.expiredEvent k else d1.chip
  let x := c1.session k
  let c2 := c1.setSession k { Session.free with nonceH := x.nonceH, nonceD := x.nonceD }
  { d1 with chip := ((c2.wr (od (0x1220 + k) 1) 0).wrDom (od (0x1220 + k) 2) []).wr (od (0x1220 + k) 3) 0 }

/-- SESSION_TIMEOUT (R382): not while the session's COMMIT is validated. -/
def execSessionTimeout (k : Fin 9) (s : State) : Host.Outcome State Fault Refusal :=
  let c := s.dev.chip
  let x := c.session k.val
  let busy := match c.dict.validating with | some v => v.sess == k.val | none => false
  if k.val = 0 || !x.isOpen || busy then ok s c
  else done s (({ s.dev with chip := c.untilLc (x.heard + c.rd (od 0x1200 4) * 1000000) } : Dev).endSession k.val)

/-- PARTIAL_WRITE_TIMEOUT (R380). -/
def execPartialWriteTimeout (k : Fin 9) (s : State) : Host.Outcome State Fault Refusal :=
  let c := s.dev.chip
  let x := c.session k.val
  match x.part with
  | none => ok s c
  | some p => ok s ((c.untilLc (p.since + 1000000001)).setSession k.val { x with part := none })

end Sys2Proof.Machine
end

