-- ==== Sys2Proof/Machine/Dict.lean ====
section
/-! DEFINITION. The dictionary server's protocols: reads (R359-R363, R379, R381), BDP over MGT (R376-R385), SDO transfers and heartbeats on
the CAN port (R386-R390), and the requests that waited (R382). -/

namespace Sys2Proof.Machine

/-! ### Reads (R359, R361, R362) -/

/-- The status of a read before its value: existence, domain, access. -/
def Chip.readGate (c : Chip) (key : Nat) : Status :=
  match objRow (keyIndex key) (keySub key) with
  | none => .noObject
  | some r => if !c.domOpen (domainOf key) then .domainOff else if r.acc == .wo then .access else .ok

/-- The highest severity of the active records (OD 5800.14). -/
def Chip.topSeverity (c : Chip) : Nat :=
  if c.faults.active.isEmpty then 0xFF else c.faults.active.foldl (fun a f => max a f.severity) 0

/-- A view's read-only objects (R350, R352, R358). -/
def Chip.readView (c : Chip) (v : Fin 4) (b k : Nat) : Nat :=
  let w := c.time.views[v]
  if b = 2 then w.latch.toNat
  else if b = 3 then w.rate.toNat
  else if b = 6 then c.viewStatus v
  else if b = 8 then c.uncertainty v
  else if b = 9 then ofI (w.offset / 2 ^ 48) 64
  else if b = 0x0A then (w.offset % 2 ^ 48 / 2 ^ 16).toNat
  else if b = 0x0B then w.written.getD 0 % 2 ^ 64
  else c.rd k

/-- The code of a setter's mode, OD 4010+n.02 (R332). -/
def SetterMode.code : SetterMode → Nat
  | .off => 0 | .reset => 1 | .boot => 2 | .running => 3 | .idle => 4 | .halted => 5 | .bootFailed => 6

/-- A setter's read-only objects (R332). -/
def Dev.readSetter (d : Dev) (n : Fin 8) (b k : Nat) : Nat :=
  let x := d.cores[n]
  if b = 2 then x.mode.code
  else if b = 4 then x.outMail.toNat
  else if b = 9 then x.lastFault.toNat
  else if b = 0x0A then x.lastFaddr.toNat
  else if b = 0x0B then x.faults.toNat
  else if b = 0x0C then x.cyc.toNat
  else if b = 0x11 then x.bootStatus.toNat
  else d.chip.rd k

/-- The value of a scalar now (R361), and the device after the read: a read of a view's time latches its fraction (R350). -/
def Dev.readNum (d : Dev) (k : Nat) : Nat × Dev :=
  let i := keyIndex k
  let b := keySub k
  let c := d.chip
  if k = od 0x1001 0 then (b2n c.attention, d)
  else if k = od 0x1018 4 then (Config.dieId.toNat % 2 ^ 32, d)
  else if k = od 0x1080 4 then (Config.dieId.toNat, d)
  else if k = od 0x4C00 1 then (c.lc % 2 ^ 64, d)
  else if k = od 0x4C00 3 then (c.tick % 2 ^ 64, d)
  else if 0x2100 ≤ i && i < 0x2300 && b = 0x20 then (wrapObj k (c.rd k + c.prbsChecked (i - 0x2100)), d)
  else if k = clkOd 0x0F then (ofI c.outputOffset 32, d)
  else if 0x4810 ≤ i && i < 0x4817 && b = 0x15 then (c.restoreLeft (Fin.ofNat 7 (i - 0x4810)), d)
  else if k = powOd 0x16 then (c.xo % 2 ^ 64, d)
  else if k = rstOd 0x12 then (wrapObj k c.faults.active.length, d)
  else if k = rstOd 0x14 then (c.topSeverity, d)
  else if 0x4C10 ≤ i && i < 0x4C14 then
    let v : Fin 4 := Fin.ofNat 4 (i - 0x4C10)
    if b = 1 then let (t, c1) := c.readTime v; (t, { d with chip := c1 }) else (c.readView v b k, d)
  else if 0x4010 ≤ i && i < 0x4018 then (d.readSetter (Fin.ofNat 8 (i - 0x4010)) b k, d)
  else (c.rd k, d)

/-- The bytes of a ring of equal entries (R383, R463). -/
def ringBytes (m : SMap (List Byte)) (n size : Nat) : List Byte :=
  (List.range n).flatMap fun i => padTo size (sget (fun _ => []) m i)

/-- The ASCII bytes of "GZ6400", OD 1080.05. -/
def deviceName : List Byte := [0x47, 0x5A, 0x36, 0x34, 0x30, 0x30]

/-- The bytes of a DOMAIN or STRING in force (R361); a weight bank written inside the open transaction reads empty (R367). -/
def Chip.readBytes (c : Chip) (k : Nat) : List Byte :=
  let i := keyIndex k
  if k = od 0x1080 5 then deviceName
  else if k = od 0x1300 0x10 then ringBytes c.dict.ring 256 128
  else if k = rstOd 0x10 then ringBytes c.faults.ring 1024 48
  else if 0x8000 ≤ i && i < 0x9000 && directObject k && c.bankHeld (i - 0x8000) (keySub k - 0x21) then []
  else c.rdDom k

/-- An object's value on the wire, most significant byte first (R360). -/
def Dev.readVal (d : Dev) (k : Nat) : List Byte × Dev :=
  match objRow (keyIndex k) (keySub k) with
  | none => ([], d)
  | some r => if r.ty.size = 0 then (d.chip.readBytes k, d) else let (n, d1) := d.readNum k; (beBytes r.ty.size n, d1)

/-! ### DESCRIBE (R363, R378) -/

/-- The default of an object: straps and part numbers are the chip's own (R386, R392). -/
def Chip.defaultOf (c : Chip) (k : Nat) : Nat :=
  if k = od 0x1018 4 then Config.dieId.toNat % 2 ^ 32
  else if k = od 0x1080 4 then Config.dieId.toNat
  else if k = od 0x1080 1 || k = od 0x1080 2 || k = od 0x1080 3 then c.rd k
  else if k = od 0x1100 9 then c.rd (od 0x1080 1) + 1 + 64 * c.rd (od 0x1080 2)
  else objDefault k

/-- The body of a DESCRIBE response (R378). -/
def Chip.describeBody (c : Chip) (k : Nat) (r : ObjRow) : List Byte :=
  let dflt := if r.ty.size = 0 then 0 else c.defaultOf k
  beBytes 1 r.ty.code ++ (beBytes 1 (128 * b2n (mirrored k) + r.acc.code) ++ (beBytes 2 0 ++
    (beBytes 4 (if r.ty.size = 0 then r.hi else r.ty.size) ++ beBytes 8 dflt)))

/-! ### BDP (R376-R384) -/

/-- The chip has an address of the IP version: its own, or at the lead the position's (R376, R435). -/
def Chip.hasAddress (c : Chip) (v6 : Bool) : Bool :=
  if v6 then !(c.rdDom (od 0x1100 6)).isEmpty || (c.role == 2 && !(c.rdDom (twinOd 0x0F)).isEmpty)
  else c.rd (od 0x1100 4) != 0 || (c.role == 2 && c.rd (twinOd 0x0E) != 0)

/-- The largest LENGTH of a datagram (R377). -/
def bdpLimit (v6 auth : Bool) : Nat := if v6 && auth then 1424 else 1440

/-- A datagram that R377 keeps. -/
def bdpWellFormed (q : Bdp) : Bool :=
  q.version == 1 && q.body.length == q.length.toNat && q.tag.length == (if q.auth then 16 else 0) &&
    decide (q.length.toNat ≤ bdpLimit q.v6 q.auth)

/-- The header and body of a request (R377). -/
def bdpBytes (q : Bdp) (op : Nat) : List Byte :=
  beBytes 1 (16 * q.version.toNat + 8 * b2n q.auth + 2 * b2n q.more) ++ (beBytes 1 op ++ (beBytes 2 q.session.toNat ++
    (beBytes 4 q.reqId.toNat ++ (beBytes 2 0 ++ (beBytes 2 q.length.toNat ++ q.body)))))

/-- A REQ_ID equals the last one or lies after it (R94, R384). -/
def idFresh (last : Option (BitVec 32)) (x : BitVec 32) : Bool :=
  match last with
  | none => true
  | some l => decide ((x - l).toNat < 2 ^ 31)

/-- The session of a request, where it names an open one (R382). -/
def Chip.liveSession (c : Chip) (op : Nat) (q : Bdp) : Option Nat :=
  let k := q.session.toNat
  if op != 1 && 1 ≤ k && k ≤ 8 && (c.session k).isOpen then some k else none

/-- The counter of a request that authorization discards (R384): its tag, or an old REQ_ID in an authorized session. -/
def Chip.bdpBarred (c : Chip) (op : Nat) (q : Bdp) : Option Nat :=
  if !c.on (od 0x1400 1) then none
  else
    let (nd, nh) := c.nonces op q.session.toNat
    if !q.auth || q.tag != bdpTag c.dict.key nd nh (bdpBytes q op) then some (od 0x1400 4)
    else match c.liveSession op q with
      | some k => if (c.session k).authorized && !idFresh (c.session k).lastId q.reqId then some (od 0x1400 5) else none
      | none => none

/-- The last fixed version of an object in a session dropped or set (R381). -/
def Chip.fixVersion (c : Chip) (sess key : Nat) (v : Option (List Byte)) : Chip :=
  let x := c.session sess
  let rest := x.fixed.filter fun e => e.1 != key
  let l : List (Nat × List Byte) := match v with | some b => (key, b) :: rest | none => rest
  c.setSession sess { x with fixed := l }

/-- The bytes that a DOMAIN read at an offset is served from (R381): the fixed version while it is in force, or the snapshot of a read-only
record of at most 64 KiB. -/
def servedFrom (ro : Bool) (off : Nat) (fixed : Option (List Byte)) (now : List Byte) : Option (List Byte) :=
  if off = 0 then some now
  else match fixed with
    | none => some now
    | some b => if (ro && decide (b.length ≤ 65536)) || b == now then some b else none

/-- READ (R379, R381). -/
def Dev.bdpRead (d : Dev) (sess : Nat) (q : Bdp) : Dev :=
  let c := d.chip
  let key := od (beAt q.body 0 2) (beAt q.body 2 1)
  let off := beAt q.body 4 4
  let refuse := fun (st : Status) => ({ d with chip := c.reply (.bdp 0x10 q) st } : Dev)
  if q.body.length ≠ 8 then refuse .range
  else match c.readGate key, objRow (keyIndex key) (keySub key) with
  | .ok, some r =>
    if r.ty.size ≠ 0 then
      if off ≠ 0 then refuse .range
      else
        let (v, d1) := d.readVal key
        { d1 with chip := d1.chip.bdpReply 0x10 sess q false .ok (beBytes 4 v.length ++ v) }
    else
      let fixed := ((c.session sess).fixed.find? fun e => e.1 == key).map fun e => e.2
      match servedFrom (r.acc == .ro || r.acc == .const) off fixed (c.readBytes key) with
      | none => { d with chip := (c.fixVersion sess key none).reply (.bdp 0x10 q) .segment }
      | some b =>
        let c1 := c.fixVersion sess key (some b)
        if b.length < off then { d with chip := c1.reply (.bdp 0x10 q) .range }
        else
          let part := slice b off (Nat.min 1432 (bdpLimit q.v6 (c.on (od 0x1400 1)) - 4))
          { d with chip := c1.bdpReply 0x10 sess q (decide (off + part.length < b.length)) .ok (beBytes 4 b.length ++ part) }
  | st, _ => refuse st

/-- WRITE (R379, R380). -/
def Dev.bdpWrite (d : Dev) (sess : Nat) (q : Bdp) : Dev :=
  let c := d.chip
  let key := od (beAt q.body 0 2) (beAt q.body 2 1)
  let off := beAt q.body 4 4
  let data := q.body.drop 8
  let a : Asker := .bdp 0x11 q
  let refuse := fun (x : Chip) (st : Status) => ({ d with chip := x.reply a st } : Dev)
  if q.body.length < 8 then refuse c .range
  else match objRow (keyIndex key) (keySub key) with
  | none => refuse c .noObject
  | some r =>
    if r.ty.size ≠ 0 then
      if off ≠ 0 || q.more then refuse c .range
      else d.put sess key ((valOf key data).getD (.bytes data)) a (.bdp 0x11 q)
    else
      let x := c.session sess
      let c0 := c.setSession sess { x with part := none }
      let before : Option (List Byte) :=
        if off = 0 then some []
        else match x.part with
          | some p => if p.key = key && p.bytes.length = off then some p.bytes else none
          | none => none
      match before with
      | none => refuse c0 .segment
      | some b =>
        if q.more then
          let p : PartialWrite := ⟨key, b ++ data, c.lc⟩
          refuse (c0.setSession sess { c0.session sess with part := some p }) .ok
        else ({ d with chip := c0 } : Dev).put sess key (.bytes (b ++ data)) a (.bdp 0x11 q)

/-- OPEN (R382): one of the free sessions, which one is free, with a free nonce (log entry 3). -/
def Chip.openSession (c : Chip) (q : Bdp) : Chip :=
  let idle := (List.range 8).filterMap fun i => if (c.session (i + 1)).isOpen then none else some (i + 1)
  if q.session ≠ 0 || idle.isEmpty then c.reply (.bdp 1 q) .session
  else if q.body.length ≠ 8 then c.reply (.bdp 1 q) .range
  else
    let (a, c1) := c.freeBits 8
    let (n, c2) := c1.freeBits 64
    let k := idle.getD (a % idle.length) 1
    let auth := c.on (od 0x1400 1)
    let host := q.ip ++ beBytes 2 q.port.toNat
    let x : Session := { Session.free with isOpen := true, authorized := auth, nonceH := q.body, nonceD := beBytes 8 n, heard := c.lc, remote := host }
    let c3 := (((c2.setSession k x).wr (od (0x1220 + k) 1) (1 + b2n auth)).wrDom (od (0x1220 + k) 2) host).wr (od (0x1220 + k) 3) 0
    c3.bdpReply 1 0 q false .ok (beBytes 2 k ++ (List.replicate 6 0 ++ beBytes 8 n))

/-- DESCRIBE (R378). -/
def Chip.describe (c : Chip) (sess : Nat) (q : Bdp) : Chip :=
  let key := od (beAt q.body 0 2) (beAt q.body 2 1)
  if q.body.length ≠ 4 then c.reply (.bdp 0x14 q) .range
  else match objRow (keyIndex key) (keySub key) with
    | none => c.reply (.bdp 0x14 q) .noObject
    | some r => c.bdpReply 0x14 sess q false .ok (c.describeBody key r)

/-- BEGIN (R366): refused before READY (R450) and at a shadow (R435). -/
def Chip.beginRequest (c : Chip) (sess : Nat) : Chip × Status :=
  if !c.writable || c.shadow then (c, .state) else c.begin sess

/-- ROLLBACK (R370). -/
def Dev.rollbackRequest (d : Dev) (sess : Nat) : Dev × Status := if d.chip.shadow then (d, .state) else d.rollbackBy sess

/-- COMMIT (R368). -/
def Chip.commitRequest (c : Chip) (sess : Nat) (q : Bdp) : Chip × Option Status :=
  if q.body.length ≠ 12 then (c, some .range)
  else if c.shadow then (c, some .state)
  else c.commitBy sess (if bitAt (beAt q.body 0 1) 0 then some (beAt q.body 4 8) else none) (.bdp 0x21 q)

/-- What an admitted request does. -/
def Dev.bdpAct (d : Dev) (op sess : Nat) (q : Bdp) : Dev :=
  let c := d.chip
  let a : Asker := .bdp op q
  if op = 0x02 then ({ d with chip := c.reply a .ok } : Dev).endSession sess
  else if op = 0x03 then { d with chip := c.reply a .ok }
  else if op = 0x10 then d.bdpRead sess q
  else if op = 0x11 then d.bdpWrite sess q
  else if op = 0x14 then { d with chip := c.describe sess q }
  else if op = 0x20 then
    let (c1, st) := c.beginRequest sess
    { d with chip := c1.reply a st }
  else if op = 0x21 then
    let (c1, st) := c.commitRequest sess q
    { d with chip := c1.replyIf a st }
  else if op = 0x22 then
    let (d1, st) := d.rollbackRequest sess
    { d1 with chip := d1.chip.reply a st }
  else { d with chip := c.reply a .range }

/-- A session hears a request (R382): its timeout starts again. -/
def Chip.hears (c : Chip) (k : Nat) : Chip := c.setSession k { c.session k with heard := c.lc }

/-- A request in its turn (R382, R384): authorization, a repeat of the session's last request, the session, then what it asks. -/
def Dev.bdpHandle (d : Dev) (op : Nat) (q : Bdp) : Dev :=
  let c := d.chip
  match c.bdpBarred op q with
  | some k => { d with chip := c.bump k 1 }
  | none =>
    if op = 1 then { d with chip := c.openSession q }
    else match c.liveSession op q with
    | none =>
      if q.session = 0 && (op = 0x10 || op = 0x14) && !c.on (od 0x1400 1) then d.bdpAct op 0 q
      else { d with chip := c.reply (.bdp op q) .session }
    | some k =>
      let c1 := c.hears k
      let x := c1.session k
      if x.lastId = some q.reqId then
        if x.lastReply.isEmpty then { d with chip := c1.setSession k { x with repeats := x.repeats ++ [q] } }
        else { d with chip := c1.bdpOut op k q x.lastReply }
      else
        let c2 := (c1.setSession k { x with lastId := some q.reqId, lastReply := [], repeats := [] }).wr (od (0x1220 + k) 3) q.reqId.toNat
        ({ d with chip := c2 } : Dev).bdpAct op k q

/-- A request that is not to be handled yet waits, in order of arrival (R382). -/
def Dev.hold (d : Dev) (h : Held) : Dev := { d with chip := { d.chip with dict := { d.chip.dict with held := d.chip.dict.held ++ [h] } } }

/-- A BDP datagram arrives (R376, R377, R382). A datagram that wakes the chip is discarded (R425, R426). -/
def Dev.bdpArrives (d : Dev) (op : Nat) (q : Bdp) : Dev :=
  let c := d.chip
  if c.wakes 2 then { d with chip := c.latchWake 2 }
  else if !c.serves || !c.hasAddress q.v6 then d
  else
    let c1 := c.bump (od 0x1100 0x10) 1
    if !bdpWellFormed q then { d with chip := c1.bump (od 0x1100 0x11) 1 }
    else if c1.busy then ({ d with chip := c1 } : Dev).hold (.bdp op q)
    else ({ d with chip := c1 } : Dev).bdpHandle op q

/-- OPEN. -/
def execOpenSession (q : Bdp) (s : State) : Host.Outcome State Fault Refusal := done s (s.dev.bdpArrives 0x01 q)

/-- CLOSE. -/
def execCloseSession (q : Bdp) (s : State) : Host.Outcome State Fault Refusal := done s (s.dev.bdpArrives 0x02 q)

/-- KEEPALIVE. -/
def execKeepalive (q : Bdp) (s : State) : Host.Outcome State Fault Refusal := done s (s.dev.bdpArrives 0x03 q)

/-- READ. -/
def execRead (q : Bdp) (s : State) : Host.Outcome State Fault Refusal := done s (s.dev.bdpArrives 0x10 q)

/-- WRITE. -/
def execWrite (q : Bdp) (s : State) : Host.Outcome State Fault Refusal := done s (s.dev.bdpArrives 0x11 q)

/-- DESCRIBE. -/
def execDescribe (q : Bdp) (s : State) : Host.Outcome State Fault Refusal := done s (s.dev.bdpArrives 0x14 q)

/-- BEGIN. -/
def execBeginTxn (q : Bdp) (s : State) : Host.Outcome State Fault Refusal := done s (s.dev.bdpArrives 0x20 q)

/-- COMMIT. -/
def execCommit (q : Bdp) (s : State) : Host.Outcome State Fault Refusal := done s (s.dev.bdpArrives 0x21 q)

/-- ROLLBACK. -/
def execRollback (q : Bdp) (s : State) : Host.Outcome State Fault Refusal := done s (s.dev.bdpArrives 0x22 q)

/-! ### ARP, neighbour solicitations and echo requests (R376, R435) -/

/-- The MAC address under which MGT answers for an IP address: its own, or at the lead the position's (R435). -/
def Chip.ownMac (c : Chip) (v6 : Bool) (ip : List Byte) : Option Nat :=
  let own := if v6 then c.rdDom (od 0x1100 6) else if c.rd (od 0x1100 4) = 0 then [] else beBytes 4 (c.rd (od 0x1100 4))
  let pos := if v6 then c.rdDom (twinOd 0x0F) else if c.rd (twinOd 0x0E) = 0 then [] else beBytes 4 (c.rd (twinOd 0x0E))
  if ip.isEmpty || !c.serves then none
  else if ip == own then some (c.rd (od 0x1100 3))
  else if ip == pos && c.role == 2 then some (c.rd (twinOd 0x0D))
  else none

/-- An answer of MGT itself: kind, from the MAC and IP address asked for, to those that asked. -/
def Chip.mgtAnswer (c : Chip) (kind : Nat) (v6 : Bool) (target sender : List Byte) (mac : Nat) (payload : List Byte) : Chip :=
  match c.ownMac v6 target with
  | none => c
  | some m => c.send (.mgt kind (beBytes 6 m ++ target) sender mac payload)

/-- ARP_REQUEST: an ARP reply, kind 1. -/
def execArpRequest (target senderIp : BitVec 32) (senderMac : BitVec 48) (s : State) : Host.Outcome State Fault Refusal :=
  ok s (s.dev.chip.mgtAnswer 1 false (beBytes 4 target.toNat) (beBytes 4 senderIp.toNat) senderMac.toNat [])

/-- NEIGHBOUR_SOLICITATION: a neighbour advertisement, kind 2. -/
def execNeighbourSolicitation (target senderIp : List Byte) (senderMac : BitVec 48) (s : State) : Host.Outcome State Fault Refusal :=
  ok s (s.dev.chip.mgtAnswer 2 true target senderIp senderMac.toNat [])

/-- ECHO_REQUEST: an ICMP echo reply, kind 3, or an ICMPv6 echo reply, kind 4, with the payload. -/
def execEchoRequest (v6 : Bool) (target senderIp : List Byte) (senderMac : BitVec 48) (payload : List Byte) (s : State) :
    Host.Outcome State Fault Refusal :=
  ok s (s.dev.chip.mgtAnswer (3 + b2n v6) v6 target senderIp senderMac.toNat payload)

/-! ### SDO transfers (R386, R387, R390) -/

/-- No SDO transfer is in progress. -/
def Chip.sdoClear (c : Chip) : Chip := { c with dict := { c.dict with sdo := none } }

/-- A segmented transfer is in progress. -/
def Chip.setSdo (c : Chip) (x : SdoTransfer) : Chip := { c with dict := { c.dict with sdo := some x } }

/-- A value as CAN carries it: a scalar least significant byte first, a DOMAIN in object order (R5, R387). -/
def sdoOrder (k : Nat) (b : List Byte) : List Byte :=
  match objRow (keyIndex k) (keySub k) with
  | some r => if r.ty.size = 0 then b else b.reverse
  | none => b

/-- The bytes of a complete download go to their object, as a write of session 0 (R387, R388). -/
def Dev.sdoWrite (d : Dev) (key : Nat) (data reply frame : List Byte) : Dev :=
  let b := sdoOrder key data
  d.put 0 key ((valOf key b).getD (.bytes b)) (.sdo reply key) (.sdo frame)

/-- A download initiate (R387): expedited with 1 to 4 bytes, whose number the object's type gives where the frame does not; or segmented. -/
def Dev.sdoDownload (d : Dev) (cmd key : Nat) (frame : List Byte) : Dev :=
  let c := d.chip.sdoClear
  let reply := sdoHead 0x60 key ++ List.replicate 4 0
  if bitAt cmd 1 then
    let size := match objRow (keyIndex key) (keySub key) with | some r => if r.ty.size = 0 then 4 else Nat.min 4 r.ty.size | none => 4
    let n := if bitAt cmd 0 then 4 - bits cmd 2 2 else size
    ({ d with chip := c } : Dev).sdoWrite key (slice frame 4 n) reply frame
  else if (objRow (keyIndex key) (keySub key)).isNone then
    { d with chip := c.reply (.sdo reply key) .noObject }
  else
    let x : SdoTransfer := ⟨false, key, [], if bitAt cmd 0 then some (leVal (slice frame 4 4)) else none, 0, false, c.lc⟩
    { d with chip := (c.setSdo x).sdoSend reply }

/-- A successful upload or download ends: its status and its count (R365, OD 1100.12). -/
def Chip.sdoDone (c : Chip) (frame : List Byte) : Chip := ((c.wr (od 0x1100 0x0C) 0).sdoSend frame).bump (od 0x1100 0x12) 1

/-- An upload initiate (R387): expedited up to 4 bytes, else segmented with the size. -/
def Dev.sdoUpload (d : Dev) (key : Nat) : Dev :=
  let c := d.chip.sdoClear
  match c.readGate key with
  | .ok =>
    let (v, d1) := ({ d with chip := c } : Dev).readVal key
    let b := sdoOrder key v
    if 1 ≤ b.length && b.length ≤ 4 then
      { d1 with chip := d1.chip.sdoDone (sdoHead (0x43 + 4 * (4 - b.length)) key ++ padTo 4 b) }
    else
      let x : SdoTransfer := ⟨true, key, b, none, 0, false, c.lc⟩
      { d1 with chip := (d1.chip.setSdo x).sdoSend (sdoHead 0x41 key ++ leBytes 4 b.length) }
  | st => { d with chip := (c.wr (od 0x1100 0x0C) st.code).sdoAbort key (abortCode key true st) }

/-- A download segment (R387): up to 7 bytes, the last one completes the write. -/
def Dev.sdoDownSegment (d : Dev) (x : SdoTransfer) (cmd : Nat) (frame : List Byte) : Dev :=
  let c := d.chip
  let data := x.bytes ++ slice frame 1 (7 - bits cmd 1 3)
  let reply := beBytes 1 (0x20 + 16 * b2n x.toggle) ++ List.replicate 7 0
  if bitAt cmd 0 then
    let d1 := ({ d with chip := c.sdoClear } : Dev)
    let sized := match x.expect with | some n => n == data.length | none => true
    if sized then d1.sdoWrite x.key data reply frame else { d1 with chip := d1.chip.reply (.sdo reply x.key) .type }
  else { d with chip := (c.setSdo { x with bytes := data, toggle := !x.toggle, since := c.lc }).sdoSend reply }

/-- An upload segment (R387): the next 7 bytes. -/
def Dev.sdoUpSegment (d : Dev) (x : SdoTransfer) : Dev :=
  let c := d.chip
  let part := slice x.bytes x.pos 7
  let last := decide (x.bytes.length ≤ x.pos + 7)
  let frame := beBytes 1 (16 * b2n x.toggle + 2 * (7 - part.length) + b2n last) ++ padTo 7 part
  { d with chip := if last then c.sdoClear.sdoDone frame
                   else (c.setSdo { x with pos := x.pos + 7, toggle := !x.toggle, since := c.lc }).sdoSend frame }

/-- A segment request (R387): its toggle bit must be the transfer's; a segment outside a transfer of its direction is an unknown command. -/
def Dev.sdoSegment (d : Dev) (upload : Bool) (cmd : Nat) (frame : List Byte) : Dev :=
  let c := d.chip
  match c.dict.sdo with
  | none => { d with chip := c.sdoAbort 0 0x05040001 }
  | some x =>
    if x.upload ≠ upload then { d with chip := c.sdoClear.sdoAbort x.key 0x05040001 }
    else if bitAt cmd 4 ≠ x.toggle then { d with chip := c.sdoClear.sdoAbort x.key 0x05030000 }
    else if upload then d.sdoUpSegment x
    else d.sdoDownSegment x cmd frame

/-- An SDO request in its turn (R387), by the command specifier of CiA 301; an abort abandons the transfer. -/
def Dev.sdoHandle (d : Dev) (frame : List Byte) : Dev :=
  let cmd := beAt frame 0 1
  let key := od (leVal (slice frame 1 2)) (beAt frame 3 1)
  let ccs := cmd / 32
  if ccs = 0 then d.sdoSegment false cmd frame
  else if ccs = 1 then d.sdoDownload cmd key frame
  else if ccs = 2 then d.sdoUpload key
  else if ccs = 3 then d.sdoSegment true cmd frame
  else if ccs = 4 then { d with chip := d.chip.sdoClear }
  else { d with chip := d.chip.sdoAbort key 0x05040001 }

/-- A frame on COB-ID 0x600 + node arrives (R387): one that wakes the chip is not answered (R425, R426). -/
def Dev.sdoArrives (d : Dev) (frame : List Byte) : Dev :=
  let c := d.chip
  if !c.canOn || frame.length ≠ 8 then d
  else if c.wakes 1 then { d with chip := c.latchWake 1 }
  else if !c.serves then d
  else if c.busy then d.hold (.sdo frame)
  else d.sdoHandle frame

/-- SDO_DOWNLOAD_INITIATE. -/
def execSdoDownloadInitiate (frame : List Byte) (s : State) : Host.Outcome State Fault Refusal := done s (s.dev.sdoArrives frame)

/-- SDO_UPLOAD_INITIATE. -/
def execSdoUploadInitiate (frame : List Byte) (s : State) : Host.Outcome State Fault Refusal := done s (s.dev.sdoArrives frame)

/-- SDO_SEGMENT. -/
def execSdoSegment (frame : List Byte) (s : State) : Host.Outcome State Fault Refusal := done s (s.dev.sdoArrives frame)

/-- SDO_BLOCK_COMMAND. -/
def execSdoBlockCommand (frame : List Byte) (s : State) : Host.Outcome State Fault Refusal := done s (s.dev.sdoArrives frame)

/-- SDO_SEGMENT_TIMEOUT (R387): a transfer that waits more than 1000 ms. -/
def execSdoSegmentTimeout (s : State) : Host.Outcome State Fault Refusal :=
  let c := s.dev.chip
  match c.dict.sdo with
  | none => ok s c
  | some x => ok s ((c.untilLc (x.since + 1000000001)).sdoClear.sdoAbort x.key 0x05040000)

/-- CAN_BUS_OFF (R386). -/
def execCanBusOff (s : State) : Host.Outcome State Fault Refusal :=
  let c := s.dev.chip
  ok s (if c.canOn then c.bump (od 0x1100 0x13) 1 else c)

/-- The state that a heartbeat carries (R389). -/
def Chip.beatCode (c : Chip) : Nat :=
  if c.device = 2 then 0x04 else if c.device = 3 || !c.writable then 0x7F else 0x05

/-- HEARTBEAT_PRODUCER (R389). -/
def execHeartbeatProducer (s : State) : Host.Outcome State Fault Refusal :=
  let c := s.dev.chip
  ok s (if c.rd (od 0x1017 0) = 0 then c else c.canBeat c.beatCode)

/-! ### Requests that waited (R382) -/

/-- A held request in its turn: it waits again while the server is busy. -/
def Dev.resumeHeld (d : Dev) (h : Held) : Dev :=
  if d.chip.busy then d.hold h
  else match h with
    | .bdp op q => if d.chip.serves then d.bdpHandle op q else d
    | .sdo frame => if d.chip.serves then d.sdoHandle frame else d
    | .write sess key v => d.write sess key v

/-- The requests that waited are handled in order of arrival (R382). -/
def Dev.replay (d : Dev) : Dev :=
  if d.chip.busy then d
  else d.chip.dict.held.foldl Dev.resumeHeld { d with chip := { d.chip with dict := { d.chip.dict with held := [] } } }

/-- COMMIT_VALIDATED (R41, R368, R382). -/
def execCommitValidated (s : State) : Host.Outcome State Fault Refusal := done s s.dev.commitEnds.replay

end Sys2Proof.Machine
end

