-- ==== Sys2Proof/Machine/Boot.lean ====
section
/-! DEFINITION. The boot configuration (R453-R456): its header, its records as writes of session 0, and how CONFIG ends. -/

namespace Sys2Proof.Machine

/-- A boot configuration that ends badly: the record's number, the status code and the object (R456). -/
structure BootFailure where
  record : Nat
  code : Nat
  object : Nat
  deriving DecidableEq, Repr

/-- The open transaction, if any, is committed without a tick (R456): the status code, with the object at fault. -/
def Dev.bootCommit (d : Dev) : Dev × Nat × Nat :=
  match d.chip.dict.txn with
  | none => (d, 0, 0)
  | some _ =>
    let c := { d.chip with dict := { d.chip.dict with validating := some ⟨0, none, .nobody⟩ } }
    let d1 := ({ d with chip := c } : Dev).commitEnds
    (d1, d1.chip.rd (od 0x1200 6), d1.chip.rd (od 0x1200 8))

/-- A record whose index R456 has act at once; any other opens a transaction. -/
def Dev.bootOpen (d : Dev) (key : Nat) : Dev :=
  if neverStaged key || d.chip.dict.txn.isSome then d else { d with chip := (d.chip.begin 0).1 }

/-- One record as a write of session 0 (R456): the status code. A record that writes a command object of OD 1200 commits at once. -/
def Dev.bootWrite (d : Dev) (key : Nat) (data : List Byte) : Dev × Nat :=
  let d0 := d.bootOpen key
  let v : Val := (valOf key data).getD (.bytes data)
  match d0.chip.gate true 0 key v with
  | .refuse st => (d0, st.code)
  | .stage => ({ d0 with chip := d0.chip.stage key v }, 0)
  | .act =>
    let (d1, st) := d0.accept 0 key v .nobody
    if d1.chip.dict.validating.isSome then
      let d2 := d1.commitEnds
      (d2, d2.chip.rd (od 0x1200 6))
    else (d1, (st.getD .ok).code)
  | _ => (d0, 0)

/-- The records in flash order, counted from 0 (R455, R456); a record that runs past LENGTH is refused with RANGE. After the last one, a
transaction that is still open is committed. -/
def Dev.bootRecords : Nat → Nat → List Byte → Dev → Dev × Option BootFailure
  | 0, _, _, d => (d, none)
  | f + 1, n, b, d =>
    if b.isEmpty then
      match d.bootCommit with
      | (d1, 0, _) => (d1, none)
      | (d1, code, object) => (d1, some ⟨n - 1, code, object⟩)
    else
      let key := od (beAt b 0 2) (beAt b 2 1)
      let len := beAt b 4 4
      let size := (8 + len + 3) / 4 * 4
      if b.length < 8 + len then (d, some ⟨n, Status.range.code, key⟩)
      else
        match d.bootWrite key (slice b 8 len) with
        | (d1, 0) =>
          if bitAt (beAt b 3 1) 7 then
            match d1.bootCommit with
            | (d2, 0, _) => d2.bootRecords f (n + 1) (b.drop size)
            | (d2, code, object) => (d2, some ⟨n, code, if object = 0 then key else object⟩)
          else d1.bootRecords f (n + 1) (b.drop size)
        | (d1, code) => (d1, some ⟨n, code, key⟩)

/-- What the header finds (R455): the boot status 2 no flash, 3 bad header, 4 bad CRC; else 1, with VERSION and the records. -/
def bootHeader (flash : Option (List Byte)) : Nat × Nat × List Byte :=
  match flash with
  | none => (2, 0, [])
  | some f =>
    let len := beAt f 12 4
    if f.length < 32 || beAt f 0 4 ≠ 0x6400B0C5 || beAt f 4 1 ≠ 1 || f.length < 32 + len || 16777184 < len then (3, 0, [])
    else
      let r := slice f 32 len
      if crc32 (f.take 16 ++ r) ≠ beAt f 16 4 then (4, 0, []) else (1, beAt f 8 4, r)

/-- CONFIG ends without a valid configuration (R453). -/
def Chip.bootInvalid (c : Chip) (st : Nat) : Chip :=
  let c1 := c.wr (rstOd 4) st
  if c.rd (od 0x1080 3) = 0 then (c1.bringUpEnds 6).fault .degrade .condition (rstOd 4) 0 st 0
  else (c1.bringUpEnds 5).fault .note .condition (rstOd 4) 0 st 0

/-- A record was refused, or a COMMIT failed (R456): the open transaction is rolled back. -/
def Dev.bootFailed (d : Dev) (x : BootFailure) : Dev :=
  let d1 := d.rollBack
  let c := ((d1.chip.wr (rstOd 4) 5).wr (rstOd 5) x.record).bringUpEnds 6
  { d1 with chip := c.fault .degrade .condition x.object 0 5 x.code }

/-- BOOT_CONFIGURATION (R453-R456). -/
def execBootConfiguration (flash : Option (List Byte)) (s : State) : Host.Outcome State Fault Refusal :=
  let d := s.dev
  let c := d.chip
  if c.bringUp ≠ 4 then ok s c
  else match bootHeader flash with
  | (1, version, records) =>
    let d1 := ({ d with chip := c.wr (od 0x1080 6) version } : Dev)
    match d1.bootRecords (records.length + 1) 0 records with
    | (d2, none) => done s { d2 with chip := (d2.chip.wr (rstOd 4) 1).bringUpEnds 5 }
    | (d2, some x) => done s (d2.bootFailed x)
  | (st, _, _) => ok s (c.bootInvalid st)

end Sys2Proof.Machine
end

