-- ==== Sys2Proof/Machine/Mirror.lean ====
section
/-! DEFINITION. Mirror traffic as the shadow and a joining side receive it (R436, R440): WRITE series, COMMIT, SNAPSHOT. -/

namespace Sys2Proof.Machine

/-! ### WRITE (R436) -/

/-- A segment of a WRITE series: the chip, and the whole write at LAST. A segment that does not go on where the last one ended breaks its
series. -/
def Chip.mirrorSegment (c : Chip) (body : List Byte) : Chip × Option MirrorPart :=
  let key := od (beAt body 0 2) (beAt body 2 1)
  let flags := beAt body 3 1
  let off := beAt body 4 4
  let staged := bitAt flags 7
  let before : Option (List Byte) :=
    if off = 0 then some []
    else match c.twin.part with
      | some p => if p.key = key && p.staged = staged && p.bytes.length = off then some p.bytes else none
      | none => none
  let c0 := { c with twin := { c.twin with part := none } }
  match before with
  | none => (c0, none)
  | some b =>
    let p : MirrorPart := ⟨key, b ++ body.drop 16, staged, beAt body 12 4⟩
    if !bitAt flags 6 then ({ c with twin := { c.twin with part := some p } }, none)
    else if p.bytes.length = beAt body 8 4 then (c0, some p)
    else (c0, none)

/-- A run object's value in a snapshot is kept until the data paths start (R440). -/
def Chip.keepRun (c : Chip) (k : Nat) (on : Bool) : Chip :=
  let rest := c.twin.runs.filter fun x => x != k
  { c with twin := { c.twin with runs := if on then rest ++ [k] else rest } }

/-- An object of a snapshot is loaded as it arrives, without a transaction (R440). -/
def Dev.loadObject (d : Dev) (k : Nat) (v : Val) : Dev :=
  if runObjects.contains k then { d with chip := d.chip.keepRun k (v == .num 1) }
  else d.applyWrites d.chip.front [(k, v)]

/-- A mirrored write is complete (R436, R440): staged for the COMMIT that follows, or applied. -/
def Dev.mirrorComplete (d : Dev) (p : MirrorPart) : Dev :=
  let c := d.chip
  if !mirrored p.key || neverMirrored p.key then d
  else match valOf p.key p.bytes with
  | none => d
  | some v =>
    if p.staged then { d with chip := { c with twin := { c.twin with staged := stageInsert p.key (usedBits p.key v) c.twin.staged } } }
    else if c.twin.snapshot then d.loadObject p.key v
    else (d.writeNow 255 p.key v .nobody).1

/-- The side takes mirror traffic: it is SHADOW, or JOINING from the begin of its snapshot on (R436, R440). -/
def Chip.mirrors (c : Chip) : Bool := c.role == 3 || (c.role == 4 && (c.twin.snapshot || c.twin.startAt.isSome))

/-- MIRROR_WRITE (R436). -/
def execMirrorWrite (b : Fin 256) (frame : List Byte) (s : State) : Host.Outcome State Fault Refusal :=
  match s.dev.chip.twinIn b.val 0x10 frame with
  | (c, none) => ok s c
  | (c, some body) =>
    if !c.mirrors then ok s c
    else match c.mirrorSegment body with
    | (c1, none) => ok s c1
    | (c1, some p) => done s (({ s.dev with chip := c1 } : Dev).mirrorComplete p)

/-! ### COMMIT (R436) -/

/-- The staging of a mirrored commit finds no room beside the schedule (R367, R436). -/
def Chip.mirrorFull (c : Chip) (w : List (Nat × Val)) : Bool :=
  decide (4096 < c.stagedCount + w.length) || decide (c.loadArea < c.stagedBytes + (w.map loadSize).sum)

/-- A mirrored COMMIT (R436): validated, and scheduled at the lead's effect tick under the lead's number; a failure sends a shadow to JOINING. -/
def Dev.mirrorCommitIn (d : Dev) (body : List Byte) : Dev :=
  let w := d.chip.twin.staged
  let c := { d.chip with twin := { d.chip.twin with staged := [] } }
  let v := ({ d with chip := c } : Dev).validate w [] (some (beAt body 4 8)) true
  if v.st = .ok && w.length = beAt body 12 2 && !c.mirrorFull w then
    { d with chip := c.enterSchedule (beAt body 0 4) 255 v.spectrum w [] }
  else
    let c1 := c.bump (twinOd 0x24) 1
    { d with chip := if c1.role = 3 then c1.enterJoining .degrade else c1 }

/-- MIRROR_COMMIT (R436). -/
def execMirrorCommit (b : Fin 256) (frame : List Byte) (s : State) : Host.Outcome State Fault Refusal :=
  match s.dev.chip.twinIn b.val 0x11 frame with
  | (c, none) => ok s c
  | (c, some body) => if c.mirrors then done s (({ s.dev with chip := c } : Dev).mirrorCommitIn body) else ok s c

/-! ### SNAPSHOT (R440) -/

/-- The begin of a snapshot: every mirror-class object is at its default again, and nothing is scheduled (R440). -/
def Dev.snapshotBegin (d : Dev) : Dev :=
  let c := d.chip
  let nums := (c.obj.filter fun e => snapshotObject e.1).map fun e => ((e.1, .num (objDefault e.1)) : Nat × Val)
  let doms := (c.dom.filter fun e => snapshotObject e.1).map fun e => ((e.1, .bytes []) : Nat × Val)
  let all := nums ++ doms
  let streams := c.streams.map fun e => ((e.1, { e.2 with segments := [], segment := none }) : Nat × Stream)
  let t := { c.twin with snapshot := true, part := none, staged := [], startAt := none, runs := [] }
  let c1 := (all.filter fun e => !valueClass e.1).foldl Chip.put { c with streams := streams, twin := t, dict := { c.dict with schedule := [] } }
  let d1 := ({ d with chip := c1 } : Dev).applyWrites c.front (all.filter fun e => valueClass e.1)
  { d1 with chip := (d1.chip.showSchedule.showStaging).wr (twinOd 0x13) 0 }

/-- The end of a snapshot (R440): the data paths start at the first chase period that begins at least 20 ms later. -/
def Chip.snapshotEnd (c : Chip) (bytes : Nat) : Chip :=
  let n := c.periodFrom (c.tick + (c.fa + 49) / 50)
  (({ c with twin := { c.twin with snapshot := false, startAt := some n } } : Chip).wr (twinOd 0x13) bytes).bump (twinOd 0x26) 1

/-- SNAPSHOT (R440). -/
def execSnapshot (b : Fin 256) (frame : List Byte) (s : State) : Host.Outcome State Fault Refusal :=
  match s.dev.chip.twinIn b.val 0x14 frame with
  | (c, none) => ok s c
  | (c, some body) =>
    let d := ({ s.dev with chip := c } : Dev)
    if c.role ≠ 4 then ok s c
    else if beAt body 0 1 = 0 then done s d.snapshotBegin
    else if beAt body 0 1 = 1 && c.twin.snapshot then ok s (c.snapshotEnd (beAt body 8 8))
    else ok s c

end Sys2Proof.Machine
end

