-- ==== Sys2Proof/Machine/Late.lean ====
section
/-! DEFINITION. What ends a wait of the dictionary server outside COMMIT (R382, R420, R421): the polls and the timeout of an operating-point
change, and the training steps that an HBM-rate change takes. -/

namespace Sys2Proof.Machine

/-- VOUT_POLL (R420): VDD_CORE within 10 mV of its target completes the change, and the requests that waited are handled. -/
def execVoutPoll (millivolts : Nat) (s : State) : Host.Outcome State Fault Refusal :=
  let (c, _) := s.dev.chip.voutPolled millivolts
  done s ({ s.dev with chip := c } : Dev).replay

/-- OPERATING_POINT_TIMEOUT (R420): 2 ms after the VOUT_COMMAND the change is abandoned. -/
def execOperatingPointTimeout (s : State) : Host.Outcome State Fault Refusal :=
  let c := s.dev.chip
  match c.power.op with
  | none => ok s c
  | some x => done s ({ s.dev with chip := (c.untilLc (x.since + 2000000)).opAbandoned } : Dev).replay

/-- TRAINING_STEP_END (R264, R265): a SLEEP request that waited for the HBM rate is handled once it has changed (R423). -/
def execTrainingStepEnd (stack : Fin 6) (good : Bool) (s : State) : Host.Outcome State Fault Refusal :=
  let d := s.dev.trainStep stack good
  done s (if s.dev.chip.power.rate.isSome && d.chip.power.rate.isNone then d.replay else d).drainWriter

end Sys2Proof.Machine
end

