-- ==== Sys2Proof/Machine/SetterAcc.lean ====
section
/-! DEFINITION. The accumulator class of the setters (R287, R288, R300). -/

namespace Sys2Proof.Machine

/-- What an accumulator operation gives: exact parts for ACCD; or a word for W with its flags; or nothing but moves. -/
inductive AccOut where
  /-- ACCD := the parts, each narrowed to 48 bits; flags set unless `quiet`. -/
  | acc (re im : Int) (quiet : Bool)
  /-- W := the word, through the pipeline; Z, N, V. -/
  | word (v : W40) (z n o : Bool)

/-- An accumulator instruction: `f` gives the result from S, the shift, ACCD, ACCS and W. -/
def execAcc (f : (s : Bool) → (sh : Nat) → (dr di sr si : Int) → (w : W40) → AccOut) (readsW : Bool) (n : Fin 8)
    (o : AccOp) (s : State) : Host.Outcome State Fault Refusal :=
  instruction s n Shape.data
    (fun x => (if readsW then [x.phys o.w] else []) ++ moveReads x o.x ++ moveReads x o.y)
    fun c x =>
      if moveIllegal o.x || moveIllegal o.y then Effect.illegal c x
      else
        match f o.s o.sh.val x.accR[o.accd].toInt x.accI[o.accd].toInt x.accR[o.accs].toInt x.accI[o.accs].toInt
            (x.rdW o.w) with
        | .acc re im quiet =>
          let r := part o.s 48 re
          let i := part o.s 48 im
          let y := { x with accR := x.accR.set o.accd (of48 r), accI := x.accI.set o.accd (of48 i) }
          let (c1, y) := if quiet then (c, y)
            else writeFlags c y (r == 0 && i == 0) (decide (r < 0)) (outside 48 re || outside 48 im)
          Effect.plain (c1, moves x y o.x o.y)
        | .word v z neg ovf =>
          let (c1, y) := writeFlags c x z neg ovf
          -- the loads of this instruction for the same register are lost (R291)
          let y := moves x y o.x o.y
          let r := x.phys o.w
          let y := { y with flight := y.flight.filter fun e => !(e.left == 3 && e.loads r) }
          Effect.plain (c1, y.issue 2 (.store r v))

/-- CLRA: ACCD := 0 + j0. -/
def execClra (n : Fin 8) (o : AccOp) (s : State) : Host.Outcome State Fault Refusal :=
  execAcc (fun _ _ _ _ _ _ _ => .acc 0 0 false) false n o s

/-- LDAC: ACCD.R := W[39:20] << SH; ACCD.I := W[19:0] << SH. -/
def execLdac (n : Fin 8) (o : AccOp) (s : State) : Host.Outcome State Fault Refusal :=
  execAcc (fun _ sh _ _ _ _ w => .acc (hi20 w * 2 ^ sh) (lo20 w * 2 ^ sh) false) true n o s

/-- LDAR: ACCD.R := W << SH; ACCD.I := 0. -/
def execLdar (n : Fin 8) (o : AccOp) (s : State) : Host.Outcome State Fault Refusal :=
  execAcc (fun _ sh _ _ _ _ w => .acc (w.toInt * 2 ^ sh) 0 false) true n o s

/-- ADDA: ACCD := ACCD + ACCS. -/
def execAdda (n : Fin 8) (o : AccOp) (s : State) : Host.Outcome State Fault Refusal :=
  execAcc (fun _ _ dr di sr si _ => .acc (dr + sr) (di + si) false) false n o s

/-- SUBA: ACCD := ACCD − ACCS. -/
def execSuba (n : Fin 8) (o : AccOp) (s : State) : Host.Outcome State Fault Refusal :=
  execAcc (fun _ _ dr di sr si _ => .acc (dr - sr) (di - si) false) false n o s

/-- MOVA: ACCD := ACCS; flags unchanged. -/
def execMova (n : Fin 8) (o : AccOp) (s : State) : Host.Outcome State Fault Refusal :=
  execAcc (fun _ _ _ _ sr si _ => .acc sr si true) false n o s

/-- SRA: ACCD := ACCS >> SH per part, truncating. -/
def execSra (n : Fin 8) (o : AccOp) (s : State) : Host.Outcome State Fault Refusal :=
  execAcc (fun _ sh _ _ sr si _ => .acc (sr / 2 ^ sh) (si / 2 ^ sh) false) false n o s

/-- SLA: ACCD := ACCS << SH per part. -/
def execSla (n : Fin 8) (o : AccOp) (s : State) : Host.Outcome State Fault Refusal :=
  execAcc (fun _ sh _ _ sr si _ => .acc (sr * 2 ^ sh) (si * 2 ^ sh) false) false n o s

/-- CONJA: ACCD := conj(ACCS). -/
def execConja (n : Fin 8) (o : AccOp) (s : State) : Host.Outcome State Fault Refusal :=
  execAcc (fun _ _ _ _ sr si _ => .acc sr (-si) false) false n o s

/-- STC: W := ACCS.R >> SH in [39:20] and ACCS.I >> SH in [19:0], each narrowed to 20 bits. -/
def execStc (n : Fin 8) (o : AccOp) (s : State) : Host.Outcome State Fault Refusal :=
  execAcc (fun s sh _ _ sr si _ =>
    let r := sr / 2 ^ sh
    let i := si / 2 ^ sh
    let v := mk40 (part s 20 r) (part s 20 i)
    .word v (v == 0) (v.getLsbD 39) (outside 20 r || outside 20 i)) false n o s

/-- STR: W := ACCS.R >> SH, narrowed to 40 bits. -/
def execStr (n : Fin 8) (o : AccOp) (s : State) : Host.Outcome State Fault Refusal :=
  execAcc (fun s sh _ _ sr _ _ =>
    let r := sr / 2 ^ sh
    let v := of40 (part s 40 r)
    .word v (v == 0) (v.getLsbD 39) (outside 40 r)) false n o s

/-- STI: W := ACCS.I >> SH, narrowed to 40 bits. -/
def execSti (n : Fin 8) (o : AccOp) (s : State) : Host.Outcome State Fault Refusal :=
  execAcc (fun s sh _ _ _ si _ =>
    let r := si / 2 ^ sh
    let v := of40 (part s 40 r)
    .word v (v == 0) (v.getLsbD 39) (outside 40 r)) false n o s

/-- NORMA: W := the smaller of the redundant sign bits of the two parts of ACCS, 0–47. -/
def execNorma (n : Fin 8) (o : AccOp) (s : State) : Host.Outcome State Fault Refusal :=
  execAcc (fun _ _ _ _ sr si _ =>
    let v := of40 (min (redundant 48 sr) (redundant 48 si))
    .word v (v == 0) false false) false n o s

end Sys2Proof.Machine
end

