-- ==== Sys2Proof/Machine/SetterAlu.lean ====
section
/-! DEFINITION. The ALU class of the setters (R287, R288, R290, R299). -/

namespace Sys2Proof.Machine

/-- What an ALU operation gives: the word for D, whether D is written, and the flags, if it sets them. -/
structure AluOut where
  word : W40
  writes : Bool
  flags : Option (Bool × Bool × Bool)

/-- A result word that sets Z and N from itself: every part 0, and the sign of the real or high part, which is bit 39 for
I40, C40 and D20 alike (R290). -/
def aluWord (v : W40) (ovf : Bool) : AluOut := ⟨v, true, some (v == 0, v.getLsbD 39, ovf)⟩

/-- An I40 result with overflow (R287). -/
def aluI40 (s : Bool) (v : Int) : AluOut := aluWord (of40 (part s 40 v)) (outside 40 v)

/-- A per-part result with overflow. -/
def aluC40 (s : Bool) (re im : Int) : AluOut :=
  aluWord (mk40 (part s 20 re) (part s 20 im)) (outside 20 re || outside 20 im)

/-- An ALU instruction: `f` gives the result from the saturation bit and the operand words. -/
def execAlu (f : (s : Bool) → (a b : W40) → AluOut) (usesB : Bool) (n : Fin 8) (o : AluOp) (s : State) :
    Host.Outcome State Fault Refusal :=
  instruction s n Shape.data
    (fun x => [x.phys o.wa] ++ (if usesB then [x.phys o.wb] else []) ++ moveReads x o.x ++ moveReads x o.y)
    fun c x =>
      if moveIllegal o.x || moveIllegal o.y then Effect.illegal c x
      else
        let r := f o.s (x.rdW o.wa) (x.rdW o.wb)
        let (c1, y) := if r.writes then writeW c x (x.phys o.wd) r.word else (c, x)
        let (c2, y) := match r.flags with
          | some (z, n, v) => writeFlags c1 y z n v
          | none => (c1, y)
        Effect.plain (c2, moves x y o.x o.y)

/-- ADD: D := A + B, I40. -/
def execAdd (n : Fin 8) (o : AluOp) (s : State) : Host.Outcome State Fault Refusal :=
  execAlu (fun s a b => aluI40 s (a.toInt + b.toInt)) true n o s

/-- SUB: D := A − B, I40. -/
def execSub (n : Fin 8) (o : AluOp) (s : State) : Host.Outcome State Fault Refusal :=
  execAlu (fun s a b => aluI40 s (a.toInt - b.toInt)) true n o s

/-- CADD: D := A + B per 20-bit part. -/
def execCadd (n : Fin 8) (o : AluOp) (s : State) : Host.Outcome State Fault Refusal :=
  execAlu (fun s a b => aluC40 s (hi20 a + hi20 b) (lo20 a + lo20 b)) true n o s

/-- CSUB: D := A − B per part. -/
def execCsub (n : Fin 8) (o : AluOp) (s : State) : Host.Outcome State Fault Refusal :=
  execAlu (fun s a b => aluC40 s (hi20 a - hi20 b) (lo20 a - lo20 b)) true n o s

/-- NEG: D := −A, I40. -/
def execNeg (n : Fin 8) (o : AluOp) (s : State) : Host.Outcome State Fault Refusal :=
  execAlu (fun s a _ => aluI40 s (-a.toInt)) false n o s

/-- CONJ: the low part negated; S does not apply, so an overflow keeps the low bits (R287, R299). -/
def execConj (n : Fin 8) (o : AluOp) (s : State) : Host.Outcome State Fault Refusal :=
  execAlu (fun _ a _ => aluC40 false (hi20 a) (-(lo20 a))) false n o s

/-- ABS: D := abs(A), I40. -/
def execAbs (n : Fin 8) (o : AluOp) (s : State) : Host.Outcome State Fault Refusal :=
  execAlu (fun s a _ => aluI40 s (if a.toInt < 0 then -a.toInt else a.toInt)) false n o s

/-- MIN: D := min(A, B), I40. -/
def execMin (n : Fin 8) (o : AluOp) (s : State) : Host.Outcome State Fault Refusal :=
  execAlu (fun _ a b => aluWord (if a.toInt ≤ b.toInt then a else b) false) true n o s

/-- MAX: D := max(A, B), I40. -/
def execMax (n : Fin 8) (o : AluOp) (s : State) : Host.Outcome State Fault Refusal :=
  execAlu (fun _ a b => aluWord (if a.toInt ≤ b.toInt then b else a) false) true n o s

/-- AND. -/
def execAnd (n : Fin 8) (o : AluOp) (s : State) : Host.Outcome State Fault Refusal :=
  execAlu (fun _ a b => aluWord (a &&& b) false) true n o s

/-- OR. -/
def execOr (n : Fin 8) (o : AluOp) (s : State) : Host.Outcome State Fault Refusal :=
  execAlu (fun _ a b => aluWord (a ||| b) false) true n o s

/-- XOR. -/
def execXor (n : Fin 8) (o : AluOp) (s : State) : Host.Outcome State Fault Refusal :=
  execAlu (fun _ a b => aluWord (a ^^^ b) false) true n o s

/-- NOT. -/
def execNot (n : Fin 8) (o : AluOp) (s : State) : Host.Outcome State Fault Refusal :=
  execAlu (fun _ a _ => aluWord (~~~ a) false) false n o s

/-- ASR: D := A >> B[5:0], arithmetic, truncating; shifts of 40 or more give 0 or −1. -/
def execAsr (n : Fin 8) (o : AluOp) (s : State) : Host.Outcome State Fault Refusal :=
  execAlu (fun _ a b => aluWord (of40 (a.toInt / 2 ^ (b.toNat % 64))) false) true n o s

/-- LSR: D := A >> B[5:0], logical. -/
def execLsr (n : Fin 8) (o : AluOp) (s : State) : Host.Outcome State Fault Refusal :=
  execAlu (fun _ a b => aluWord (a >>> (b.toNat % 64)) false) true n o s

/-- ASL: D := A << B[5:0], with overflow (R287). -/
def execAsl (n : Fin 8) (o : AluOp) (s : State) : Host.Outcome State Fault Refusal :=
  execAlu (fun s a b => aluI40 s (a.toInt * 2 ^ (b.toNat % 64))) true n o s

/-- CASR: each part >> B[4:0], arithmetic, truncating. -/
def execCasr (n : Fin 8) (o : AluOp) (s : State) : Host.Outcome State Fault Refusal :=
  execAlu (fun _ a b => aluC40 false (hi20 a / 2 ^ (b.toNat % 32)) (lo20 a / 2 ^ (b.toNat % 32))) true n o s

/-- PACK: D := A[19:0] in [39:20], B[19:0] in [19:0]. -/
def execPack (n : Fin 8) (o : AluOp) (s : State) : Host.Outcome State Fault Refusal :=
  execAlu (fun _ a b => aluWord (mk40 (lo20 a) (lo20 b)) false) true n o s

/-- UNPH: D := A[39:20] sign-extended to I40. -/
def execUnph (n : Fin 8) (o : AluOp) (s : State) : Host.Outcome State Fault Refusal :=
  execAlu (fun _ a _ => aluWord (of40 (hi20 a)) false) false n o s

/-- UNPL: D := A[19:0] sign-extended to I40. -/
def execUnpl (n : Fin 8) (o : AluOp) (s : State) : Host.Outcome State Fault Refusal :=
  execAlu (fun _ a _ => aluWord (of40 (lo20 a)) false) false n o s

/-- CMP: flags from A − B, I40; D is not written. -/
def execCmp (n : Fin 8) (o : AluOp) (s : State) : Host.Outcome State Fault Refusal :=
  execAlu (fun _ a b => { aluI40 false (a.toInt - b.toInt) with writes := false }) true n o s

/-- MOV: D := A; flags unchanged. -/
def execMov (n : Fin 8) (o : AluOp) (s : State) : Host.Outcome State Fault Refusal :=
  execAlu (fun _ a _ => ⟨a, true, none⟩) false n o s

/-- SWAP: D := A[19:0] in [39:20], A[39:20] in [19:0]. -/
def execSwap (n : Fin 8) (o : AluOp) (s : State) : Host.Outcome State Fault Refusal :=
  execAlu (fun _ a _ => aluWord (mk40 (lo20 a) (hi20 a)) false) false n o s

/-- NORM: D := redundant sign bits of A, 0–39; V cleared. -/
def execNorm (n : Fin 8) (o : AluOp) (s : State) : Host.Outcome State Fault Refusal :=
  execAlu (fun _ a _ => aluWord (of40 (redundant 40 a.toInt)) false) false n o s

/-- TST: flags from A and B; D is not written. -/
def execTst (n : Fin 8) (o : AluOp) (s : State) : Host.Outcome State Fault Refusal :=
  execAlu (fun _ a b => { aluWord (a &&& b) false with writes := false }) true n o s

end Sys2Proof.Machine
end

