-- ==== Sys2Proof/Machine/SetterControl.lean ====
section
/-! DEFINITION. The control class of the setters, loop-back, interrupts and fault entry (R305, R309-R318). -/

namespace Sys2Proof.Machine

/-- A branch, call or return: ILLEGAL in a delay slot and at a loop's end. -/
def Shape.branch : Shape := ⟨true, true, true⟩

/-- A control-class instruction that may stand anywhere. -/
def Shape.plainControl : Shape := ⟨true, false, false⟩

/-- TRAP: ILLEGAL in a delay slot (R309). -/
def Shape.trap : Shape := ⟨true, true, false⟩

/-- NOP. -/
def execNop (n : Fin 8) (s : State) : Host.Outcome State Fault Refusal :=
  instruction s n Shape.plainControl (fun _ => []) fun c x => Effect.plain (c, x)

/-- A taken branch to `target` is issued: it goes there after its two delay slots (R309), and with `pops` it then leaves the innermost
loop when the target lies outside it (R312). -/
def issueBranch (x : Setter) (target : BitVec 16) (pops : Bool) : Setter :=
  { x with branch := some ⟨target, 2, true, false, pops⟩ }

/-- A branch that is not taken: its two delay slots are still delay slots (R309). -/
def issueNotTaken (x : Setter) : Setter := { x with branch := some ⟨x.pc + 3, 2, false, false, false⟩ }

/-- A conditional branch: an illegal COND, taken, or not taken. -/
def condBranch (cond : Fin 16) (target : BitVec 16) (pops : Bool) (link : Bool) (c : Chip) (x : Setter) : Effect :=
  match condHolds x.sr cond with
  | none => Effect.illegal c x
  | some false => ⟨c, issueNotTaken x, none, true, 0, none⟩
  | some true =>
    let y := if link then { x with lr := x.pc + 3 } else x
    ⟨c, issueBranch y target pops, none, true, 0, none⟩

/-- BR: branch if COND holds. -/
def execBr (n : Fin 8) (cond : Fin 16) (target : BitVec 16) (s : State) : Host.Outcome State Fault Refusal :=
  instruction s n Shape.branch (fun _ => []) fun c x => condBranch cond target true false c x

/-- BRI: branch to Pn[15:0] if COND holds. -/
def execBri (n : Fin 8) (cond pn : Fin 16) (s : State) : Host.Outcome State Fault Refusal :=
  instruction s n Shape.branch (fun _ => []) fun c x => condBranch cond (x.p[pn].setWidth 16) true false c x

/-- CALL: LR := own address + 3, then branch, if COND holds. -/
def execCall (n : Fin 8) (cond : Fin 16) (target : BitVec 16) (s : State) : Host.Outcome State Fault Refusal :=
  instruction s n Shape.branch (fun _ => []) fun c x => condBranch cond target false true c x

/-- CALLI: the same, to Pn[15:0]. -/
def execCalli (n : Fin 8) (cond pn : Fin 16) (s : State) : Host.Outcome State Fault Refusal :=
  instruction s n Shape.branch (fun _ => []) fun c x => condBranch cond (x.p[pn].setWidth 16) false true c x

/-- RET: branch to LR if COND holds. -/
def execRet (n : Fin 8) (cond : Fin 16) (s : State) : Host.Outcome State Fault Refusal :=
  instruction s n Shape.branch (fun _ => []) fun c x => condBranch cond x.lr true false c x

/-- RTI: return to IRET; its delay slots run with IE = 0, and SR takes ISR as the first instruction there enters D;
from a fault handler it clears FIP (R317, R318). -/
def execRti (n : Fin 8) (s : State) : Host.Outcome State Fault Refusal :=
  instruction s n Shape.branch (fun _ => []) fun c x =>
    ⟨c, { x with branch := some ⟨x.iret, 2, true, true, true⟩, sr := clearIe x.sr }, none, true, 0, none⟩

/-- RPT: the next instruction runs `count` times; a count of 0 skips it (R305, R310). -/
def execRpt (n : Fin 8) (src : Bool) (w : Fin 64) (count : BitVec 16) (s : State) : Host.Outcome State Fault Refusal :=
  instruction s n Shape.branch (fun x => if src then [x.phys w] else []) fun c x =>
    let k := if src then (x.rdW w).setWidth 16 else count
    if k == 0 then ⟨c, x, some (x.pc + 2), true, 0, none⟩
    else ⟨c, { x with rptcnt := k }, none, true, 0, none⟩

/-- LOOP: the body from the next address to `endAddr` runs `count` times; a count of 0 skips it (R305, R311). -/
def execLoop (n : Fin 8) (src : Bool) (rot : Fin 4) (w : Fin 64) (endAddr count : BitVec 16) (s : State) :
    Host.Outcome State Fault Refusal :=
  instruction s n Shape.branch (fun x => if src then [x.phys w] else []) fun c x =>
    let k := if src then (x.rdW w).setWidth 16 else count
    let first := x.pc + 1
    if endAddr.toNat < x.pc.toNat + 1 then Effect.illegal c x
    else if x.inBody x.pc && decide (x.inner.last.toNat ≤ endAddr.toNat) then Effect.illegal c x
    else if k == 0 then ⟨c, x, some (endAddr + 1), true, 0, none⟩
    else if 4 ≤ x.depth then Effect.faulted c x 8 0
    else
      let y := if x.looping then { x with loopStack := x.inner :: x.loopStack } else x
      let l : HwLoop := ⟨first, endAddr, k.setWidth 32, rot⟩
      ⟨c, ({ y with looping := true, inner := l } : Setter).refill, none, true, 0, none⟩

/-- LOOP_BACK (R311): the loop-back decision after the instruction at LPEND. An instruction command that comes first makes
the same decision itself, since the decision costs no cycle (log entry 26). -/
def execLoopBack (n : Fin 8) (s : State) : Host.Outcome State Fault Refusal :=
  okCore s n (s.dev.cores[n]).loopBack

/-- IDLE: wait until a source is pending and enabled; with IE = 0 and one already so, execution continues (R316). -/
def execIdle (n : Fin 8) (s : State) : Host.Outcome State Fault Refusal :=
  instruction s n Shape.plainControl (fun _ => []) fun c x =>
    if !x.ie && sourceReady c.ipend[n] x.imask then Effect.plain (c, x)
    else Effect.plain (c, { x with mode := .idle })

/-- TRAP: the software interrupt, taken directly after the TRAP whatever IE is, with IRET the next address (R317). At LPEND it passes D
like any instruction: LPCNT and ROTOFF move, and the loop stays or pops (R311, log entry 127). -/
def execTrap (n : Fin 8) (number : BitVec 8) (s : State) : Host.Outcome State Fault Refusal :=
  instruction s n Shape.trap (fun _ => []) fun c x =>
    let passed := ({ x with lpHit := x.looping && x.pc == x.inner.last } : Setter).loopBack
    let y := { passed.enter 17 (x.pc + 1) with trapNo := number }
    ⟨c, y, some y.pc, true, 0, none⟩

/-- SYNC: wait until every posted store has completed (R286). -/
def execSync (n : Fin 8) (s : State) : Host.Outcome State Fault Refusal :=
  instruction s n Shape.plainControl (fun _ => []) fun c x =>
    Effect.plain (c, { x with syncing := !x.farStores.isEmpty })

/-- BREAK: halt until the debugger or a reset releases the setter (R318). -/
def execBrk (n : Fin 8) (s : State) : Host.Outcome State Fault Refusal :=
  instruction s n Shape.plainControl (fun _ => []) fun c x => Effect.plain (c, { x with mode := .halted })

/-! ### Interrupts (R314-R317) -/

/-- Priority of source `i` (IPRIO, R315). -/
def prioOf (iprio : BitVec 32) (i : Nat) : Nat := bits iprio.toNat (2 * i) 2

/-- The source that wins among those in `m`: the highest priority, then the lower number (R316). -/
def bestSource (iprio : BitVec 32) (m : BitVec 16) : Option Nat :=
  (List.range 16).foldl (fun b i =>
    if m.getLsbD i then
      match b with
      | none => some i
      | some j => if prioOf iprio j < prioOf iprio i then some i else b
    else b) none

/-- INTERRUPT_ENTRY (R316, R317): the winning source pending and enabled is taken; nothing happens where R316 holds it off. -/
def execInterruptEntry (n : Fin 8) (s : State) : Host.Outcome State Fault Refusal :=
  let c := s.dev.chip
  let x := (s.dev.cores[n]).loopBack
  let runs := match x.mode with | .running => true | .idle => true | _ => false
  match bestSource x.iprio (c.ipend[n] &&& x.imask) with
  | none => ok s c
  | some v =>
    if c.domClock (78 + n.val) && runs && acceptable n x then
      let c1 := { c with ipend := c.ipend.set n (c.ipend[n] &&& ~~~ (BitVec.ofNat 16 (2 ^ v))) }
      .next { s with dev := { s.dev with chip := c1, cores := s.dev.cores.set n (x.enter v x.pc) } }
    else ok s c

/-- The registers that a faulting load leaves 0, by name: those of a far load, and those that an uncorrectable word of X-RAM,
Y-RAM or P-RAM was to reach (R285, R286). -/
def faultedLoads (cause : Nat) (i : Instr) : List (Fin 64) :=
  let moved := fun (m : Move) => if m.en && m.act != 1 then [m.w] else []
  match cause, i with
  | 3, .farLoad _ o | 4, .farLoad _ o => [o.w]
  | 5, .nearAbsoluteLoad _ sp w _ => if sp == 0 then [w] else []
  | 6, .nearAbsoluteLoad _ sp w _ => if sp == 1 then [w] else []
  | 7, .nearAbsoluteLoad _ sp w _ => if sp == 2 then [w] else []
  | 5, i => ((instrMoves i).take 1).flatMap moved
  | 6, i => ((instrMoves i).drop 1).flatMap moved
  | _, _ => []

/-- FAULT_ENTRY (R306, R318): the instruction at pc, after a loop-back that is due, faults with the given cause; a load of it delivers
0 (R285, R286). The setter halts when FIP is set. -/
def execFaultEntry (n : Fin 8) (cause : BitVec 8) (faddr : BitVec 40) (s : State) : Host.Outcome State Fault Refusal :=
  let x0 := s.dev.cores[n]
  match x0.mode with
  | .running | .idle =>
    let x := x0.loopBack
    let zeroed := match decodeSetter n x.fetched.toNat with
      | some i => (faultedLoads cause.toNat i).map fun r => x.phys r
      | none => []
    let (c1, y) := zeroed.foldl (fun a r => writeW a.1 a.2 r 0) (s.dev.chip, x)
    let (c1, y) := takeFault c1 n y cause faddr
    .next { s with dev := { s.dev with chip := c1, cores := s.dev.cores.set n y } }
  | _ => ok s s.dev.chip

/-- TIMER_COMPARE (R314): CYC_LO equals TCMP, so source 1 becomes pending. The cycle counter, whose stalls the model does
not count, moves on to that cycle (log entry 27). -/
def execTimerCompare (n : Fin 8) (s : State) : Host.Outcome State Fault Refusal :=
  let x := s.dev.cores[n]
  let ahead := (x.tcmp - x.cyc.setWidth 32).toNat
  .next { s with dev := { s.dev with chip := s.dev.chip.irqTo n 1,
                                     cores := s.dev.cores.set n { x with cyc := x.cyc + BitVec.ofNat 64 ahead } } }

end Sys2Proof.Machine
end

