-- ==== Sys2Proof/Machine/SetterMac.lean ====
section
/-! DEFINITION. The MAC class of the setters (R289, R297, R298). -/

namespace Sys2Proof.Machine

/-- The accumulator value that a MAC adds onto: the most recent MAC result still in the pipeline, else the register
(chaining, R308). -/
def chained (x : Setter) (a : Fin 8) : A48 × A48 :=
  x.flight.foldl (fun r e => match e.what with
    | .mac b re im => if b == a then (re, im) else r
    | _ => r) (x.accR[a], x.accI[a])

/-- Operand B and the core with the P-bus pointer moved, and the cycle that the fetch takes outside the repeat cache
(R298, R313). -/
def macB (x : Setter) (o : MacOp) : W40 × Setter × Nat :=
  if o.pb.en then
    let k := Fin.ofNat 16 (12 + o.pb.pn.val)
    let a := x.p[k]
    let y := if o.pb.inc then { x with p := x.p.set k (a + 1) } else x
    (x.pData (a.toNat % 2 ^ 16), y, if x.rptcnt != 0 || x.cached x.pc then 0 else 1)
  else (x.rdW o.wb, x, 0)

/-- A MAC: `f` gives the exact sums from the operands' parts and the accumulator's parts (real, imaginary). -/
def execMac (f : (ar ai br bi r i : Int) → Int × Int) (usesB : Bool) (n : Fin 8) (o : MacOp) (s : State) :
    Host.Outcome State Fault Refusal :=
  instruction s n Shape.data
    (fun x => [x.phys o.wa] ++ (if usesB && !o.pb.en then [x.phys o.wb] else []) ++ moveReads x o.x ++ moveReads x o.y)
    fun c x =>
      if moveIllegal o.x || moveIllegal o.y then Effect.illegal c x
      else
        let a := x.rdW o.wa
        let (b, y, st) := if usesB then macB x o else (0, x, 0)
        let old := chained x o.acc
        let r := f (hi20 a) (lo20 a) (hi20 b) (lo20 b) old.1.toInt old.2.toInt
        let re := part o.s 48 r.1
        let im := part o.s 48 r.2
        let z := (moves x y o.x o.y).issue 3 (.mac o.acc (of48 re) (of48 im))
        let z := z.issue 3 (.flags (re == 0 && im == 0) (decide (re < 0)) (outside 48 r.1 || outside 48 r.2))
        ⟨c, z, none, false, st, none⟩

/-- CMUL: ACC := A × B. -/
def execCmul (n : Fin 8) (o : MacOp) (s : State) : Host.Outcome State Fault Refusal :=
  execMac (fun ar ai br bi _ _ => (ar * br - ai * bi, ar * bi + ai * br)) true n o s

/-- CMAC: ACC := ACC + A × B. -/
def execCmac (n : Fin 8) (o : MacOp) (s : State) : Host.Outcome State Fault Refusal :=
  execMac (fun ar ai br bi r i => (r + (ar * br - ai * bi), i + (ar * bi + ai * br))) true n o s

/-- CMSU: ACC := ACC − A × B. -/
def execCmsu (n : Fin 8) (o : MacOp) (s : State) : Host.Outcome State Fault Refusal :=
  execMac (fun ar ai br bi r i => (r - (ar * br - ai * bi), i - (ar * bi + ai * br))) true n o s

/-- CJMUL: ACC := A × conj(B). -/
def execCjmul (n : Fin 8) (o : MacOp) (s : State) : Host.Outcome State Fault Refusal :=
  execMac (fun ar ai br bi _ _ => (ar * br + ai * bi, ai * br - ar * bi)) true n o s

/-- CJMAC: ACC := ACC + A × conj(B). -/
def execCjmac (n : Fin 8) (o : MacOp) (s : State) : Host.Outcome State Fault Refusal :=
  execMac (fun ar ai br bi r i => (r + (ar * br + ai * bi), i + (ai * br - ar * bi))) true n o s

/-- CJMSU: ACC := ACC − A × conj(B). -/
def execCjmsu (n : Fin 8) (o : MacOp) (s : State) : Host.Outcome State Fault Refusal :=
  execMac (fun ar ai br bi r i => (r - (ar * br + ai * bi), i - (ai * br - ar * bi))) true n o s

/-- DMUL: R := A_h × B_h; I := A_l × B_l. -/
def execDmul (n : Fin 8) (o : MacOp) (s : State) : Host.Outcome State Fault Refusal :=
  execMac (fun ar ai br bi _ _ => (ar * br, ai * bi)) true n o s

/-- DMAC: R := R + A_h × B_h; I := I + A_l × B_l. -/
def execDmac (n : Fin 8) (o : MacOp) (s : State) : Host.Outcome State Fault Refusal :=
  execMac (fun ar ai br bi r i => (r + ar * br, i + ai * bi)) true n o s

/-- DMSU: R := R − A_h × B_h; I := I − A_l × B_l. -/
def execDmsu (n : Fin 8) (o : MacOp) (s : State) : Host.Outcome State Fault Refusal :=
  execMac (fun ar ai br bi r i => (r - ar * br, i - ai * bi)) true n o s

/-- XMAC: R := R + A_h × B_l; I := I + A_l × B_h. -/
def execXmac (n : Fin 8) (o : MacOp) (s : State) : Host.Outcome State Fault Refusal :=
  execMac (fun ar ai br bi r i => (r + ar * bi, i + ai * br)) true n o s

/-- PMAC: R := R + A_r² + A_i²; I unchanged; B unused. -/
def execPmac (n : Fin 8) (o : MacOp) (s : State) : Host.Outcome State Fault Refusal :=
  execMac (fun ar ai _ _ r i => (r + (ar * ar + ai * ai), i)) false n o s

end Sys2Proof.Machine
end

