-- ==== Sys2Proof/Machine/Dispatch.lean ====
section
/-! DEFINITION. One arm per command: its meaning. -/

namespace Sys2Proof.Machine

/-- What a command does, on everything but the queue. -/
def exec (i : Instr) (s : State) : Host.Outcome State Fault Refusal :=
  match i with
  | .powerOnReset => Sys2Proof.Machine.execPowerOnReset s
  | .pwrGoodLow => Sys2Proof.Machine.execPwrGoodLow s
  | .resetLAssert => Sys2Proof.Machine.execResetLAssert s
  | .resetRelease nodeId twinSide bootSrc => Sys2Proof.Machine.execResetRelease nodeId twinSide bootSrc s
  | .coldResetCommand sess => Sys2Proof.Machine.execColdResetCommand sess s
  | .warmResetCommand sess => Sys2Proof.Machine.execWarmResetCommand sess s
  | .resetCommandStart => Sys2Proof.Machine.execResetCommandStart s
  | .sramClearComplete => Sys2Proof.Machine.execSramClearComplete s
  | .apllLock => Sys2Proof.Machine.execApllLock s
  | .xoEdgeTimeout => Sys2Proof.Machine.execXoEdgeTimeout s
  | .hbmFillComplete failedStacks => Sys2Proof.Machine.execHbmFillComplete failedStacks s
  | .bootConfiguration flash => Sys2Proof.Machine.execBootConfiguration flash s
  | .tapReset => Sys2Proof.Machine.execTapReset s
  | .extest => Sys2Proof.Machine.execExtest s
  | .samplePreload cells => Sys2Proof.Machine.execSamplePreload cells s
  | .idcode => Sys2Proof.Machine.execIdcode s
  | .clamp => Sys2Proof.Machine.execClamp s
  | .highz => Sys2Proof.Machine.execHighz s
  | .extestPulse => Sys2Proof.Machine.execExtestPulse s
  | .extestTrain => Sys2Proof.Machine.execExtestTrain s
  | .bypass code => Sys2Proof.Machine.execBypass code s
  | .tapTestExit code => Sys2Proof.Machine.execTapTestExit code s
  | .faultAcknowledge sess seq => Sys2Proof.Machine.execFaultAcknowledge sess seq s
  | .sensorReading sensor q88 => Sys2Proof.Machine.execSensorReading sensor q88 s
  | .registerWrite sess index sub data => Sys2Proof.Machine.execRegisterWrite sess index sub data s
  | .clearCounters sess index sub data => Sys2Proof.Machine.execClearCounters sess index sub data s
  | .openSession d => Sys2Proof.Machine.execOpenSession d s
  | .closeSession d => Sys2Proof.Machine.execCloseSession d s
  | .keepalive d => Sys2Proof.Machine.execKeepalive d s
  | .read d => Sys2Proof.Machine.execRead d s
  | .write d => Sys2Proof.Machine.execWrite d s
  | .describe d => Sys2Proof.Machine.execDescribe d s
  | .beginTxn d => Sys2Proof.Machine.execBeginTxn d s
  | .commit d => Sys2Proof.Machine.execCommit d s
  | .commitValidated => Sys2Proof.Machine.execCommitValidated s
  | .rollback d => Sys2Proof.Machine.execRollback d s
  | .transactionEffect => Sys2Proof.Machine.execTransactionEffect s
  | .transactionExpired => Sys2Proof.Machine.execTransactionExpired s
  | .sessionTimeout k => Sys2Proof.Machine.execSessionTimeout k s
  | .partialWriteTimeout k => Sys2Proof.Machine.execPartialWriteTimeout k s
  | .arpRequest target senderIp senderMac => Sys2Proof.Machine.execArpRequest target senderIp senderMac s
  | .neighbourSolicitation target senderIp senderMac => Sys2Proof.Machine.execNeighbourSolicitation target senderIp senderMac s
  | .echoRequest v6 target senderIp senderMac payload => Sys2Proof.Machine.execEchoRequest v6 target senderIp senderMac payload s
  | .sdoDownloadInitiate frame => Sys2Proof.Machine.execSdoDownloadInitiate frame s
  | .sdoUploadInitiate frame => Sys2Proof.Machine.execSdoUploadInitiate frame s
  | .sdoSegment frame => Sys2Proof.Machine.execSdoSegment frame s
  | .sdoBlockCommand frame => Sys2Proof.Machine.execSdoBlockCommand frame s
  | .sdoSegmentTimeout => Sys2Proof.Machine.execSdoSegmentTimeout s
  | .canBusOff => Sys2Proof.Machine.execCanBusOff s
  | .heartbeatProducer => Sys2Proof.Machine.execHeartbeatProducer s
  | .canBegin => Sys2Proof.Machine.execCanBegin s
  | .canCommitAtTick tick => Sys2Proof.Machine.execCanCommitAtTick tick s
  | .canCommitNow => Sys2Proof.Machine.execCanCommitNow s
  | .canRollback => Sys2Proof.Machine.execCanRollback s
  | .keyWrite sess key => Sys2Proof.Machine.execKeyWrite sess key s
  | .sleepRequest sess kind => Sys2Proof.Machine.execSleepRequest sess kind s
  | .sleepEntry => Sys2Proof.Machine.execSleepEntry s
  | .wakeLAssert heldNs => Sys2Proof.Machine.execWakeLAssert heldNs s
  | .canWakeFrame => Sys2Proof.Machine.execCanWakeFrame s
  | .mgtWakeDatagram => Sys2Proof.Machine.execMgtWakeDatagram s
  | .sillWakeTimer => Sys2Proof.Machine.execSillWakeTimer s
  | .pmbAlert words => Sys2Proof.Machine.execPmbAlert words s
  | .wake startClockKHz => Sys2Proof.Machine.execWake startClockKHz s
  | .resume sess => Sys2Proof.Machine.execResume sess s
  | .domainStateRequest sess d value => Sys2Proof.Machine.execDomainStateRequest sess d value s
  | .domainDrainComplete d => Sys2Proof.Machine.execDomainDrainComplete d s
  | .drainTimeout d => Sys2Proof.Machine.execDrainTimeout d s
  | .domainReturnComplete d => Sys2Proof.Machine.execDomainReturnComplete d s
  | .operatingPointRequest sess value => Sys2Proof.Machine.execOperatingPointRequest sess value s
  | .voutPoll millivolts => Sys2Proof.Machine.execVoutPoll millivolts s
  | .operatingPointTimeout => Sys2Proof.Machine.execOperatingPointTimeout s
  | .hbmRateChange sess value => Sys2Proof.Machine.execHbmRateChange sess value s
  | .pmbusPoll readings => Sys2Proof.Machine.execPmbusPoll readings s
  | .clearFaults sess j => Sys2Proof.Machine.execClearFaults sess j s
  | .frequencyGateEnd k raw => Sys2Proof.Machine.execFrequencyGateEnd k raw s
  | .dwellExpiry k => Sys2Proof.Machine.execDwellExpiry k s
  | .refEdgeTimeout k => Sys2Proof.Machine.execRefEdgeTimeout k s
  | .refEdgeReturn k => Sys2Proof.Machine.execRefEdgeReturn k s
  | .waitToRestoreExpiry k => Sys2Proof.Machine.execWaitToRestoreExpiry k s
  | .acquireLock phasePs freqPpt => Sys2Proof.Machine.execAcquireLock phasePs freqPpt s
  | .holdoverLimitExpiry => Sys2Proof.Machine.execHoldoverLimitExpiry s
  | .holdoverRecompute => Sys2Proof.Machine.execHoldoverRecompute s
  | .viewRateWrite sess v rate => Sys2Proof.Machine.execViewRateWrite sess v rate s
  | .viewStep sess v step => Sys2Proof.Machine.execViewStep sess v step s
  | .viewSet sess v data => Sys2Proof.Machine.execViewSet sess v data s
  | .viewUncertaintyWrite sess v ns => Sys2Proof.Machine.execViewUncertaintyWrite sess v ns s
  | .servoTimeout v => Sys2Proof.Machine.execServoTimeout v s
  | .timeReadLatch sess v => Sys2Proof.Machine.execTimeReadLatch sess v s
  | .ppsInEdge frac => Sys2Proof.Machine.execPpsInEdge frac s
  | .ppsOutEdge => Sys2Proof.Machine.execPpsOutEdge s
  | .ppsOutWidthEnd => Sys2Proof.Machine.execPpsOutWidthEnd s
  | .pairArm sess tick => Sys2Proof.Machine.execPairArm sess tick s
  | .pairEntry => Sys2Proof.Machine.execPairEntry s
  | .ptpReceive port frame stampLc stampFrac => Sys2Proof.Machine.execPtpReceive port frame stampLc stampFrac s
  | .ptpTransmit port stampLc stampFrac => Sys2Proof.Machine.execPtpTransmit port stampLc stampFrac s
  | .losAssert l => Sys2Proof.Machine.execLosAssert l s
  | .losClear l => Sys2Proof.Machine.execLosClear l s
  | .lolAssert l => Sys2Proof.Machine.execLolAssert l s
  | .cdrLock l => Sys2Proof.Machine.execCdrLock l s
  | .commaAlignment l inverted => Sys2Proof.Machine.execCommaAlignment l inverted s
  | .tAlignExpiry l => Sys2Proof.Machine.execTAlignExpiry l s
  | .capMessage l message => Sys2Proof.Machine.execCapMessage l message s
  | .capExchangeDone l => Sys2Proof.Machine.execCapExchangeDone l s
  | .tCapExpiry l => Sys2Proof.Machine.execTCapExpiry l s
  | .tQuietExpiry l => Sys2Proof.Machine.execTQuietExpiry l s
  | .tLockExpiry l => Sys2Proof.Machine.execTLockExpiry l s
  | .trainingFrame l control controlBar status statusBar => Sys2Proof.Machine.execTrainingFrame l control controlBar status statusBar s
  | .rxReadyExchange l => Sys2Proof.Machine.execRxReadyExchange l s
  | .tTrainExpiry l => Sys2Proof.Machine.execTTrainExpiry l s
  | .tConfirmExpiry l serHigh => Sys2Proof.Machine.execTConfirmExpiry l serHigh s
  | .stepReady l rate => Sys2Proof.Machine.execStepReady l rate s
  | .tRelockExpiry l => Sys2Proof.Machine.execTRelockExpiry l s
  | .retryHoldoffExpiry l => Sys2Proof.Machine.execRetryHoldoffExpiry l s
  | .laneRestart sess l => Sys2Proof.Machine.execLaneRestart sess l s
  | .testModeWrite sess l value => Sys2Proof.Machine.execTestModeWrite sess l value s
  | .injectError sess l => Sys2Proof.Machine.execInjectError sess l s
  | .invalidSyncHeader l => Sys2Proof.Machine.execInvalidSyncHeader l s
  | .uncorrectableCodeword l => Sys2Proof.Machine.execUncorrectableCodeword l s
  | .sof l body => Sys2Proof.Machine.execSof l body s
  | .dataBlock l bytes => Sys2Proof.Machine.execDataBlock l bytes s
  | .resumeBlock l body => Sys2Proof.Machine.execResumeBlock l body s
  | .credit l body => Sys2Proof.Machine.execCredit l body s
  | .status l body => Sys2Proof.Machine.execStatus l body s
  | .marker l body lag10ps => Sys2Proof.Machine.execMarker l body lag10ps s
  | .members l row body => Sys2Proof.Machine.execMembers l row body s
  | .unknownControlBlock l type => Sys2Proof.Machine.execUnknownControlBlock l type s
  | .markerPeriodStart b => Sys2Proof.Machine.execMarkerPeriodStart b s
  | .frameStart b => Sys2Proof.Machine.execFrameStart b s
  | .creditReturnInterval b => Sys2Proof.Machine.execCreditReturnInterval b s
  | .ingestFrame b frame => Sys2Proof.Machine.execIngestFrame b frame s
  | .sampleRelease u => Sys2Proof.Machine.execSampleRelease u s
  | .stallTimeout u => Sys2Proof.Machine.execStallTimeout u s
  | .routeChangeEffect u => Sys2Proof.Machine.execRouteChangeEffect u s
  | .streamDisable u => Sys2Proof.Machine.execStreamDisable u s
  | .dcFreeze u => Sys2Proof.Machine.execDcFreeze u s
  | .dcMeanWrite sess u imaginary value => Sys2Proof.Machine.execDcMeanWrite sess u imaginary value s
  | .transientRingRestart => Sys2Proof.Machine.execTransientRingRestart s
  | .spectrum u => Sys2Proof.Machine.execSpectrum u s
  | .stickEnd u => Sys2Proof.Machine.execStickEnd u s
  | .delaySegmentWrite sess u record => Sys2Proof.Machine.execDelaySegmentWrite sess u record s
  | .clearSegments sess u => Sys2Proof.Machine.execClearSegments sess u s
  | .skCaptureArm sess => Sys2Proof.Machine.execSkCaptureArm sess s
  | .trussFramesReady => Sys2Proof.Machine.execTrussFramesReady s
  | .creditTimeout b vl => Sys2Proof.Machine.execCreditTimeout b vl s
  | .sampleFrame b frame => Sys2Proof.Machine.execSampleFrame b frame s
  | .pegFrame b frame => Sys2Proof.Machine.execPegFrame b frame s
  | .commitBeacon b frame => Sys2Proof.Machine.execCommitBeacon b frame s
  | .triggerDecision b frame => Sys2Proof.Machine.execTriggerDecision b frame s
  | .halfLayoutFix h => Sys2Proof.Machine.execHalfLayoutFix h s
  | .galleyClose h => Sys2Proof.Machine.execGalleyClose h s
  | .receiptMapCleared h => Sys2Proof.Machine.execReceiptMapCleared h s
  | .periodBegin => Sys2Proof.Machine.execPeriodBegin s
  | .slabStaged => Sys2Proof.Machine.execSlabStaged s
  | .impressionDispatch => Sys2Proof.Machine.execImpressionDispatch s
  | .impressionEnd p => Sys2Proof.Machine.execImpressionEnd p s
  | .impressionComplete p => Sys2Proof.Machine.execImpressionComplete p s
  | .periodComplete => Sys2Proof.Machine.execPeriodComplete s
  | .weightBankWrite sess f bank table => Sys2Proof.Machine.execWeightBankWrite sess f bank table s
  | .swapRequest sess f tick => Sys2Proof.Machine.execSwapRequest sess f tick s
  | .scarfStart f => Sys2Proof.Machine.execScarfStart f s
  | .scarfEnd f => Sys2Proof.Machine.execScarfEnd f s
  | .slotDrain f => Sys2Proof.Machine.execSlotDrain f s
  | .beamBlockRelease f => Sys2Proof.Machine.execBeamBlockRelease f s
  | .l0WarmupEnd u => Sys2Proof.Machine.execL0WarmupEnd u s
  | .l1WarmupEnd tb => Sys2Proof.Machine.execL1WarmupEnd tb s
  | .softPeg sess peg => Sys2Proof.Machine.execSoftPeg sess peg s
  | .softDecision sess body => Sys2Proof.Machine.execSoftDecision sess body s
  | .groupTakePeg g => Sys2Proof.Machine.execGroupTakePeg g s
  | .machineEvent m => Sys2Proof.Machine.execMachineEvent m s
  | .machineTimerExpiry m timer => Sys2Proof.Machine.execMachineTimerExpiry m timer s
  | .captureFreeze => Sys2Proof.Machine.execCaptureFreeze s
  | .captureReady k => Sys2Proof.Machine.execCaptureReady k s
  | .releaseSlot sess k => Sys2Proof.Machine.execReleaseSlot sess k s
  | .holdLimitExpiry k => Sys2Proof.Machine.execHoldLimitExpiry k s
  | .pegFrameSend b => Sys2Proof.Machine.execPegFrameSend b s
  | .hbmRequest stack pc offered => Sys2Proof.Machine.execHbmRequest stack pc offered s
  | .hbmReadComplete stack pc ecc => Sys2Proof.Machine.execHbmReadComplete stack pc ecc s
  | .refresh stack pc bank => Sys2Proof.Machine.execRefresh stack pc bank s
  | .openPageTimeout stack pc bank => Sys2Proof.Machine.execOpenPageTimeout stack pc bank s
  | .retrainStart stack temperature => Sys2Proof.Machine.execRetrainStart stack temperature s
  | .trainingStepEnd stack ok => Sys2Proof.Machine.execTrainingStepEnd stack ok s
  | .scrubRead ecc => Sys2Proof.Machine.execScrubRead ecc s
  | .retire sess r => Sys2Proof.Machine.execRetire sess r s
  | .migrationBlock => Sys2Proof.Machine.execMigrationBlock s
  | .migrationComplete => Sys2Proof.Machine.execMigrationComplete s
  | .sramUncorrectable place => Sys2Proof.Machine.execSramUncorrectable place s
  | .cmul n o => Sys2Proof.Machine.execCmul n o s
  | .cmac n o => Sys2Proof.Machine.execCmac n o s
  | .cmsu n o => Sys2Proof.Machine.execCmsu n o s
  | .cjmul n o => Sys2Proof.Machine.execCjmul n o s
  | .cjmac n o => Sys2Proof.Machine.execCjmac n o s
  | .cjmsu n o => Sys2Proof.Machine.execCjmsu n o s
  | .dmul n o => Sys2Proof.Machine.execDmul n o s
  | .dmac n o => Sys2Proof.Machine.execDmac n o s
  | .dmsu n o => Sys2Proof.Machine.execDmsu n o s
  | .xmac n o => Sys2Proof.Machine.execXmac n o s
  | .pmac n o => Sys2Proof.Machine.execPmac n o s
  | .add n o => Sys2Proof.Machine.execAdd n o s
  | .sub n o => Sys2Proof.Machine.execSub n o s
  | .cadd n o => Sys2Proof.Machine.execCadd n o s
  | .csub n o => Sys2Proof.Machine.execCsub n o s
  | .neg n o => Sys2Proof.Machine.execNeg n o s
  | .conj n o => Sys2Proof.Machine.execConj n o s
  | .abs n o => Sys2Proof.Machine.execAbs n o s
  | .min n o => Sys2Proof.Machine.execMin n o s
  | .max n o => Sys2Proof.Machine.execMax n o s
  | .and n o => Sys2Proof.Machine.execAnd n o s
  | .or n o => Sys2Proof.Machine.execOr n o s
  | .xor n o => Sys2Proof.Machine.execXor n o s
  | .not n o => Sys2Proof.Machine.execNot n o s
  | .asr n o => Sys2Proof.Machine.execAsr n o s
  | .lsr n o => Sys2Proof.Machine.execLsr n o s
  | .asl n o => Sys2Proof.Machine.execAsl n o s
  | .casr n o => Sys2Proof.Machine.execCasr n o s
  | .pack n o => Sys2Proof.Machine.execPack n o s
  | .unph n o => Sys2Proof.Machine.execUnph n o s
  | .unpl n o => Sys2Proof.Machine.execUnpl n o s
  | .cmp n o => Sys2Proof.Machine.execCmp n o s
  | .mov n o => Sys2Proof.Machine.execMov n o s
  | .swap n o => Sys2Proof.Machine.execSwap n o s
  | .norm n o => Sys2Proof.Machine.execNorm n o s
  | .tst n o => Sys2Proof.Machine.execTst n o s
  | .clra n o => Sys2Proof.Machine.execClra n o s
  | .ldac n o => Sys2Proof.Machine.execLdac n o s
  | .ldar n o => Sys2Proof.Machine.execLdar n o s
  | .adda n o => Sys2Proof.Machine.execAdda n o s
  | .suba n o => Sys2Proof.Machine.execSuba n o s
  | .mova n o => Sys2Proof.Machine.execMova n o s
  | .sra n o => Sys2Proof.Machine.execSra n o s
  | .sla n o => Sys2Proof.Machine.execSla n o s
  | .conja n o => Sys2Proof.Machine.execConja n o s
  | .stc n o => Sys2Proof.Machine.execStc n o s
  | .str n o => Sys2Proof.Machine.execStr n o s
  | .sti n o => Sys2Proof.Machine.execSti n o s
  | .norma n o => Sys2Proof.Machine.execNorma n o s
  | .nearAbsoluteLoad n space w addr => Sys2Proof.Machine.execNearAbsoluteLoad n space w addr s
  | .nearAbsoluteStore n space w addr => Sys2Proof.Machine.execNearAbsoluteStore n space w addr s
  | .farLoad n o => Sys2Proof.Machine.execFarLoad n o s
  | .farStore n o => Sys2Proof.Machine.execFarStore n o s
  | .farLoadData n w reply => Sys2Proof.Machine.execFarLoadData n w reply s
  | .immediateW n reg imm => Sys2Proof.Machine.execImmediateW n reg imm s
  | .immediateP n reg imm => Sys2Proof.Machine.execImmediateP n reg imm s
  | .immediateM n reg imm => Sys2Proof.Machine.execImmediateM n reg imm s
  | .immediateControl n reg imm => Sys2Proof.Machine.execImmediateControl n reg imm s
  | .addp n d u imm => Sys2Proof.Machine.execAddp n d u imm s
  | .modp n d u => Sys2Proof.Machine.execModp n d u s
  | .addm n d u imm => Sys2Proof.Machine.execAddm n d u imm s
  | .cmpp n d u => Sys2Proof.Machine.execCmpp n d u s
  | .registerMove n dkind dreg skind sreg => Sys2Proof.Machine.execRegisterMove n dkind dreg skind sreg s
  | .nop n => Sys2Proof.Machine.execNop n s
  | .br n cond target => Sys2Proof.Machine.execBr n cond target s
  | .bri n cond pn => Sys2Proof.Machine.execBri n cond pn s
  | .call n cond target => Sys2Proof.Machine.execCall n cond target s
  | .calli n cond pn => Sys2Proof.Machine.execCalli n cond pn s
  | .ret n cond => Sys2Proof.Machine.execRet n cond s
  | .rti n => Sys2Proof.Machine.execRti n s
  | .rpt n src w count => Sys2Proof.Machine.execRpt n src w count s
  | .loop n src rot w endAddr count => Sys2Proof.Machine.execLoop n src rot w endAddr count s
  | .loopBack n => Sys2Proof.Machine.execLoopBack n s
  | .idle n => Sys2Proof.Machine.execIdle n s
  | .trap n number => Sys2Proof.Machine.execTrap n number s
  | .sync n => Sys2Proof.Machine.execSync n s
  | .brk n => Sys2Proof.Machine.execBrk n s
  | .interruptEntry n => Sys2Proof.Machine.execInterruptEntry n s
  | .faultEntry n cause faddr => Sys2Proof.Machine.execFaultEntry n cause faddr s
  | .timerCompare n => Sys2Proof.Machine.execTimerCompare n s
  | .cycLoRead n dkind dreg => Sys2Proof.Machine.execCycLoRead n dkind dreg s
  | .doorbell by_ n value => Sys2Proof.Machine.execDoorbell by_ n value s
  | .runControl sess n value => Sys2Proof.Machine.execRunControl sess n value s
  | .firmwareImage sess n table => Sys2Proof.Machine.execFirmwareImage sess n table s
  | .controlCounterRead which => Sys2Proof.Machine.execControlCounterRead which s
  | .matrixAccess target offered => Sys2Proof.Machine.execMatrixAccess target offered s
  | .dmaStart by_ c => Sys2Proof.Machine.execDmaStart by_ c s
  | .dmaAbort by_ c => Sys2Proof.Machine.execDmaAbort by_ c s
  | .descriptorLoaded c => Sys2Proof.Machine.execDescriptorLoaded c s
  | .dmaBeat => Sys2Proof.Machine.execDmaBeat s
  | .dmaWatchdog c => Sys2Proof.Machine.execDmaWatchdog c s
  | .queueConfigure sess q sub value => Sys2Proof.Machine.execQueueConfigure sess q sub value s
  | .queueTailWrite by_ q value => Sys2Proof.Machine.execQueueTailWrite by_ q value s
  | .portUp p => Sys2Proof.Machine.execPortUp p s
  | .portDown p => Sys2Proof.Machine.execPortDown p s
  | .portReceive p fcsOk frame stampLc stampFrac => Sys2Proof.Machine.execPortReceive p fcsOk frame stampLc stampFrac s
  | .readoutStart u => Sys2Proof.Machine.execReadoutStart u s
  | .readoutEnd u => Sys2Proof.Machine.execReadoutEnd u s
  | .frameSlot p => Sys2Proof.Machine.execFrameSlot p s
  | .macFrameBoundary p => Sys2Proof.Machine.execMacFrameBoundary p s
  | .twinHeartbeatSend => Sys2Proof.Machine.execTwinHeartbeatSend s
  | .heartbeat b frame => Sys2Proof.Machine.execHeartbeat b frame s
  | .startTimeout => Sys2Proof.Machine.execStartTimeout s
  | .takeOver => Sys2Proof.Machine.execTakeOver s
  | .handOver sess => Sys2Proof.Machine.execHandOver sess s
  | .handover b frame => Sys2Proof.Machine.execHandover b frame s
  | .handoverTick => Sys2Proof.Machine.execHandoverTick s
  | .mirrorWrite b frame => Sys2Proof.Machine.execMirrorWrite b frame s
  | .mirrorCommit b frame => Sys2Proof.Machine.execMirrorCommit b frame s
  | .pegs b frame => Sys2Proof.Machine.execPegs b frame s
  | .snapshot b frame => Sys2Proof.Machine.execSnapshot b frame s
  | .standbyExpiry => Sys2Proof.Machine.execStandbyExpiry s
  | .blockLock l => Sys2Proof.Machine.execBlockLock l s
  | .codeViolation l => Sys2Proof.Machine.execCodeViolation l s
  | .prbsCheckerLock l => Sys2Proof.Machine.execPrbsCheckerLock l s
  | .prbsCheckerLockLoss l => Sys2Proof.Machine.execPrbsCheckerLockLoss l s
  | .mgtLinkUp baseR => Sys2Proof.Machine.execMgtLinkUp baseR s
  | .mgtLinkDown => Sys2Proof.Machine.execMgtLinkDown s
  | .farStoreComplete n reply => Sys2Proof.Machine.execFarStoreComplete n reply s
  | .historyWindowFilled => Sys2Proof.Machine.execHistoryWindowFilled s
  | .joiningDataPathStart => Sys2Proof.Machine.execJoiningDataPathStart s

end Sys2Proof.Machine
end

