-- ==== Sys2Proof/Safety.lean ====
section
/-! DEFINITION. What counts as a safe run, in the terms statements use. -/

namespace Sys2Proof

/-- The command completes: it answers a next state with the property, and the queue of waiting commands is as it was. -/
def Runs (i : Instr) (s : Machine.State) (p : Machine.State → Prop) : Prop :=
  ∃ t, Machine.exec i s = .next t ∧ t.pending = s.pending ∧ p t

/-- Setter `n` takes its next instruction with nothing of an earlier one still to come: it runs, its clock runs, its pipeline is empty, no
far load is outstanding, and no branch, repeat, loop or map change is under way. -/
abbrev Machine.State.quiet (s : Machine.State) (n : Fin 8) : Prop :=
  s.dev.chip.domClock (78 + n.val) = true ∧ (s.dev.cores[n]).mode = .running ∧ (s.dev.cores[n]).syncing = false ∧
  (s.dev.cores[n]).flight = [] ∧ (s.dev.cores[n]).farLoads = [] ∧ (s.dev.cores[n]).branch = none ∧
  (s.dev.cores[n]).rptcnt = 0 ∧ (s.dev.cores[n]).looping = false ∧ (s.dev.cores[n]).lpHit = false ∧
  (s.dev.cores[n]).remap = none

/-- The state with setter `n` as given, one instruction and `k` cycles further on; everything else is as it was. -/
def Machine.State.afterCycles (s : Machine.State) (n : Fin 8) (k : Nat) (x : Machine.Setter) : Machine.State :=
  let y := { x with pc := (s.dev.cores[n]).pc + 1, cyc := (s.dev.cores[n]).cyc + BitVec.ofNat 64 k }
  { s with dev := { s.dev with cores := s.dev.cores.set n y } }

/-- The state with setter `n` as given, one instruction and one cycle further on; everything else is as it was. -/
def Machine.State.after (s : Machine.State) (n : Fin 8) (x : Machine.Setter) : Machine.State := s.afterCycles n 1 x

/-- An ALU instruction writes its word to D and sets Z and N from it and V as given (R287, R290), beside its parallel moves. -/
def Machine.Setter.aluWrites (x : Machine.Setter) (o : AluOp) (v : W40) (ovf : Bool) : Machine.Setter :=
  Machine.moves x { x with w := x.w.set (x.phys o.wd) v, sr := Machine.setFlags x.sr (v == 0) (v.getLsbD 39) ovf } o.x o.y

/-- An accumulator instruction writes both parts of ACCD and sets Z, N and V (R287, R290), beside its parallel moves. -/
def Machine.Setter.accWrites (x : Machine.Setter) (o : AccOp) (re im : Int) : Machine.Setter :=
  let r := Machine.part o.s 48 re
  let i := Machine.part o.s 48 im
  Machine.moves x { x with accR := x.accR.set o.accd (Machine.of48 r), accI := x.accI.set o.accd (Machine.of48 i),
                           sr := Machine.setFlags x.sr (r == 0 && i == 0) (decide (r < 0))
                             (Machine.outside 48 re || Machine.outside 48 im) } o.x o.y

/-- A MAC sends both parts of its result and their flags into the pipeline, three instructions ahead (R308), beside its parallel moves;
`y` is the core with the P-bus pointer moved. -/
def Machine.Setter.macSends (x y : Machine.Setter) (o : MacOp) (re im : Int) : Machine.Setter :=
  let r := Machine.part o.s 48 re
  let i := Machine.part o.s 48 im
  ((Machine.moves x y o.x o.y).issue 3 (.mac o.acc (Machine.of48 r) (Machine.of48 i))).issue 3
    (.flags (r == 0 && i == 0) (decide (r < 0)) (Machine.outside 48 re || Machine.outside 48 im))

/-- A fault of cause `cause` at the instruction at the program counter of `x` enters the fault vector (R306, R317, R318): FAULT and FADDR
tell it, IRET holds the next address, ISR the SR before, IE is clear, and FIP is set. -/
def Machine.Setter.faultsWith (x : Machine.Setter) (cause : BitVec 8) (faddr : BitVec 40) : Machine.Setter :=
  let word := BitVec.ofNat 32 (x.pc.toNat * 2 ^ 16 + cause.toNat)
  { x with faults := x.faults + 1, fault := word, faddr := faddr, lastFault := word, lastFaddr := faddr, cyc := x.cyc + 1,
           iret := x.pc + 1, isr := x.sr, sr := Machine.clearIe x.sr, vecTaken := 16, fip := true,
           pc := BitVec.ofNat 16 (x.ivec.toNat / 128 * 128 + 64) }

/-- The canonical form of the memories: no byte and no tag is listed twice, out of order, or as what it reads as unlisted. -/
def Machine.Mem.wf (m : Machine.Mem) : Bool :=
  Machine.Memory.wf m.sram && Machine.Memory.wf m.hbm && Machine.SMap.wf m.tagDefault m.tag

/-- A setter's registers are as R281 to R283 and R311 give them: SR holds IE, SV, V, N and Z and nothing else, MR holds REMAP and nothing
else, at most four loops are active, and none waits on the stack while none is active. -/
def Machine.Setter.wf (x : Machine.Setter) : Bool :=
  x.sr == Machine.srMask x.sr && decide (x.mr.toNat ≤ 1) && decide (x.loopStack.length ≤ 3) && (x.looping || x.loopStack.isEmpty)

/-- The memories are canonical and every setter is well formed. -/
def Machine.Dev.wf (d : Machine.Dev) : Prop := d.mem.wf = true ∧ ∀ n : Fin 8, (d.cores[n]).wf = true

/-- A single write of an object by a session passes the server's checks, so that what it does is decided by the object alone (R359 to R369). -/
abbrev Machine.State.accepts (s : Machine.State) (sess key : Nat) (v : Machine.Val) : Prop := s.dev.chip.gate false sess key v = .act

/-- The last thing that has left the chip is the answer to a request, with the status (R365). -/
def Machine.State.answered (t : Machine.State) (sess key : Nat) (st : Machine.Status) : Prop :=
  t.dev.chip.out.head? = some (.status sess key st.code)

/-- The setters and the memories are as they were: only the chip's own registers and queues may have changed. -/
def Machine.State.coresAndMemoryOf (t s : Machine.State) : Prop := t.dev.cores = s.dev.cores ∧ t.dev.mem = s.dev.mem

/-- The device is as it was. -/
def Machine.State.unchangedFrom (t s : Machine.State) : Prop := t.dev = s.dev

/-- A BDP datagram reaches the server, which is free, with authorization off: awake, serving, an address of its IP version, well formed
(R376, R377, R382, R384). -/
abbrev Machine.State.receives (s : Machine.State) (q : Bdp) : Prop :=
  s.dev.chip.serves = true ∧ s.dev.chip.wakes 2 = false ∧ s.dev.chip.hasAddress q.v6 = true ∧ Machine.bdpWellFormed q = true ∧
  s.dev.chip.busy = false ∧ s.dev.chip.on (Machine.od 0x1400 1) = false

/-- It is a new request of the open session that it names (R382). -/
abbrev Machine.State.receivesNew (s : Machine.State) (q : Bdp) : Prop :=
  s.receives q ∧ 1 ≤ q.session.toNat ∧ q.session.toNat ≤ 8 ∧ (s.dev.chip.session q.session.toNat).isOpen = true ∧
  (s.dev.chip.session q.session.toNat).lastId ≠ some q.reqId

/-- The response to a BDP request without authorization: header, status and body, to where the request came from (R376, R377). -/
def bdpResponse (q : Bdp) (op sess : Nat) (more : Bool) (st : Machine.Status) (body : List Byte) : Machine.Sent :=
  .udp q.v6 q.ip q.port.toNat q.mac.toNat (Machine.bdpHeader false more op sess q.reqId.toNat st.code body.length ++ body)

/-- The last thing that has left the chip. -/
def Machine.State.lastSent (t : Machine.State) (x : Machine.Sent) : Prop := t.dev.chip.out.head? = some x

/-- An SDO frame of 8 bytes reaches the server, which is free (R386, R387). -/
abbrev Machine.State.receivesSdo (s : Machine.State) (frame : List Byte) : Prop :=
  s.dev.chip.canOn = true ∧ frame.length = 8 ∧ s.dev.chip.wakes 1 = false ∧ s.dev.chip.serves = true ∧ s.dev.chip.busy = false

end Sys2Proof
end

