-- ==== Sys2Proof/Certificates/Slice0/Obligations.lean ====
section
/-! DEFINITION. The statements for the provers. Each says what the rules it names give a command, in terms of the state before it. -/

open Sys2Proof Sys2Proof.Machine

/-- A step with a command at the front of the queue runs that command on the rest. -/
def Obligations.StepRunsFrontCommand : Prop :=
  ∀ (c : Instr) (rest : List Instr) (s : State),
    step { s with pending := c :: rest } = exec c { s with pending := rest }

/-- In a quiet setter, ADD, SUB, NEG, ABS and ASL write the exact I40 result clipped (S) or cut to 40 bits, CADD, CSUB and CASR the same
per 20-bit part, CONJ the word with its low part negated; Z and N follow from the word, V from the exact result, SV is sticky; the moves
happen, pc and the cycle counter go on by one, and nothing else changes. -/
def Obligations.AluArithmetic : Prop :=
  ∀ (s : State) (n : Fin 8) (o : AluOp), s.quiet n → moveIllegal o.x = false → moveIllegal o.y = false →
    let x := s.dev.cores[n]
    let a := x.rdW o.wa
    let b := x.rdW o.wb
    let i40 := fun (v : Int) => s.after n (x.aluWrites o (of40 (part o.s 40 v)) (outside 40 v))
    let c40 := fun (re im : Int) =>
      s.after n (x.aluWrites o (mk40 (part o.s 20 re) (part o.s 20 im)) (outside 20 re || outside 20 im))
    exec (.add n o) s = .next (i40 (a.toInt + b.toInt)) ∧
    exec (.sub n o) s = .next (i40 (a.toInt - b.toInt)) ∧
    exec (.neg n o) s = .next (i40 (-a.toInt)) ∧
    exec (.abs n o) s = .next (i40 (if a.toInt < 0 then -a.toInt else a.toInt)) ∧
    exec (.asl n o) s = .next (i40 (a.toInt * 2 ^ (b.toNat % 64))) ∧
    exec (.cadd n o) s = .next (c40 (hi20 a + hi20 b) (lo20 a + lo20 b)) ∧
    exec (.csub n o) s = .next (c40 (hi20 a - hi20 b) (lo20 a - lo20 b)) ∧
    exec (.casr n o) s = .next (s.after n (x.aluWrites o (mk40 (part false 20 (hi20 a / 2 ^ (b.toNat % 32)))
      (part false 20 (lo20 a / 2 ^ (b.toNat % 32)))) (outside 20 (hi20 a / 2 ^ (b.toNat % 32)) || outside 20 (lo20 a / 2 ^ (b.toNat % 32))))) ∧
    exec (.conj n o) s = .next (s.after n (x.aluWrites o (mk40 (part false 20 (hi20 a)) (part false 20 (-(lo20 a))))
      (outside 20 (hi20 a) || outside 20 (-(lo20 a)))))

/-- In a quiet setter each of MIN, MAX, AND, OR, XOR, NOT, ASR, LSR, PACK, UNPH, UNPL, SWAP and NORM writes the word of R299 and its
flags with V clear, MOV writes A and leaves the flags, CMP and TST set the flags and write no W register; pc and the cycle counter go on
by one and nothing else changes. -/
def Obligations.AluWords : Prop :=
  ∀ (s : State) (n : Fin 8) (o : AluOp), s.quiet n → moveIllegal o.x = false → moveIllegal o.y = false →
    let x := s.dev.cores[n]
    let a := x.rdW o.wa
    let b := x.rdW o.wb
    let word := fun (v : W40) => s.after n (x.aluWrites o v false)
    let flagsOnly := fun (v : W40) (ovf : Bool) =>
      s.after n (moves x { x with sr := setFlags x.sr (v == 0) (v.getLsbD 39) ovf } o.x o.y)
    exec (.min n o) s = .next (word (if a.toInt ≤ b.toInt then a else b)) ∧
    exec (.max n o) s = .next (word (if a.toInt ≤ b.toInt then b else a)) ∧
    exec (.and n o) s = .next (word (a &&& b)) ∧
    exec (.or n o) s = .next (word (a ||| b)) ∧
    exec (.xor n o) s = .next (word (a ^^^ b)) ∧
    exec (.not n o) s = .next (word (~~~ a)) ∧
    exec (.asr n o) s = .next (word (of40 (a.toInt / 2 ^ (b.toNat % 64)))) ∧
    exec (.lsr n o) s = .next (word (a >>> (b.toNat % 64))) ∧
    exec (.pack n o) s = .next (word (mk40 (lo20 a) (lo20 b))) ∧
    exec (.unph n o) s = .next (word (of40 (hi20 a))) ∧
    exec (.unpl n o) s = .next (word (of40 (lo20 a))) ∧
    exec (.swap n o) s = .next (word (mk40 (lo20 a) (hi20 a))) ∧
    exec (.norm n o) s = .next (word (of40 (redundant 40 a.toInt))) ∧
    exec (.mov n o) s = .next (s.after n (moves x { x with w := x.w.set (x.phys o.wd) a } o.x o.y)) ∧
    exec (.cmp n o) s = .next (flagsOnly (of40 (part false 40 (a.toInt - b.toInt))) (outside 40 (a.toInt - b.toInt))) ∧
    exec (.tst n o) s = .next (flagsOnly (a &&& b) false)

/-- In a quiet setter CLRA, LDAC, LDAR, ADDA, SUBA, SRA, SLA and CONJA write both parts of ACCD, each exact result clipped or cut to 48
bits, and the flags; MOVA copies ACCS and leaves the flags; nothing else changes but the moves, pc and the cycle counter. -/
def Obligations.AccumulatorOps : Prop :=
  ∀ (s : State) (n : Fin 8) (o : AccOp), s.quiet n → moveIllegal o.x = false → moveIllegal o.y = false →
    let x := s.dev.cores[n]
    let w := x.rdW o.w
    let dr := x.accR[o.accd].toInt
    let di := x.accI[o.accd].toInt
    let sr := x.accR[o.accs].toInt
    let si := x.accI[o.accs].toInt
    let acc := fun (re im : Int) => s.after n (x.accWrites o re im)
    exec (.clra n o) s = .next (acc 0 0) ∧
    exec (.ldac n o) s = .next (acc (hi20 w * 2 ^ o.sh.val) (lo20 w * 2 ^ o.sh.val)) ∧
    exec (.ldar n o) s = .next (acc (w.toInt * 2 ^ o.sh.val) 0) ∧
    exec (.adda n o) s = .next (acc (dr + sr) (di + si)) ∧
    exec (.suba n o) s = .next (acc (dr - sr) (di - si)) ∧
    exec (.sra n o) s = .next (acc (sr / 2 ^ o.sh.val) (si / 2 ^ o.sh.val)) ∧
    exec (.sla n o) s = .next (acc (sr * 2 ^ o.sh.val) (si * 2 ^ o.sh.val)) ∧
    exec (.conja n o) s = .next (acc sr (-si)) ∧
    exec (.mova n o) s = .next (s.after n (moves x
      { x with accR := x.accR.set o.accd (of48 (part o.s 48 sr)), accI := x.accI.set o.accd (of48 (part o.s 48 si)) } o.x o.y))

/-- In a quiet setter STC, STR, STI and NORMA send their word towards the named W register, two instructions ahead, and set the flags at
once; near loads of the same instruction for that register are lost; nothing else changes but the moves, pc and the cycle counter. -/
def Obligations.AccumulatorStores : Prop :=
  ∀ (s : State) (n : Fin 8) (o : AccOp), s.quiet n → moveIllegal o.x = false → moveIllegal o.y = false →
    let x := s.dev.cores[n]
    let sr := x.accR[o.accs].toInt
    let si := x.accI[o.accs].toInt
    let out := fun (v : W40) (neg ovf : Bool) =>
      let y := moves x { x with sr := setFlags x.sr (v == 0) neg ovf } o.x o.y
      s.after n (({ y with flight := y.flight.filter fun e => !(e.left == 3 && e.loads (x.phys o.w)) } : Setter).issue 2
        (.store (x.phys o.w) v))
    let r := sr / 2 ^ o.sh.val
    let i := si / 2 ^ o.sh.val
    let c := mk40 (part o.s 20 r) (part o.s 20 i)
    exec (.stc n o) s = .next (out c (c.getLsbD 39) (outside 20 r || outside 20 i)) ∧
    exec (.str n o) s = .next (out (of40 (part o.s 40 r)) ((of40 (part o.s 40 r)).getLsbD 39) (outside 40 r)) ∧
    exec (.sti n o) s = .next (out (of40 (part o.s 40 i)) ((of40 (part o.s 40 i)).getLsbD 39) (outside 40 i)) ∧
    exec (.norma n o) s = .next (out (of40 (min (redundant 48 sr) (redundant 48 si))) false false)

/-- In a quiet setter each MAC sends both parts of its exact sum, clipped or cut to 48 bits, and its flags into the pipeline for the
named accumulator; operand B is a W register or, with the P-bus enabled, a P word whose pointer may move; a P-bus fetch outside the
repeat cache takes one more cycle; the moves happen and nothing else changes. -/
def Obligations.MacProducts : Prop :=
  ∀ (s : State) (n : Fin 8) (o : MacOp), s.quiet n → moveIllegal o.x = false → moveIllegal o.y = false →
    let x := s.dev.cores[n]
    let a := x.rdW o.wa
    let b := (macB x o).1
    let y := (macB x o).2.1
    let st := (macB x o).2.2
    let ar := hi20 a
    let ai := lo20 a
    let br := hi20 b
    let bi := lo20 b
    let r := x.accR[o.acc].toInt
    let i := x.accI[o.acc].toInt
    let mac : Int → Int → Host.Outcome State Fault Refusal := fun re im => .next (s.afterCycles n (1 + st) (x.macSends y o re im))
    exec (.cmul n o) s = mac (ar * br - ai * bi) (ar * bi + ai * br) ∧
    exec (.cmac n o) s = mac (r + (ar * br - ai * bi)) (i + (ar * bi + ai * br)) ∧
    exec (.cmsu n o) s = mac (r - (ar * br - ai * bi)) (i - (ar * bi + ai * br)) ∧
    exec (.cjmul n o) s = mac (ar * br + ai * bi) (ai * br - ar * bi) ∧
    exec (.cjmac n o) s = mac (r + (ar * br + ai * bi)) (i + (ai * br - ar * bi)) ∧
    exec (.cjmsu n o) s = mac (r - (ar * br + ai * bi)) (i - (ai * br - ar * bi)) ∧
    exec (.dmul n o) s = mac (ar * br) (ai * bi) ∧
    exec (.dmac n o) s = mac (r + ar * br) (i + ai * bi) ∧
    exec (.dmsu n o) s = mac (r - ar * br) (i - ai * bi) ∧
    exec (.xmac n o) s = mac (r + ar * bi) (i + ai * br) ∧
    exec (.pmac n o) s = .next (s.after n (x.macSends x o (r + (ar * ar + ai * ai)) i))

/-- In a quiet setter, after CMUL and two NOPs a third NOP finds the product in the accumulator, and the two before it the old value. -/
def Obligations.MacLands : Prop :=
  ∀ (s : State) (n : Fin 8) (o : MacOp), s.quiet n → moveIllegal o.x = false → moveIllegal o.y = false → o.pb.en = false →
    let x := s.dev.cores[n]
    let a := x.rdW o.wa
    let b := x.rdW o.wb
    ∃ s1 s2 s3 s4, exec (.cmul n o) s = .next s1 ∧ exec (.nop n) s1 = .next s2 ∧ exec (.nop n) s2 = .next s3 ∧
      exec (.nop n) s3 = .next s4 ∧
      (s3.dev.cores[n]).accR = x.accR ∧ (s3.dev.cores[n]).accI = x.accI ∧
      (s4.dev.cores[n]).accR = x.accR.set o.acc (of48 (part o.s 48 (hi20 a * hi20 b - lo20 a * lo20 b))) ∧
      (s4.dev.cores[n]).accI = x.accI.set o.acc (of48 (part o.s 48 (hi20 a * lo20 b + lo20 a * hi20 b)))

/-- In a quiet setter a near absolute load from X, Y or P space sends the word at the address towards the W register, three instructions
ahead; a store puts the W register into X- or Y-RAM; nothing else changes but pc and the cycle counter. -/
def Obligations.NearAbsolute : Prop :=
  ∀ (s : State) (n : Fin 8) (w : Fin 64) (addr : BitVec 17), s.quiet n →
    let x := s.dev.cores[n]
    exec (.nearAbsoluteLoad n 0 w addr) s = .next (s.after n (x.issue 3 (.load (x.phys w) (nearGet x.xram addr.toNat)))) ∧
    exec (.nearAbsoluteLoad n 1 w addr) s = .next (s.after n (x.issue 3 (.load (x.phys w) (nearGet x.yram addr.toNat)))) ∧
    exec (.nearAbsoluteLoad n 2 w addr) s =
      .next (s.after n (x.issue 3 (.load (x.phys w) (x.pData (addr.toNat % 2 ^ 16))))) ∧
    exec (.nearAbsoluteStore n 0 w addr) s = .next (s.after n { x with xram := nearPut x.xram addr.toNat (x.rdW w) }) ∧
    exec (.nearAbsoluteStore n 1 w addr) s = .next (s.after n { x with yram := nearPut x.yram addr.toNat (x.rdW w) })

/-- In a quiet setter, after a near absolute store to X space and a load of the same address, three NOPs later the destination register
holds the stored word, and every other word of X-RAM is as before the store. -/
def Obligations.StoredWordIsLoaded : Prop :=
  ∀ (s : State) (n : Fin 8) (w v : Fin 64) (addr : BitVec 17), s.quiet n →
    let x := s.dev.cores[n]
    ∃ s1 s2 s3 s4 s5, exec (.nearAbsoluteStore n 0 w addr) s = .next s1 ∧ exec (.nearAbsoluteLoad n 0 v addr) s1 = .next s2 ∧
      exec (.nop n) s2 = .next s3 ∧ exec (.nop n) s3 = .next s4 ∧ exec (.nop n) s4 = .next s5 ∧
      (s5.dev.cores[n]).rdW v = x.rdW w ∧
      ∀ a : Nat, a ≠ addr.toNat → nearGet (s5.dev.cores[n]).xram a = nearGet x.xram a

/-- In a quiet setter the immediate instructions write the W, P or M register, an immediate for SR keeps only its defined bits, one for
LR or IMASK its low 16, ADDP, MODP and ADDM write P and M as R304 gives, and CMPP sets the flags from P[D] - P[S]; nothing else changes
but pc and the cycle counter. Also: In a quiet setter an immediate to IPEND clears exactly the bits written as 1 and changes no setter
register but pc and the cycle counter; an immediate to MR that changes REMAP keeps the old fetch map for the two instructions after it.
-/
def Obligations.ImmediatesAndPointers : Prop :=
  (∀ (s : State) (n : Fin 8) (reg : Fin 64) (imm : BitVec 40) (d r : Fin 16) (i : BitVec 32), s.quiet n →
     let x := s.dev.cores[n]
     exec (.immediateW n reg imm) s = .next (s.after n { x with w := x.w.set (x.phys reg) imm }) ∧
     exec (.immediateP n reg imm) s = .next (s.after n { x with p := x.p.set (Fin.ofNat 16 reg.val) imm }) ∧
     exec (.immediateM n reg imm) s = .next (s.after n { x with m := x.m.set (Fin.ofNat 16 reg.val) (imm.setWidth 32) }) ∧
     exec (.immediateControl n 0 imm) s = .next (s.after n { x with sr := srMask (imm.setWidth 32) }) ∧
     exec (.immediateControl n 2 imm) s = .next (s.after n { x with lr := imm.setWidth 16 }) ∧
     exec (.immediateControl n 0x11 imm) s = .next (s.after n { x with imask := imm.setWidth 16 }) ∧
     exec (.addp n d r i) s = .next (s.after n { x with p := x.p.set d (of40 (x.p[r].toNat + i.toInt)) }) ∧
     exec (.modp n d r) s = .next (s.after n { x with p := x.p.set d (of40 (x.p[d].toNat + stepOf x.m[r])) }) ∧
     exec (.addm n d r i) s = .next (s.after n { x with m := x.m.set d (x.m[r] + i) }) ∧
     let v := of40 (x.p[d].toInt - x.p[r].toInt)
     exec (.cmpp n d r) s =
       .next (s.after n { x with sr := setFlags x.sr (v == 0) (v.getLsbD 39) (outside 40 (x.p[d].toInt - x.p[r].toInt)) })) ∧
  (∀ (s : State) (n : Fin 8) (imm : BitVec 40), s.quiet n →
     let x := s.dev.cores[n]
     let c := { s.dev.chip with ipend := s.dev.chip.ipend.set n (s.dev.chip.ipend[n] &&& ~~~ (imm.setWidth 16)) }
     exec (.immediateControl n 0x10 imm) s = .next { s.after n x with dev := { (s.after n x).dev with chip := c } } ∧
     ((bitAt imm.toNat 0 == bitAt x.mr.toNat 0) = false → ∃ s1 s2 s3,
       exec (.immediateControl n 1 imm) s = .next s1 ∧ exec (.nop n) s1 = .next s2 ∧ exec (.nop n) s2 = .next s3 ∧
       (s1.dev.cores[n]).mr = imm.setWidth 32 &&& 1#32 ∧ (s1.dev.cores[n]).mapNow = x.mapNow ∧
       (s2.dev.cores[n]).mapNow = x.mapNow ∧ (s3.dev.cores[n]).mapNow = bitAt imm.toNat 0))

/-- In a quiet setter a register move copies W, P or M to W, P or M, zero-extending a narrower source and keeping the low bits of a
wider one, a move to IMASK and one from SR do the same, and a move from CYC_LO delivers the low half of the cycle counter and latches
the high half; nothing else changes but pc and the cycle counter. -/
def Obligations.RegisterMoves : Prop :=
  ∀ (s : State) (n : Fin 8) (d r : Fin 64), s.quiet n →
    let x := s.dev.cores[n]
    let pr := Fin.ofNat 16 r.val
    let pd := Fin.ofNat 16 d.val
    let toW := fun (y : Setter) (v : W40) => s.after n { y with w := y.w.set (y.phys d) v }
    exec (.registerMove n 0 d 0 r) s = .next (toW x (x.rdW r)) ∧
    exec (.registerMove n 0 d 1 r) s = .next (toW x x.p[pr]) ∧
    exec (.registerMove n 0 d 2 r) s = .next (toW x (x.m[pr].setWidth 40)) ∧
    exec (.registerMove n 1 d 0 r) s = .next (s.after n { x with p := x.p.set pd (x.rdW r) }) ∧
    exec (.registerMove n 1 d 1 r) s = .next (s.after n { x with p := x.p.set pd x.p[pr] }) ∧
    exec (.registerMove n 1 d 2 r) s = .next (s.after n { x with p := x.p.set pd (x.m[pr].setWidth 40) }) ∧
    exec (.registerMove n 2 d 0 r) s = .next (s.after n { x with m := x.m.set pd ((x.rdW r).setWidth 32) }) ∧
    exec (.registerMove n 2 d 1 r) s = .next (s.after n { x with m := x.m.set pd (x.p[pr].setWidth 32) }) ∧
    exec (.registerMove n 2 d 2 r) s = .next (s.after n { x with m := x.m.set pd x.m[pr] }) ∧
    exec (.registerMove n 3 0x11 0 r) s = .next (s.after n { x with imask := (x.rdW r).setWidth 16 }) ∧
    exec (.registerMove n 0 d 3 0x00) s = .next (toW x (BitVec.ofNat 40 x.sr.toNat)) ∧
    exec (.cycLoRead n 0 d) s =
      .next (toW { x with cycHi := BitVec.ofNat 32 (x.cyc.toNat / 2 ^ 32) } (BitVec.ofNat 40 (x.cyc.toNat % 2 ^ 32)))

/-- In a quiet setter a branch, call or return whose condition holds goes to its target after its two delay slots, and a call sets LR to
its own address + 3; one whose condition does not hold goes on; RTI goes to IRET with IE clear in its delay slots. -/
def Obligations.Branches : Prop :=
  ∀ (s : State) (n : Fin 8) (cond pn : Fin 16) (target : BitVec 16), s.quiet n →
    let x := s.dev.cores[n]
    let jump := fun (t : BitVec 16) => s.after n { x with branch := some ⟨t, 2, true, false, true⟩ }
    let link := fun (t : BitVec 16) => s.after n { x with branch := some ⟨t, 2, true, false, false⟩, lr := x.pc + 3 }
    let on := s.after n { x with branch := some ⟨x.pc + 3, 2, false, false, false⟩ }
    (condHolds x.sr cond = some true →
      exec (.br n cond target) s = .next (jump target) ∧ exec (.bri n cond pn) s = .next (jump (x.p[pn].setWidth 16)) ∧
      exec (.call n cond target) s = .next (link target) ∧ exec (.calli n cond pn) s = .next (link (x.p[pn].setWidth 16)) ∧
      exec (.ret n cond) s = .next (jump x.lr)) ∧
    (condHolds x.sr cond = some false →
      exec (.br n cond target) s = .next on ∧ exec (.bri n cond pn) s = .next on ∧ exec (.call n cond target) s = .next on ∧
      exec (.calli n cond pn) s = .next on ∧ exec (.ret n cond) s = .next on) ∧
    exec (.rti n) s = .next (s.after n { x with branch := some ⟨x.iret, 2, true, true, true⟩, sr := clearIe x.sr })

/-- In a quiet setter RPT of a count above 0 loads RPTCNT and a count of 0 skips the next instruction; LOOP of a count above 0 whose end
lies after it activates a loop over its body, which the repeat cache begins to copy where it fits, and a count of 0 goes on after the
end; the count is the immediate or the low half of a W register. Also: When the instruction at LPEND has entered D, LOOP_BACK goes to
LPSTART with LPCNT one less and ROTOFF moved by the rotation step while LPCNT is above 1, and else leaves the innermost loop for the one
that holds it; memories, chip and the other setters do not change. -/
def Obligations.RepeatAndLoop : Prop :=
  (∀ (s : State) (n : Fin 8) (src : Bool) (w : Fin 64) (count e : BitVec 16) (rot : Fin 4), s.quiet n →
     let x := s.dev.cores[n]
     let k := if src then (x.rdW w).setWidth 16 else count
     (k ≠ 0 → exec (.rpt n src w count) s = .next (s.after n { x with rptcnt := k })) ∧
     (k = 0 → ∃ t, exec (.rpt n src w count) s = .next t ∧ (t.dev.cores[n]).pc = x.pc + 2 ∧ (t.dev.cores[n]).rptcnt = 0) ∧
     (x.pc.toNat < e.toNat → k ≠ 0 → exec (.loop n src rot w e count) s =
       .next (s.after n ({ x with looping := true, inner := ⟨x.pc + 1, e, k.setWidth 32, rot⟩ } : Setter).refill)) ∧
     (x.pc.toNat < e.toNat → k = 0 → ∃ t, exec (.loop n src rot w e count) s = .next t ∧
       (t.dev.cores[n]).pc = e + 1 ∧ (t.dev.cores[n]).looping = false)) ∧
  (∀ (s : State) (n : Fin 8), (s.dev.cores[n]).lpHit = true → (s.dev.cores[n]).looping = true →
     Runs (.loopBack n) s fun t =>
       let x := s.dev.cores[n]
       let y := t.dev.cores[n]
       t.dev.chip = s.dev.chip ∧ t.dev.mem = s.dev.mem ∧ (∀ m : Fin 8, m ≠ n → t.dev.cores[m] = s.dev.cores[m]) ∧
       y.w = x.w ∧ y.xram = x.xram ∧ y.yram = x.yram ∧ y.sr = x.sr ∧ y.lpHit = false ∧
       (1 < x.inner.count.toNat → y.pc = x.inner.start ∧ y.inner.count = x.inner.count - 1 ∧ y.looping = true ∧
         y.loopStack = x.loopStack ∧ y.rotoff = x.rotoff + BitVec.ofNat 5 (rotStep x.inner.rot)) ∧
       (x.inner.count.toNat ≤ 1 → y.pc = x.pc ∧ y.rotoff = x.rotoff ∧ y.loopStack = x.loopStack.tail ∧
         (y.looping = true ↔ x.loopStack ≠ []) ∧ (∀ l r, x.loopStack = l :: r → y.inner = l)))

/-- In a quiet setter NOP does nothing; IDLE waits unless interrupts are off and a source is ready; TRAP enters vector 17 with the
address of the next instruction in IRET and its number in ICAUSE; SYNC waits for posted stores; BREAK halts. -/
def Obligations.ControlInstructions : Prop :=
  ∀ (s : State) (n : Fin 8) (k : BitVec 8), s.quiet n →
    let x := s.dev.cores[n]
    exec (.nop n) s = .next (s.after n x) ∧
    exec (.idle n) s = .next (s.after n (if !x.ie && sourceReady s.dev.chip.ipend[n] x.imask then x else { x with mode := .idle })) ∧
    exec (.sync n) s = .next (s.after n { x with syncing := !x.farStores.isEmpty }) ∧
    exec (.brk n) s = .next (s.after n { x with mode := .halted }) ∧
    Runs (.trap n k) s fun t =>
      t.dev.chip = s.dev.chip ∧ t.dev.mem = s.dev.mem ∧ (∀ m : Fin 8, m ≠ n → t.dev.cores[m] = s.dev.cores[m]) ∧
      let v := BitVec.ofNat 16 (x.ivec.toNat / 128 * 128 + 68)
      t.dev.cores[n] =
        { x with iret := x.pc + 1, isr := x.sr, sr := clearIe x.sr, vecTaken := 17, trapNo := k, cyc := x.cyc + 1, pc := v }

/-- In a quiet setter with IE set the winning source is taken: its pending bit is cleared, IRET takes the address of the next
instruction, ISR the SR, IE is cleared, ICAUSE names the vector and pc is IVEC + 4 v. -/
def Obligations.InterruptEntry : Prop :=
  ∀ (s : State) (n : Fin 8) (v : Nat), s.quiet n → (s.dev.cores[n]).ie = true →
    bestSource (s.dev.cores[n]).iprio (s.dev.chip.ipend[n] &&& (s.dev.cores[n]).imask) = some v →
    let x := s.dev.cores[n]
    Runs (.interruptEntry n) s fun t =>
      t.dev.chip = { s.dev.chip with ipend := s.dev.chip.ipend.set n (s.dev.chip.ipend[n] &&& ~~~ (BitVec.ofNat 16 (2 ^ v))) } ∧
      t.dev.mem = s.dev.mem ∧ (∀ m : Fin 8, m ≠ n → t.dev.cores[m] = s.dev.cores[m]) ∧
      let a := BitVec.ofNat 16 (x.ivec.toNat / 128 * 128 + 4 * v)
      t.dev.cores[n] = { x with iret := x.pc, isr := x.sr, sr := clearIe x.sr, vecTaken := BitVec.ofNat 8 v, pc := a }

/-- FAULT_ENTRY of a running quiet setter with FIP clear writes 0 to the registers that a load of the faulting instruction names,
records cause, address and fault address, saves IRET and SR, clears IE and goes to IVEC + 64 with FIP set; TIMER_COMPARE makes source 1
pending at that setter alone, with CYC_LO at TCMP. -/
def Obligations.FaultAndTimer : Prop :=
  ∀ (s : State) (n : Fin 8) (cause : BitVec 8) (faddr : BitVec 40), s.quiet n →
    let x := s.dev.cores[n]
    (x.fip = false → Runs (.faultEntry n cause faddr) s fun t =>
      t.dev.chip = s.dev.chip ∧ t.dev.mem = s.dev.mem ∧ (∀ m : Fin 8, m ≠ n → t.dev.cores[m] = s.dev.cores[m]) ∧
      let lost := match decodeSetter n x.fetched.toNat with
        | some i => faultedLoads cause.toNat i
        | none => []
      t.dev.cores[n] = ({ x with w := lost.foldl (fun (v : Vector W40 64) r => v.set (x.phys r) 0) x.w } : Setter).faultsWith cause faddr) ∧
    Runs (.timerCompare n) s fun t =>
      t.dev.chip.ipend[n] = s.dev.chip.ipend[n] ||| 2#16 ∧ (∀ m : Fin 8, m ≠ n → t.dev.chip.ipend[m] = s.dev.chip.ipend[m]) ∧
      (t.dev.cores[n]).cyc.setWidth 32 = x.tcmp ∧ (t.dev.cores[n]).w = x.w ∧ t.dev.mem = s.dev.mem

/-- In a quiet setter with FIP clear, a reserved move mode, a near absolute access to reserved space 3 or a store to P space, a reserved
control register, a reserved condition and a LOOP whose end lies before its body take the illegal-instruction fault and write nothing
else. -/
def Obligations.IllegalForms : Prop :=
  ∀ (s : State) (n : Fin 8) (o : AluOp) (w : Fin 64) (a : BitVec 17) (imm : BitVec 40) (cond : Fin 16) (t e k : BitVec 16)
    (rot : Fin 4), s.quiet n → (s.dev.cores[n]).fip = false →
    let x := s.dev.cores[n]
    let ill : Host.Outcome State Fault Refusal := .next { s with dev := { s.dev with cores := s.dev.cores.set n (x.faultsWith 1 0) } }
    (moveIllegal o.x = true ∨ moveIllegal o.y = true → exec (.add n o) s = ill ∧ exec (.mov n o) s = ill ∧ exec (.cmp n o) s = ill) ∧
    exec (.nearAbsoluteLoad n 3 w a) s = ill ∧ exec (.nearAbsoluteStore n 2 w a) s = ill ∧
    exec (.nearAbsoluteStore n 3 w a) s = ill ∧
    exec (.immediateControl n 0x0E imm) s = ill ∧ exec (.immediateControl n 9 imm) s = ill ∧
    (condHolds x.sr cond = none → exec (.br n cond t) s = ill ∧ exec (.ret n cond) s = ill) ∧
    (e.toNat < x.pc.toNat + 1 → exec (.loop n false rot w e k) s = ill)

/-- In a quiet setter a far load that passes the checks of R302 and R286 is queued with its destination interlocked and its pointer
moved, and a far store is posted with its bytes; where the target's domain takes accesses, FAR_LOAD_DATA reads the bytes at the load's
address, from main SRAM those it holds, writes the word that they give to the register of the load and releases it; where the domain's
clock stands, the load hangs and nothing changes. -/
def Obligations.FarAccesses : Prop :=
  ∀ (s : State) (n : Fin 8) (o : FarOp) (len : Nat), s.quiet n → farCheck s.dev.chip n (s.dev.cores[n]) o = .ok len →
    let x := s.dev.cores[n]
    let p := x.p.set o.pn (farPointer x o len)
    let a := farMask o.space (farAddr x o)
    let dom := farDomain s.dev.chip o.space a
    let l : FarLoad := ⟨o.space, x.phys o.w, o.size, farAddr x o, x.pc⟩
    let f : FarStore := ⟨o.space, farAddr x o, farData o.size (x.rdW o.w), x.pc⟩
    exec (.farLoad n o) s = .next (s.after n { x with p := p, farLoads := [l] }) ∧
    exec (.farStore n o) s = .next (s.after n { x with p := p, farStores := x.farStores ++ [f] }) ∧
    ∃ t u, exec (.farLoad n o) s = .next t ∧ exec (.farLoadData n (x.phys o.w) .done) t = .next u ∧
      (s.dev.chip.domClock dom = false → u = t) ∧
      (s.dev.chip.domOpen dom = true →
        (∀ b : List Byte, (t.dev.farRead n o.space a len).1 = some b →
          (u.dev.cores[n]).w = x.w.set (x.phys o.w) (farWord o.size b) ∧ (u.dev.cores[n]).farLoads = []) ∧
        (o.space = 0 → (u.dev.cores[n]).w = x.w.set (x.phys o.w) (farWord o.size (s.dev.readSram a len)) ∧
          (u.dev.cores[n]).farLoads = [] ∧ u.dev.mem = s.dev.mem ∧ u.dev.chip = s.dev.chip))

/-- FAR_STORE_COMPLETE, where the target's domain takes accesses, writes the bytes of the oldest posted store to main SRAM at its
address and takes it off the list, leaving every byte outside it, HBM and every register as it was; into a domain whose clock stands it
does not complete; refused, in a quiet setter with FIP clear, it is fault 4 at the store's own address. -/
def Obligations.FarStoreCompletes : Prop :=
  ∀ (s : State) (n : Fin 8) (f : FarStore) (rest : List FarStore), (s.dev.cores[n]).farStores = f :: rest →
    let dom := farDomain s.dev.chip f.space (farMask f.space f.addr)
    (f.space = 0 → s.dev.chip.domOpen dom = true → Runs (.farStoreComplete n .done) s fun t =>
      (t.dev.cores[n]).farStores = rest ∧ t.dev.chip = s.dev.chip ∧ t.dev.mem.hbm = s.dev.mem.hbm ∧
      (t.dev.cores[n]).w = (s.dev.cores[n]).w ∧
      getBytes t.dev.mem.sram (farMask 0 f.addr) f.bytes.length = f.bytes ∧
      ∀ a : Nat, (a < farMask 0 f.addr ∨ farMask 0 f.addr + f.bytes.length ≤ a) →
        byteAt t.dev.mem.sram a = byteAt s.dev.mem.sram a) ∧
    (s.dev.chip.domClock dom = false → Runs (.farStoreComplete n .done) s (·.unchangedFrom s)) ∧
    (s.quiet n → s.dev.chip.domClock dom = true → (s.dev.cores[n]).fip = false → Runs (.farStoreComplete n .error) s fun t =>
      (t.dev.cores[n]).farStores = rest ∧ t.dev.mem = s.dev.mem ∧ (t.dev.cores[n]).fip = true ∧
      (t.dev.cores[n]).faddr = f.addr ∧
      (t.dev.cores[n]).fault = BitVec.ofNat 32 (f.pc.toNat * 2 ^ 16 + 4))

/-- Whatever word a setter runs, from every state: if it answers a next state, the other setters, all memories, the queue, its own
P-RAM, the Local Counter, the streams, the lanes and every DOMAIN object are as they were. -/
def Obligations.SetterFrame : Prop :=
  ∀ (n m : Fin 8) (w : Nat) (i : Instr) (s t : State), decodeSetter n w = some i → exec i s = .next t → m ≠ n →
    t.dev.cores[m] = s.dev.cores[m] ∧ t.dev.mem = s.dev.mem ∧ t.pending = s.pending ∧
    (t.dev.cores[n]).pram = (s.dev.cores[n]).pram ∧ t.dev.chip.lc = s.dev.chip.lc ∧
    t.dev.chip.streams = s.dev.chip.streams ∧ t.dev.chip.lanes = s.dev.chip.lanes ∧ t.dev.chip.dom = s.dev.chip.dom

/-- From every state: when ADD, SUB, AND, ADDA, STC, CMAC or ADDP with its moves disabled answers a next state, X-RAM, Y-RAM, P-RAM, the
pointers, the M registers, LR, IMASK and the posted stores are as they were (CMAC without the P-bus). -/
def Obligations.PlainSetterFrame : Prop :=
  ∀ (n : Fin 8) (a : AluOp) (c : AccOp) (k : MacOp) (s t : State), a.x.en = false → a.y.en = false → c.x.en = false → c.y.en = false →
    k.x.en = false → k.y.en = false → k.pb.en = false →
    (exec (.add n a) s = .next t ∨ exec (.sub n a) s = .next t ∨ exec (.and n a) s = .next t ∨ exec (.adda n c) s = .next t ∨
      exec (.stc n c) s = .next t ∨ exec (.cmac n k) s = .next t) →
    (t.dev.cores[n]).xram = (s.dev.cores[n]).xram ∧ (t.dev.cores[n]).yram = (s.dev.cores[n]).yram ∧
    (t.dev.cores[n]).pram = (s.dev.cores[n]).pram ∧ (t.dev.cores[n]).m = (s.dev.cores[n]).m ∧
    (t.dev.cores[n]).p = (s.dev.cores[n]).p ∧ (t.dev.cores[n]).farStores = (s.dev.cores[n]).farStores ∧
    (t.dev.cores[n]).imask = (s.dev.cores[n]).imask ∧ (t.dev.cores[n]).lr = (s.dev.cores[n]).lr

/-- For every setter instruction, the word that R295 to R305 give it fits 64 bits, and decoding it for the instruction's setter answers
that instruction. -/
def Obligations.DecodeOfEncode : Prop :=
  ∀ (i : Instr) (w : Nat), encodeSetter i = some w → w < 2 ^ 64 ∧ ∃ n : Fin 8, decodeSetter n w = some i

/-- In a quiet setter a MOV with an X move of a mode that is not reserved uses the address of R292 and leaves its pointer as R292 gives;
a store puts the register it names before the instruction into X-RAM, a load sends the word, as its action forms it, towards its
register three instructions ahead; the M registers and Y-RAM do not change. -/
def Obligations.ParallelMoves : Prop :=
  ∀ (s : State) (n : Fin 8) (o : AluOp) (a q : W40), s.quiet n → o.x.en = true → o.y.en = false →
    let x := s.dev.cores[n]
    let pi := Fin.ofNat 16 o.x.pi.val
    nearMode x.p[pi] x.m[Fin.ofNat 16 o.x.mi.val] o.x.mode = some (a, q) → o.x.mode ≠ 7 →
    Runs (.mov n o) s fun t =>
      let y := t.dev.cores[n]
      y.p = x.p.set pi q ∧ y.m = x.m ∧ y.yram = x.yram ∧
      (o.x.act = 1 → y.xram = nearPut x.xram (nearAddr a) (x.rdW o.x.w) ∧ y.flight = []) ∧
      (o.x.act ≠ 1 → y.xram = x.xram ∧
        y.flight = [⟨3, .load (x.phys o.x.w) (loadAct o.x.act (nearGet x.xram (nearAddr a)))⟩])

/-- In a quiet setter with FIP clear, after a branch, call, return or RTI at address i the next two instructions are those at i + 1 and
i + 2, whether the condition holds or not, and the one after them is at the target when it holds and at i + 3 when it does not; a
branch, call, return, RTI, TRAP, LOOP or RPT in a delay slot is ILLEGAL at its own address. (R309) -/
def Obligations.DelaySlots : Prop :=
  ∀ (s : State) (n : Fin 8) (cond pn : Fin 16) (target : BitVec 16) (c : Bool), s.quiet n → (s.dev.cores[n]).fip = false →
    condHolds (s.dev.cores[n]).sr cond = some c →
    let x := s.dev.cores[n]
    let runs := fun (i : Instr) (goal : BitVec 16) => ∃ s1 s2 s3, exec i s = .next s1 ∧ exec (.nop n) s1 = .next s2 ∧
      exec (.nop n) s2 = .next s3 ∧ (s1.dev.cores[n]).pc = x.pc + 1 ∧ (s2.dev.cores[n]).pc = x.pc + 2 ∧ (s3.dev.cores[n]).pc = goal ∧
      (s3.dev.cores[n]).branch = none
    let goes := fun (t : BitVec 16) => if c then t else x.pc + 3
    runs (.br n cond target) (goes target) ∧ runs (.bri n cond pn) (goes (x.p[pn].setWidth 16)) ∧
    runs (.call n cond target) (goes target) ∧ runs (.calli n cond pn) (goes (x.p[pn].setWidth 16)) ∧
    runs (.ret n cond) (goes x.lr) ∧ runs (.rti n) x.iret ∧
    ∀ i : Instr, i ∈ [Instr.br n cond target, .bri n cond pn, .call n cond target, .calli n cond pn, .ret n cond, .rti n] →
      ∀ (s1 : State), exec i s = .next s1 → ∀ (j : Instr) (cond' pn' : Fin 16) (t' e k : BitVec 16) (src : Bool) (w : Fin 64)
        (rot : Fin 4) (no : BitVec 8),
        j ∈ [Instr.br n cond' t', .bri n cond' pn', .call n cond' t', .calli n cond' pn', .ret n cond', .rti n, .trap n no,
          .loop n src rot w e k, .rpt n src w k] →
        ∃ s2, exec j s1 = .next s2 ∧ (s2.dev.cores[n]).fip = true ∧
          (s2.dev.cores[n]).fault = BitVec.ofNat 32 ((x.pc + 1).toNat * 2 ^ 16 + 1)

/-- A power-on reset, PWR_GOOD low or RESET_L low leaves every setter, the memories and every object at its reset value and the source
in OD 5800.02; an accepted command at OD 5800.03 is answered OK and starts nothing yet, and its start leaves the setters and memories at
reset, the cold one every object too (values without a stated default are the model's, log entries 5, 6 and 7). -/
def Obligations.ResetSources : Prop :=
  ∀ (s : State) (sess : Fin 9),
    let cold := fun (cause : Nat) (t : State) => t.dev.cores = Vector.replicate 8 Setter.atReset ∧ t.dev.mem = Mem.atReset ∧
      t.dev.chip.rd (od 0x5800 2) = cause ∧ ∀ k : Nat, k ≠ od 0x5800 2 → t.dev.chip.rd k = objDefault k
    Runs .powerOnReset s (cold 1) ∧ Runs .pwrGoodLow s (cold 2) ∧ Runs .resetLAssert s (cold 3) ∧
    (s.accepts sess (od 0x5800 3) (.num 0xC55C) → Runs (.coldResetCommand sess) s fun t =>
      t.dev.chip.rst.command = some 4 ∧ t.answered sess (od 0x5800 3) .ok ∧ t.coresAndMemoryOf s) ∧
    (s.accepts sess (od 0x5800 3) (.num 0xA55A) → Runs (.warmResetCommand sess) s fun t =>
      t.dev.chip.rst.command = some 5 ∧ t.answered sess (od 0x5800 3) .ok ∧ t.coresAndMemoryOf s) ∧
    (s.dev.chip.rst.command = some 4 → Runs .resetCommandStart s (cold 4)) ∧
    (s.dev.chip.rst.command = some 5 → Runs .resetCommandStart s fun t =>
      t.dev.cores = Vector.replicate 8 Setter.atReset ∧ t.dev.mem = Mem.atReset)

/-- From RESET the release enters SILL, and after a power-on reset takes the straps; the SRAM clear enters CLOCK, or MEMORY at once
where the cleaned clock runs, with main SRAM 0; the APLL lock brings CLOCK to MEMORY; the HBM fill leaves the stacks 0 without a poison
tag; CONFIG without flash ends READY or in CONFIG_FAILED; no XO edge raises a FAIL record. Also: An accepted acknowledgement is answered
OK and leaves active exactly the records whose SEQ comes after the given one, modulo 2^32; a sensor reading is shown in its object; the
MGT link comes up at a rate that OD 1100.01 allows and goes down to 0. Also: In CONFIG, a flash whose header is sound and whose records
are all taken ends READY with boot status 1, and one without records shows its VERSION; a refused record ends in CONFIG_FAILED with
status 5 and its number, and a header that is not sound shows status 3 or 4. Also: In CONFIG, a boot configuration with any flash ends
in READY or CONFIG_FAILED with a boot status from 1 to 5; one whose one record writes OD 1017.00 leaves that object at the record's big-
endian value and ends READY with status 1. -/
def Obligations.BringUp : Prop :=
  (∀ (s : State) (node : Fin 64) (side : Fin 2) (src : Fin 4) (failed : List (Fin 6)),
     let c := s.dev.chip
     (c.bringUp = 0 → c.rd (od 0x5800 2) ≠ 5 → Runs (.resetRelease node side src) s fun t =>
       t.dev.chip.bringUp = 1 ∧ t.dev.chip.rd (od 0x1080 1) = node.val ∧ t.dev.chip.rd (od 0x1080 2) = side.val ∧
       t.dev.chip.rd (od 0x1080 3) = src.val ∧ t.dev.chip.rd (od 0x1100 9) = node.val + 1 + 64 * side.val ∧ t.coresAndMemoryOf s) ∧
     (c.bringUp = 0 → c.rd (od 0x5800 2) = 5 → Runs (.resetRelease node side src) s fun t =>
       t.dev.chip.bringUp = 1 ∧ (∀ k : Nat, k ≠ od 0x5800 1 → t.dev.chip.rd k = c.rd k) ∧ t.coresAndMemoryOf s) ∧
     (c.bringUp = 1 → Runs .sramClearComplete s fun t =>
       t.dev.chip.bringUp = (if c.clockState = 0 then 2 else 3) ∧ t.dev.mem.sram = ByteMem.zero ∧ t.dev.mem.hbm = s.dev.mem.hbm ∧
       t.dev.cores = s.dev.cores) ∧
     (c.bringUp = 3 → Runs (.hbmFillComplete failed) s fun t =>
       t.dev.mem.hbm = ByteMem.zero ∧ t.dev.mem.tag = [] ∧ t.dev.mem.lost = []) ∧
     (c.clockState = 0 → c.bringUp = 2 → c.rst.noXo = false → c.device ≠ 2 → Runs .apllLock s fun t =>
       t.dev.chip.bringUp = 3 ∧ t.dev.chip.rd (od 0x5000 0x15) = 1 ∧ t.coresAndMemoryOf s) ∧
     (c.bringUp = 4 → Runs (.bootConfiguration none) s fun t =>
       t.dev.chip.rd (od 0x5800 4) = 2 ∧ t.dev.chip.bringUp = (if c.rd (od 0x1080 3) = 0 then 6 else 5) ∧ t.coresAndMemoryOf s) ∧
     (c.clockState = 0 → c.bringUp = 1 → c.xo = c.rst.since → Runs .xoEdgeTimeout s fun t =>
       t.dev.chip.rst.noXo = true ∧ t.dev.chip.bringUp = 1 ∧ t.coresAndMemoryOf s)) ∧
  (∀ (s : State) (sess : Fin 9) (seq : BitVec 32) (n : Fin 16) (q : Int),
     let c := s.dev.chip
     (s.accepts sess (od 0x5800 0x13) (.num seq.toNat) → Runs (.faultAcknowledge sess seq) s fun t =>
       t.answered sess (od 0x5800 0x13) .ok ∧ t.coresAndMemoryOf s ∧
       t.dev.chip.faults.active = c.faults.active.filter fun a =>
         let d := (a.seq + 2 ^ 32 - seq.toNat) % 2 ^ 32
         decide (1 ≤ d) && decide (d < 2 ^ 31)) ∧
     (Runs (.sensorReading n q) s fun t =>
       t.dev.chip.rd (od 0x5810 (1 + n.val)) = ofI (max (-32768) (min 32767 q)) 16 ∧ t.coresAndMemoryOf s) ∧
     (1 ≤ c.bringUp → c.rd (od 0x1100 1) ≠ 2 → Runs (.mgtLinkUp true) s fun t => t.dev.chip.rd (od 0x1100 2) = 2 ∧ t.coresAndMemoryOf s) ∧
     (1 ≤ c.bringUp → c.rd (od 0x1100 1) ≠ 1 → Runs (.mgtLinkUp false) s fun t => t.dev.chip.rd (od 0x1100 2) = 1 ∧ t.coresAndMemoryOf s) ∧
     (Runs .mgtLinkDown s fun t => t.dev.chip.rd (od 0x1100 2) = 0 ∧ t.coresAndMemoryOf s)) ∧
  (∀ (s : State) (flash : List Byte) (version : Nat) (records : List Byte),
     let c := s.dev.chip
     let shown : Dev := { s.dev with chip := c.wr (od 0x1080 6) version }
     let walk := shown.bootRecords (records.length + 1) 0 records
     (c.bringUp = 4 → bootHeader (some flash) = (1, version, records) → walk.2 = none →
       Runs (.bootConfiguration (some flash)) s fun t => t.dev.chip.rd (od 0x5800 4) = 1 ∧ t.dev.chip.bringUp = 5) ∧
     (c.bringUp = 4 → bootHeader (some flash) = (1, version, []) → c.dict.txn = none →
       Runs (.bootConfiguration (some flash)) s fun t =>
         t.dev.chip.rd (od 0x5800 4) = 1 ∧ t.dev.chip.bringUp = 5 ∧ t.dev.chip.rd (od 0x1080 6) = version ∧ t.coresAndMemoryOf s) ∧
     (c.bringUp = 4 → bootHeader (some flash) = (1, version, records) → (∃ x, walk.2 = some x) →
       Runs (.bootConfiguration (some flash)) s fun t =>
         t.dev.chip.rd (od 0x5800 4) = 5 ∧ some (t.dev.chip.rd (od 0x5800 5)) = walk.2.map BootFailure.record ∧ t.dev.chip.bringUp = 6) ∧
     (c.bringUp = 4 → (bootHeader (some flash)).1 ≠ 1 → Runs (.bootConfiguration (some flash)) s fun t =>
       t.dev.chip.rd (od 0x5800 4) = (bootHeader (some flash)).1 ∧ t.dev.chip.bringUp = (if c.rd (od 0x1080 3) = 0 then 6 else 5) ∧
       t.coresAndMemoryOf s)) ∧
  (∀ (s : State) (flash : Option (List Byte)) (image : List Byte) (version : Nat) (hi lo : Byte),
     let c := s.dev.chip
     let written := hi.toNat * 256 + lo.toNat
     (c.bringUp = 4 → Runs (.bootConfiguration flash) s fun t =>
       (t.dev.chip.bringUp = 5 ∨ t.dev.chip.bringUp = 6) ∧ 1 ≤ t.dev.chip.rd (od 0x5800 4) ∧ t.dev.chip.rd (od 0x5800 4) ≤ 5) ∧
     (c.bringUp = 4 → c.dict.txn = none → bootHeader (some image) = (1, version, [0x10, 0x17, 0, 0, 0, 0, 0, 2, hi, lo, 0, 0]) →
       (c.wr (od 0x1080 6) version).gate true 0 (od 0x1017 0) (.num written) = .act →
       Runs (.bootConfiguration (some image)) s fun t =>
         t.dev.chip.rd (od 0x1017 0) = written ∧ t.dev.chip.rd (od 0x5800 4) = 1 ∧ t.dev.chip.bringUp = 5 ∧ t.coresAndMemoryOf s))

/-- Each TAP command leaves its code in the instruction register (TAP_RESET and IDCODE select IDCODE, a reserved code acts as BYPASS),
SAMPLE_PRELOAD loads the boundary cells, IDCODE shifts out 0x26400553, and no TAP command changes a setter or a memory. -/
def Obligations.TapInstructions : Prop :=
  ∀ (s : State) (cells : List Bool) (code : BitVec 8),
    let selects := fun (i : Instr) (ir : Nat) => Runs i s fun t => t.dev.chip.pkg.ir = ir ∧ t.coresAndMemoryOf s
    selects .tapReset 2 ∧ selects .extest 0 ∧ selects .clamp 3 ∧ selects .highz 4 ∧ selects .extestPulse 8 ∧ selects .extestTrain 9 ∧
    (Runs (.samplePreload cells) s fun t => t.dev.chip.pkg.ir = 1 ∧ t.dev.chip.pkg.boundary = cells.take 1074 ∧ t.coresAndMemoryOf s) ∧
    (Runs .idcode s fun t => t.dev.chip.pkg.ir = 2 ∧ t.dev.chip.out.head? = some (.tdo 0x26400553 32) ∧ t.coresAndMemoryOf s) ∧
    selects (.bypass code) (if code ∈ [0, 1, 2, 3, 4, 8, 9] then code.toNat else 0xFF) ∧
    selects (.tapTestExit code) (if code ∈ [0, 1, 2, 3, 4, 8, 9] then code.toNat else 0xFF)

/-- With authorization off and the server free: OPEN with a session idle opens one that was free, with the host's nonce; a new request
of an open session is carried out: CLOSE closes it, KEEPALIVE is answered, BEGIN with none open opens a transaction of it, COMMIT of its
transaction begins the validation, ROLLBACK ends its transaction. Also: A request for an address that MGT answers for is answered from
the MAC address of that address to the sender, an echo with its payload, and nothing else changes; for any other address nothing changes
at all. -/
def Obligations.SessionRequests : Prop :=
  (∀ (s : State) (q : Bdp),
     let c := s.dev.chip
     let k := q.session.toNat
     (s.receives q → k = 0 → q.body.length = 8 → (∃ j : Nat, 1 ≤ j ∧ j ≤ 8 ∧ (c.session j).isOpen = false) →
       Runs (.openSession q) s fun t => ∃ j : Nat, 1 ≤ j ∧ j ≤ 8 ∧ (c.session j).isOpen = false ∧ (t.dev.chip.session j).isOpen = true ∧
         (t.dev.chip.session j).nonceH = q.body ∧ (t.dev.chip.session j).heard = c.lc ∧ t.dev.chip.rd (od (0x1220 + j) 1) = 1 ∧
         t.coresAndMemoryOf s) ∧
     (s.receivesNew q → Runs (.closeSession q) s fun t =>
       (t.dev.chip.session k).isOpen = false ∧ bdpResponse q 0x02 k false .ok [] ∈ t.dev.chip.out) ∧
     (s.receivesNew q → Runs (.keepalive q) s fun t =>
       t.lastSent (bdpResponse q 0x03 k false .ok []) ∧ (t.dev.chip.session k).heard = c.lc ∧
       (t.dev.chip.session k).lastId = some q.reqId ∧ t.coresAndMemoryOf s) ∧
     (s.receivesNew q → c.writable = true → c.shadow = false → c.dict.txn = none → Runs (.beginTxn q) s fun t =>
       t.dev.chip.dict.txn = some ⟨k, c.lc, [], []⟩ ∧ t.lastSent (bdpResponse q 0x20 k false .ok []) ∧ t.coresAndMemoryOf s) ∧
     (s.receivesNew q → c.shadow = false → c.owner = some k → q.body.length = 12 → Runs (.commit q) s fun t =>
       t.dev.chip.dict.validating = some ⟨k, if bitAt (beAt q.body 0 1) 0 then some (beAt q.body 4 8) else none, .bdp 0x21 q⟩ ∧
       t.coresAndMemoryOf s) ∧
     (s.receivesNew q → c.shadow = false → c.owner = some k → Runs (.rollback q) s fun t =>
       t.dev.chip.dict.txn = none ∧ t.lastSent (bdpResponse q 0x22 k false .ok []) ∧ t.dev.mem = s.dev.mem)) ∧
  (∀ (s : State) (ip4 snd4 : BitVec 32) (mac : BitVec 48) (ip6 snd6 payload : List Byte) (v6 : Bool) (m : Nat),
     let c := s.dev.chip
     (c.ownMac false (beBytes 4 ip4.toNat) = some m → Runs (.arpRequest ip4 snd4 mac) s fun t =>
       t.dev = { s.dev with chip := c.send (.mgt 1 (beBytes 6 m ++ beBytes 4 ip4.toNat) (beBytes 4 snd4.toNat) mac.toNat []) }) ∧
     (c.ownMac true ip6 = some m → Runs (.neighbourSolicitation ip6 snd6 mac) s fun t =>
       t.dev = { s.dev with chip := c.send (.mgt 2 (beBytes 6 m ++ ip6) snd6 mac.toNat []) }) ∧
     (c.ownMac v6 ip6 = some m → Runs (.echoRequest v6 ip6 snd6 mac payload) s fun t =>
       t.dev = { s.dev with chip := c.send (.mgt (if v6 then 4 else 3) (beBytes 6 m ++ ip6) snd6 mac.toNat payload) }) ∧
     (c.ownMac false (beBytes 4 ip4.toNat) = none → Runs (.arpRequest ip4 snd4 mac) s fun t => t.unchangedFrom s) ∧
     (c.ownMac true ip6 = none → Runs (.neighbourSolicitation ip6 snd6 mac) s fun t => t.unchangedFrom s) ∧
     (c.ownMac v6 ip6 = none → Runs (.echoRequest v6 ip6 snd6 mac payload) s fun t => t.unchangedFrom s))

/-- With authorization off and the server free, a new request of an open session is carried out: READ of the event mask OD 1300.04
answers its 4 bytes, a first WRITE segment of a DOMAIN object with more to come is kept and answered OK, a WRITE segment at any other
offset with no partial write is refused with SEGMENT, and DESCRIBE of an object is answered OK. -/
def Obligations.ObjectRequests : Prop :=
  ∀ (s : State) (q : Bdp) (r : ObjRow),
    let c := s.dev.chip
    let k := q.session.toNat
    let index := beAt q.body 0 2
    let sub := beAt q.body 2 1
    (s.receivesNew q → q.body = [0x13, 0x00, 0x04, 0, 0, 0, 0, 0] → c.readGate (od 0x1300 4) = .ok → Runs (.read q) s fun t =>
      t.lastSent (bdpResponse q 0x10 k false .ok (beBytes 4 4 ++ beBytes 4 (c.rd (od 0x1300 4)))) ∧ t.coresAndMemoryOf s) ∧
    (s.receivesNew q → 8 ≤ q.body.length → objRow (keyIndex (od index sub)) (keySub (od index sub)) = some r → r.ty.size = 0 →
      beAt q.body 4 4 = 0 → q.more = true → Runs (.write q) s fun t =>
      (t.dev.chip.session k).part = some ⟨od index sub, q.body.drop 8, c.lc⟩ ∧ t.lastSent (bdpResponse q 0x11 k false .ok []) ∧
      t.coresAndMemoryOf s) ∧
    (s.receivesNew q → 8 ≤ q.body.length → objRow (keyIndex (od index sub)) (keySub (od index sub)) = some r → r.ty.size = 0 →
      beAt q.body 4 4 ≠ 0 → (c.session k).part = none → Runs (.write q) s fun t =>
      t.lastSent (bdpResponse q 0x11 k false .segment []) ∧ t.coresAndMemoryOf s) ∧
    (s.receivesNew q → q.body.length = 4 → objRow (keyIndex (od index sub)) (keySub (od index sub)) = some r →
      Runs (.describe q) s fun t => (∃ b, t.lastSent (bdpResponse q 0x14 k false .ok b)) ∧ t.coresAndMemoryOf s)

/-- The end of a validation shows its status in OD 1200.06 and closes the transaction when it is OK; the effect of the one pending
transaction, its tick reached, sets the object that it writes and empties the schedule; an expired transaction is rolled back and its
owner marked; a session that times out and a partial write that waits too long are gone. -/
def Obligations.TransactionsEnd : Prop :=
  ∀ (s : State) (x : Validating) (w : Txn) (p : Pending) (k : Fin 9) (part : PartialWrite) (v : Nat),
    let c := s.dev.chip
    let d0 : Dev := { s.dev with chip := { c with dict := { c.dict with validating := none } } }
    let verdict := d0.validate w.staged w.direct x.tick false
    (c.dict.validating = some x → c.dict.txn = some w → c.dict.held = [] → Runs .commitValidated s fun t =>
      t.dev.chip.dict.validating = none ∧ t.dev.chip.rd (od 0x1200 6) = verdict.st.code ∧
      (verdict.st = .ok → t.dev.chip.dict.txn = none) ∧ t.coresAndMemoryOf s) ∧
    (c.dict.schedule = [p] → p.begun = false → p.writes = [(od 0x2C00 2, .num v)] → p.tick ≤ c.reached →
      Runs .transactionEffect s fun t => t.dev.chip.dict.schedule = [] ∧ t.dev.chip.rd (od 0x2C00 2) = v) ∧
    (c.dict.txn = some w → c.dict.validating = none → Runs .transactionExpired s fun t =>
      t.dev.chip.dict.txn = none ∧ (t.dev.chip.session w.owner).expired = true ∧ t.dev.mem = s.dev.mem) ∧
    (k ≠ 0 → (c.session k).isOpen = true → c.dict.validating = none → Runs (.sessionTimeout k) s fun t =>
      (t.dev.chip.session k).isOpen = false ∧ t.dev.chip.rd (od (0x1220 + k.val) 1) = 0 ∧ t.dev.mem = s.dev.mem) ∧
    ((c.session k).part = some part → Runs (.partialWriteTimeout k) s fun t =>
      (t.dev.chip.session k).part = none ∧ t.coresAndMemoryOf s)

/-- With the CAN port on and the server free: an upload of OD 1300.04 is answered expedited, a segmented download of an existing object
opens a transfer, a segment of it with its toggle is kept, a block command is aborted with 0x05040001, a segment timeout ends the
transfer with 0x05040000; bus-off is counted; the heartbeat sends the state; BEGIN, both COMMITs and ROLLBACK of OD 1200 act as session
0. -/
def Obligations.CanRequests : Prop :=
  ∀ (s : State) (f : List Byte) (x : SdoTransfer) (r : ObjRow) (w : Txn) (tick : BitVec 64),
    let c := s.dev.chip
    let cmd := beAt f 0 1
    let key := od (leVal (slice f 1 2)) (beAt f 3 1)
    let reply := fun (t : State) (b : List Byte) => t.lastSent (.can (0x580 + c.rd (od 0x1100 9)) b)
    (s.receivesSdo f → f = [0x40, 0x00, 0x13, 0x04, 0, 0, 0, 0] → c.readGate (od 0x1300 4) = .ok → Runs (.sdoUploadInitiate f) s fun t =>
      reply t ([0x43, 0x00, 0x13, 0x04] ++ leBytes 4 (c.rd (od 0x1300 4))) ∧ t.dev.chip.dict.sdo = none ∧ t.coresAndMemoryOf s) ∧
    (s.receivesSdo f → cmd / 32 = 1 → bitAt cmd 1 = false → objRow (keyIndex key) (keySub key) = some r →
      Runs (.sdoDownloadInitiate f) s fun t =>
      t.dev.chip.dict.sdo = some ⟨false, key, [], if bitAt cmd 0 then some (leVal (slice f 4 4)) else none, 0, false, c.lc⟩ ∧
      reply t (sdoHead 0x60 key ++ List.replicate 4 0) ∧ t.coresAndMemoryOf s) ∧
    (s.receivesSdo f → c.dict.sdo = some x → x.upload = false → cmd / 32 = 0 → bitAt cmd 4 = x.toggle → bitAt cmd 0 = false →
      Runs (.sdoSegment f) s fun t =>
      t.dev.chip.dict.sdo = some { x with bytes := x.bytes ++ slice f 1 (7 - bits cmd 1 3), toggle := !x.toggle, since := c.lc } ∧
      t.coresAndMemoryOf s) ∧
    (s.receivesSdo f → (cmd / 32 = 5 ∨ cmd / 32 = 6) → Runs (.sdoBlockCommand f) s fun t =>
      reply t (sdoHead 0x80 key ++ leBytes 4 0x05040001) ∧ t.coresAndMemoryOf s) ∧
    (c.dict.sdo = some x → Runs .sdoSegmentTimeout s fun t =>
      t.dev.chip.dict.sdo = none ∧ reply t (sdoHead 0x80 x.key ++ leBytes 4 0x05040000) ∧ t.coresAndMemoryOf s) ∧
    (c.canOn = true → Runs .canBusOff s fun t =>
      t.dev.chip.rd (od 0x1100 0x13) = wrapObj (od 0x1100 0x13) (c.rd (od 0x1100 0x13) + 1) ∧ t.coresAndMemoryOf s) ∧
    (c.canOn = true → c.rd (od 0x1017 0) ≠ 0 → Runs .heartbeatProducer s fun t =>
      t.lastSent (.can (0x700 + c.rd (od 0x1100 9)) (beBytes 1 c.beatCode)) ∧ t.coresAndMemoryOf s) ∧
    (s.accepts 0 (od 0x1200 0x10) (.num 1) → c.dict.txn = none → Runs .canBegin s fun t =>
      t.dev.chip.dict.txn = some ⟨0, c.lc, [], []⟩ ∧ t.answered 0 (od 0x1200 0x10) .ok ∧ t.coresAndMemoryOf s) ∧
    (s.accepts 0 (od 0x1200 0x11) (.num tick.toNat) → c.owner = some 0 → Runs (.canCommitAtTick tick) s fun t =>
      t.dev.chip.dict.validating = some ⟨0, some tick.toNat, .plain 0 (od 0x1200 0x11)⟩ ∧ t.coresAndMemoryOf s) ∧
    (s.accepts 0 (od 0x1200 0x12) (.num 1) → c.owner = some 0 → Runs .canCommitNow s fun t =>
      t.dev.chip.dict.validating = some ⟨0, none, .plain 0 (od 0x1200 0x12)⟩ ∧ t.coresAndMemoryOf s) ∧
    (s.accepts 0 (od 0x1200 0x13) (.num 1) → c.dict.txn = some w → w.owner = 0 → Runs .canRollback s fun t =>
      t.dev.chip.dict.txn = none ∧ t.answered 0 (od 0x1200 0x13) .ok ∧ t.dev.mem = s.dev.mem)

/-- A write that the server's checks refuse is answered with that status and changes neither setters nor memories; one that stages is
kept in the open transaction and answered OK; one of the event mask takes its value; a clear command returns every counter that its
index lists to 0; the authorization key is taken and answered. -/
def Obligations.RegisterWrites : Prop :=
  ∀ (s : State) (sess : Fin 9) (index : BitVec 16) (sub : BitVec 8) (data : List Byte) (v : Val) (st : Status) (w : Txn) (r : ObjRow),
    let c := s.dev.chip
    let key := od index.toNat sub.toNat
    (c.power.rate = none → valOf key data = some v → c.gate false sess key v = .refuse st →
      Runs (.registerWrite sess index sub data) s fun t => t.answered sess key st ∧ t.coresAndMemoryOf s) ∧
    (c.power.rate = none → valOf key data = some v → c.gate false sess key v = .stage → c.dict.txn = some w →
      Runs (.registerWrite sess index sub data) s fun t =>
      t.dev.chip.dict.txn = some { w with staged := stageInsert key v w.staged } ∧ t.answered sess key .ok ∧ t.coresAndMemoryOf s) ∧
    (data.length = 4 → s.accepts sess (od 0x1300 4) (.num (beVal data)) → Runs (.registerWrite sess 0x1300 4 data) s fun t =>
      t.dev.chip.rd (od 0x1300 4) = beVal data ∧ t.answered sess (od 0x1300 4) .ok ∧ t.coresAndMemoryOf s) ∧
    (c.power.rate = none → c.role ≠ 2 → valOf key data = some (.num 1) → s.accepts sess key (.num 1) →
      objRow index.toNat sub.toNat = some r → r.clears ≠ [] → Runs (.clearCounters sess index sub data) s fun t =>
      (∀ e ∈ r.clears, ∀ m : Nat, e.1 ≤ m → m ≤ e.2 → t.dev.chip.rd (od index.toNat m) = 0) ∧ t.answered sess key .ok ∧
      t.dev.mem = s.dev.mem) ∧
    (s.accepts sess (od 0x1400 2) (.bytes data) → Runs (.keyWrite sess data) s fun t =>
      t.dev.chip.dict.key = data ∧ t.dev.chip.rd (od 0x1400 3) = 1 ∧ t.coresAndMemoryOf s)

/-- An accepted request for IDLE, NAP or OFF of a running domain whose users are stopped starts its drain; one for RUN of a stopped
domain is answered OK; a completed drain shows the state asked for and is done; a drain that times out, once the drain limit has passed
since it began, leaves the domain in RUN and counts; a domain that returns is in RUN. -/
def Obligations.PowerDomains : Prop :=
  ∀ (s : State) (sess : Fin 9) (d : Fin 96) (v : BitVec 8) (x : Drain),
    let c := s.dev.chip
    let state := fun (t : State) => t.dev.chip.rd (od (0x5100 + d.val) 3)
    (s.accepts sess (od (0x5100 + d.val) 2) (.num v.toNat) → v ≠ 1 → c.domState d = 1 → domAllows d v.toNat = true →
      s.dev.usersStopped d = true → Runs (.domainStateRequest sess d v) s fun t =>
      state t = 5 ∧ t.dev.chip.power.drains = c.power.drains ++ [⟨d, v.toNat, .plain sess (od (0x5100 + d.val) 2), c.lc⟩] ∧
      t.coresAndMemoryOf s) ∧
    (s.accepts sess (od (0x5100 + d.val) 2) (.num 1) → (c.domState d = 2 ∨ c.domState d = 3) →
      Runs (.domainStateRequest sess d 1) s fun t =>
      t.dev.chip.rd (od (0x5100 + d.val) 2) = 1 ∧ t.answered sess (od (0x5100 + d.val) 2) .ok ∧ t.coresAndMemoryOf s) ∧
    ((c.power.drains.find? fun y => y.dom == d.val) = some x → Runs (.domainDrainComplete d) s fun t =>
      state t = x.target ∧ t.dev.chip.power.drains = c.power.drains.filter (fun y => y.dom != d.val) ∧ t.dev.mem = s.dev.mem) ∧
    (c.domState d = 5 → (c.power.drains.find? fun y => y.dom == d.val) = some x → Runs (.drainTimeout d) s fun t =>
      let c1 := c.untilLc (c.drainLimit x.since)
      state t = 1 ∧ t.dev.chip.rd (od 0x5000 0x1B) = wrapObj (od 0x5000 0x1B) (c1.rd (od 0x5000 0x1B) + 1) ∧ t.dev.chip.lc = c1.lc ∧
      t.coresAndMemoryOf s) ∧
    ((c.domState d = 2 ∨ c.domState d = 3) → c.rd (od (0x5100 + d.val) 2) = 1 → Runs (.domainReturnComplete d) s fun t =>
      state t = 1 ∧ t.coresAndMemoryOf s)

/-- An accepted SLEEP request with everything stopped enters ENTERING; the entry with no source latched enters SLEEP, or waits while a
stack is in a training step, and with one it returns to RUN; each wake source that OD 5000.06 enables is latched; a wake shows WAKING
and the sources; RESUME with the clock running returns to RUN. -/
def Obligations.SleepAndWake : Prop :=
  ∀ (s : State) (sess : Fin 9) (kind : BitVec 8) (x : SleepCtl) (ns khz : Nat),
    let c := s.dev.chip
    let latches := fun (i : Instr) (bit : Nat) => c.power.sleep = some x → (c.device = 1 ∨ c.device = 2) →
      bitAt (c.rd (od 0x5000 6)) bit = true → Runs i s fun t =>
      t.dev.chip.power.sleep = some { x with latched := x.latched ||| 2 ^ bit } ∧ t.coresAndMemoryOf s
    (s.accepts sess (od 0x5000 2) (.num kind.toNat) → c.power.rate = none → s.dev.sleepFree = true → Runs (.sleepRequest sess kind) s fun t =>
      t.dev.chip.device = 1 ∧ t.dev.chip.power.sleep = some ⟨kind.toNat == 2, .plain sess (od 0x5000 2),
        (List.range 96).map (fun i => c.domState i), 0, none, c.lc, 0⟩ ∧ t.coresAndMemoryOf s) ∧
    (c.power.sleep = some x → c.device = 1 → x.latched = 0 → (c.hbm.training.any fun y => y.pass.isSome) = false →
      Runs .sleepEntry s fun t => t.dev.chip.device = 2 ∧ t.coresAndMemoryOf s) ∧
    (c.power.sleep = some x → c.device = 1 → x.latched = 0 → (c.hbm.training.any fun y => y.pass.isSome) = true →
      Runs .sleepEntry s fun t => t.dev.chip.device = 1 ∧ t.dev.chip.power.sleep = some x ∧ t.coresAndMemoryOf s) ∧
    (c.power.sleep = some x → c.device = 1 → x.latched ≠ 0 → Runs .sleepEntry s fun t =>
      t.dev.chip.device = 0 ∧ t.dev.chip.power.sleep = none ∧ t.coresAndMemoryOf s) ∧
    (1000 ≤ ns → latches (.wakeLAssert ns) 0) ∧ latches .canWakeFrame 1 ∧ latches .mgtWakeDatagram 2 ∧
    (c.device = 2 → c.rd (od 0x5000 8) ≠ 0 → latches .sillWakeTimer 3) ∧ latches (.pmbAlert []) 4 ∧
    (c.power.sleep = some x → c.device = 2 → x.latched ≠ 0 → Runs (.wake khz) s fun t =>
      t.dev.chip.device = 3 ∧ t.dev.chip.rd (od 0x5000 7) = x.latched ∧ t.dev.chip.rd (od 0x5000 0x15) = 0 ∧ t.coresAndMemoryOf s) ∧
    (s.accepts sess (od 0x5000 3) (.num 1) → c.power.sleep = some x → c.device = 3 → c.clockState ≠ 0 → Runs (.resume sess) s fun t =>
      t.dev.chip.device = 0 ∧ t.dev.chip.power.sleep = none ∧ t.answered sess (od 0x5000 3) .ok ∧ t.coresAndMemoryOf s)

/-- An accepted operating point other than the present one, with room for the load, is asked of the regulators and awaited; VDD_CORE
within 10 mV of it completes the change; the timeout abandons it; an accepted new HBM rate with the partitions free is answered OK; a
poll shows what a regulator reads; CLEAR_FAULTS is sent to it. -/
def Obligations.PointsAndRegulators : Prop :=
  ∀ (s : State) (sess : Fin 9) (v : BitVec 8) (x : OpChange) (mv : Nat) (r : RegReading) (i : Fin 16),
    let c := s.dev.chip
    let now := c.rd (od 0x5000 0x11)
    (s.accepts sess (od 0x5000 0x10) (.num v.toNat) → c.power.badMode = false → v.toNat ≠ now →
      (v.toNat < now → c.overloaded (400 * (1 + v.toNat)) = false) → Runs (.operatingPointRequest sess v) s fun t =>
      t.dev.chip.power.op = some ⟨v.toNat, now, c.lc, .plain sess (od 0x5000 0x10)⟩ ∧ t.dev.chip.rd (od 0x5000 0x10) = v.toNat ∧
      t.coresAndMemoryOf s) ∧
    (c.power.op = some x → pointMv x.target ≤ mv + 10 → mv ≤ pointMv x.target + 10 → c.dict.held = [] → Runs (.voutPoll mv) s fun t =>
      t.dev.chip.power.op = none ∧ t.dev.chip.rd (od 0x5000 0x11) = x.target ∧ t.coresAndMemoryOf s) ∧
    (c.power.op = some x → c.dict.held = [] → Runs .operatingPointTimeout s fun t =>
      t.dev.chip.power.op = none ∧ t.dev.chip.rd (od 0x5000 0x11) = now ∧ t.coresAndMemoryOf s) ∧
    (s.accepts sess (od 0x5000 0x12) (.num v.toNat) → c.partitionFree [] = true → c.power.rate = none → Runs (.hbmRateChange sess v) s fun t =>
      t.dev.chip.rd (od 0x5000 0x12) = v.toNat ∧ t.answered sess (od 0x5000 0x12) .ok ∧ t.coresAndMemoryOf s) ∧
    (c.regOn r.reg = true → Runs (.pmbusPoll [r]) s fun t =>
      t.dev.chip.rd (od (0x5020 + r.reg.val) 3) = ofLinear r.voutMode.toNat r.vout.toNat % 65536 ∧
      t.dev.chip.rd (od (0x5020 + r.reg.val) 4) = r.iout.toNat ∧ t.dev.chip.rd (od (0x5020 + r.reg.val) 5) = r.statusWord.toNat ∧
      t.dev.chip.rd (od (0x5020 + r.reg.val) 6) = r.temperature.toNat ∧ t.coresAndMemoryOf s) ∧
    (s.accepts sess (od (0x5020 + i.val) 8) (.num 1) → c.rd (od (0x5020 + i.val) 2) ≠ 0xFF → Runs (.clearFaults sess i) s fun t =>
      .pmbus (c.rd (od (0x5020 + i.val) 2)) 0x03 0 ∈ t.dev.chip.out ∧ t.answered sess (od (0x5020 + i.val) 8) .ok ∧ t.coresAndMemoryOf s)

/-- Each of these commands first lets the time clock run on to the end of its gate, dwell, timer or second. A gate of an active
candidate shows its offset; a dwell that expires disqualifies it; a REF pin's edges stop and return; a qualified WAITING candidate
becomes ELIGIBLE; phase and frequency within 20 ns and 0.1 ppm lock the selected best candidate; the holdover limit ends HOLDOVER; each
recomputation counts a second and sets the output offset; a full window makes the history valid. -/
def Obligations.ReferenceSelection : Prop :=
  ∀ (s : State) (k : Fin 7) (raw phase freq : Int),
    let c := s.dev.chip
    let cand := fun (sub : Nat) => od (0x4810 + k.val) sub
    let gated := c.untilLc ((c.cand k).gateAt + c.rd (od 0x4800 0x12) * 1000000)
    let y := if k = 6 then gated.ptpOffset else raw + gated.xoError
    let restored := c.untilLc (c.cand k).restore
    let held := c.untilLc (c.clock.since + second)
    let next := c.untilLc (c.clock.computed + second)
    (c.on (cand 1) = true → c.candActive k = true → 2 ≤ c.candState k → Runs (.frequencyGateEnd k raw) s fun t =>
      t.dev.chip.rd (cand 0x11) = ofI (sat 32 y) 32 ∧ t.coresAndMemoryOf s) ∧
    ((c.cand k).dwell.isSome = true → 2 ≤ c.candState k → c.on (cand 1) = true → Runs (.dwellExpiry k) s fun t =>
      (t.dev.chip.cand k).disq = true ∧ (t.dev.chip.cand k).dwell = none ∧ t.coresAndMemoryOf s) ∧
    (k.val < 2 → Runs (.refEdgeTimeout k) s fun t => (t.dev.chip.cand k).edges = false ∧ t.coresAndMemoryOf s) ∧
    (k.val < 2 → Runs (.refEdgeReturn k) s fun t => (t.dev.chip.cand k).edges = true ∧ t.coresAndMemoryOf s) ∧
    (c.candState k = 3 → restored.candQualified k = true → Runs (.waitToRestoreExpiry k) s fun t =>
      t.dev.chip.candState k = 4 ∧ t.coresAndMemoryOf s) ∧
    (c.clockState = 2 → phase.natAbs ≤ 20000 → freq.natAbs ≤ 100000 → held.selected = some k → held.candState k = 4 →
      held.bestCand = some k →
      Runs (.acquireLock phase freq) s fun t =>
      t.dev.chip.clockState = 3 ∧ t.dev.chip.rd (od 0x4800 0x10) = ofI (sat 32 phase) 32 ∧ t.coresAndMemoryOf s) ∧
    (c.clockState = 4 → Runs .holdoverLimitExpiry s fun t => t.dev.chip.clockState = 5 ∧ t.coresAndMemoryOf s) ∧
    ((c.clockState = 4 ∨ c.clockState = 5) → Runs .holdoverRecompute s fun t =>
      t.dev.chip.rd (od 0x4800 0x14) = wrapObj (od 0x4800 0x14) (next.rd (od 0x4800 0x14) + 1) ∧
      t.dev.chip.rd (od 0x4800 0x0F) = ofI (sat 32 (withinPpm next.holdoverOffset)) 32 ∧ t.coresAndMemoryOf s) ∧
    (c.clockState = 3 → Runs .historyWindowFilled s fun t =>
      t.dev.chip.rd (od 0x4800 0x13) = 1 ∧ t.dev.chip.clock.history.isSome = true ∧ t.coresAndMemoryOf s)

/-- With no command waiting and the clocks running a step is one cycle of the time clock; an accepted rate write changes RATE and leaves
the view's value at this instant, a step moves OFFSET by the step, a set takes both, an uncertainty write takes the value; each is
answered OK and makes the view written now; the servo timeout marks a view that was kept; a time read answers the view's integer
nanoseconds. -/
def Obligations.TimeViews : Prop :=
  ∀ (s : State) (sess : Fin 9) (v : Fin 4) (rate : BitVec 64) (step : Int) (data : List Byte) (ns : BitVec 32),
    let c := s.dev.chip
    let w := c.time.views[v]
    let key := fun (sub : Nat) => od (0x4C10 + v.val) sub
    let written := fun (t : State) (sub : Nat) (offset : Int) (r : BitVec 64) =>
      (t.dev.chip.time.views[v]).offset = offset ∧ (t.dev.chip.time.views[v]).rate = r ∧
      (t.dev.chip.time.views[v]).written = some c.lc ∧ t.answered sess (key sub) .ok ∧ t.coresAndMemoryOf s
    let set := BitVec.ofNat 64 (beAt data 12 8)
    let offset := toI (beAt data 0 8) 64 * 2 ^ 48 + (beAt data 8 4 : Nat) * 2 ^ 16
    (s.pending = [] → c.timeRuns = true → c.xoStands = false → ∃ t, Machine.step s = Host.Outcome.next t ∧ t.pending = [] ∧ t.dev.chip.lc = c.lc + 1 ∧
      t.coresAndMemoryOf s) ∧
    (s.accepts sess (key 3) (.num rate.toNat) → rateOk rate = true → (v ≠ 1 ∨ c.selected ≠ some 6) → Runs (.viewRateWrite sess v rate) s fun t =>
      written t 3 (w.offset + ((w.rate.toNat : Int) - rate.toNat) * c.lc) rate ∧ (t.dev.chip.time.views[v]).exact c.lc = w.exact c.lc) ∧
    (-(2 ^ 63) ≤ step → step < 2 ^ 63 → s.accepts sess (key 4) (.num (ofI step 64)) → c.stepBarred v (step * 2 ^ 32) = false →
      Runs (.viewStep sess v step) s fun t => written t 4 (w.offset + step * 2 ^ 32) w.rate) ∧
    (s.accepts sess (key 5) (.bytes data) → data.length = 20 → rateOk set = true →
      c.stepBarred v (offset + set.toNat * c.lc - w.exact c.lc) = false → Runs (.viewSet sess v data) s fun t => written t 5 offset set) ∧
    (s.accepts sess (key 7) (.num ns.toNat) → Runs (.viewUncertaintyWrite sess v ns) s fun t =>
      written t 7 w.offset w.rate ∧ t.dev.chip.rd (key 7) = ns.toNat) ∧
    (c.viewStatus v = 1 → Runs (.servoTimeout v) s fun t => (t.dev.chip.time.views[v]).expired = true ∧ t.coresAndMemoryOf s) ∧
    (c.serves = true → c.domOpen 1 = true → Runs (.timeReadLatch sess v) s fun t =>
      t.lastSent (.value sess (key 1) (beBytes 8 (ofI (w.at c.lc / 2 ^ 32) 64))) ∧
      (t.dev.chip.time.views[v]).latch = BitVec.ofNat 32 (w.at c.lc % 2 ^ 32).toNat ∧ t.coresAndMemoryOf s)

/-- An accepted arming for a tick still to come arms it and is answered OK, one for a passed tick is refused with LATE; a reached armed
tick and a PPS input edge each write their entry and count it; PPS_OUT rises at a second of its view and falls when the width has
passed; a PTP frame goes to the next ring entry that is not OWN, and a prepared one for the port is taken. -/
def Obligations.PairsPpsAndPtp : Prop :=
  ∀ (s : State) (sess : Fin 9) (tick : BitVec 64) (frac u : Nat) (port : Fin 9) (frame m : List Byte) (lc f : Nat),
    let c := s.dev.chip
    let n := c.rd (od 0x4C00 0x10)
    let entry := fun (t : State) (at_ fr kind : Nat) =>
      t.dev.chip.rdDom (od 0x4C40 (n % 64 + 1)) = beBytes 8 at_ ++ (beBytes 8 c.lc ++ (beBytes 2 fr ++ (beBytes 1 kind ++ (beBytes 1 0 ++ beBytes 4 n)))) ∧
      t.dev.chip.rd (od 0x4C00 0x10) = wrapObj (od 0x4C00 0x10) (n + 1) ∧ t.coresAndMemoryOf s
    let tx := s.dev.readSram (c.rd (od 0x4C30 2) + c.time.ptpTx % 64 * 512) 32
    (s.accepts sess (od 0x4C00 0x11) (.num tick.toNat) → c.frontPassed tick.toNat = false → c.reached < tick.toNat →
      Runs (.pairArm sess tick) s fun t =>
      t.dev.chip.time.armed = some tick.toNat ∧ t.answered sess (od 0x4C00 0x11) .ok ∧ t.coresAndMemoryOf s) ∧
    (s.accepts sess (od 0x4C00 0x11) (.num tick.toNat) → c.frontPassed tick.toNat = true → Runs (.pairArm sess tick) s fun t =>
      t.dev.chip.time.armed = c.time.armed ∧ t.answered sess (od 0x4C00 0x11) .late ∧ t.coresAndMemoryOf s) ∧
    (c.time.armed = some u → u ≤ c.reached → Runs .pairEntry s fun t => t.dev.chip.time.armed = none ∧ entry t u 0 2) ∧
    (Runs (.ppsInEdge frac) s fun t => entry t c.tick (frac % 65536) 3) ∧
    (c.viewStatus c.ppsView ≠ 0 → Runs .ppsOutEdge s fun t =>
      t.dev.chip.time.ppsOut = true ∧ t.dev.chip.time.ppsFall = t.dev.chip.lc + c.rd (od 0x4C00 8) ∧ t.coresAndMemoryOf s) ∧
    (c.time.ppsOut = true → c.viewStatus c.ppsView ≠ 0 → Runs .ppsOutWidthEnd s fun t =>
      let c1 := c.untilLc c.time.ppsFall
      t.dev = { s.dev with chip := { c1 with time := { c1.time with ppsOut := false } } }) ∧
    (c.time.ppsOut = false ∨ c.viewStatus c.ppsView = 0 → Runs .ppsOutWidthEnd s (·.unchangedFrom s)) ∧
    (c.awake = true → ptpMessage frame = some m →
      bitAt (byteAt s.dev.mem.sram (c.rd (od 0x4C30 1) + c.time.ptpRx % 256 * 512 + 1)).toNat 7 = false →
      Runs (.ptpReceive port frame lc f) s fun t =>
      t.dev.chip.time.ptpRx = (c.time.ptpRx + 1) % 2 ^ 32 ∧ t.dev.cores = s.dev.cores ∧ t.dev.mem.hbm = s.dev.mem.hbm) ∧
    (c.awake = true → bitAt (beAt tx 1 1) 7 = true → beAt tx 0 1 / 16 = port.val → Runs (.ptpTransmit port lc f) s fun t =>
      t.dev.chip.time.ptpTx = (c.time.ptpTx + 1) % 2 ^ 32 ∧ t.dev.cores = s.dev.cores ∧ t.dev.mem.hbm = s.dev.mem.hbm)

/-- Each event of R72 to R77 takes the lane from the state it stands in to the next one: comma alignment to CAP, a valid CAP is kept,
the exchange's end to SWITCH or LANE_UP, quiet's end to LOCK at the next rate, CDR lock to TRAIN, receiver ready to CONFIRM, a passed
check to STEP_WAIT or LANE_UP, a step to SWITCH; the timeouts return to LISTEN, from where a lane with a locked signal goes on to ALIGN,
or fall back with a count; a training request moves the taps. -/
def Obligations.LaneBringUp : Prop :=
  ∀ (s : State) (l : Fin 512) (inv : Bool) (msg : List Byte) (ctl ctlBar sta staBar : BitVec 16) (r : Nat) (q : Fin 16),
    let c := s.dev.chip
    let st := c.laneState l
    let x := c.lane l
    let key := fun (sub : Nat) => od (0x2100 + l.val) sub
    let goes := fun (i : Instr) (b : Nat) => Runs i s fun t => t.dev.chip.laneState l = b ∧ t.coresAndMemoryOf s
    let listens := fun (i : Instr) => Runs i s fun t => (t.dev.chip.laneState l = 1 ∨ t.dev.chip.laneState l = 2) ∧
      ((t.dev.chip.lane l).hold = false → t.dev.chip.rd (key 0x1C) = wrapObj (key 0x1C) (c.rd (key 0x1C) + 1)) ∧ t.coresAndMemoryOf s
    let falls := fun (i : Instr) => Runs i s fun t => (t.dev.chip.laneState l = 1 ∨ t.dev.chip.laneState l = 2 ∨ t.dev.chip.laneState l = 0x0C) ∧
      t.dev.chip.rd (key 0x1D) = wrapObj (key 0x1D) (c.rd (key 0x1D) + 1) ∧ t.coresAndMemoryOf s
    (st = 2 → Runs (.commaAlignment l inv) s fun t =>
      t.dev.chip.laneState l = 3 ∧ t.dev.chip.rd (key 0x13) = b2n inv ∧ t.coresAndMemoryOf s) ∧
    (st = 2 → listens (.tAlignExpiry l)) ∧
    (st = 3 → msg.length = 20 → beAt msg 16 4 = crc32 (msg.take 16) → Runs (.capMessage l msg) s fun t =>
      t.dev.chip.rdDom (key 0x12) = msg.take 16 ∧ t.coresAndMemoryOf s) ∧
    (st = 3 → x.gotCap = true → x.gotAck = true → c.nextRate l = some r → goes (.capExchangeDone l) 5) ∧
    (st = 3 → x.gotCap = true → x.gotAck = true → c.nextRate l = none → goes (.capExchangeDone l) 0x0A) ∧
    (st = 3 → listens (.tCapExpiry l)) ∧
    (st = 5 → Runs (.tQuietExpiry l) s fun t =>
      t.dev.chip.laneState l = 6 ∧ t.dev.chip.rd (key 0x11) = x.next ∧ t.coresAndMemoryOf s) ∧
    (st = 6 → 4 ≤ c.laneRate l → goes (.cdrLock l) 7) ∧
    (st = 6 → falls (.tLockExpiry l)) ∧
    (st = 7 → ctl = ~~~ctlBar → sta ≠ ~~~staBar → Runs (.trainingFrame l ctl ctlBar sta staBar) s fun t =>
      t.dev.chip.lane l = x.train (c.laneRate l == 6) ctl.toNat ∧ t.dev.chip.laneState l = 7 ∧ t.coresAndMemoryOf s) ∧
    (st = 7 → goes (.rxReadyExchange l) 8) ∧
    (st = 7 → falls (.tTrainExpiry l)) ∧
    (st = 8 → Runs (.blockLock l) s fun t =>
      t.dev.chip.lane l = { x with locked := true, errors := 0, uncorr := 0, since := c.lc } ∧ t.dev.chip.laneState l = 8 ∧ t.coresAndMemoryOf s) ∧
    (st = 8 → (4 ≤ c.laneRate l → x.locked = true) → x.errors = 0 → x.uncorr = 0 → c.nextRate l = some r →
      goes (.tConfirmExpiry l false) 9) ∧
    (st = 8 → (4 ≤ c.laneRate l → x.locked = true) → x.errors = 0 → x.uncorr = 0 → c.nextRate l = none →
      goes (.tConfirmExpiry l false) 0x0A) ∧
    (st = 9 → goes (.stepReady l q) 5)

/-- A lane that is up goes to LISTEN at a loss of signal and to RELOCK at a loss of lock, from where its timeout goes to LISTEN, and
from there to ALIGN where its receiver has a locked signal at 1.25 Gb/s; a cleared LOS is seen; a hold-off ends; uncorrectable codewords
and code violations are counted; a restart takes up the lane's own rates, a test mode enters TEST, an injected error flips one bit, each
answered OK; the PRBS checker's lock and its loss are shown and counted. -/
def Obligations.LaneInOperation : Prop :=
  ∀ (s : State) (sess : Fin 9) (l : Fin 512) (v : BitVec 8),
    let c := s.dev.chip
    let st := c.laneState l
    let key := fun (sub : Nat) => od (0x2100 + l.val) sub
    let goes := fun (i : Instr) (b : Nat) => Runs i s fun t => t.dev.chip.laneState l = b ∧ t.coresAndMemoryOf s
    (st = 0x0A → Runs (.losAssert l) s fun t =>
      t.dev.chip.laneState l = 1 ∧ (t.dev.chip.lane l).los = true ∧ t.coresAndMemoryOf s) ∧
    (Runs (.losClear l) s fun t => (t.dev.chip.lane l).los = false ∧ t.coresAndMemoryOf s) ∧
    (st = 0x0A → goes (.lolAssert l) 0x0B) ∧ (st = 0x0B → Runs (.tRelockExpiry l) s fun t =>
      (t.dev.chip.laneState l = 1 ∨ t.dev.chip.laneState l = 2) ∧ t.coresAndMemoryOf s) ∧
    ((c.lane l).hold = true → Runs (.retryHoldoffExpiry l) s fun t => (t.dev.chip.lane l).hold = false ∧ t.coresAndMemoryOf s) ∧
    (Runs (.uncorrectableCodeword l) s fun t =>
      t.dev.chip.rd (key 0x16) = wrapObj (key 0x16) (c.rd (key 0x16) + 1) ∧ (t.dev.chip.lane l).uncorrSince = true ∧ t.coresAndMemoryOf s) ∧
    (Runs (.codeViolation l) s fun t => t.dev.chip.rd (key 0x18) = wrapObj (key 0x18) (c.rd (key 0x18) + 1) ∧ t.coresAndMemoryOf s) ∧
    (s.accepts sess (key 0x31) (.num 1) → Runs (.laneRestart sess l) s fun t =>
      t.dev.chip.rd (key 0x25) = c.rd (key 3) ∧ t.answered sess (key 0x31) .ok ∧ t.coresAndMemoryOf s) ∧
    (s.accepts sess (key 5) (.num v.toNat) → v ≠ 0 → c.bundleOn (c.laneBundle l) = false → Runs (.testModeWrite sess l v) s fun t =>
      t.dev.chip.laneState l = 0x0D ∧ t.dev.chip.rd (key 5) = v.toNat ∧ t.answered sess (key 5) .ok ∧ t.coresAndMemoryOf s) ∧
    (s.accepts sess (key 9) (.num 1) → Runs (.injectError sess l) s fun t =>
      (t.dev.chip.lane l).flips = (c.lane l).flips + 1 ∧ t.answered sess (key 9) .ok ∧ t.coresAndMemoryOf s) ∧
    (c.rd (key 8) ≠ 0 → st = 0x0D → c.on (key 0x22) = false → Runs (.prbsCheckerLock l) s fun t =>
      t.dev.chip.rd (key 0x22) = 1 ∧ (t.dev.chip.lane l).prbsLocked = true ∧ t.coresAndMemoryOf s) ∧
    (c.on (key 0x22) = true → Runs (.prbsCheckerLockLoss l) s fun t =>
      t.dev.chip.rd (key 0x22) = 0 ∧ t.dev.chip.rd (key 0x20) = wrapObj (key 0x20) (c.rd (key 0x20) + max 1024 (c.prbsChecked l)) ∧
      t.dev.chip.rd (key 0x21) = wrapObj (key 0x21) (c.rd (key 0x21) + 512) ∧ t.coresAndMemoryOf s)

/-- On a lane that is up at a Twiah-2 rate and a receive member of its bundle: SOF opens a frame on its virtual lane and selects it, a
data block adds 8 bytes to it or completes it, RESUME selects an open frame, CREDIT gives the partner's totals; STATUS, MARKER and
MEMBERS are taken from a lane that is up; unknown control blocks and invalid sync headers are counted. -/
def Obligations.BlocksReceived : Prop :=
  ∀ (s : State) (l : Fin 512) (body : BitVec 56) (bytes : List Byte) (lag row : Nat) (type : BitVec 8) (o : OpenFrame) (vl : Nat),
    let c := s.dev.chip
    let b := c.laneBundle l
    let x := c.bundle b
    let up := c.laneState l = 0x0A ∧ 4 ≤ c.laneRate l
    let member := up ∧ c.rxMember l = true
    let v := body.toNat
    let key := fun (sub : Nat) => od (0x2100 + l.val) sub
    (member → Runs (.sof l body) s fun t =>
      (t.dev.chip.bundle b).sel = some (bits v 54 2) ∧
      (t.dev.chip.bundle b).opens.getLast? = some ⟨bits v 54 2, bits v 32 16, beBytes 4 (bits v 0 32),
        bits v 54 2 = 3 || bits v 32 16 < 8 || (c.bundleRole b = 1 && bits v 54 2 ≠ 2) || !c.carries b⟩ ∧ t.coresAndMemoryOf s) ∧
    (member → x.lastIndex = none → x.sel = some vl → x.opens = [o] → o.vl = vl → (o.bytes ++ padTo 8 bytes).length < o.length →
      Runs (.dataBlock l bytes) s fun t =>
      (t.dev.chip.bundle b).opens = [{ o with bytes := o.bytes ++ padTo 8 bytes }] ∧ t.coresAndMemoryOf s) ∧
    (member → x.lastIndex = none → x.sel = some vl → x.opens = [o] → o.vl = vl → o.length ≤ (o.bytes ++ padTo 8 bytes).length →
      o.drop = false → c.carries b = true → Runs (.dataBlock l bytes) s fun t =>
      (t.dev.chip.bundle b).opens = [] ∧ (t.dev.chip.bundle b).ready = x.ready ++ [(vl, (o.bytes ++ padTo 8 bytes).take o.length)] ∧
      t.coresAndMemoryOf s) ∧
    (member → (x.opens.any fun f => f.vl == bits v 54 2) = true → Runs (.resumeBlock l body) s fun t =>
      (t.dev.chip.bundle b).sel = some (bits v 54 2) ∧ t.coresAndMemoryOf s) ∧
    (member → c.credited b = true → c.carries b = true → Runs (.credit l body) s fun t =>
      (t.dev.chip.bundle b).partner = some [bits v 32 16, bits v 16 16, bits v 0 16] ∧ t.coresAndMemoryOf s) ∧
    (c.laneState l = 0x0A → Runs (.status l body) s fun t =>
      (t.dev.chip.lane l).partnerUp = bitAt v 10 ∧ (t.dev.chip.lane l).partnerSkew = bitAt v 11 ∧ t.coresAndMemoryOf s) ∧
    (up → bits v 48 8 = 0x5A → Runs (.marker l body lag) s fun t =>
      (t.dev.chip.lane l).index = bits v 40 6 ∧ (t.dev.chip.lane l).skewed = decide (18000 < lag) ∧
      t.dev.chip.rd (key 0x14) = min 65535 lag ∧ t.coresAndMemoryOf s) ∧
    (up → (row = 1 ∨ row = 2) → b < 256 → (x.rxRow.any fun e => e.1 == row && e.2 < (c.lane l).index) = false →
      Runs (.members l row body) s fun t => (row, (c.lane l).index) ∈ (t.dev.chip.bundle b).rxRow ∧ t.coresAndMemoryOf s) ∧
    (up → b < 256 → Runs (.unknownControlBlock l type) s fun t =>
      t.dev.chip.rd (od (0x2300 + b) 0x1C) = wrapObj (od (0x2300 + b) 0x1C) (c.rd (od (0x2300 + b) 0x1C) + 1) ∧ t.coresAndMemoryOf s) ∧
    (Runs (.invalidSyncHeader l) s fun t =>
      t.dev.chip.rd (key 0x17) = wrapObj (key 0x17) (c.rd (key 0x17) + 1) ∧ t.coresAndMemoryOf s)

/-- On an enabled bundle a marker period puts the announced masks in force; on a bundle with credit that carries frames the interval
sends the totals; the only virtual lane whose head may start sends that frame and counts it, the PEG lane in its turn too; a head
without credit whose wait ends is discarded and counted. Also: With no other frame open, the frame that starts puts its SOF block, with
virtual lane, length and first four bytes, on the next member that transmits and leaves the rest of the frame open; the descrambler
gives back what the scrambler took, from any state. -/
def Obligations.FramesAndMarkers : Prop :=
  (∀ (s : State) (b : Fin 256) (vl : Fin 3) (k : Nat) (f : TxFrame),
     let c := s.dev.chip
     let x := c.bundle b
     let key := fun (sub : Nat) => od (0x2300 + b.val) sub
     let starts := fun (i : Instr) (v : Nat) => Runs i s fun t =>
       t.lastSent (.frame b v (if f.raw then f.bytes else sealFrame f.bytes (x.seqs.getD v 0))) ∧
       t.dev.chip.rd (key (0x17 + v)) = wrapObj (key (0x17 + v)) (c.rd (key (0x17 + v)) + 1) ∧ t.coresAndMemoryOf s
     (c.bundleOn b = true → Runs (.markerPeriodStart b) s fun t =>
       t.dev.chip.rd (key 0x11) = x.txNext ∧ t.dev.chip.rd (key 0x12) = x.rxNext ∧ t.coresAndMemoryOf s) ∧
     (c.credited b = true → c.carries b = true → c.streamLane b = some k → c.transmits k = true → Runs (.creditReturnInterval b) s fun t =>
       t.lastSent (.block k 0x2D (creditBody x.granted)) ∧ (t.dev.chip.bundle b).sent = x.granted ∧ t.coresAndMemoryOf s) ∧
     (c.headFrame b vl = some f → (∀ v : Fin 3, c.mayStart b v = decide (v = vl)) → starts (.frameStart b) vl) ∧
     (c.headFrame b 1 = some f → c.slotGrant b (c.mayStart b) = some 1 → starts (.pegFrameSend b) 1) ∧
     (c.slotGrant b (c.mayStart b) ≠ some 1 → exec (.pegFrameSend b) s = .next s) ∧
     (c.headFrame b vl = some f → c.carries b = true → c.credited b = true → c.mayStart b vl = false → Runs (.creditTimeout b vl) s fun t =>
       (t.dev.chip.bundle b).control = (x.popHead vl).control ∧ (t.dev.chip.bundle b).pegs = (x.popHead vl).pegs ∧
       (t.dev.chip.bundle b).samples = (x.popHead vl).samples ∧
       t.dev.chip.rd (od 0x2C00 0x1B) = wrapObj (od 0x2C00 0x1B) (c.rd (od 0x2C00 0x1B) + 1) ∧ t.coresAndMemoryOf s)) ∧
  (∀ (s : State) (b : Fin 256) (vl : Fin 3) (k : Nat) (f : TxFrame) (state msg : List Bool),
     let c := s.dev.chip
     let x := c.bundle b
     let bytes := if f.raw then f.bytes else sealFrame f.bytes (x.seqs.getD vl 0)
     (c.headFrame b vl = some f → (∀ v : Fin 3, c.mayStart b v = decide (v = vl)) → x.tx = [] → c.streamLane b = some k →
       c.transmits k = true → Runs (.frameStart b) s fun t =>
       t.dev.chip.out[1]? = some (.block k 0x33 (vl.val % 4 * 2 ^ 54 + bytes.length % 65536 * 2 ^ 32 + beAt bytes 0 4)) ∧
       (t.dev.chip.bundle b).tx = [⟨vl, bytes.drop 4⟩] ∧ (t.dev.chip.bundle b).txSel = some vl.val) ∧
     descramble state (scramble state msg) = msg)

/-- A frame shorter than 100 bytes taken from an INGEST bundle is counted in OD 2400.10; the first good frame of a stream in WAIT on its
primary bundle, not before the tick that enabled it, brings it to RUN and counts; a waiting stream takes its first release point, and
the sample that leaves moves the point by one; the stall timeout empties the buffer and counts. -/
def Obligations.StreamFrames : Prop :=
  ∀ (s : State) (b : Fin 256) (frame : List Byte) (n : Fin 1024) (q : Nat),
    let c := s.dev.chip
    let i := beAt frame 2 2 % 1024
    let x := c.stream i
    let row := (c.rowFor i (beAt frame 4 8)).2
    let key := fun (j sub : Nat) => od (0x9000 + j) sub
    (c.bundleRole b = 1 → (c.takeFrame b 2 frame).isSome = true → frame.length < 100 → Runs (.ingestFrame b frame) s fun t =>
      t.dev.chip.rd (od 0x2400 0x10) = wrapObj (od 0x2400 0x10) (c.rd (od 0x2400 0x10) + 1) ∧ t.coresAndMemoryOf s) ∧
    (c.bundleRole b = 1 → (c.takeFrame b 2 frame).isSome = true → 100 ≤ frame.length → beAt frame 18 2 % 64 = 0 → 64 ≤ beAt frame 18 2 →
      beAt frame 18 2 ≤ 16384 → payloadBytes (beAt frame 1 1 / 16) (beAt frame 18 2) = some (frame.length - 36) →
      beAt frame (frame.length - 4) 4 = crc32 (frame.take (frame.length - 4)) → beAt frame 0 1 / 16 = 1 → rowOn row = true →
      rowPrimary row = b → rowFormat row = beAt frame 1 1 / 16 → x.dup = none → x.release = none → x.st = .wait →
      (x.uniTick : Int) ≤ ownToTick x.rowIn (beAt frame 4 8 + beAt frame 18 2 - 1) →
      Runs (.ingestFrame b frame) s fun t =>
      (t.dev.chip.stream i).st = .run ∧ (t.dev.chip.stream i).heard = c.lc ∧
      t.dev.chip.rd (key i 0x10) = wrapObj (key i 0x10) (c.rd (key i 0x10) + 1) ∧ t.coresAndMemoryOf s) ∧
    (c.leaving n = none → c.firstPoint n = some q → Runs (.sampleRelease n) s fun t =>
      (t.dev.chip.stream n).release = some q ∧ t.coresAndMemoryOf s) ∧
    (c.leaving n = some q → c.dueEntry n (ownToTick (c.stream n).rowIn q) = c → Runs (.sampleRelease n) s fun t =>
      (t.dev.chip.stream n).release = some (q + 1) ∧ t.dev.cores = s.dev.cores) ∧
    ((c.stream n).st = .run → Runs (.stallTimeout n) s fun t =>
      (t.dev.chip.stream n).st = .stall ∧ (t.dev.chip.stream n).buf = [] ∧
      t.dev.chip.rd (key n 0x1A) = wrapObj (key n 0x1A) (c.rd (key n 0x1A) + 1) ∧ t.coresAndMemoryOf s)

/-- A route change that is due puts its row in force at the entry, then behind the delay; an entry that disables the stream, reached and
not taken back by a later one, turns it off; a change of the mean's mode is taken; an accepted write of a live stream's mean takes its
value; the ring restarts as laid out; a warm-up that is long enough arms the L0 detector. -/
def Obligations.StreamChanges : Prop :=
  ∀ (s : State) (sess : Fin 9) (n : Fin 1024) (e : RouteChange) (d : DcChange) (rest : List DcChange) (v : Int) (r : Ring) (rs : List Ring),
    let c := s.dev.chip
    let x := c.stream n
    let key := fun (sub : Nat) => od (0x9000 + n.val) sub
    ((x.changes.find? fun f => f.entry && rowOn f.row) = some e → Runs (.routeChangeEffect n) s fun t =>
      (t.dev.chip.stream n).rowIn = e.row ∧ t.coresAndMemoryOf s) ∧
    ((x.changes.find? fun f => f.entry && rowOn f.row) = none → (x.changes.find? fun f => f.delayed) = some e →
      Runs (.routeChangeEffect n) s fun t => (t.dev.chip.stream n).rowOut = e.row ∧ t.coresAndMemoryOf s) ∧
    ((x.changes.find? fun f => f.entry && !rowOn f.row) = some e → x.st ≠ .off →
      (x.st = .run → ∃ q, x.release = some q ∧ (e.tick : Int) ≤ ownToTick x.rowIn q) →
      (∀ f ∈ x.changes, f.entry = true → rowOn f.row = true → f.tick ≤ e.tick) → Runs (.streamDisable n) s fun t =>
      (t.dev.chip.stream n).st = .off ∧ (t.dev.chip.stream n).buf = [] ∧ t.coresAndMemoryOf s) ∧
    (x.dcChanges = d :: rest → Runs (.dcFreeze n) s fun t =>
      t.dev.chip.stream n = { x.takeDc d with dcChanges := rest } ∧ t.coresAndMemoryOf s) ∧
    (s.accepts sess (key 6) (.num (ofI v 32)) → x.st ≠ .off → (x.dcMode = 1 → x.dcFrozen = true) → Runs (.dcMeanWrite sess n false v) s fun t =>
      t.dev.chip.rd (key 6) = ofI v 32 ∧ t.answered sess (key 6) .ok ∧ t.coresAndMemoryOf s) ∧
    (c.writer.next = r :: rs → Runs .transientRingRestart s fun t =>
      t.dev.chip.writer.cur = r ∧ t.dev.chip.writer.next = rs ∧ t.dev.chip.rd (od 0x2400 4) = r.rows ∧ t.coresAndMemoryOf s) ∧
    (x.l0.on = true → 4 * 2 ^ c.rd (key 0x62) ≤ x.l0.warm → Runs (.l0WarmupEnd n) s fun t =>
      (t.dev.chip.stream n).l0.armed = true ∧ t.coresAndMemoryOf s)

/-- A spectrum of a stick in the making, at its place, moves the stream on by one; where the stream is no longer live it fills the stick
as MISSING; a full stick ends and takes a capture armed for the stream; an accepted first delay segment is queued, a clear empties the
queue, an arming arms the stream of OD 2800.1A, each answered OK; truss frames that are ready let the packed sticks go. -/
def Obligations.Channelizing : Prop :=
  ∀ (s : State) (sess : Fin 9) (n : Fin 1024) (a : StickAcc) (rec_ : List Byte) (k : Nat),
    let c := s.dev.chip
    let x := c.stream n
    let key := fun (sub : Nat) => od (0x9000 + n.val) sub
    (c.acc n = some a → a.count = x.spec % 256 → (c.live n x.spec = true → x.st ≠ .off → (x.spec + 1) * c.fft ≤ x.next.getD 0) →
      Runs (.spectrum n) s fun t => (t.dev.chip.stream n).spec = x.spec + 1 ∧ t.coresAndMemoryOf s) ∧
    (c.acc n = some a → a.count = x.spec % 256 → a.count ≠ 0 → c.live n x.spec = false → Runs (.spectrum n) s fun t =>
      t.dev.chip.acc n = some { a with count := a.count + 1, flags := a.flags ||| 128 } ∧ t.coresAndMemoryOf s) ∧
    (c.acc n = some a → 256 ≤ a.count → Runs (.stickEnd n) s fun t =>
      t.dev.chip.acc n = none ∧ (c.fe.armed = some n.val → t.dev.chip.fe.armed = none) ∧ t.coresAndMemoryOf s) ∧
    (s.accepts sess (key 0x40) (.bytes rec_) → rec_.length = 48 → x.segments = [] → Runs (.delaySegmentWrite sess n rec_) s fun t =>
      (t.dev.chip.stream n).segments = [readSegment rec_ c.fft] ∧ t.dev.chip.rd (key 0x46) = 1 ∧ t.answered sess (key 0x40) .ok ∧
      t.coresAndMemoryOf s) ∧
    (s.accepts sess (key 0x47) (.num 1) → Runs (.clearSegments sess n) s fun t =>
      (t.dev.chip.stream n).segments = [] ∧ (t.dev.chip.stream n).segment = none ∧ t.answered sess (key 0x47) .ok ∧ t.coresAndMemoryOf s) ∧
    (s.accepts sess (od 0x2800 0x1B) (.num 1) → Runs (.skCaptureArm sess) s fun t =>
      t.dev.chip.fe.armed = some (c.rd (od 0x2800 0x1A)) ∧ t.answered sess (od 0x2800 0x1B) .ok ∧ t.coresAndMemoryOf s) ∧
    (c.fe.ready = some k → ((List.range 1024).any fun m => c.producing m k) = false → (k + 1) * 256 * c.fft ≤ c.reached →
      c.quietIn (256 * k / c.chaseT) = true → Runs .trussFramesReady s fun t =>
      t.dev.chip.fe.friskets = (c.fe.friskets.filter fun e => k < e.1 / 16384) ∧
      t.dev.chip.fe.pack = (c.fe.pack.filter fun e => (k + 1) * 256 ≤ e.1 / 16384) ∧ t.coresAndMemoryOf s)

/-- A half that fills has its layout fixed; at its close it is CLOSED, whatever the X-engine does with it; once its receipt map is
cleared it fills for the first period of its parity to come, unless the truss stops. Also: On a MESH bundle: a SAMPLE frame that fits
the filling half marks its place in the receipt map; a new peg is judged by its number; a new beacon is kept for its position; a new
decision is remembered by its number; a peg frame on a TWIN bundle is a header error; a frame from a bundle of another kind is a
protocol discard. -/
def Obligations.MeshAndGalley : Prop :=
  (∀ (s : State) (h : Fin 2),
     let c := s.dev.chip
     let first := if c.truss.startAt % 2 = h.val then c.truss.startAt else c.truss.startAt + 1
     (c.halfState h = 1 → (c.half h).fixed = false → Runs (.halfLayoutFix h) s fun t =>
       (t.dev.chip.half h).fixed = true ∧ t.dev.chip.halfState h = 1 ∧ t.dev.cores = s.dev.cores) ∧
     (c.halfState h = 1 → Runs (.galleyClose h) s fun t => t.dev.chip.halfState h = 2 ∧ t.coresAndMemoryOf s) ∧
     (c.halfState h = 2 → (c.half h).clearing = true → c.truss.stopAt = none → Runs (.receiptMapCleared h) s fun t =>
       t.dev.chip.halfState h = 1 ∧ t.dev.chip.halfPeriod h = max (c.halfPeriod h + 2) first ∧ t.dev.cores = s.dev.cores)) ∧
  (∀ (s : State) (b : Fin 256) (frame : List Byte) (c1 c2 : Chip) (h : Fin 2) (j : Nat) (w : Option (Nat × Nat)),
     let c := s.dev.chip
     let src := beAt frame 1 1 / 4
     let n := beAt frame 14 6
     let ch := beAt frame 10 2 % 2 ^ 15
     let first := beAt frame 12 2 % 2 ^ 14
     let map := c2.trussMap n
     let prec := precision (c2.precTable n) ch
     let index := ((localChannels map c2.node).filter fun y => y < ch).length
     let place := receiptPlace map (c2.precTable n) c2.node c2.chaseT index first (beAt frame 20 1)
     let fresh := fun (type : Nat) => judge (2 ^ 48) 64 (sget (fun _ => none) c.trigger.controlSeen (src * 256 + type)) (beAt frame 10 6)
     let discards := fun (i : Instr) => Runs i s fun t =>
       t.dev.chip.rd (od (0x2300 + b.val) 0x1A) = wrapObj (od (0x2300 + b.val) 0x1A) (c.rd (od (0x2300 + b.val) 0x1A) + 1) ∧ t.coresAndMemoryOf s
     (c.bundleRole b = 2 → c.takeFrame b 2 frame = some c1 → c1.admitFrame b 2 frame = (c2, true) → c.window n = .filling h →
       c2.window n = .filling h → c2.halfPeriod h = n → beAt frame 3 1 = c2.rd (od 0x2C10 (3 * h.val + 3)) → ch < mapC map →
       mapOwner map ch = c2.node → first % nin prec = 0 → first < mapN map → mapOrigin map (first / 16) = src →
       beAt frame 20 1 < c2.chaseT / 256 → Runs (.sampleFrame b frame) s fun t =>
       bitAt ((t.dev.chip.half h).mark place) 0 = true ∧ t.dev.cores = s.dev.cores) ∧
     (c.bundleRole b = 2 → c.takeFrame b 1 frame = some c1 → c1.admitFrame b 1 frame = (c2, true) → beAt frame 3 1 % 32 = 1 →
       judge (2 ^ 16) 256 (sget (fun _ => none) c2.trigger.pegsSeen src) (Peg.mk (slice frame 16 16) src).seq = (.fresh j, w) →
       Runs (.pegFrame b frame) s fun t => sget (fun _ => none) t.dev.chip.trigger.pegsSeen src = w ∧ t.coresAndMemoryOf s) ∧
     (c.bundleRole b = 2 → c.takeFrame b 0 frame = some c1 → c1.admitFrame b 0 frame = (c2, true) → beAt frame 3 1 = 1 →
       fresh 1 = (.fresh j, w) → Runs (.commitBeacon b frame) s fun t =>
       t.dev.chip.rdDom (od (0xA000 + src) 0x1F) = slice frame 16 (frame.length - 20) ∧ t.coresAndMemoryOf s) ∧
     (c.bundleRole b = 2 → c.takeFrame b 0 frame = some c1 → c1.admitFrame b 0 frame = (c2, true) → beAt frame 3 1 = 2 →
       fresh 2 = (.fresh j, w) → Runs (.triggerDecision b frame) s fun t =>
       sget (fun _ => none) t.dev.chip.trigger.controlSeen (src * 256 + 2) = w ∧ t.coresAndMemoryOf s) ∧
     (c.bundleRole b = 3 → c.takeFrame b 1 frame = some c1 → frameLengthOk frame = true →
       beAt frame (frame.length - 4) 4 = crc32 (frame.take (frame.length - 4)) → Runs (.pegFrame b frame) s fun t =>
       t.dev.chip.rd (od 0x2C00 0x17) = wrapObj (od 0x2C00 0x17) (c.rd (od 0x2C00 0x17) + 1) ∧ t.coresAndMemoryOf s) ∧
     (c.bundleRole b ≠ 2 → discards (.sampleFrame b frame)) ∧
     (c.bundleRole b ≠ 2 → c.bundleRole b ≠ 3 → discards (.pegFrame b frame)) ∧
     (c.bundleRole b ≠ 2 → c.bundleRole b ≠ 3 → discards (.commitBeacon b frame)) ∧
     (c.bundleRole b ≠ 2 → c.bundleRole b ≠ 3 → discards (.triggerDecision b frame)))

/-- The next period begins and is shown; a slab goes to the chase half that is free, which then is the other one; the only impression
that is ready joins its platen's queue; the one at the queue's head ends into the result buffer, and its completion empties the buffer;
a period that is done leaves. -/
def Obligations.XEnginePeriods : Prop :=
  ∀ (s : State) (n : Nat) (p : OpenPeriod) (rest : List OpenPeriod) (q : Fin 64) (f : Nat) (i : Impression) (l : List Impression)
    (r : ImpResult),
    let c := s.dev.chip
    (c.nextPeriod = some n → Runs .periodBegin s fun t =>
      t.dev.chip.xe.newest = some n ∧ t.dev.chip.rd (od 0x3000 5) = n ∧ t.coresAndMemoryOf s) ∧
    ((c.xe.periods.find? fun e => decide (e.staged < (localChannels (c.trussMap e.number) c.node).length)) = some p →
      c.slabDone c.xe.nextHalf = true → Runs .slabStaged s fun t =>
      (∃ b, t.dev.chip.xe.chase[c.xe.nextHalf] = some ⟨p.number, p.staged, b⟩) ∧ t.dev.chip.xe.nextHalf ≠ c.xe.nextHalf ∧
      t.dev.cores = s.dev.cores) ∧
    ((c.xe.formes.filterMap fun e => (c.nextEntry e.1).map fun y => ((e.1, y) : Nat × Impression × Nat × Bool)) = [(f, i, n, false)] →
      Runs .impressionDispatch s fun t => (t.dev.chip.platen n).queue = (c.platen n).queue ++ [i] ∧ t.coresAndMemoryOf s) ∧
    ((c.platen q).queue = i :: l → (c.platen q).stalled = none → (c.platen q).buffer = none → Runs (.impressionEnd q) s fun t =>
      (t.dev.chip.platen q).queue = l ∧ (∃ y, (t.dev.chip.platen q).buffer = some (i, y)) ∧ t.dev.cores = s.dev.cores) ∧
    ((c.platen q).buffer = some (i, r) → (c.platen q).stalled = none → Runs (.impressionComplete q) s fun t =>
      (t.dev.chip.platen q).buffer = none ∧ (t.dev.chip.platen q).queue = (c.platen q).queue ∧ t.dev.cores = s.dev.cores) ∧
    (c.xe.periods = p :: rest → c.periodDone p = true → Runs .periodComplete s fun t =>
      t.dev.chip.xe.periods = rest ∧ t.coresAndMemoryOf s)

/-- An accepted bank of the idle side of a beam forme is taken, an accepted swap of a free bank waits for its spectrum, each answered
OK; a waiting swap to a bank that no transaction holds starts its scarf, whose end changes the active bank; a full ledger slot is
drained and, once scaled, released; a warm-up that is long enough arms the trigger beam. -/
def Obligations.BeamFormes : Prop :=
  ∀ (s : State) (sess : Fin 9) (f : Fin 4096) (bank : Fin 2) (table : List Byte) (tick : BitVec 64) (w : Nat) (k : Scarf) (l : List Scarf)
    (x : LedgerSlot) (tb : Fin 4096) (j : Nat),
    let c := s.dev.chip
    let y := c.forme f
    let key := fun (sub : Nat) => od (0x8000 + f.val) sub
    let sp := effectSpectrum c.fft tick.toNat
    let start := match y.scarfs with | [] => w | e :: _ => max w (e.last + 1)
    (s.accepts sess (key (0x21 + bank.val)) (.bytes table) → c.kindFor sess f = .num 2 → c.resizes sess f = false → c.rd (key 0x30) ≠ bank →
      y.fading = false → bankCheck (c.rd (key 0x20)) (c.formeInputs f (mapN (c.table (od 0x6004 0)))) table = .ok →
      Runs (.weightBankWrite sess f bank table) s fun t =>
      t.dev.chip.rdDom (key (0x21 + bank.val)) = table ∧ t.answered sess (key (0x21 + bank.val)) .ok ∧ t.coresAndMemoryOf s) ∧
    (s.accepts sess (key 0x23) (.num tick.toNat) → c.formeKind f = 2 → c.bankHeld f (c.swapTarget f) = false → c.reached < sp * c.fft →
      Runs (.swapRequest sess f tick) s fun t =>
      (t.dev.chip.forme f).waiting = some sp ∧ t.answered sess (key 0x23) .ok ∧ t.coresAndMemoryOf s) ∧
    (y.waiting = some w → y.fading = false → c.bankHeld f (c.swapTarget f) = false → Runs (.scarfStart f) s fun t =>
      (t.dev.chip.forme f).waiting = none ∧ (t.dev.chip.forme f).fading = true ∧
      (t.dev.chip.forme f).scarfs = ⟨start, c.rd (key 0x24), 1 - c.rd (key 0x30)⟩ :: y.scarfs ∧ t.coresAndMemoryOf s) ∧
    (y.fading = true → y.scarfs = k :: l → Runs (.scarfEnd f) s fun t =>
      (t.dev.chip.forme f).fading = false ∧ t.dev.chip.rd (key 0x30) = k.target ∧ t.coresAndMemoryOf s) ∧
    (c.releaseSlot f = some x → x.scaled = none → 256 ≤ (c.periodCfg x.period).rd (key 0x0A) → Runs (.slotDrain f) s fun t =>
      (∃ b, { x with scaled := some b } ∈ t.dev.chip.xe.slots) ∧ t.dev.cores = s.dev.cores) ∧
    (c.releaseSlot f = some x → x.scaled.isSome = true → Runs (.beamBlockRelease f) s fun t =>
      (∀ e ∈ t.dev.chip.xe.slots, ¬ (e.forme = f ∧ e.period = x.period ∧ e.channel = x.channel ∧ e.block = x.block)) ∧
      t.coresAndMemoryOf s) ∧
    (c.triggerBeam tb = some j → 4 * 2 ^ (c.asOf ((c.l1 j).next * (c.l1 j).dt * c.fft)).rd (od 0x3800 0x0B) ≤ (c.l1 j).warm → Runs (.l1WarmupEnd tb) s fun t =>
      t.dev.chip.l1 j = { c.l1 j with armed := true } ∧ t.coresAndMemoryOf s)

/-- Accepted soft pegs and decisions are answered OK and a decision is numbered; a group takes its next peg; a machine takes its first
event and follows the transition that fits it; a timer that expires queues its event; a freeze begins; a capture whose samples are
stored is ready with its record; an accepted release and the hold limit free a slot, the latter counted. -/
def Obligations.PegsMachinesAndCaptures : Prop :=
  ∀ (s : State) (sess : Fin 9) (b : List Byte) (g : Fin 256) (m : Fin 64) (tm : Fin 4) (k : Fin 8) (p : Peg) (ps : List Peg)
    (e : MachineEv) (row : List Byte) (u w : Nat) (fs : List (Nat × Bool)) (x : Slot),
    let c := s.dev.chip
    let y := c.machine m
    let key := fun (sub : Nat) => od 0x3800 sub
    let body := c.machineBody e.tick m
    let fits := (transitions body).find? fun r => beAt r 0 1 / 8 == y.state && beAt r 1 1 / 64 == b2n e.timer && beAt r 2 1 == e.number
    let ready := firstEv y.events = some e ∧ y.restarts = [] ∧ (∀ i : Nat, y.timers.getD i none = none) ∧ c.on (key 1) = true ∧ c.groupsBehind body e.tick = false
    (s.accepts sess (key 0x0D) (.bytes b) → b.length = 16 → Runs (.softPeg sess b) s fun t =>
      t.answered sess (key 0x0D) .ok ∧ t.coresAndMemoryOf s) ∧
    (s.accepts sess (key 0x0E) (.bytes b) → b.length = 24 → c.role ≠ 3 → Runs (.softDecision sess b) s fun t =>
      t.dev.chip.trigger.msgId = (c.trigger.msgId + 1) % 2 ^ 48 ∧
      t.dev.chip.rd (key 0x17) = wrapObj (key 0x17) (c.rd (key 0x17) + 1) ∧ t.answered sess (key 0x0E) .ok ∧ t.coresAndMemoryOf s) ∧
    ((c.group g).waiting = p :: ps → c.on (key 1) = true → Runs (.groupTakePeg g) s fun t =>
      (t.dev.chip.group g).waiting = ps ∧ (t.dev.chip.group g).taken = p.tick ∧ t.coresAndMemoryOf s) ∧
    (ready → fits = none → Runs (.machineEvent m) s fun t =>
      (t.dev.chip.machine m).events = y.events.erase e ∧ (t.dev.chip.machine m).state = y.state ∧ t.coresAndMemoryOf s) ∧
    (ready → fits = some row → Runs (.machineEvent m) s fun t =>
      (t.dev.chip.machine m).state = beAt row 3 1 / 8 ∧ t.coresAndMemoryOf s) ∧
    (y.timers.getD tm.val none = some u → Runs (.machineTimerExpiry m tm) s fun t =>
      (t.dev.chip.machine m).timers = y.timers.set tm none ∧ (t.dev.chip.machine m).events = y.events ++ [⟨u, true, tm, 0⟩] ∧
      t.coresAndMemoryOf s) ∧
    (c.trigger.freezeNext = (u, true) :: fs → Runs .captureFreeze s fun t =>
      t.dev.chip.trigger.freezeNext = fs ∧ t.dev.chip.trigger.freezes = ⟨u, none, c.rd (key 2) % 8⟩ :: c.trigger.freezes ∧
      t.coresAndMemoryOf s) ∧
    (c.trigger.slots[k] = some x → c.slotState k = 1 → c.writer.high = some w → x.hi ≤ w →
      (c.streams.any fun e => e.2.staged.any fun z => decide (z.1 ≤ x.hi)) = false → Runs (.captureReady k) s fun t =>
      t.dev.chip.slotState k = 2 ∧ t.dev.chip.rdDom (key (0x41 + k.val)) = c.captureRecord x ∧ t.coresAndMemoryOf s) ∧
    (s.accepts sess (key (0x51 + k.val)) (.num 1) → c.slotState k ≠ 0 → Runs (.releaseSlot sess k) s fun t =>
      t.dev.chip.slotState k = 0 ∧ t.dev.chip.trigger.slots[k] = none ∧ t.answered sess (key (0x51 + k.val)) .ok ∧ t.coresAndMemoryOf s) ∧
    (c.slotState k ≠ 0 → Runs (.holdLimitExpiry k) s fun t =>
      t.dev.chip.slotState k = 0 ∧ t.dev.chip.trigger.slots[k] = none ∧
      t.dev.chip.rd (key 0x1D) = wrapObj (key 0x1D) (c.rd (key 0x1D) + 1) ∧ t.coresAndMemoryOf s)

/-- A pseudo-channel in a training step keeps what it is offered in the queue of its class and returns nothing; an idle one accepts the
single unit that it is offered, queueing a read with the unit's bytes and storing a whole written unit; its oldest read returns its data
with its poison indication; a refresh is postponed at most eight times while its bank is wanted; an idle page closes; a pass starts and
goes through its steps; the scrubber moves on by a unit; an uncorrectable main SRAM word is counted and marked; an accepted retirement
is answered OK; a migration copies a block at a time and ends with the source retired and the target in service. -/
def Obligations.HbmAndRetire : Prop :=
  ∀ (s : State) (sess : Fin 9) (k : Fin 6) (pc : Fin 32) (u : HbmUnit) (p : Nat) (v : ReadUnit) (l : List ReadUnit) (bank : Fin 64) (tmp : Int)
    (good : Bool) (r1 a : Nat) (r : Fin 18) (m : Migration),
    let c := s.dev.chip
    let q := c.hbm.pc (pcKey k pc)
    let after := fun (t : State) => t.dev.chip.hbm.pc (pcKey k pc)
    let w : WriteUnit := ⟨u.cls.val, p / 32 * 32, u.data, u.poison, closes u⟩
    let settled := ∀ e ∈ c.streams, e.2.staged = []
    let idle := c.pcBusy (pcKey k pc) = false ∧ q.classes = [] ∧ q.writes = [] ∧ q.reads = [] ∧ q.writing = false ∧ settled ∧
      c.unitPlace u.cls.val u.addr = some p ∧ pcOf p = pcKey k pc
    let bad := if v.forwarded then v.poison
      else c.rankLost (v.addr / rankBytes) || s.dev.mem.poisoned (v.addr / 32) || v.poison
    let place := if r1 = c.hbm.scrub / rankBytes % 18 then c.hbm.scrub % (18 * rankBytes) else r1 * rankBytes
    (c.pcBusy (pcKey k pc) = true → Runs (.hbmRequest k pc [u]) s fun t => t.dev = { s.dev with chip := c.enqueue u }) ∧
    (idle → u.write = false → 0 < u.len → u.addr % 32 + u.len ≤ 32 → Runs (.hbmRequest k pc [u]) s fun t =>
      (after t).reads = [⟨u.cls.val, p / 32 * 32, closes u, getBytes s.dev.mem.hbm (p / 32 * 32) 32,
        s.dev.mem.poisoned (p / 32 * 32 / 32), false⟩] ∧ (after t).classes = [] ∧ (after t).writes = [] ∧ t.coresAndMemoryOf s) ∧
    (idle → u.write = true → u.addr % 32 = 0 → u.data.length = 32 → Runs (.hbmRequest k pc [u]) s fun t =>
      t.dev.mem = s.dev.mem.store w ∧ (after t).writes = [] ∧ (after t).reads = [] ∧ t.dev.cores = s.dev.cores) ∧
    (q.reads = v :: l → c.pcBusy (pcKey k pc) = true → Runs (.hbmReadComplete k pc .clean) s (·.unchangedFrom s)) ∧
    (q.reads = v :: l → c.pcBusy (pcKey k pc) = false → Runs (.hbmReadComplete k pc .clean) s fun t =>
      (after t).reads = l ∧ (after t).writes = q.writes ∧ t.lastSent (.hbm v.cls v.addr v.data bad) ∧ t.coresAndMemoryOf s) ∧
    (Runs (.refresh k pc bank) s fun t => t.coresAndMemoryOf s ∧
      ((after t).bank bank.val).postponed = if q.bankWaits bank.val then min ((q.bank bank.val).postponed + 1) 8 else 0) ∧
    (Runs (.openPageTimeout k pc bank) s fun t => ((after t).bank bank.val).row = none ∧ t.coresAndMemoryOf s) ∧
    ((c.hbm.training[k]).failed = false → (c.hbm.training[k]).changing = false → (c.hbm.training[k]).pass = none → c.device = 0 →
      Runs (.retrainStart k tmp) s fun t => (t.dev.chip.hbm.training[k]).pass = some (0, 0) ∧ t.coresAndMemoryOf s) ∧
    ((c.hbm.training[k]).pass = some (p, a) → a < 3 → (c.hbm.training[k]).deferred = false → settled → Runs (.trainingStepEnd k good) s fun t =>
      (t.dev.chip.hbm.training[k]).pass = some (p, a + 1) ∧ t.coresAndMemoryOf s) ∧
    (c.serviceFrom (c.hbm.scrub / rankBytes % 18) = some r1 → Runs (.scrubRead .clean) s fun t =>
      t.dev.chip.hbm.scrub = (place + 32) % (18 * rankBytes) ∧ t.dev.cores = s.dev.cores) ∧
    (a < 134217728 → Runs (.sramUncorrectable (.mainWord a)) s fun t => a / 8 ∈ t.dev.chip.xe.bad ∧
      t.dev.chip.rd (hbmOd 0x19) = wrapObj (hbmOd 0x19) (c.rd (hbmOd 0x19) + 1) ∧ t.coresAndMemoryOf s) ∧
    (s.accepts sess (rankOd r.val 5) (.num 1) → c.rankState r.val = 1 → c.hbm.migration.isSome = true → Runs (.retire sess r) s fun t =>
      t.answered sess (rankOd r.val 5) .ok ∧ t.dev.chip.rankState r.val = (if c.rankLost r.val || !c.targetLeft then 4 else 2) ∧
      r.val ∈ t.dev.chip.hbm.waiting ∧ t.coresAndMemoryOf s) ∧
    (s.accepts sess (rankOd r.val 5) (.num 1) → c.rankState r.val ≠ 1 → Runs (.retire sess r) s fun t =>
      t.answered sess (rankOd r.val 5) .state ∧ t.coresAndMemoryOf s) ∧
    (c.hbm.migration = some m → m.copied < rankBytes → Runs .migrationBlock s fun t =>
      t.dev.chip.hbm.migration = some { m with copied := m.copied + blockBytes } ∧
      t.dev.chip.rd (od 0x3C01 6) = (m.copied + blockBytes) / 1048576 ∧ t.dev.cores = s.dev.cores) ∧
    (c.hbm.migration = some m → rankBytes ≤ m.copied → c.hbm.waiting = [] → m.src ≠ m.dst → Runs .migrationComplete s fun t =>
      t.dev.chip.hbm.migration = none ∧ t.dev.chip.rankState m.src = 4 ∧ t.dev.chip.rankState m.dst = 1 ∧ t.coresAndMemoryOf s)

/-- A doorbell stores the inbound mailbox and makes source 0 pending, an accepted one also answers OK; a setter is started at its
image's entry, or shows why its boot failed, and is stopped at its reset values; an accepted image that is sound is written into P-RAM
from word 0; a read of the Local Counter latches its high word; a matrix port performs the one access that it allows, refuses and counts
one that it does not, and refuses one into a domain that drains. -/
def Obligations.SetterHost : Prop :=
  ∀ (s : State) (sess : Fin 9) (n : Fin 8) (by_ : Requester) (v : BitVec 32) (w : BitVec 8) (table : List Byte) (q : Fin 15) (r : MatrixReq),
    let c := s.dev.chip
    let x := s.dev.cores[n]
    let key := fun (sub : Nat) => setterOd n sub
    let rung := fun (t : State) => t.dev.cores = s.dev.cores.set n { x with inMail := v } ∧ t.dev.mem = s.dev.mem ∧
      (t.dev.chip.ipend[n]).getLsbD 0 = true
    let started := s.accepts sess (key 1) (.num 1) ∧ c.rd (key 1) ≠ 1 ∧ c.domOpen (setterDomain n) = true ∧ c.imageHeld n = false
    let loads := s.accepts sess (key 0x10) (.bytes table) ∧ c.rd (key 1) ≠ 1
    let body := tableBody table
    let reached := c.domClock (portDomain c q.val r.addr) = true ∧ c.domOpen (portDomain c q.val r.addr) = true
    ((∀ k, by_ ≠ .session k) → Runs (.doorbell by_ n v) s rung) ∧
    (s.accepts sess (key 3) (.num v.toNat) → Runs (.doorbell (.session sess) n v) s fun t => rung t ∧ t.answered sess (key 3) .ok) ∧
    (started → (bootVerdict x).1 = 1 → Runs (.runControl sess n 1) s fun t =>
      (t.dev.cores[n]).mode = .running ∧ (t.dev.cores[n]).pc = BitVec.ofNat 16 (bootVerdict x).2 ∧ (t.dev.cores[n]).mr = 1 ∧
      (t.dev.cores[n]).ivec = 0x9F80 ∧ (t.dev.cores[n]).bootStatus = 1 ∧ t.dev.chip.rd (key 1) = 1 ∧
      t.answered sess (key 1) .ok ∧ t.dev.mem = s.dev.mem) ∧
    (started → (bootVerdict x).1 ≠ 1 → Runs (.runControl sess n 1) s fun t =>
      (t.dev.cores[n]).mode = .bootFailed ∧ (t.dev.cores[n]).bootStatus = BitVec.ofNat 8 (bootVerdict x).1 ∧ t.dev.mem = s.dev.mem) ∧
    (s.accepts sess (key 1) (.num w.toNat) → w ≠ 1 → x.farStores = [] → Runs (.runControl sess n w) s fun t =>
      t.dev.cores = s.dev.cores.set n (Setter.resetKeep x.xram x.yram x.pram) ∧ t.dev.chip.ipend[n] = 0 ∧
      t.dev.chip.rd (key 1) = 0 ∧ t.answered sess (key 1) .ok ∧ t.dev.mem = s.dev.mem) ∧
    (loads → tableCheck 0x12 table = none → body.length ≤ 262144 → body.length % 8 = 0 → Runs (.firmwareImage sess n table) s fun t =>
      t.dev.cores = s.dev.cores.set n (x.putMem 0 0 body) ∧ t.answered sess (key 0x10) .ok ∧ t.dev.mem = s.dev.mem) ∧
    (loads → tableCheck 0x12 table = some .crc → Runs (.firmwareImage sess n table) s fun t =>
      t.answered sess (key 0x10) .tableCrc ∧ t.coresAndMemoryOf s) ∧
    (Runs (.controlCounterRead 0x103000) s fun t => t.lastSent (.matrix 5 true (beBytes 4 (c.lc % 2 ^ 32))) ∧
      t.dev.chip.time.latchLc = BitVec.ofNat 32 (c.lc / 2 ^ 32) ∧ t.coresAndMemoryOf s) ∧
    (Runs (.controlCounterRead 0x103004) s fun t => t.lastSent (.matrix 5 true (beBytes 4 c.time.latchLc.toNat)) ∧ t.coresAndMemoryOf s) ∧
    (reached → q.val < 4 → portAllows c q.val r = true → r.write = false → Runs (.matrixAccess q [r]) s fun t =>
      t.lastSent (.matrix q.val true (s.dev.readSram r.addr r.len)) ∧ t.coresAndMemoryOf s) ∧
    (reached → q.val < 4 → portAllows c q.val r = true → r.write = true → Runs (.matrixAccess q [r]) s fun t =>
      t.lastSent (.matrix q.val true []) ∧ t.dev.mem = (s.dev.writeSram r.addr r.data).mem ∧ t.dev.cores = s.dev.cores) ∧
    (c.domClock (portDomain c q.val r.addr) = true → c.domOpen (portDomain c q.val r.addr) = false → portAllows c q.val r = true →
      Runs (.matrixAccess q [r]) s fun t => t.lastSent (.matrix q.val false []) ∧ t.coresAndMemoryOf s) ∧
    (reached → portAllows c q.val r = false → Runs (.matrixAccess q [r]) s fun t =>
      t.lastSent (.matrix q.val false []) ∧ t.dev.chip.rd (od 0x4000 0x10) = wrapObj (od 0x4000 0x10) (c.rd (od 0x4000 0x10) + 1) ∧
      t.coresAndMemoryOf s)

/-- A START of an idle channel of the enabled engine takes its descriptor's address and is LOADING; an abort of a LOADING, RUNNING or
READY channel is noted, ENDING, or ends at once; a loaded descriptor that is valid makes the channel READY, one that is not ends it with
RANGE; a beat of the only channel that wants a port reads up to 32 bytes from main SRAM; the watchdog ends a RUNNING channel; an
accepted base of a queue that no channel uses is taken and the queue starts over; a tail is written. -/
def Obligations.DmaAndQueues : Prop :=
  ∀ (s : State) (sess : Fin 9) (f : Fin 32) (n : Fin 8) (q : Fin 16) (v : BitVec 32),
    let c := s.dev.chip
    let x := c.dma f
    let d := readDescriptor (s.dev.readSram x.descAddr 32)
    let started := fun (t : State) => t.dev.chip.dmaState f = 1 ∧ (t.dev.chip.dma f).descAddr = c.rd (dmaOd f 1) ∧ t.coresAndMemoryOf s
    let startable := c.on (od 0x4000 1) = true ∧ c.dmaState f = 0 ∧ c.partitionPending = false
    let loaded := c.dmaState f = 1 ∧ x.ending = none ∧ x.descAddr % 32 = 0 ∧ x.descAddr < 2 ^ 28
    let alone := c.dmaReady = [f.val] ∧ x.port = none ∧ x.buffer = [] ∧ x.stop = false ∧ x.read = 0 ∧ x.written = 0 ∧ x.ending = none ∧ 0 < x.desc.length ∧
      dmaSpace x.desc.src = 0 ∧ c.domOpen (dmaDomain c x.desc.src) = true ∧ c.domOpen (dmaDomain c x.desc.dst) = true
    (s.accepts sess (dmaOd f 2) (.num 1) → startable → Runs (.dmaStart (.session sess) f) s fun t =>
      started t ∧ t.answered sess (dmaOd f 2) .ok) ∧
    (startable → Runs (.dmaStart (.setter n) f) s started ∧ Runs (.dmaStart .debug f) s started) ∧
    (s.accepts sess (dmaOd f 3) (.num 1) → c.dmaState f = 1 → Runs (.dmaAbort (.session sess) f) s fun t =>
      (t.dev.chip.dma f).ending = some 1 ∧ t.answered sess (dmaOd f 3) .ok ∧ t.coresAndMemoryOf s) ∧
    (c.dmaState f = 2 → Runs (.dmaAbort (.setter n) f) s fun t => t.dev.chip.dmaState f = 4 ∧ t.coresAndMemoryOf s) ∧
    (c.dmaState f = 3 → Runs (.dmaAbort .debug f) s fun t =>
      t.dev.chip.dmaState f = 0 ∧ t.dev.chip.rd (dmaOd f 8) = 1 ∧ t.dev.cores = s.dev.cores) ∧
    (loaded → descriptorOk c d = true → Runs (.descriptorLoaded f) s fun t =>
      t.dev.chip.dmaState f = 3 ∧ t.dev.chip.rd (dmaOd f 7) = d.length ∧ (t.dev.chip.dma f).desc = d ∧ t.coresAndMemoryOf s) ∧
    (loaded → descriptorOk c d = false → Runs (.descriptorLoaded f) s fun t =>
      t.dev.chip.dmaState f = 0 ∧ t.dev.chip.rd (dmaOd f 8) = 2 ∧ t.dev.cores = s.dev.cores) ∧
    (c.dmaReady = [] → Runs .dmaBeat s fun t => t.unchangedFrom s) ∧
    (alone → Runs .dmaBeat s fun t => (t.dev.chip.dma f).read = min 32 x.desc.length ∧
      (t.dev.chip.dma f).buffer = [(s.dev.readSram (dmaOffset x.desc.src) (min 32 x.desc.length), false)] ∧ t.coresAndMemoryOf s) ∧
    (c.dmaState f = 2 → c.rd (od 0x4000 4) ≠ 0 → x.written ≠ x.desc.length → Runs (.dmaWatchdog f) s fun t =>
      t.dev.chip.dmaState f = 0 ∧ t.dev.chip.rd (dmaOd f 8) = 5 ∧ t.dev.cores = s.dev.cores) ∧
    (s.accepts sess (cqOd q 1) (.num v.toNat) → c.queueBusy q = false → Runs (.queueConfigure sess q 1 v) s fun t =>
      t.dev.chip.rd (cqOd q 1) = v.toNat ∧ t.dev.chip.rd (cqOd q 3) = 0 ∧ t.dev.chip.rd (cqOd q 4) = 0 ∧ t.dev.chip.rd (cqOd q 6) = 0 ∧
      t.answered sess (cqOd q 1) .ok ∧ t.coresAndMemoryOf s) ∧
    (s.accepts sess (cqOd q 1) (.num v.toNat) → c.queueBusy q = true → Runs (.queueConfigure sess q 1 v) s fun t =>
      t.answered sess (cqOd q 1) .state ∧ t.coresAndMemoryOf s) ∧
    (s.accepts sess (cqOd q 4) (.num v.toNat) → Runs (.queueTailWrite (.session sess) q v) s fun t =>
      t.dev.chip.rd (cqOd q 4) = v.toNat ∧ t.answered sess (cqOd q 4) .ok ∧ t.coresAndMemoryOf s) ∧
    (Runs (.queueTailWrite (.setter n) q v) s fun t => t.dev.chip.rd (cqOd q 4) = v.toNat ∧ t.coresAndMemoryOf s)

/-- A port that is down locks, and an up one that fails goes down and counts; a frame with a bad FCS is counted, as is one that is not
PTP; a readout of a set or a capture slot starts, and ends with the set or slot free; a frame slot gives the port the one untimed frame
that waits for it; the MAC sends its next frame from a port that is up and discards and counts it on one that is down. -/
def Obligations.OutputPorts : Prop :=
  ∀ (s : State) (p : Fin 8) (b : List Byte) (x y : Nat) (n : Fin 256) (kind f k : Nat) (j : Fin 8) (js : List (Fin 8)) (r : Readout)
    (o : OutFrame) (l : List (OutFrame × Nat)) (z : Slot),
    let c := s.dev.chip
    let key := fun (sub : Nat) => portOd p.val sub
    let state := fun (t : State) => t.dev.chip.rd (key 0x10)
    let counts := fun (t : State) (sub : Nat) => t.dev.chip.rd (key sub) = wrapObj (key sub) (c.rd (key sub) + 1)
    let free := c.on (outOd n.val 1) = true ∧ (c.outStream n.val).reading = none
    let ready := c.rd (key 0x10) ≠ 0 ∧ (c.port p.val).timed = [] ∧ (c.port p.val).next = some o
    (c.rd (key 1) ≠ 0 → c.rd (key 0x10) = 1 → Runs (.portUp p) s fun t => state t = 2 ∧ t.coresAndMemoryOf s) ∧
    (c.rd (key 0x10) = 2 → Runs (.portDown p) s fun t => state t = 1 ∧ counts t 0x13 ∧ t.coresAndMemoryOf s) ∧
    (c.rd (key 0x10) ≠ 2 → Runs (.portReceive p true b x y) s fun t => t.unchangedFrom s) ∧
    (c.rd (key 0x10) = 2 → Runs (.portReceive p false b x y) s fun t => counts t 0x14 ∧ t.coresAndMemoryOf s) ∧
    (c.rd (key 0x10) = 2 → ptpMessage b = none → Runs (.portReceive p true b x y) s fun t => counts t 0x15 ∧ t.coresAndMemoryOf s) ∧
    (free → c.source n.val = some (kind, f) → kind < 4 → c.nextSet f = some k → Runs (.readoutStart n) s fun t =>
      t.dev.chip.rd (setOd f k) = 3 ∧ (∃ e, (t.dev.chip.outStream n.val).reading = some e ∧ e.unit = f ∧ e.set_ = k ∧ e.frame = 0) ∧
      t.coresAndMemoryOf s) ∧
    (free → c.source n.val = some (9, f) → c.trigger.ready = j :: js → c.trigger.slots[j] = some z → Runs (.readoutStart n) s fun t =>
      t.dev.chip.slotState j = 3 ∧ t.dev.chip.trigger.ready = js ∧
      (∃ e, (t.dev.chip.outStream n.val).reading = some e ∧ e.unit = j.val ∧ e.set_ = 2) ∧ t.coresAndMemoryOf s) ∧
    ((c.outStream n.val).reading = some r → r.left = 0 → r.set_ ≠ 2 → Runs (.readoutEnd n) s fun t =>
      (t.dev.chip.outStream n.val).reading = none ∧ t.dev.chip.rd (setOd r.unit r.set_) = 0 ∧ t.coresAndMemoryOf s) ∧
    ((c.outStream n.val).reading = some r → r.left = 0 → r.set_ = 2 → Runs (.readoutEnd n) s fun t =>
      t.dev.chip.slotState (Fin.ofNat 8 r.unit) = 0 ∧ t.coresAndMemoryOf s) ∧
    (256 ≤ c.rd (od 0x3800 6) → c.role ≠ 1 → (∀ i : Nat, i ≠ n.val → c.offer i = none) → (c.outStream n.val).reading = none →
      (c.outStream n.val).built = (o, k) :: l → o.launch = none → c.rd (outOd n.val 2) = p.val → (c.port p.val).next = none →
      Runs (.frameSlot p) s fun t =>
      (t.dev.chip.port p.val).next = some o ∧ (t.dev.chip.outStream n.val).built = l ∧ t.coresAndMemoryOf s) ∧
    (ready → c.rd (key 0x10) = 2 → Runs (.macFrameBoundary p) s fun t =>
      t.lastSent (.ether p.val o.bytes) ∧ (t.dev.chip.port p.val).next = none ∧ t.coresAndMemoryOf s) ∧
    (ready → c.rd (key 0x10) ≠ 2 → Runs (.macFrameBoundary p) s fun t =>
      counts t 0x12 ∧ (t.dev.chip.port p.val).next = none ∧ t.dev.chip.out = c.out ∧ t.coresAndMemoryOf s)

/-- A side that is alone sends nothing and one that is not counts its heartbeat; a SEEKING side leads after the start timeout, a shadow
or joining one after the take-over timeout; a lead names the tick of a hand-over, a shadow learns it, and at it the roles change; a
shadow takes the lead's numbers from its heartbeats and pegs; held pegs expire; a joining side starts its data paths, keeps the parts of
a mirrored write, stages no longer what a COMMIT names, and ends its snapshot. -/
def Obligations.TwinOperation : Prop :=
  ∀ (s : State) (sess : Fin 9) (b : Fin 256) (frame body : List Byte) (d : Chip) (h : Nat),
    let c := s.dev.chip
    let key := twinOd
    let role := fun (t : State) => t.dev.chip.role
    let heard := fun (type : Nat) => c.twinIn b.val type frame = (d, some body)
    let pegBody := slice body 8 16
    (c.role = 0 → Runs .twinHeartbeatSend s fun t => t.unchangedFrom s) ∧
    (c.role ≠ 0 → c.twinBundle.isSome = true → Runs .twinHeartbeatSend s fun t =>
      t.dev.chip.rd (key 0x22) = wrapObj (key 0x22) (c.rd (key 0x22) + 1) ∧ t.coresAndMemoryOf s) ∧
    (c.role = 1 → Runs .startTimeout s fun t => role t = 2 ∧ t.coresAndMemoryOf s) ∧
    (c.role = 3 ∨ c.role = 4 → c.twin.heard = some h → Runs .takeOver s fun t =>
      role t = 2 ∧ t.dev.chip.rd (key 0x12) = 0 ∧ t.dev.chip.trigger.standby = [] ∧ t.coresAndMemoryOf s) ∧
    (s.accepts sess (key 0x14) (.num 1) → c.role = 2 → Runs (.handOver sess) s fun t =>
      t.dev.chip.twin.swapAt = some (c.periodStart (c.periodFrom (c.tick + (c.fa + 49) / 50))) ∧ t.answered sess (key 0x14) .ok ∧
      t.coresAndMemoryOf s) ∧
    (s.accepts sess (key 0x14) (.num 1) → c.role ≠ 2 → Runs (.handOver sess) s fun t =>
      t.answered sess (key 0x14) .state ∧ t.coresAndMemoryOf s) ∧
    (heard 0x15 → d.role = 3 → Runs (.handover b frame) s fun t =>
      t.dev.chip.twin.swapAt = some (beAt body 0 8) ∧ t.coresAndMemoryOf s) ∧
    (c.twin.swapAt = some h → c.role = 2 → Runs .handoverTick s fun t => role t = 3 ∧ t.coresAndMemoryOf s) ∧
    (c.twin.swapAt = some h → c.role = 3 → Runs .handoverTick s fun t =>
      role t = 2 ∧ t.dev.chip.twin.waiting = true ∧ t.coresAndMemoryOf s) ∧
    (heard 0x13 → d.role = 3 → beAt body 0 1 = 2 → Runs (.heartbeat b frame) s fun t => role t = 3 ∧
      t.dev.chip.trigger.seq = (beAt body 16 2 + 1) % 65536 ∧ t.dev.chip.trigger.msgId = (beAt body 18 6 + 1) % 2 ^ 48 ∧
      t.dev.chip.rd (key 0x11) = 2 ∧ t.dev.chip.rd (key 0x12) = 1 ∧ t.coresAndMemoryOf s) ∧
    (heard 0x13 → d.role = 1 → beAt body 0 1 = 1 → d.preferred = true → Runs (.heartbeat b frame) s fun t =>
      role t = 2 ∧ t.coresAndMemoryOf s) ∧
    (heard 0x12 → d.shadow = true → beAt body 0 1 = 1 → Runs (.pegs b frame) s fun t =>
      t.dev.chip.trigger.seq = (beAt pegBody 8 2 + 1) % 65536 ∧ t.coresAndMemoryOf s) ∧
    (Runs .standbyExpiry s fun t => (∀ e ∈ t.dev.chip.trigger.standby, e ∈ c.trigger.standby ∧ t.dev.chip.lc < e.2 + c.rd (key 9) * 1000) ∧
      t.coresAndMemoryOf s) ∧
    (c.twin.startAt = some h → c.role ≠ 0 → Runs .joiningDataPathStart s fun t => t.dev.chip.twin.runs = [] ∧ t.coresAndMemoryOf s) ∧
    (heard 0x10 → d.mirrors = true → beAt body 4 4 = 0 → bitAt (beAt body 3 1) 6 = false → Runs (.mirrorWrite b frame) s fun t =>
      t.dev.chip.twin.part = some ⟨od (beAt body 0 2) (beAt body 2 1), body.drop 16, bitAt (beAt body 3 1) 7, beAt body 12 4⟩ ∧
      t.coresAndMemoryOf s) ∧
    (heard 0x11 → d.mirrors = true → Runs (.mirrorCommit b frame) s fun t => t.dev.chip.twin.staged = []) ∧
    (heard 0x14 → d.role = 4 → d.twin.snapshot = true → beAt body 0 1 = 1 → Runs (.snapshot b frame) s fun t =>
      t.dev.chip.twin.snapshot = false ∧ t.dev.chip.twin.startAt.isSome = true ∧ t.dev.chip.rd (key 0x13) = beAt body 8 8 ∧
      t.coresAndMemoryOf s)

/-- For every byte string the CRC is the complement of the reflected remainder of the polynomial 0x04C11DB7, started at 0xFFFFFFFF, with
each byte entered from bit 0 on; over the nine bytes of "123456789" it is 0xCBF43926. (R88) -/
def Obligations.CrcIsReflected : Prop :=
  ∀ b : List Byte,
    let feed := fun (r : BitVec 32) (bit : Bool) => if r.msb == bit then r <<< 1 else (r <<< 1) ^^^ 0x04C11DB7#32
    let message := b.flatMap fun x => (List.range 8).map fun i => x.getLsbD i
    crc32 b = (~~~ (message.foldl feed 0xFFFFFFFF#32).reverse).toNat ∧
    crc32 [0x31, 0x32, 0x33, 0x34, 0x35, 0x36, 0x37, 0x38, 0x39] = 0xCBF43926

/-- A candidate is qualified exactly when it is enabled and active, its effective QL is not 0xF, it is not disqualified and a gate has
ended since it became active; the end of a gate of an enabled, active candidate at or below its soft threshold leaves it not
disqualified, and qualified unless its effective QL is 0xF. (R400) -/
def Obligations.QualifiedCandidates : Prop :=
  ∀ (s : State) (k : Fin 7) (raw : Int),
    let c := s.dev.chip
    let d := c.untilLc ((c.cand k).gateAt + c.rd (od 0x4800 0x12) * 1000000)
    let y := if k = 6 then d.ptpOffset else raw + d.xoError
    (c.candQualified k = true ↔ c.rd (od (0x4810 + k.val) 1) = 1 ∧ c.candActive k = true ∧ c.effectiveQl k ≠ 0xF ∧
      (c.cand k).disq = false ∧ (c.cand k).gated = true) ∧
    (c.rd (od (0x4810 + k.val) 1) = 1 → c.candActive k = true → 2 ≤ c.candState k → d.candActive k = true → y.natAbs ≤ c.rd (od (0x4810 + k.val) 6) →
      Runs (.frequencyGateEnd k raw) s fun t =>
      (t.dev.chip.cand k).disq = false ∧ (c.effectiveQl k ≠ 0xF → t.dev.chip.candQualified k = true) ∧ t.coresAndMemoryOf s)

/-- The memories are in canonical form and every setter's SR, MR and loop stack are as R281 to R283 and R311 give them (the canonical
form is the model's own). -/
def Obligations.DevWfReset : Prop :=
  State.reset.dev.wf

/-- From every state whose memories are in canonical form and whose setters have no reserved bit of SR or MR set, at most four active
loops and none on the stack while none is active, whatever command or idle cycle comes next, the next state is so too (the canonical
form is the model's own). -/
def Obligations.StepKeepsDevWf : Prop :=
  ∀ (s t : State), s.dev.wf → step s = .next t → t.dev.wf

/-- From every state, whatever the command, a step answers a next state, and its queue is the old one without its front: no command is
refused, faults, is lost or reordered (the queue is the model's own). -/
def Obligations.StepTakesFrontOnly : Prop :=
  ∀ (s : State), ∃ t, step s = .next t ∧ t.pending = s.pending.tail

/-- For every memory, address and byte string: reading as many bytes from the address after writing the string gives the string, and
every address outside it reads as before, also inside ranges whose contents are undefined. -/
def Obligations.MemoryReadAfterWrite : Prop :=
  ∀ (m : ByteMem) (a : Nat) (b : List Byte),
    getBytes (putBytes m a b) a b.length = b ∧
    ∀ k : Nat, (k < a ∨ a + b.length ≤ k) → byteAt (putBytes m a b) k = byteAt m k
end

