-- ==== Sys2Proof/Laws/Maps.lean ====
section
/-! SUPPORT. Laws of the sparse maps and of the byte memories: read after write, and that every operation keeps the canonical form. -/

namespace Sys2Proof.Machine

/-! ### Read after write -/

theorem sget_sdel_same {α : Type} (d : Nat → α) (m : SMap α) (k : Nat) : sget d (sdel m k) k = d k := by
  induction m with
  | nil => rfl
  | cons e t ih => obtain ⟨a, v⟩ := e; by_cases h : k = a <;> simp [sdel, sget, h] <;> (try subst h) <;> simpa using ih

theorem sget_sdel_ne {α : Type} (d : Nat → α) (m : SMap α) {k j : Nat} (h : j ≠ k) : sget d (sdel m k) j = sget d m j := by
  induction m with
  | nil => rfl
  | cons e t ih =>
    obtain ⟨a, v⟩ := e
    by_cases hk : k = a
    · subst hk; simp [sdel, sget, h, ih]
    · by_cases hj : j = a <;> simp [sdel, sget, hk, hj, ih]

theorem sget_sins_same {α : Type} (d : Nat → α) (m : SMap α) (k : Nat) (x : α) : sget d (sins m k x) k = x := by
  induction m with
  | nil => simp [sins, sget]
  | cons e t ih =>
    obtain ⟨a, v⟩ := e
    by_cases hk : k = a
    · simp [sins, sget, hk]
    · by_cases hl : k < a <;> simp [sins, sget, hk, hl, ih]

theorem sget_sins_ne {α : Type} (d : Nat → α) (m : SMap α) {k j : Nat} (x : α) (h : j ≠ k) :
    sget d (sins m k x) j = sget d m j := by
  induction m with
  | nil => simp [sins, sget, h]
  | cons e t ih =>
    obtain ⟨a, v⟩ := e
    by_cases hk : k = a
    · subst hk; simp [sins, sget, h]
    · by_cases hl : k < a
      · simp [sins, sget, hk, hl, h]
      · by_cases hj : j = a <;> simp [sins, sget, hk, hl, hj, ih]

/-- A key that was set reads as the value. -/
@[simp] theorem sget_sset_same {α : Type} [DecidableEq α] (d : Nat → α) (m : SMap α) (k : Nat) (v : α) :
    sget d (sset d m k v) k = v := by
  by_cases h : v = d k
  · simp [sset, h, sget_sdel_same]
  · simp [sset, h, sget_sins_same]

/-- Every other key reads as before. -/
theorem sget_sset_ne {α : Type} [DecidableEq α] (d : Nat → α) (m : SMap α) {k j : Nat} (v : α) (h : j ≠ k) :
    sget d (sset d m k v) j = sget d m j := by
  by_cases hv : v = d k
  · simp [sset, hv, sget_sdel_ne d m h]
  · simp [sset, hv, sget_sins_ne d m v h]

/-! ### The canonical form -/

theorem wfFrom_iff {α : Type} [DecidableEq α] (d : Nat → α) (lo : Option Nat) (a : Nat) (v : α) (t : SMap α) :
    SMap.wfFrom d lo ((a, v) :: t) = true ↔ (∀ l, lo = some l → l < a) ∧ v ≠ d a ∧ SMap.wfFrom d (some a) t = true := by
  cases lo <;> simp [SMap.wfFrom, and_assoc]

/-- A lower bound can be loosened. -/
theorem wfFrom_weaken {α : Type} [DecidableEq α] (d : Nat → α) (lo hi : Option Nat) (m : SMap α)
    (h : ∀ l, lo = some l → ∃ u, hi = some u ∧ l ≤ u) (w : SMap.wfFrom d hi m = true) : SMap.wfFrom d lo m = true := by
  cases m with
  | nil => rfl
  | cons e t =>
    obtain ⟨a, v⟩ := e
    rw [wfFrom_iff] at w ⊢
    refine ⟨fun l hl => ?_, w.2⟩
    obtain ⟨u, hu, hlu⟩ := h l hl
    have := w.1 u hu
    omega

theorem sdel_wfFrom {α : Type} [DecidableEq α] (d : Nat → α) (lo : Option Nat) (m : SMap α) (k : Nat)
    (w : SMap.wfFrom d lo m = true) : SMap.wfFrom d lo (sdel m k) = true := by
  induction m generalizing lo with
  | nil => rfl
  | cons e t ih =>
    obtain ⟨a, v⟩ := e
    rw [wfFrom_iff] at w
    by_cases hk : k = a
    · simp only [sdel, hk, if_true]
      rw [← hk]
      refine ih lo (wfFrom_weaken d lo (some a) t (fun l hl => ⟨a, rfl, ?_⟩) w.2.2)
      have := w.1 l hl; omega
    · simp only [sdel, hk, if_false]
      rw [wfFrom_iff]
      exact ⟨w.1, w.2.1, ih (some a) w.2.2⟩

theorem sins_wfFrom {α : Type} [DecidableEq α] (d : Nat → α) (lo : Option Nat) (m : SMap α) (k : Nat) (x : α)
    (hx : x ≠ d k) (hlo : ∀ l, lo = some l → l < k) (w : SMap.wfFrom d lo m = true) :
    SMap.wfFrom d lo (sins m k x) = true := by
  induction m generalizing lo with
  | nil => simp only [sins]; rw [wfFrom_iff]; exact ⟨hlo, hx, rfl⟩
  | cons e t ih =>
    obtain ⟨a, v⟩ := e
    rw [wfFrom_iff] at w
    by_cases hk : k = a
    · subst hk; simp only [sins, if_true]; rw [wfFrom_iff]; exact ⟨hlo, hx, w.2.2⟩
    · by_cases hl : k < a
      · simp only [sins, hk, hl, if_false, if_true]
        rw [wfFrom_iff, wfFrom_iff]
        exact ⟨hlo, hx, fun l h => by cases h; exact hl, w.2⟩
      · simp only [sins, hk, hl, if_false]
        rw [wfFrom_iff]
        exact ⟨w.1, w.2.1, ih (some a) (fun l h => by cases h; omega) w.2.2⟩

/-- A write keeps the canonical form. -/
theorem sset_wf {α : Type} [DecidableEq α] (d : Nat → α) (m : SMap α) (k : Nat) (v : α) (w : SMap.wf d m = true) :
    SMap.wf d (sset d m k v) = true := by
  unfold sset
  by_cases h : v = d k
  · rw [if_pos h]; exact sdel_wfFrom d none m k w
  · rw [if_neg h]; exact sins_wfFrom d none m k v h (fun l hl => by cases hl) w

/-- Leaving entries out keeps the canonical form, and the default may change where nothing is listed. -/
theorem filter_wfFrom {α : Type} [DecidableEq α] (d d' : Nat → α) (p : Nat × α → Bool) (lo : Option Nat) (m : SMap α)
    (h : ∀ e ∈ m, p e = true → d' e.1 = d e.1) (w : SMap.wfFrom d lo m = true) :
    SMap.wfFrom d' lo (m.filter p) = true := by
  induction m generalizing lo with
  | nil => rfl
  | cons e t ih =>
    obtain ⟨a, v⟩ := e
    rw [wfFrom_iff] at w
    have ht := ih (some a) (fun e he => h e (List.mem_cons_of_mem _ he)) w.2.2
    by_cases hp : p (a, v) = true
    · rw [List.filter_cons_of_pos hp, wfFrom_iff]
      exact ⟨w.1, by rw [h (a, v) (List.mem_cons_self ..) hp]; exact w.2.1, ht⟩
    · rw [List.filter_cons_of_neg (by simpa using hp)]
      refine wfFrom_weaken d' lo (some a) _ (fun l hl => ⟨a, rfl, ?_⟩) ht
      have := w.1 l hl; omega

/-! ### Byte memories -/

@[simp] theorem putByte_undef (m : ByteMem) (a : Nat) (v : Byte) : (putByte m a v).undef = m.undef := rfl

@[simp] theorem putByte_dflt (m : ByteMem) (a : Nat) (v : Byte) : (putByte m a v).dflt = m.dflt := rfl

/-- A byte written reads as written. -/
@[simp] theorem byteAt_putByte_same (m : ByteMem) (a : Nat) (v : Byte) : byteAt (putByte m a v) a = v := by
  show sget m.dflt (sset m.dflt m.cells a v) a = v
  simp

/-- Every other byte reads as before. -/
theorem byteAt_putByte_ne (m : ByteMem) {a b : Nat} (v : Byte) (h : b ≠ a) : byteAt (putByte m a v) b = byteAt m b := by
  show sget m.dflt (sset m.dflt m.cells a v) b = sget m.dflt m.cells b
  exact sget_sset_ne m.dflt m.cells v h

/-- A byte written keeps the canonical form. -/
theorem putByte_wf (m : ByteMem) (a : Nat) (v : Byte) (w : Memory.wf m = true) : Memory.wf (putByte m a v) = true :=
  sset_wf m.dflt m.cells a v w

/-- Bytes written keep the canonical form. -/
theorem putBytes_wf (m : ByteMem) (a : Nat) (b : List Byte) (w : Memory.wf m = true) : Memory.wf (putBytes m a b) = true := by
  induction b generalizing m a with
  | nil => exact w
  | cons v t ih => exact ih (putByte m a v) (a + 1) (putByte_wf m a v w)

/-- A memory in which nothing is listed is canonical. -/
@[simp] theorem zero_wf : Memory.wf ByteMem.zero = true := rfl

/-- A range that becomes undefined keeps the canonical form. -/
theorem lose_wf (m : ByteMem) (lo hi seed : Nat) (w : Memory.wf m = true) : Memory.wf (m.lose lo hi seed) = true := by
  refine filter_wfFrom m.dflt (m.lose lo hi seed).dflt _ none m.cells (fun e _ he => ?_) w
  have hn : (decide (lo ≤ e.1) && decide (e.1 < hi)) = false := by
    cases h : decide (lo ≤ e.1) && decide (e.1 < hi)
    · rfl
    · simp only [h] at he; cases he
  simp only [ByteMem.dflt, ByteMem.lose, List.find?_cons, hn]

end Sys2Proof.Machine
end

