-- ==== Sys2Proof/Laws/Setter.lean ====
section
/-! SUPPORT. What one instruction of a quiet setter does (`State.quiet`): nothing lands, nothing loops, and the state after it is its own
effect and the end of the instruction. -/

namespace Sys2Proof.Machine

/-- No instruction at LPEND waits for its loop-back decision: there is none. -/
theorem loopBack_of_not_hit (x : Setter) (h : x.lpHit = false) : x.loopBack = x := by
  cases x; simp_all [Setter.loopBack]

/-- An empty pipeline has nothing to land. -/
theorem advance_of_empty (x : Setter) (h : x.flight = []) : x.advance = x := by
  cases x; simp_all [Setter.advance]

/-- Nor has a flush of it. -/
theorem flush_of_empty (x : Setter) (h : x.flight = []) : x.flush = x := by
  unfold Setter.flush
  rw [advance_of_empty x h, advance_of_empty x h, advance_of_empty x h]

/-- Outside a loop no instruction is copied to the repeat cache. -/
theorem copied_of_not_looping (x : Setter) (h : x.looping = false) : x.copied = x := by
  simp [Setter.copied, Setter.inBody, h]

theorem running_eta (x : Setter) (h : x.mode = .running) (h' : x.syncing = false) :
    ({ x with mode := .running, syncing := false } : Setter) = x := by
  cases x; simp_all

/-- An instruction of a quiet setter: its fault is taken, or it has its effect and ends. -/
theorem instruction_quiet (s : State) (n : Fin 8) (h : s.quiet n) (sh : Shape) (reads : Setter → List (Fin 64))
    (body : Chip → Setter → Effect) :
    instruction s n sh reads body =
      match (body s.dev.chip (s.dev.cores[n])).fault with
      | some (cause, faddr) =>
        let e := body s.dev.chip (s.dev.cores[n])
        let r := takeFault e.chip n e.core cause faddr
        .next { s with dev := { s.dev with chip := r.1, cores := s.dev.cores.set n r.2 } }
      | none =>
        let e := body s.dev.chip (s.dev.cores[n])
        let y := finish e.core (s.dev.cores[n]).pc e.jump e.setup e.stall
        .next { s with dev := { s.dev with chip := e.chip, cores := s.dev.cores.set n y } } := by
  obtain ⟨h1, h2, h3, h4, h5, h6, h7, h8, h9, -⟩ := h
  have r : ready s.dev.chip n (s.dev.cores[n]) = true := by
    unfold ready; rw [h1, h2, h3]; rfl
  have i : interlocked (s.dev.cores[n]) (reads (s.dev.cores[n])) = false := by
    unfold interlocked; rw [h5]; simp
  have l : atLoopEnd (s.dev.cores[n]) = false := by unfold atLoopEnd; rw [h8]; rfl
  unfold instruction
  simp only []
  rw [r, running_eta _ h2 h3, loopBack_of_not_hit _ h9, advance_of_empty _ h4, copied_of_not_looping _ h8, i, l, h7, h6]
  generalize body s.dev.chip s.dev.cores[n] = e
  cases e.fault <;> simp

/-- The end of an instruction with no branch, repeat, loop or map change under way. -/
theorem finish_quiet (x : Setter) (a : BitVec 16) (st : Nat) (hb : x.branch = none) (hr : x.rptcnt = 0) (hl : x.looping = false)
    (hh : x.lpHit = false) (hm : x.remap = none) :
    finish x a none false st = { x with pc := a + 1, cyc := x.cyc + BitVec.ofNat 64 (1 + st) } := by
  cases x; simp_all [finish]

end Sys2Proof.Machine
end

