-- ==== Sys2Proof/Laws/State.lean ====
section
/-! SUPPORT. The small laws of State: what each update of a part of it leaves as it was, and that a part that was set reads as it was set. -/

namespace Sys2Proof.Machine

set_option Elab.async false

variable (c : Chip)


/-! ### A scalar object set -/

@[simp] theorem Chip.wr_lc (k v : Nat) : (c.wr k v).lc = c.lc := rfl
@[simp] theorem Chip.wr_xo (k v : Nat) : (c.wr k v).xo = c.xo := rfl
@[simp] theorem Chip.wr_free (k v : Nat) : (c.wr k v).free = c.free := rfl
@[simp] theorem Chip.wr_dom (k v : Nat) : (c.wr k v).dom = c.dom := rfl
@[simp] theorem Chip.wr_out (k v : Nat) : (c.wr k v).out = c.out := rfl
@[simp] theorem Chip.wr_dict (k v : Nat) : (c.wr k v).dict = c.dict := rfl
@[simp] theorem Chip.wr_faults (k v : Nat) : (c.wr k v).faults = c.faults := rfl
@[simp] theorem Chip.wr_ipend (k v : Nat) : (c.wr k v).ipend = c.ipend := rfl
@[simp] theorem Chip.wr_frontSeen (k v : Nat) : (c.wr k v).frontSeen = c.frontSeen := rfl
@[simp] theorem Chip.wr_frontAny (k v : Nat) : (c.wr k v).frontAny = c.frontAny := rfl
@[simp] theorem Chip.wr_streams (k v : Nat) : (c.wr k v).streams = c.streams := rfl
@[simp] theorem Chip.wr_writer (k v : Nat) : (c.wr k v).writer = c.writer := rfl
@[simp] theorem Chip.wr_time (k v : Nat) : (c.wr k v).time = c.time := rfl
@[simp] theorem Chip.wr_hbm (k v : Nat) : (c.wr k v).hbm = c.hbm := rfl
@[simp] theorem Chip.wr_matrix (k v : Nat) : (c.wr k v).matrix = c.matrix := rfl
@[simp] theorem Chip.wr_power (k v : Nat) : (c.wr k v).power = c.power := rfl
@[simp] theorem Chip.wr_reports (k v : Nat) : (c.wr k v).reports = c.reports := rfl
@[simp] theorem Chip.wr_clock (k v : Nat) : (c.wr k v).clock = c.clock := rfl
@[simp] theorem Chip.wr_lanes (k v : Nat) : (c.wr k v).lanes = c.lanes := rfl
@[simp] theorem Chip.wr_bundles (k v : Nat) : (c.wr k v).bundles = c.bundles := rfl
@[simp] theorem Chip.wr_ports (k v : Nat) : (c.wr k v).ports = c.ports := rfl
@[simp] theorem Chip.wr_trigger (k v : Nat) : (c.wr k v).trigger = c.trigger := rfl
@[simp] theorem Chip.wr_past (k v : Nat) : (c.wr k v).past = c.past := rfl
@[simp] theorem Chip.wr_twin (k v : Nat) : (c.wr k v).twin = c.twin := rfl
@[simp] theorem Chip.wr_fe (k v : Nat) : (c.wr k v).fe = c.fe := rfl
@[simp] theorem Chip.wr_truss (k v : Nat) : (c.wr k v).truss = c.truss := rfl
@[simp] theorem Chip.wr_xe (k v : Nat) : (c.wr k v).xe = c.xe := rfl
@[simp] theorem Chip.wr_outs (k v : Nat) : (c.wr k v).outs = c.outs := rfl
@[simp] theorem Chip.wr_rst (k v : Nat) : (c.wr k v).rst = c.rst := rfl
@[simp] theorem Chip.wr_pkg (k v : Nat) : (c.wr k v).pkg = c.pkg := rfl
@[simp] theorem Chip.wr_rdDom (k v : Nat) (j : Nat) : (c.wr k v).rdDom j = c.rdDom j := rfl

/-! ### A DOMAIN object set -/

@[simp] theorem Chip.wrDom_lc (k : Nat) (b : List Byte) : (c.wrDom k b).lc = c.lc := rfl
@[simp] theorem Chip.wrDom_xo (k : Nat) (b : List Byte) : (c.wrDom k b).xo = c.xo := rfl
@[simp] theorem Chip.wrDom_free (k : Nat) (b : List Byte) : (c.wrDom k b).free = c.free := rfl
@[simp] theorem Chip.wrDom_obj (k : Nat) (b : List Byte) : (c.wrDom k b).obj = c.obj := rfl
@[simp] theorem Chip.wrDom_out (k : Nat) (b : List Byte) : (c.wrDom k b).out = c.out := rfl
@[simp] theorem Chip.wrDom_dict (k : Nat) (b : List Byte) : (c.wrDom k b).dict = c.dict := rfl
@[simp] theorem Chip.wrDom_faults (k : Nat) (b : List Byte) : (c.wrDom k b).faults = c.faults := rfl
@[simp] theorem Chip.wrDom_ipend (k : Nat) (b : List Byte) : (c.wrDom k b).ipend = c.ipend := rfl
@[simp] theorem Chip.wrDom_frontSeen (k : Nat) (b : List Byte) : (c.wrDom k b).frontSeen = c.frontSeen := rfl
@[simp] theorem Chip.wrDom_frontAny (k : Nat) (b : List Byte) : (c.wrDom k b).frontAny = c.frontAny := rfl
@[simp] theorem Chip.wrDom_streams (k : Nat) (b : List Byte) : (c.wrDom k b).streams = c.streams := rfl
@[simp] theorem Chip.wrDom_writer (k : Nat) (b : List Byte) : (c.wrDom k b).writer = c.writer := rfl
@[simp] theorem Chip.wrDom_time (k : Nat) (b : List Byte) : (c.wrDom k b).time = c.time := rfl
@[simp] theorem Chip.wrDom_hbm (k : Nat) (b : List Byte) : (c.wrDom k b).hbm = c.hbm := rfl
@[simp] theorem Chip.wrDom_matrix (k : Nat) (b : List Byte) : (c.wrDom k b).matrix = c.matrix := rfl
@[simp] theorem Chip.wrDom_power (k : Nat) (b : List Byte) : (c.wrDom k b).power = c.power := rfl
@[simp] theorem Chip.wrDom_reports (k : Nat) (b : List Byte) : (c.wrDom k b).reports = c.reports := rfl
@[simp] theorem Chip.wrDom_clock (k : Nat) (b : List Byte) : (c.wrDom k b).clock = c.clock := rfl
@[simp] theorem Chip.wrDom_lanes (k : Nat) (b : List Byte) : (c.wrDom k b).lanes = c.lanes := rfl
@[simp] theorem Chip.wrDom_bundles (k : Nat) (b : List Byte) : (c.wrDom k b).bundles = c.bundles := rfl
@[simp] theorem Chip.wrDom_ports (k : Nat) (b : List Byte) : (c.wrDom k b).ports = c.ports := rfl
@[simp] theorem Chip.wrDom_trigger (k : Nat) (b : List Byte) : (c.wrDom k b).trigger = c.trigger := rfl
@[simp] theorem Chip.wrDom_past (k : Nat) (b : List Byte) : (c.wrDom k b).past = c.past := rfl
@[simp] theorem Chip.wrDom_twin (k : Nat) (b : List Byte) : (c.wrDom k b).twin = c.twin := rfl
@[simp] theorem Chip.wrDom_fe (k : Nat) (b : List Byte) : (c.wrDom k b).fe = c.fe := rfl
@[simp] theorem Chip.wrDom_truss (k : Nat) (b : List Byte) : (c.wrDom k b).truss = c.truss := rfl
@[simp] theorem Chip.wrDom_xe (k : Nat) (b : List Byte) : (c.wrDom k b).xe = c.xe := rfl
@[simp] theorem Chip.wrDom_outs (k : Nat) (b : List Byte) : (c.wrDom k b).outs = c.outs := rfl
@[simp] theorem Chip.wrDom_rst (k : Nat) (b : List Byte) : (c.wrDom k b).rst = c.rst := rfl
@[simp] theorem Chip.wrDom_pkg (k : Nat) (b : List Byte) : (c.wrDom k b).pkg = c.pkg := rfl
@[simp] theorem Chip.wrDom_rd (k : Nat) (b : List Byte) (j : Nat) : (c.wrDom k b).rd j = c.rd j := rfl

/-! ### Something sent -/

@[simp] theorem Chip.send_lc (x : Sent) : (c.send x).lc = c.lc := rfl
@[simp] theorem Chip.send_xo (x : Sent) : (c.send x).xo = c.xo := rfl
@[simp] theorem Chip.send_free (x : Sent) : (c.send x).free = c.free := rfl
@[simp] theorem Chip.send_obj (x : Sent) : (c.send x).obj = c.obj := rfl
@[simp] theorem Chip.send_dom (x : Sent) : (c.send x).dom = c.dom := rfl
@[simp] theorem Chip.send_dict (x : Sent) : (c.send x).dict = c.dict := rfl
@[simp] theorem Chip.send_faults (x : Sent) : (c.send x).faults = c.faults := rfl
@[simp] theorem Chip.send_ipend (x : Sent) : (c.send x).ipend = c.ipend := rfl
@[simp] theorem Chip.send_frontSeen (x : Sent) : (c.send x).frontSeen = c.frontSeen := rfl
@[simp] theorem Chip.send_frontAny (x : Sent) : (c.send x).frontAny = c.frontAny := rfl
@[simp] theorem Chip.send_streams (x : Sent) : (c.send x).streams = c.streams := rfl
@[simp] theorem Chip.send_writer (x : Sent) : (c.send x).writer = c.writer := rfl
@[simp] theorem Chip.send_time (x : Sent) : (c.send x).time = c.time := rfl
@[simp] theorem Chip.send_hbm (x : Sent) : (c.send x).hbm = c.hbm := rfl
@[simp] theorem Chip.send_matrix (x : Sent) : (c.send x).matrix = c.matrix := rfl
@[simp] theorem Chip.send_power (x : Sent) : (c.send x).power = c.power := rfl
@[simp] theorem Chip.send_reports (x : Sent) : (c.send x).reports = c.reports := rfl
@[simp] theorem Chip.send_clock (x : Sent) : (c.send x).clock = c.clock := rfl
@[simp] theorem Chip.send_lanes (x : Sent) : (c.send x).lanes = c.lanes := rfl
@[simp] theorem Chip.send_bundles (x : Sent) : (c.send x).bundles = c.bundles := rfl
@[simp] theorem Chip.send_ports (x : Sent) : (c.send x).ports = c.ports := rfl
@[simp] theorem Chip.send_trigger (x : Sent) : (c.send x).trigger = c.trigger := rfl
@[simp] theorem Chip.send_past (x : Sent) : (c.send x).past = c.past := rfl
@[simp] theorem Chip.send_twin (x : Sent) : (c.send x).twin = c.twin := rfl
@[simp] theorem Chip.send_fe (x : Sent) : (c.send x).fe = c.fe := rfl
@[simp] theorem Chip.send_truss (x : Sent) : (c.send x).truss = c.truss := rfl
@[simp] theorem Chip.send_xe (x : Sent) : (c.send x).xe = c.xe := rfl
@[simp] theorem Chip.send_outs (x : Sent) : (c.send x).outs = c.outs := rfl
@[simp] theorem Chip.send_rst (x : Sent) : (c.send x).rst = c.rst := rfl
@[simp] theorem Chip.send_pkg (x : Sent) : (c.send x).pkg = c.pkg := rfl
@[simp] theorem Chip.send_rd (x : Sent) (j : Nat) : (c.send x).rd j = c.rd j := rfl
@[simp] theorem Chip.send_rdDom (x : Sent) (j : Nat) : (c.send x).rdDom j = c.rdDom j := rfl

/-! ### A time view set -/

@[simp] theorem Chip.setView_lc (v : Fin 4) (x : TimeView) : (c.setView v x).lc = c.lc := rfl
@[simp] theorem Chip.setView_xo (v : Fin 4) (x : TimeView) : (c.setView v x).xo = c.xo := rfl
@[simp] theorem Chip.setView_free (v : Fin 4) (x : TimeView) : (c.setView v x).free = c.free := rfl
@[simp] theorem Chip.setView_obj (v : Fin 4) (x : TimeView) : (c.setView v x).obj = c.obj := rfl
@[simp] theorem Chip.setView_dom (v : Fin 4) (x : TimeView) : (c.setView v x).dom = c.dom := rfl
@[simp] theorem Chip.setView_out (v : Fin 4) (x : TimeView) : (c.setView v x).out = c.out := rfl
@[simp] theorem Chip.setView_dict (v : Fin 4) (x : TimeView) : (c.setView v x).dict = c.dict := rfl
@[simp] theorem Chip.setView_faults (v : Fin 4) (x : TimeView) : (c.setView v x).faults = c.faults := rfl
@[simp] theorem Chip.setView_ipend (v : Fin 4) (x : TimeView) : (c.setView v x).ipend = c.ipend := rfl
@[simp] theorem Chip.setView_frontSeen (v : Fin 4) (x : TimeView) : (c.setView v x).frontSeen = c.frontSeen := rfl
@[simp] theorem Chip.setView_frontAny (v : Fin 4) (x : TimeView) : (c.setView v x).frontAny = c.frontAny := rfl
@[simp] theorem Chip.setView_streams (v : Fin 4) (x : TimeView) : (c.setView v x).streams = c.streams := rfl
@[simp] theorem Chip.setView_writer (v : Fin 4) (x : TimeView) : (c.setView v x).writer = c.writer := rfl
@[simp] theorem Chip.setView_hbm (v : Fin 4) (x : TimeView) : (c.setView v x).hbm = c.hbm := rfl
@[simp] theorem Chip.setView_matrix (v : Fin 4) (x : TimeView) : (c.setView v x).matrix = c.matrix := rfl
@[simp] theorem Chip.setView_power (v : Fin 4) (x : TimeView) : (c.setView v x).power = c.power := rfl
@[simp] theorem Chip.setView_reports (v : Fin 4) (x : TimeView) : (c.setView v x).reports = c.reports := rfl
@[simp] theorem Chip.setView_clock (v : Fin 4) (x : TimeView) : (c.setView v x).clock = c.clock := rfl
@[simp] theorem Chip.setView_lanes (v : Fin 4) (x : TimeView) : (c.setView v x).lanes = c.lanes := rfl
@[simp] theorem Chip.setView_bundles (v : Fin 4) (x : TimeView) : (c.setView v x).bundles = c.bundles := rfl
@[simp] theorem Chip.setView_ports (v : Fin 4) (x : TimeView) : (c.setView v x).ports = c.ports := rfl
@[simp] theorem Chip.setView_trigger (v : Fin 4) (x : TimeView) : (c.setView v x).trigger = c.trigger := rfl
@[simp] theorem Chip.setView_past (v : Fin 4) (x : TimeView) : (c.setView v x).past = c.past := rfl
@[simp] theorem Chip.setView_twin (v : Fin 4) (x : TimeView) : (c.setView v x).twin = c.twin := rfl
@[simp] theorem Chip.setView_fe (v : Fin 4) (x : TimeView) : (c.setView v x).fe = c.fe := rfl
@[simp] theorem Chip.setView_truss (v : Fin 4) (x : TimeView) : (c.setView v x).truss = c.truss := rfl
@[simp] theorem Chip.setView_xe (v : Fin 4) (x : TimeView) : (c.setView v x).xe = c.xe := rfl
@[simp] theorem Chip.setView_outs (v : Fin 4) (x : TimeView) : (c.setView v x).outs = c.outs := rfl
@[simp] theorem Chip.setView_rst (v : Fin 4) (x : TimeView) : (c.setView v x).rst = c.rst := rfl
@[simp] theorem Chip.setView_pkg (v : Fin 4) (x : TimeView) : (c.setView v x).pkg = c.pkg := rfl
@[simp] theorem Chip.setView_rd (v : Fin 4) (x : TimeView) (j : Nat) : (c.setView v x).rd j = c.rd j := rfl
@[simp] theorem Chip.setView_rdDom (v : Fin 4) (x : TimeView) (j : Nat) : (c.setView v x).rdDom j = c.rdDom j := rfl

/-! ### A clock candidate set -/

@[simp] theorem Chip.setCand_lc (k : Fin 7) (x : Candidate) : (c.setCand k x).lc = c.lc := rfl
@[simp] theorem Chip.setCand_xo (k : Fin 7) (x : Candidate) : (c.setCand k x).xo = c.xo := rfl
@[simp] theorem Chip.setCand_free (k : Fin 7) (x : Candidate) : (c.setCand k x).free = c.free := rfl
@[simp] theorem Chip.setCand_obj (k : Fin 7) (x : Candidate) : (c.setCand k x).obj = c.obj := rfl
@[simp] theorem Chip.setCand_dom (k : Fin 7) (x : Candidate) : (c.setCand k x).dom = c.dom := rfl
@[simp] theorem Chip.setCand_out (k : Fin 7) (x : Candidate) : (c.setCand k x).out = c.out := rfl
@[simp] theorem Chip.setCand_dict (k : Fin 7) (x : Candidate) : (c.setCand k x).dict = c.dict := rfl
@[simp] theorem Chip.setCand_faults (k : Fin 7) (x : Candidate) : (c.setCand k x).faults = c.faults := rfl
@[simp] theorem Chip.setCand_ipend (k : Fin 7) (x : Candidate) : (c.setCand k x).ipend = c.ipend := rfl
@[simp] theorem Chip.setCand_frontSeen (k : Fin 7) (x : Candidate) : (c.setCand k x).frontSeen = c.frontSeen := rfl
@[simp] theorem Chip.setCand_frontAny (k : Fin 7) (x : Candidate) : (c.setCand k x).frontAny = c.frontAny := rfl
@[simp] theorem Chip.setCand_streams (k : Fin 7) (x : Candidate) : (c.setCand k x).streams = c.streams := rfl
@[simp] theorem Chip.setCand_writer (k : Fin 7) (x : Candidate) : (c.setCand k x).writer = c.writer := rfl
@[simp] theorem Chip.setCand_time (k : Fin 7) (x : Candidate) : (c.setCand k x).time = c.time := rfl
@[simp] theorem Chip.setCand_hbm (k : Fin 7) (x : Candidate) : (c.setCand k x).hbm = c.hbm := rfl
@[simp] theorem Chip.setCand_matrix (k : Fin 7) (x : Candidate) : (c.setCand k x).matrix = c.matrix := rfl
@[simp] theorem Chip.setCand_power (k : Fin 7) (x : Candidate) : (c.setCand k x).power = c.power := rfl
@[simp] theorem Chip.setCand_reports (k : Fin 7) (x : Candidate) : (c.setCand k x).reports = c.reports := rfl
@[simp] theorem Chip.setCand_lanes (k : Fin 7) (x : Candidate) : (c.setCand k x).lanes = c.lanes := rfl
@[simp] theorem Chip.setCand_bundles (k : Fin 7) (x : Candidate) : (c.setCand k x).bundles = c.bundles := rfl
@[simp] theorem Chip.setCand_ports (k : Fin 7) (x : Candidate) : (c.setCand k x).ports = c.ports := rfl
@[simp] theorem Chip.setCand_trigger (k : Fin 7) (x : Candidate) : (c.setCand k x).trigger = c.trigger := rfl
@[simp] theorem Chip.setCand_past (k : Fin 7) (x : Candidate) : (c.setCand k x).past = c.past := rfl
@[simp] theorem Chip.setCand_twin (k : Fin 7) (x : Candidate) : (c.setCand k x).twin = c.twin := rfl
@[simp] theorem Chip.setCand_fe (k : Fin 7) (x : Candidate) : (c.setCand k x).fe = c.fe := rfl
@[simp] theorem Chip.setCand_truss (k : Fin 7) (x : Candidate) : (c.setCand k x).truss = c.truss := rfl
@[simp] theorem Chip.setCand_xe (k : Fin 7) (x : Candidate) : (c.setCand k x).xe = c.xe := rfl
@[simp] theorem Chip.setCand_outs (k : Fin 7) (x : Candidate) : (c.setCand k x).outs = c.outs := rfl
@[simp] theorem Chip.setCand_rst (k : Fin 7) (x : Candidate) : (c.setCand k x).rst = c.rst := rfl
@[simp] theorem Chip.setCand_pkg (k : Fin 7) (x : Candidate) : (c.setCand k x).pkg = c.pkg := rfl
@[simp] theorem Chip.setCand_rd (k : Fin 7) (x : Candidate) (j : Nat) : (c.setCand k x).rd j = c.rd j := rfl
@[simp] theorem Chip.setCand_rdDom (k : Fin 7) (x : Candidate) (j : Nat) : (c.setCand k x).rdDom j = c.rdDom j := rfl
@[simp] theorem Chip.setCand_same (k : Fin 7) (x : Candidate) : (c.setCand k x).cand k = x := by simp [Chip.setCand, Chip.cand]
theorem Chip.setCand_ne (k : Fin 7) (x : Candidate) {j : Fin 7} (h : j ≠ k) : (c.setCand k x).cand j = c.cand j := by
  have : k.val ≠ j.val := fun e => h (Fin.ext e.symm)
  simp [Chip.setCand, Chip.cand, this]

/-! ### A session set -/

@[simp] theorem Chip.setSession_lc (k : Nat) (x : Session) : (c.setSession k x).lc = c.lc := rfl
@[simp] theorem Chip.setSession_xo (k : Nat) (x : Session) : (c.setSession k x).xo = c.xo := rfl
@[simp] theorem Chip.setSession_free (k : Nat) (x : Session) : (c.setSession k x).free = c.free := rfl
@[simp] theorem Chip.setSession_obj (k : Nat) (x : Session) : (c.setSession k x).obj = c.obj := rfl
@[simp] theorem Chip.setSession_dom (k : Nat) (x : Session) : (c.setSession k x).dom = c.dom := rfl
@[simp] theorem Chip.setSession_out (k : Nat) (x : Session) : (c.setSession k x).out = c.out := rfl
@[simp] theorem Chip.setSession_faults (k : Nat) (x : Session) : (c.setSession k x).faults = c.faults := rfl
@[simp] theorem Chip.setSession_ipend (k : Nat) (x : Session) : (c.setSession k x).ipend = c.ipend := rfl
@[simp] theorem Chip.setSession_frontSeen (k : Nat) (x : Session) : (c.setSession k x).frontSeen = c.frontSeen := rfl
@[simp] theorem Chip.setSession_frontAny (k : Nat) (x : Session) : (c.setSession k x).frontAny = c.frontAny := rfl
@[simp] theorem Chip.setSession_streams (k : Nat) (x : Session) : (c.setSession k x).streams = c.streams := rfl
@[simp] theorem Chip.setSession_writer (k : Nat) (x : Session) : (c.setSession k x).writer = c.writer := rfl
@[simp] theorem Chip.setSession_time (k : Nat) (x : Session) : (c.setSession k x).time = c.time := rfl
@[simp] theorem Chip.setSession_hbm (k : Nat) (x : Session) : (c.setSession k x).hbm = c.hbm := rfl
@[simp] theorem Chip.setSession_matrix (k : Nat) (x : Session) : (c.setSession k x).matrix = c.matrix := rfl
@[simp] theorem Chip.setSession_power (k : Nat) (x : Session) : (c.setSession k x).power = c.power := rfl
@[simp] theorem Chip.setSession_reports (k : Nat) (x : Session) : (c.setSession k x).reports = c.reports := rfl
@[simp] theorem Chip.setSession_clock (k : Nat) (x : Session) : (c.setSession k x).clock = c.clock := rfl
@[simp] theorem Chip.setSession_lanes (k : Nat) (x : Session) : (c.setSession k x).lanes = c.lanes := rfl
@[simp] theorem Chip.setSession_bundles (k : Nat) (x : Session) : (c.setSession k x).bundles = c.bundles := rfl
@[simp] theorem Chip.setSession_ports (k : Nat) (x : Session) : (c.setSession k x).ports = c.ports := rfl
@[simp] theorem Chip.setSession_trigger (k : Nat) (x : Session) : (c.setSession k x).trigger = c.trigger := rfl
@[simp] theorem Chip.setSession_past (k : Nat) (x : Session) : (c.setSession k x).past = c.past := rfl
@[simp] theorem Chip.setSession_twin (k : Nat) (x : Session) : (c.setSession k x).twin = c.twin := rfl
@[simp] theorem Chip.setSession_fe (k : Nat) (x : Session) : (c.setSession k x).fe = c.fe := rfl
@[simp] theorem Chip.setSession_truss (k : Nat) (x : Session) : (c.setSession k x).truss = c.truss := rfl
@[simp] theorem Chip.setSession_xe (k : Nat) (x : Session) : (c.setSession k x).xe = c.xe := rfl
@[simp] theorem Chip.setSession_outs (k : Nat) (x : Session) : (c.setSession k x).outs = c.outs := rfl
@[simp] theorem Chip.setSession_rst (k : Nat) (x : Session) : (c.setSession k x).rst = c.rst := rfl
@[simp] theorem Chip.setSession_pkg (k : Nat) (x : Session) : (c.setSession k x).pkg = c.pkg := rfl
@[simp] theorem Chip.setSession_rd (k : Nat) (x : Session) (j : Nat) : (c.setSession k x).rd j = c.rd j := rfl
@[simp] theorem Chip.setSession_rdDom (k : Nat) (x : Session) (j : Nat) : (c.setSession k x).rdDom j = c.rdDom j := rfl
@[simp] theorem Chip.setSession_same (k : Nat) (x : Session) : (c.setSession k x).session k = x := by simp [Chip.setSession, Chip.session]

/-! ### An ingest stream set -/

@[simp] theorem Chip.setStream_lc (k : Nat) (x : Stream) : (c.setStream k x).lc = c.lc := rfl
@[simp] theorem Chip.setStream_xo (k : Nat) (x : Stream) : (c.setStream k x).xo = c.xo := rfl
@[simp] theorem Chip.setStream_free (k : Nat) (x : Stream) : (c.setStream k x).free = c.free := rfl
@[simp] theorem Chip.setStream_obj (k : Nat) (x : Stream) : (c.setStream k x).obj = c.obj := rfl
@[simp] theorem Chip.setStream_dom (k : Nat) (x : Stream) : (c.setStream k x).dom = c.dom := rfl
@[simp] theorem Chip.setStream_out (k : Nat) (x : Stream) : (c.setStream k x).out = c.out := rfl
@[simp] theorem Chip.setStream_dict (k : Nat) (x : Stream) : (c.setStream k x).dict = c.dict := rfl
@[simp] theorem Chip.setStream_faults (k : Nat) (x : Stream) : (c.setStream k x).faults = c.faults := rfl
@[simp] theorem Chip.setStream_ipend (k : Nat) (x : Stream) : (c.setStream k x).ipend = c.ipend := rfl
@[simp] theorem Chip.setStream_frontSeen (k : Nat) (x : Stream) : (c.setStream k x).frontSeen = c.frontSeen := rfl
@[simp] theorem Chip.setStream_frontAny (k : Nat) (x : Stream) : (c.setStream k x).frontAny = c.frontAny := rfl
@[simp] theorem Chip.setStream_writer (k : Nat) (x : Stream) : (c.setStream k x).writer = c.writer := rfl
@[simp] theorem Chip.setStream_time (k : Nat) (x : Stream) : (c.setStream k x).time = c.time := rfl
@[simp] theorem Chip.setStream_hbm (k : Nat) (x : Stream) : (c.setStream k x).hbm = c.hbm := rfl
@[simp] theorem Chip.setStream_matrix (k : Nat) (x : Stream) : (c.setStream k x).matrix = c.matrix := rfl
@[simp] theorem Chip.setStream_power (k : Nat) (x : Stream) : (c.setStream k x).power = c.power := rfl
@[simp] theorem Chip.setStream_reports (k : Nat) (x : Stream) : (c.setStream k x).reports = c.reports := rfl
@[simp] theorem Chip.setStream_clock (k : Nat) (x : Stream) : (c.setStream k x).clock = c.clock := rfl
@[simp] theorem Chip.setStream_lanes (k : Nat) (x : Stream) : (c.setStream k x).lanes = c.lanes := rfl
@[simp] theorem Chip.setStream_bundles (k : Nat) (x : Stream) : (c.setStream k x).bundles = c.bundles := rfl
@[simp] theorem Chip.setStream_ports (k : Nat) (x : Stream) : (c.setStream k x).ports = c.ports := rfl
@[simp] theorem Chip.setStream_trigger (k : Nat) (x : Stream) : (c.setStream k x).trigger = c.trigger := rfl
@[simp] theorem Chip.setStream_past (k : Nat) (x : Stream) : (c.setStream k x).past = c.past := rfl
@[simp] theorem Chip.setStream_twin (k : Nat) (x : Stream) : (c.setStream k x).twin = c.twin := rfl
@[simp] theorem Chip.setStream_fe (k : Nat) (x : Stream) : (c.setStream k x).fe = c.fe := rfl
@[simp] theorem Chip.setStream_truss (k : Nat) (x : Stream) : (c.setStream k x).truss = c.truss := rfl
@[simp] theorem Chip.setStream_xe (k : Nat) (x : Stream) : (c.setStream k x).xe = c.xe := rfl
@[simp] theorem Chip.setStream_outs (k : Nat) (x : Stream) : (c.setStream k x).outs = c.outs := rfl
@[simp] theorem Chip.setStream_rst (k : Nat) (x : Stream) : (c.setStream k x).rst = c.rst := rfl
@[simp] theorem Chip.setStream_pkg (k : Nat) (x : Stream) : (c.setStream k x).pkg = c.pkg := rfl
@[simp] theorem Chip.setStream_rd (k : Nat) (x : Stream) (j : Nat) : (c.setStream k x).rd j = c.rd j := rfl
@[simp] theorem Chip.setStream_rdDom (k : Nat) (x : Stream) (j : Nat) : (c.setStream k x).rdDom j = c.rdDom j := rfl
@[simp] theorem Chip.setStream_same (k : Nat) (x : Stream) : (c.setStream k x).stream k = x := by simp [Chip.setStream, Chip.stream]
theorem Chip.setStream_ne (k : Nat) (x : Stream) {j : Nat} (h : j ≠ k) : (c.setStream k x).stream j = c.stream j := sget_sset_ne _ _ x h

/-! ### A lane set -/

@[simp] theorem Chip.setLane_lc (k : Nat) (x : Lane) : (c.setLane k x).lc = c.lc := rfl
@[simp] theorem Chip.setLane_xo (k : Nat) (x : Lane) : (c.setLane k x).xo = c.xo := rfl
@[simp] theorem Chip.setLane_free (k : Nat) (x : Lane) : (c.setLane k x).free = c.free := rfl
@[simp] theorem Chip.setLane_obj (k : Nat) (x : Lane) : (c.setLane k x).obj = c.obj := rfl
@[simp] theorem Chip.setLane_dom (k : Nat) (x : Lane) : (c.setLane k x).dom = c.dom := rfl
@[simp] theorem Chip.setLane_out (k : Nat) (x : Lane) : (c.setLane k x).out = c.out := rfl
@[simp] theorem Chip.setLane_dict (k : Nat) (x : Lane) : (c.setLane k x).dict = c.dict := rfl
@[simp] theorem Chip.setLane_faults (k : Nat) (x : Lane) : (c.setLane k x).faults = c.faults := rfl
@[simp] theorem Chip.setLane_ipend (k : Nat) (x : Lane) : (c.setLane k x).ipend = c.ipend := rfl
@[simp] theorem Chip.setLane_frontSeen (k : Nat) (x : Lane) : (c.setLane k x).frontSeen = c.frontSeen := rfl
@[simp] theorem Chip.setLane_frontAny (k : Nat) (x : Lane) : (c.setLane k x).frontAny = c.frontAny := rfl
@[simp] theorem Chip.setLane_streams (k : Nat) (x : Lane) : (c.setLane k x).streams = c.streams := rfl
@[simp] theorem Chip.setLane_writer (k : Nat) (x : Lane) : (c.setLane k x).writer = c.writer := rfl
@[simp] theorem Chip.setLane_time (k : Nat) (x : Lane) : (c.setLane k x).time = c.time := rfl
@[simp] theorem Chip.setLane_hbm (k : Nat) (x : Lane) : (c.setLane k x).hbm = c.hbm := rfl
@[simp] theorem Chip.setLane_matrix (k : Nat) (x : Lane) : (c.setLane k x).matrix = c.matrix := rfl
@[simp] theorem Chip.setLane_power (k : Nat) (x : Lane) : (c.setLane k x).power = c.power := rfl
@[simp] theorem Chip.setLane_reports (k : Nat) (x : Lane) : (c.setLane k x).reports = c.reports := rfl
@[simp] theorem Chip.setLane_clock (k : Nat) (x : Lane) : (c.setLane k x).clock = c.clock := rfl
@[simp] theorem Chip.setLane_bundles (k : Nat) (x : Lane) : (c.setLane k x).bundles = c.bundles := rfl
@[simp] theorem Chip.setLane_ports (k : Nat) (x : Lane) : (c.setLane k x).ports = c.ports := rfl
@[simp] theorem Chip.setLane_trigger (k : Nat) (x : Lane) : (c.setLane k x).trigger = c.trigger := rfl
@[simp] theorem Chip.setLane_past (k : Nat) (x : Lane) : (c.setLane k x).past = c.past := rfl
@[simp] theorem Chip.setLane_twin (k : Nat) (x : Lane) : (c.setLane k x).twin = c.twin := rfl
@[simp] theorem Chip.setLane_fe (k : Nat) (x : Lane) : (c.setLane k x).fe = c.fe := rfl
@[simp] theorem Chip.setLane_truss (k : Nat) (x : Lane) : (c.setLane k x).truss = c.truss := rfl
@[simp] theorem Chip.setLane_xe (k : Nat) (x : Lane) : (c.setLane k x).xe = c.xe := rfl
@[simp] theorem Chip.setLane_outs (k : Nat) (x : Lane) : (c.setLane k x).outs = c.outs := rfl
@[simp] theorem Chip.setLane_rst (k : Nat) (x : Lane) : (c.setLane k x).rst = c.rst := rfl
@[simp] theorem Chip.setLane_pkg (k : Nat) (x : Lane) : (c.setLane k x).pkg = c.pkg := rfl
@[simp] theorem Chip.setLane_rd (k : Nat) (x : Lane) (j : Nat) : (c.setLane k x).rd j = c.rd j := rfl
@[simp] theorem Chip.setLane_rdDom (k : Nat) (x : Lane) (j : Nat) : (c.setLane k x).rdDom j = c.rdDom j := rfl
@[simp] theorem Chip.setLane_same (k : Nat) (x : Lane) : (c.setLane k x).lane k = x := by simp [Chip.setLane, Chip.lane]
theorem Chip.setLane_ne (k : Nat) (x : Lane) {j : Nat} (h : j ≠ k) : (c.setLane k x).lane j = c.lane j := sget_sset_ne _ _ x h

/-! ### A bundle set -/

@[simp] theorem Chip.setBundle_lc (k : Nat) (x : Bundle) : (c.setBundle k x).lc = c.lc := rfl
@[simp] theorem Chip.setBundle_xo (k : Nat) (x : Bundle) : (c.setBundle k x).xo = c.xo := rfl
@[simp] theorem Chip.setBundle_free (k : Nat) (x : Bundle) : (c.setBundle k x).free = c.free := rfl
@[simp] theorem Chip.setBundle_obj (k : Nat) (x : Bundle) : (c.setBundle k x).obj = c.obj := rfl
@[simp] theorem Chip.setBundle_dom (k : Nat) (x : Bundle) : (c.setBundle k x).dom = c.dom := rfl
@[simp] theorem Chip.setBundle_out (k : Nat) (x : Bundle) : (c.setBundle k x).out = c.out := rfl
@[simp] theorem Chip.setBundle_dict (k : Nat) (x : Bundle) : (c.setBundle k x).dict = c.dict := rfl
@[simp] theorem Chip.setBundle_faults (k : Nat) (x : Bundle) : (c.setBundle k x).faults = c.faults := rfl
@[simp] theorem Chip.setBundle_ipend (k : Nat) (x : Bundle) : (c.setBundle k x).ipend = c.ipend := rfl
@[simp] theorem Chip.setBundle_frontSeen (k : Nat) (x : Bundle) : (c.setBundle k x).frontSeen = c.frontSeen := rfl
@[simp] theorem Chip.setBundle_frontAny (k : Nat) (x : Bundle) : (c.setBundle k x).frontAny = c.frontAny := rfl
@[simp] theorem Chip.setBundle_streams (k : Nat) (x : Bundle) : (c.setBundle k x).streams = c.streams := rfl
@[simp] theorem Chip.setBundle_writer (k : Nat) (x : Bundle) : (c.setBundle k x).writer = c.writer := rfl
@[simp] theorem Chip.setBundle_time (k : Nat) (x : Bundle) : (c.setBundle k x).time = c.time := rfl
@[simp] theorem Chip.setBundle_hbm (k : Nat) (x : Bundle) : (c.setBundle k x).hbm = c.hbm := rfl
@[simp] theorem Chip.setBundle_matrix (k : Nat) (x : Bundle) : (c.setBundle k x).matrix = c.matrix := rfl
@[simp] theorem Chip.setBundle_power (k : Nat) (x : Bundle) : (c.setBundle k x).power = c.power := rfl
@[simp] theorem Chip.setBundle_reports (k : Nat) (x : Bundle) : (c.setBundle k x).reports = c.reports := rfl
@[simp] theorem Chip.setBundle_clock (k : Nat) (x : Bundle) : (c.setBundle k x).clock = c.clock := rfl
@[simp] theorem Chip.setBundle_lanes (k : Nat) (x : Bundle) : (c.setBundle k x).lanes = c.lanes := rfl
@[simp] theorem Chip.setBundle_ports (k : Nat) (x : Bundle) : (c.setBundle k x).ports = c.ports := rfl
@[simp] theorem Chip.setBundle_trigger (k : Nat) (x : Bundle) : (c.setBundle k x).trigger = c.trigger := rfl
@[simp] theorem Chip.setBundle_past (k : Nat) (x : Bundle) : (c.setBundle k x).past = c.past := rfl
@[simp] theorem Chip.setBundle_twin (k : Nat) (x : Bundle) : (c.setBundle k x).twin = c.twin := rfl
@[simp] theorem Chip.setBundle_fe (k : Nat) (x : Bundle) : (c.setBundle k x).fe = c.fe := rfl
@[simp] theorem Chip.setBundle_truss (k : Nat) (x : Bundle) : (c.setBundle k x).truss = c.truss := rfl
@[simp] theorem Chip.setBundle_xe (k : Nat) (x : Bundle) : (c.setBundle k x).xe = c.xe := rfl
@[simp] theorem Chip.setBundle_outs (k : Nat) (x : Bundle) : (c.setBundle k x).outs = c.outs := rfl
@[simp] theorem Chip.setBundle_rst (k : Nat) (x : Bundle) : (c.setBundle k x).rst = c.rst := rfl
@[simp] theorem Chip.setBundle_pkg (k : Nat) (x : Bundle) : (c.setBundle k x).pkg = c.pkg := rfl
@[simp] theorem Chip.setBundle_rd (k : Nat) (x : Bundle) (j : Nat) : (c.setBundle k x).rd j = c.rd j := rfl
@[simp] theorem Chip.setBundle_rdDom (k : Nat) (x : Bundle) (j : Nat) : (c.setBundle k x).rdDom j = c.rdDom j := rfl
@[simp] theorem Chip.setBundle_same (k : Nat) (x : Bundle) : (c.setBundle k x).bundle k = x := by simp [Chip.setBundle, Chip.bundle]
theorem Chip.setBundle_ne (k : Nat) (x : Bundle) {j : Nat} (h : j ≠ k) : (c.setBundle k x).bundle j = c.bundle j := sget_sset_ne _ _ x h

/-! ### A stick in the making set -/

@[simp] theorem Chip.setAcc_lc (k : Nat) (x : Option StickAcc) : (c.setAcc k x).lc = c.lc := rfl
@[simp] theorem Chip.setAcc_xo (k : Nat) (x : Option StickAcc) : (c.setAcc k x).xo = c.xo := rfl
@[simp] theorem Chip.setAcc_free (k : Nat) (x : Option StickAcc) : (c.setAcc k x).free = c.free := rfl
@[simp] theorem Chip.setAcc_obj (k : Nat) (x : Option StickAcc) : (c.setAcc k x).obj = c.obj := rfl
@[simp] theorem Chip.setAcc_dom (k : Nat) (x : Option StickAcc) : (c.setAcc k x).dom = c.dom := rfl
@[simp] theorem Chip.setAcc_out (k : Nat) (x : Option StickAcc) : (c.setAcc k x).out = c.out := rfl
@[simp] theorem Chip.setAcc_dict (k : Nat) (x : Option StickAcc) : (c.setAcc k x).dict = c.dict := rfl
@[simp] theorem Chip.setAcc_faults (k : Nat) (x : Option StickAcc) : (c.setAcc k x).faults = c.faults := rfl
@[simp] theorem Chip.setAcc_ipend (k : Nat) (x : Option StickAcc) : (c.setAcc k x).ipend = c.ipend := rfl
@[simp] theorem Chip.setAcc_frontSeen (k : Nat) (x : Option StickAcc) : (c.setAcc k x).frontSeen = c.frontSeen := rfl
@[simp] theorem Chip.setAcc_frontAny (k : Nat) (x : Option StickAcc) : (c.setAcc k x).frontAny = c.frontAny := rfl
@[simp] theorem Chip.setAcc_streams (k : Nat) (x : Option StickAcc) : (c.setAcc k x).streams = c.streams := rfl
@[simp] theorem Chip.setAcc_writer (k : Nat) (x : Option StickAcc) : (c.setAcc k x).writer = c.writer := rfl
@[simp] theorem Chip.setAcc_time (k : Nat) (x : Option StickAcc) : (c.setAcc k x).time = c.time := rfl
@[simp] theorem Chip.setAcc_hbm (k : Nat) (x : Option StickAcc) : (c.setAcc k x).hbm = c.hbm := rfl
@[simp] theorem Chip.setAcc_matrix (k : Nat) (x : Option StickAcc) : (c.setAcc k x).matrix = c.matrix := rfl
@[simp] theorem Chip.setAcc_power (k : Nat) (x : Option StickAcc) : (c.setAcc k x).power = c.power := rfl
@[simp] theorem Chip.setAcc_reports (k : Nat) (x : Option StickAcc) : (c.setAcc k x).reports = c.reports := rfl
@[simp] theorem Chip.setAcc_clock (k : Nat) (x : Option StickAcc) : (c.setAcc k x).clock = c.clock := rfl
@[simp] theorem Chip.setAcc_lanes (k : Nat) (x : Option StickAcc) : (c.setAcc k x).lanes = c.lanes := rfl
@[simp] theorem Chip.setAcc_bundles (k : Nat) (x : Option StickAcc) : (c.setAcc k x).bundles = c.bundles := rfl
@[simp] theorem Chip.setAcc_ports (k : Nat) (x : Option StickAcc) : (c.setAcc k x).ports = c.ports := rfl
@[simp] theorem Chip.setAcc_trigger (k : Nat) (x : Option StickAcc) : (c.setAcc k x).trigger = c.trigger := rfl
@[simp] theorem Chip.setAcc_past (k : Nat) (x : Option StickAcc) : (c.setAcc k x).past = c.past := rfl
@[simp] theorem Chip.setAcc_twin (k : Nat) (x : Option StickAcc) : (c.setAcc k x).twin = c.twin := rfl
@[simp] theorem Chip.setAcc_truss (k : Nat) (x : Option StickAcc) : (c.setAcc k x).truss = c.truss := rfl
@[simp] theorem Chip.setAcc_xe (k : Nat) (x : Option StickAcc) : (c.setAcc k x).xe = c.xe := rfl
@[simp] theorem Chip.setAcc_outs (k : Nat) (x : Option StickAcc) : (c.setAcc k x).outs = c.outs := rfl
@[simp] theorem Chip.setAcc_rst (k : Nat) (x : Option StickAcc) : (c.setAcc k x).rst = c.rst := rfl
@[simp] theorem Chip.setAcc_pkg (k : Nat) (x : Option StickAcc) : (c.setAcc k x).pkg = c.pkg := rfl
@[simp] theorem Chip.setAcc_rd (k : Nat) (x : Option StickAcc) (j : Nat) : (c.setAcc k x).rd j = c.rd j := rfl
@[simp] theorem Chip.setAcc_rdDom (k : Nat) (x : Option StickAcc) (j : Nat) : (c.setAcc k x).rdDom j = c.rdDom j := rfl
@[simp] theorem Chip.setAcc_same (k : Nat) (x : Option StickAcc) : (c.setAcc k x).acc k = x := by simp [Chip.setAcc, Chip.acc]
theorem Chip.setAcc_ne (k : Nat) (x : Option StickAcc) {j : Nat} (h : j ≠ k) : (c.setAcc k x).acc j = c.acc j := sget_sset_ne _ _ x h

/-! ### A galley half set -/

@[simp] theorem Chip.setHalf_lc (k : Fin 2) (x : Half) : (c.setHalf k x).lc = c.lc := rfl
@[simp] theorem Chip.setHalf_xo (k : Fin 2) (x : Half) : (c.setHalf k x).xo = c.xo := rfl
@[simp] theorem Chip.setHalf_free (k : Fin 2) (x : Half) : (c.setHalf k x).free = c.free := rfl
@[simp] theorem Chip.setHalf_obj (k : Fin 2) (x : Half) : (c.setHalf k x).obj = c.obj := rfl
@[simp] theorem Chip.setHalf_dom (k : Fin 2) (x : Half) : (c.setHalf k x).dom = c.dom := rfl
@[simp] theorem Chip.setHalf_out (k : Fin 2) (x : Half) : (c.setHalf k x).out = c.out := rfl
@[simp] theorem Chip.setHalf_dict (k : Fin 2) (x : Half) : (c.setHalf k x).dict = c.dict := rfl
@[simp] theorem Chip.setHalf_faults (k : Fin 2) (x : Half) : (c.setHalf k x).faults = c.faults := rfl
@[simp] theorem Chip.setHalf_ipend (k : Fin 2) (x : Half) : (c.setHalf k x).ipend = c.ipend := rfl
@[simp] theorem Chip.setHalf_frontSeen (k : Fin 2) (x : Half) : (c.setHalf k x).frontSeen = c.frontSeen := rfl
@[simp] theorem Chip.setHalf_frontAny (k : Fin 2) (x : Half) : (c.setHalf k x).frontAny = c.frontAny := rfl
@[simp] theorem Chip.setHalf_streams (k : Fin 2) (x : Half) : (c.setHalf k x).streams = c.streams := rfl
@[simp] theorem Chip.setHalf_writer (k : Fin 2) (x : Half) : (c.setHalf k x).writer = c.writer := rfl
@[simp] theorem Chip.setHalf_time (k : Fin 2) (x : Half) : (c.setHalf k x).time = c.time := rfl
@[simp] theorem Chip.setHalf_hbm (k : Fin 2) (x : Half) : (c.setHalf k x).hbm = c.hbm := rfl
@[simp] theorem Chip.setHalf_matrix (k : Fin 2) (x : Half) : (c.setHalf k x).matrix = c.matrix := rfl
@[simp] theorem Chip.setHalf_power (k : Fin 2) (x : Half) : (c.setHalf k x).power = c.power := rfl
@[simp] theorem Chip.setHalf_reports (k : Fin 2) (x : Half) : (c.setHalf k x).reports = c.reports := rfl
@[simp] theorem Chip.setHalf_clock (k : Fin 2) (x : Half) : (c.setHalf k x).clock = c.clock := rfl
@[simp] theorem Chip.setHalf_lanes (k : Fin 2) (x : Half) : (c.setHalf k x).lanes = c.lanes := rfl
@[simp] theorem Chip.setHalf_bundles (k : Fin 2) (x : Half) : (c.setHalf k x).bundles = c.bundles := rfl
@[simp] theorem Chip.setHalf_ports (k : Fin 2) (x : Half) : (c.setHalf k x).ports = c.ports := rfl
@[simp] theorem Chip.setHalf_trigger (k : Fin 2) (x : Half) : (c.setHalf k x).trigger = c.trigger := rfl
@[simp] theorem Chip.setHalf_past (k : Fin 2) (x : Half) : (c.setHalf k x).past = c.past := rfl
@[simp] theorem Chip.setHalf_twin (k : Fin 2) (x : Half) : (c.setHalf k x).twin = c.twin := rfl
@[simp] theorem Chip.setHalf_fe (k : Fin 2) (x : Half) : (c.setHalf k x).fe = c.fe := rfl
@[simp] theorem Chip.setHalf_xe (k : Fin 2) (x : Half) : (c.setHalf k x).xe = c.xe := rfl
@[simp] theorem Chip.setHalf_outs (k : Fin 2) (x : Half) : (c.setHalf k x).outs = c.outs := rfl
@[simp] theorem Chip.setHalf_rst (k : Fin 2) (x : Half) : (c.setHalf k x).rst = c.rst := rfl
@[simp] theorem Chip.setHalf_pkg (k : Fin 2) (x : Half) : (c.setHalf k x).pkg = c.pkg := rfl
@[simp] theorem Chip.setHalf_rd (k : Fin 2) (x : Half) (j : Nat) : (c.setHalf k x).rd j = c.rd j := rfl
@[simp] theorem Chip.setHalf_rdDom (k : Fin 2) (x : Half) (j : Nat) : (c.setHalf k x).rdDom j = c.rdDom j := rfl
@[simp] theorem Chip.setHalf_same (k : Fin 2) (x : Half) : (c.setHalf k x).half k = x := by simp [Chip.setHalf, Chip.half]
theorem Chip.setHalf_ne (k : Fin 2) (x : Half) {j : Fin 2} (h : j ≠ k) : (c.setHalf k x).half j = c.half j := by
  have : k.val ≠ j.val := fun e => h (Fin.ext e.symm)
  simp [Chip.setHalf, Chip.half, this]

/-! ### A forme set -/

@[simp] theorem Chip.setForme_lc (k : Nat) (x : FormeX) : (c.setForme k x).lc = c.lc := rfl
@[simp] theorem Chip.setForme_xo (k : Nat) (x : FormeX) : (c.setForme k x).xo = c.xo := rfl
@[simp] theorem Chip.setForme_free (k : Nat) (x : FormeX) : (c.setForme k x).free = c.free := rfl
@[simp] theorem Chip.setForme_obj (k : Nat) (x : FormeX) : (c.setForme k x).obj = c.obj := rfl
@[simp] theorem Chip.setForme_dom (k : Nat) (x : FormeX) : (c.setForme k x).dom = c.dom := rfl
@[simp] theorem Chip.setForme_out (k : Nat) (x : FormeX) : (c.setForme k x).out = c.out := rfl
@[simp] theorem Chip.setForme_dict (k : Nat) (x : FormeX) : (c.setForme k x).dict = c.dict := rfl
@[simp] theorem Chip.setForme_faults (k : Nat) (x : FormeX) : (c.setForme k x).faults = c.faults := rfl
@[simp] theorem Chip.setForme_ipend (k : Nat) (x : FormeX) : (c.setForme k x).ipend = c.ipend := rfl
@[simp] theorem Chip.setForme_frontSeen (k : Nat) (x : FormeX) : (c.setForme k x).frontSeen = c.frontSeen := rfl
@[simp] theorem Chip.setForme_frontAny (k : Nat) (x : FormeX) : (c.setForme k x).frontAny = c.frontAny := rfl
@[simp] theorem Chip.setForme_streams (k : Nat) (x : FormeX) : (c.setForme k x).streams = c.streams := rfl
@[simp] theorem Chip.setForme_writer (k : Nat) (x : FormeX) : (c.setForme k x).writer = c.writer := rfl
@[simp] theorem Chip.setForme_time (k : Nat) (x : FormeX) : (c.setForme k x).time = c.time := rfl
@[simp] theorem Chip.setForme_hbm (k : Nat) (x : FormeX) : (c.setForme k x).hbm = c.hbm := rfl
@[simp] theorem Chip.setForme_matrix (k : Nat) (x : FormeX) : (c.setForme k x).matrix = c.matrix := rfl
@[simp] theorem Chip.setForme_power (k : Nat) (x : FormeX) : (c.setForme k x).power = c.power := rfl
@[simp] theorem Chip.setForme_reports (k : Nat) (x : FormeX) : (c.setForme k x).reports = c.reports := rfl
@[simp] theorem Chip.setForme_clock (k : Nat) (x : FormeX) : (c.setForme k x).clock = c.clock := rfl
@[simp] theorem Chip.setForme_lanes (k : Nat) (x : FormeX) : (c.setForme k x).lanes = c.lanes := rfl
@[simp] theorem Chip.setForme_bundles (k : Nat) (x : FormeX) : (c.setForme k x).bundles = c.bundles := rfl
@[simp] theorem Chip.setForme_ports (k : Nat) (x : FormeX) : (c.setForme k x).ports = c.ports := rfl
@[simp] theorem Chip.setForme_trigger (k : Nat) (x : FormeX) : (c.setForme k x).trigger = c.trigger := rfl
@[simp] theorem Chip.setForme_past (k : Nat) (x : FormeX) : (c.setForme k x).past = c.past := rfl
@[simp] theorem Chip.setForme_twin (k : Nat) (x : FormeX) : (c.setForme k x).twin = c.twin := rfl
@[simp] theorem Chip.setForme_fe (k : Nat) (x : FormeX) : (c.setForme k x).fe = c.fe := rfl
@[simp] theorem Chip.setForme_truss (k : Nat) (x : FormeX) : (c.setForme k x).truss = c.truss := rfl
@[simp] theorem Chip.setForme_outs (k : Nat) (x : FormeX) : (c.setForme k x).outs = c.outs := rfl
@[simp] theorem Chip.setForme_rst (k : Nat) (x : FormeX) : (c.setForme k x).rst = c.rst := rfl
@[simp] theorem Chip.setForme_pkg (k : Nat) (x : FormeX) : (c.setForme k x).pkg = c.pkg := rfl
@[simp] theorem Chip.setForme_rd (k : Nat) (x : FormeX) (j : Nat) : (c.setForme k x).rd j = c.rd j := rfl
@[simp] theorem Chip.setForme_rdDom (k : Nat) (x : FormeX) (j : Nat) : (c.setForme k x).rdDom j = c.rdDom j := rfl
@[simp] theorem Chip.setForme_same (k : Nat) (x : FormeX) : (c.setForme k x).forme k = x := by simp [Chip.setForme, Chip.forme]
theorem Chip.setForme_ne (k : Nat) (x : FormeX) {j : Nat} (h : j ≠ k) : (c.setForme k x).forme j = c.forme j := sget_sset_ne _ _ x h

/-! ### A platen set -/

@[simp] theorem Chip.setPlaten_lc (k : Nat) (x : Platen) : (c.setPlaten k x).lc = c.lc := rfl
@[simp] theorem Chip.setPlaten_xo (k : Nat) (x : Platen) : (c.setPlaten k x).xo = c.xo := rfl
@[simp] theorem Chip.setPlaten_free (k : Nat) (x : Platen) : (c.setPlaten k x).free = c.free := rfl
@[simp] theorem Chip.setPlaten_dom (k : Nat) (x : Platen) : (c.setPlaten k x).dom = c.dom := rfl
@[simp] theorem Chip.setPlaten_out (k : Nat) (x : Platen) : (c.setPlaten k x).out = c.out := rfl
@[simp] theorem Chip.setPlaten_dict (k : Nat) (x : Platen) : (c.setPlaten k x).dict = c.dict := rfl
@[simp] theorem Chip.setPlaten_faults (k : Nat) (x : Platen) : (c.setPlaten k x).faults = c.faults := rfl
@[simp] theorem Chip.setPlaten_ipend (k : Nat) (x : Platen) : (c.setPlaten k x).ipend = c.ipend := rfl
@[simp] theorem Chip.setPlaten_frontSeen (k : Nat) (x : Platen) : (c.setPlaten k x).frontSeen = c.frontSeen := rfl
@[simp] theorem Chip.setPlaten_frontAny (k : Nat) (x : Platen) : (c.setPlaten k x).frontAny = c.frontAny := rfl
@[simp] theorem Chip.setPlaten_streams (k : Nat) (x : Platen) : (c.setPlaten k x).streams = c.streams := rfl
@[simp] theorem Chip.setPlaten_writer (k : Nat) (x : Platen) : (c.setPlaten k x).writer = c.writer := rfl
@[simp] theorem Chip.setPlaten_time (k : Nat) (x : Platen) : (c.setPlaten k x).time = c.time := rfl
@[simp] theorem Chip.setPlaten_hbm (k : Nat) (x : Platen) : (c.setPlaten k x).hbm = c.hbm := rfl
@[simp] theorem Chip.setPlaten_matrix (k : Nat) (x : Platen) : (c.setPlaten k x).matrix = c.matrix := rfl
@[simp] theorem Chip.setPlaten_power (k : Nat) (x : Platen) : (c.setPlaten k x).power = c.power := rfl
@[simp] theorem Chip.setPlaten_reports (k : Nat) (x : Platen) : (c.setPlaten k x).reports = c.reports := rfl
@[simp] theorem Chip.setPlaten_clock (k : Nat) (x : Platen) : (c.setPlaten k x).clock = c.clock := rfl
@[simp] theorem Chip.setPlaten_lanes (k : Nat) (x : Platen) : (c.setPlaten k x).lanes = c.lanes := rfl
@[simp] theorem Chip.setPlaten_bundles (k : Nat) (x : Platen) : (c.setPlaten k x).bundles = c.bundles := rfl
@[simp] theorem Chip.setPlaten_ports (k : Nat) (x : Platen) : (c.setPlaten k x).ports = c.ports := rfl
@[simp] theorem Chip.setPlaten_trigger (k : Nat) (x : Platen) : (c.setPlaten k x).trigger = c.trigger := rfl
@[simp] theorem Chip.setPlaten_past (k : Nat) (x : Platen) : (c.setPlaten k x).past = c.past := rfl
@[simp] theorem Chip.setPlaten_twin (k : Nat) (x : Platen) : (c.setPlaten k x).twin = c.twin := rfl
@[simp] theorem Chip.setPlaten_fe (k : Nat) (x : Platen) : (c.setPlaten k x).fe = c.fe := rfl
@[simp] theorem Chip.setPlaten_truss (k : Nat) (x : Platen) : (c.setPlaten k x).truss = c.truss := rfl
@[simp] theorem Chip.setPlaten_outs (k : Nat) (x : Platen) : (c.setPlaten k x).outs = c.outs := rfl
@[simp] theorem Chip.setPlaten_rst (k : Nat) (x : Platen) : (c.setPlaten k x).rst = c.rst := rfl
@[simp] theorem Chip.setPlaten_pkg (k : Nat) (x : Platen) : (c.setPlaten k x).pkg = c.pkg := rfl
@[simp] theorem Chip.setPlaten_rdDom (k : Nat) (x : Platen) (j : Nat) : (c.setPlaten k x).rdDom j = c.rdDom j := rfl
@[simp] theorem Chip.setPlaten_same (k : Nat) (x : Platen) : (c.setPlaten k x).platen k = x := by simp [Chip.setPlaten, Chip.platen, Chip.wr]
theorem Chip.setPlaten_ne (k : Nat) (x : Platen) {j : Nat} (h : j ≠ k) : (c.setPlaten k x).platen j = c.platen j := sget_sset_ne _ _ x h

/-! ### A trigger beam set -/

@[simp] theorem Chip.setL1_lc (k : Nat) (x : L1Beam) : (c.setL1 k x).lc = c.lc := rfl
@[simp] theorem Chip.setL1_xo (k : Nat) (x : L1Beam) : (c.setL1 k x).xo = c.xo := rfl
@[simp] theorem Chip.setL1_free (k : Nat) (x : L1Beam) : (c.setL1 k x).free = c.free := rfl
@[simp] theorem Chip.setL1_obj (k : Nat) (x : L1Beam) : (c.setL1 k x).obj = c.obj := rfl
@[simp] theorem Chip.setL1_dom (k : Nat) (x : L1Beam) : (c.setL1 k x).dom = c.dom := rfl
@[simp] theorem Chip.setL1_out (k : Nat) (x : L1Beam) : (c.setL1 k x).out = c.out := rfl
@[simp] theorem Chip.setL1_dict (k : Nat) (x : L1Beam) : (c.setL1 k x).dict = c.dict := rfl
@[simp] theorem Chip.setL1_faults (k : Nat) (x : L1Beam) : (c.setL1 k x).faults = c.faults := rfl
@[simp] theorem Chip.setL1_ipend (k : Nat) (x : L1Beam) : (c.setL1 k x).ipend = c.ipend := rfl
@[simp] theorem Chip.setL1_frontSeen (k : Nat) (x : L1Beam) : (c.setL1 k x).frontSeen = c.frontSeen := rfl
@[simp] theorem Chip.setL1_frontAny (k : Nat) (x : L1Beam) : (c.setL1 k x).frontAny = c.frontAny := rfl
@[simp] theorem Chip.setL1_streams (k : Nat) (x : L1Beam) : (c.setL1 k x).streams = c.streams := rfl
@[simp] theorem Chip.setL1_writer (k : Nat) (x : L1Beam) : (c.setL1 k x).writer = c.writer := rfl
@[simp] theorem Chip.setL1_time (k : Nat) (x : L1Beam) : (c.setL1 k x).time = c.time := rfl
@[simp] theorem Chip.setL1_hbm (k : Nat) (x : L1Beam) : (c.setL1 k x).hbm = c.hbm := rfl
@[simp] theorem Chip.setL1_matrix (k : Nat) (x : L1Beam) : (c.setL1 k x).matrix = c.matrix := rfl
@[simp] theorem Chip.setL1_power (k : Nat) (x : L1Beam) : (c.setL1 k x).power = c.power := rfl
@[simp] theorem Chip.setL1_reports (k : Nat) (x : L1Beam) : (c.setL1 k x).reports = c.reports := rfl
@[simp] theorem Chip.setL1_clock (k : Nat) (x : L1Beam) : (c.setL1 k x).clock = c.clock := rfl
@[simp] theorem Chip.setL1_lanes (k : Nat) (x : L1Beam) : (c.setL1 k x).lanes = c.lanes := rfl
@[simp] theorem Chip.setL1_bundles (k : Nat) (x : L1Beam) : (c.setL1 k x).bundles = c.bundles := rfl
@[simp] theorem Chip.setL1_ports (k : Nat) (x : L1Beam) : (c.setL1 k x).ports = c.ports := rfl
@[simp] theorem Chip.setL1_trigger (k : Nat) (x : L1Beam) : (c.setL1 k x).trigger = c.trigger := rfl
@[simp] theorem Chip.setL1_past (k : Nat) (x : L1Beam) : (c.setL1 k x).past = c.past := rfl
@[simp] theorem Chip.setL1_twin (k : Nat) (x : L1Beam) : (c.setL1 k x).twin = c.twin := rfl
@[simp] theorem Chip.setL1_fe (k : Nat) (x : L1Beam) : (c.setL1 k x).fe = c.fe := rfl
@[simp] theorem Chip.setL1_truss (k : Nat) (x : L1Beam) : (c.setL1 k x).truss = c.truss := rfl
@[simp] theorem Chip.setL1_outs (k : Nat) (x : L1Beam) : (c.setL1 k x).outs = c.outs := rfl
@[simp] theorem Chip.setL1_rst (k : Nat) (x : L1Beam) : (c.setL1 k x).rst = c.rst := rfl
@[simp] theorem Chip.setL1_pkg (k : Nat) (x : L1Beam) : (c.setL1 k x).pkg = c.pkg := rfl
@[simp] theorem Chip.setL1_rd (k : Nat) (x : L1Beam) (j : Nat) : (c.setL1 k x).rd j = c.rd j := rfl
@[simp] theorem Chip.setL1_rdDom (k : Nat) (x : L1Beam) (j : Nat) : (c.setL1 k x).rdDom j = c.rdDom j := rfl
@[simp] theorem Chip.setL1_same (k : Nat) (x : L1Beam) : (c.setL1 k x).l1 k = x := by simp [Chip.setL1, Chip.l1]
theorem Chip.setL1_ne (k : Nat) (x : L1Beam) {j : Nat} (h : j ≠ k) : (c.setL1 k x).l1 j = c.l1 j := sget_sset_ne _ _ x h

/-! ### A coincidence group set -/

@[simp] theorem Chip.setGroup_lc (k : Nat) (x : Group) : (c.setGroup k x).lc = c.lc := rfl
@[simp] theorem Chip.setGroup_xo (k : Nat) (x : Group) : (c.setGroup k x).xo = c.xo := rfl
@[simp] theorem Chip.setGroup_free (k : Nat) (x : Group) : (c.setGroup k x).free = c.free := rfl
@[simp] theorem Chip.setGroup_obj (k : Nat) (x : Group) : (c.setGroup k x).obj = c.obj := rfl
@[simp] theorem Chip.setGroup_dom (k : Nat) (x : Group) : (c.setGroup k x).dom = c.dom := rfl
@[simp] theorem Chip.setGroup_out (k : Nat) (x : Group) : (c.setGroup k x).out = c.out := rfl
@[simp] theorem Chip.setGroup_dict (k : Nat) (x : Group) : (c.setGroup k x).dict = c.dict := rfl
@[simp] theorem Chip.setGroup_faults (k : Nat) (x : Group) : (c.setGroup k x).faults = c.faults := rfl
@[simp] theorem Chip.setGroup_ipend (k : Nat) (x : Group) : (c.setGroup k x).ipend = c.ipend := rfl
@[simp] theorem Chip.setGroup_frontSeen (k : Nat) (x : Group) : (c.setGroup k x).frontSeen = c.frontSeen := rfl
@[simp] theorem Chip.setGroup_frontAny (k : Nat) (x : Group) : (c.setGroup k x).frontAny = c.frontAny := rfl
@[simp] theorem Chip.setGroup_streams (k : Nat) (x : Group) : (c.setGroup k x).streams = c.streams := rfl
@[simp] theorem Chip.setGroup_writer (k : Nat) (x : Group) : (c.setGroup k x).writer = c.writer := rfl
@[simp] theorem Chip.setGroup_time (k : Nat) (x : Group) : (c.setGroup k x).time = c.time := rfl
@[simp] theorem Chip.setGroup_hbm (k : Nat) (x : Group) : (c.setGroup k x).hbm = c.hbm := rfl
@[simp] theorem Chip.setGroup_matrix (k : Nat) (x : Group) : (c.setGroup k x).matrix = c.matrix := rfl
@[simp] theorem Chip.setGroup_power (k : Nat) (x : Group) : (c.setGroup k x).power = c.power := rfl
@[simp] theorem Chip.setGroup_reports (k : Nat) (x : Group) : (c.setGroup k x).reports = c.reports := rfl
@[simp] theorem Chip.setGroup_clock (k : Nat) (x : Group) : (c.setGroup k x).clock = c.clock := rfl
@[simp] theorem Chip.setGroup_lanes (k : Nat) (x : Group) : (c.setGroup k x).lanes = c.lanes := rfl
@[simp] theorem Chip.setGroup_bundles (k : Nat) (x : Group) : (c.setGroup k x).bundles = c.bundles := rfl
@[simp] theorem Chip.setGroup_ports (k : Nat) (x : Group) : (c.setGroup k x).ports = c.ports := rfl
@[simp] theorem Chip.setGroup_past (k : Nat) (x : Group) : (c.setGroup k x).past = c.past := rfl
@[simp] theorem Chip.setGroup_twin (k : Nat) (x : Group) : (c.setGroup k x).twin = c.twin := rfl
@[simp] theorem Chip.setGroup_fe (k : Nat) (x : Group) : (c.setGroup k x).fe = c.fe := rfl
@[simp] theorem Chip.setGroup_truss (k : Nat) (x : Group) : (c.setGroup k x).truss = c.truss := rfl
@[simp] theorem Chip.setGroup_xe (k : Nat) (x : Group) : (c.setGroup k x).xe = c.xe := rfl
@[simp] theorem Chip.setGroup_outs (k : Nat) (x : Group) : (c.setGroup k x).outs = c.outs := rfl
@[simp] theorem Chip.setGroup_rst (k : Nat) (x : Group) : (c.setGroup k x).rst = c.rst := rfl
@[simp] theorem Chip.setGroup_pkg (k : Nat) (x : Group) : (c.setGroup k x).pkg = c.pkg := rfl
@[simp] theorem Chip.setGroup_rd (k : Nat) (x : Group) (j : Nat) : (c.setGroup k x).rd j = c.rd j := rfl
@[simp] theorem Chip.setGroup_rdDom (k : Nat) (x : Group) (j : Nat) : (c.setGroup k x).rdDom j = c.rdDom j := rfl
@[simp] theorem Chip.setGroup_same (k : Nat) (x : Group) : (c.setGroup k x).group k = x := by simp [Chip.setGroup, Chip.group]
theorem Chip.setGroup_ne (k : Nat) (x : Group) {j : Nat} (h : j ≠ k) : (c.setGroup k x).group j = c.group j := sget_sset_ne _ _ x h

/-! ### A trigger machine set -/

@[simp] theorem Chip.setMachine_lc (k : Nat) (x : TrigMachine) : (c.setMachine k x).lc = c.lc := rfl
@[simp] theorem Chip.setMachine_xo (k : Nat) (x : TrigMachine) : (c.setMachine k x).xo = c.xo := rfl
@[simp] theorem Chip.setMachine_free (k : Nat) (x : TrigMachine) : (c.setMachine k x).free = c.free := rfl
@[simp] theorem Chip.setMachine_dom (k : Nat) (x : TrigMachine) : (c.setMachine k x).dom = c.dom := rfl
@[simp] theorem Chip.setMachine_out (k : Nat) (x : TrigMachine) : (c.setMachine k x).out = c.out := rfl
@[simp] theorem Chip.setMachine_dict (k : Nat) (x : TrigMachine) : (c.setMachine k x).dict = c.dict := rfl
@[simp] theorem Chip.setMachine_faults (k : Nat) (x : TrigMachine) : (c.setMachine k x).faults = c.faults := rfl
@[simp] theorem Chip.setMachine_ipend (k : Nat) (x : TrigMachine) : (c.setMachine k x).ipend = c.ipend := rfl
@[simp] theorem Chip.setMachine_frontSeen (k : Nat) (x : TrigMachine) : (c.setMachine k x).frontSeen = c.frontSeen := rfl
@[simp] theorem Chip.setMachine_frontAny (k : Nat) (x : TrigMachine) : (c.setMachine k x).frontAny = c.frontAny := rfl
@[simp] theorem Chip.setMachine_streams (k : Nat) (x : TrigMachine) : (c.setMachine k x).streams = c.streams := rfl
@[simp] theorem Chip.setMachine_writer (k : Nat) (x : TrigMachine) : (c.setMachine k x).writer = c.writer := rfl
@[simp] theorem Chip.setMachine_time (k : Nat) (x : TrigMachine) : (c.setMachine k x).time = c.time := rfl
@[simp] theorem Chip.setMachine_hbm (k : Nat) (x : TrigMachine) : (c.setMachine k x).hbm = c.hbm := rfl
@[simp] theorem Chip.setMachine_matrix (k : Nat) (x : TrigMachine) : (c.setMachine k x).matrix = c.matrix := rfl
@[simp] theorem Chip.setMachine_power (k : Nat) (x : TrigMachine) : (c.setMachine k x).power = c.power := rfl
@[simp] theorem Chip.setMachine_reports (k : Nat) (x : TrigMachine) : (c.setMachine k x).reports = c.reports := rfl
@[simp] theorem Chip.setMachine_clock (k : Nat) (x : TrigMachine) : (c.setMachine k x).clock = c.clock := rfl
@[simp] theorem Chip.setMachine_lanes (k : Nat) (x : TrigMachine) : (c.setMachine k x).lanes = c.lanes := rfl
@[simp] theorem Chip.setMachine_bundles (k : Nat) (x : TrigMachine) : (c.setMachine k x).bundles = c.bundles := rfl
@[simp] theorem Chip.setMachine_ports (k : Nat) (x : TrigMachine) : (c.setMachine k x).ports = c.ports := rfl
@[simp] theorem Chip.setMachine_past (k : Nat) (x : TrigMachine) : (c.setMachine k x).past = c.past := rfl
@[simp] theorem Chip.setMachine_twin (k : Nat) (x : TrigMachine) : (c.setMachine k x).twin = c.twin := rfl
@[simp] theorem Chip.setMachine_fe (k : Nat) (x : TrigMachine) : (c.setMachine k x).fe = c.fe := rfl
@[simp] theorem Chip.setMachine_truss (k : Nat) (x : TrigMachine) : (c.setMachine k x).truss = c.truss := rfl
@[simp] theorem Chip.setMachine_xe (k : Nat) (x : TrigMachine) : (c.setMachine k x).xe = c.xe := rfl
@[simp] theorem Chip.setMachine_outs (k : Nat) (x : TrigMachine) : (c.setMachine k x).outs = c.outs := rfl
@[simp] theorem Chip.setMachine_rst (k : Nat) (x : TrigMachine) : (c.setMachine k x).rst = c.rst := rfl
@[simp] theorem Chip.setMachine_pkg (k : Nat) (x : TrigMachine) : (c.setMachine k x).pkg = c.pkg := rfl
@[simp] theorem Chip.setMachine_rdDom (k : Nat) (x : TrigMachine) (j : Nat) : (c.setMachine k x).rdDom j = c.rdDom j := rfl
@[simp] theorem Chip.setMachine_same (k : Nat) (x : TrigMachine) : (c.setMachine k x).machine k = x := by simp [Chip.setMachine, Chip.machine, Chip.wr]
theorem Chip.setMachine_ne (k : Nat) (x : TrigMachine) {j : Nat} (h : j ≠ k) : (c.setMachine k x).machine j = c.machine j := sget_sset_ne _ _ x h

/-! ### Training of a stack set -/

@[simp] theorem Chip.setTraining_lc (k : Fin 6) (x : StackTraining) : (c.setTraining k x).lc = c.lc := rfl
@[simp] theorem Chip.setTraining_xo (k : Fin 6) (x : StackTraining) : (c.setTraining k x).xo = c.xo := rfl
@[simp] theorem Chip.setTraining_free (k : Fin 6) (x : StackTraining) : (c.setTraining k x).free = c.free := rfl
@[simp] theorem Chip.setTraining_obj (k : Fin 6) (x : StackTraining) : (c.setTraining k x).obj = c.obj := rfl
@[simp] theorem Chip.setTraining_dom (k : Fin 6) (x : StackTraining) : (c.setTraining k x).dom = c.dom := rfl
@[simp] theorem Chip.setTraining_out (k : Fin 6) (x : StackTraining) : (c.setTraining k x).out = c.out := rfl
@[simp] theorem Chip.setTraining_dict (k : Fin 6) (x : StackTraining) : (c.setTraining k x).dict = c.dict := rfl
@[simp] theorem Chip.setTraining_faults (k : Fin 6) (x : StackTraining) : (c.setTraining k x).faults = c.faults := rfl
@[simp] theorem Chip.setTraining_ipend (k : Fin 6) (x : StackTraining) : (c.setTraining k x).ipend = c.ipend := rfl
@[simp] theorem Chip.setTraining_frontSeen (k : Fin 6) (x : StackTraining) : (c.setTraining k x).frontSeen = c.frontSeen := rfl
@[simp] theorem Chip.setTraining_frontAny (k : Fin 6) (x : StackTraining) : (c.setTraining k x).frontAny = c.frontAny := rfl
@[simp] theorem Chip.setTraining_streams (k : Fin 6) (x : StackTraining) : (c.setTraining k x).streams = c.streams := rfl
@[simp] theorem Chip.setTraining_writer (k : Fin 6) (x : StackTraining) : (c.setTraining k x).writer = c.writer := rfl
@[simp] theorem Chip.setTraining_time (k : Fin 6) (x : StackTraining) : (c.setTraining k x).time = c.time := rfl
@[simp] theorem Chip.setTraining_matrix (k : Fin 6) (x : StackTraining) : (c.setTraining k x).matrix = c.matrix := rfl
@[simp] theorem Chip.setTraining_power (k : Fin 6) (x : StackTraining) : (c.setTraining k x).power = c.power := rfl
@[simp] theorem Chip.setTraining_reports (k : Fin 6) (x : StackTraining) : (c.setTraining k x).reports = c.reports := rfl
@[simp] theorem Chip.setTraining_clock (k : Fin 6) (x : StackTraining) : (c.setTraining k x).clock = c.clock := rfl
@[simp] theorem Chip.setTraining_lanes (k : Fin 6) (x : StackTraining) : (c.setTraining k x).lanes = c.lanes := rfl
@[simp] theorem Chip.setTraining_bundles (k : Fin 6) (x : StackTraining) : (c.setTraining k x).bundles = c.bundles := rfl
@[simp] theorem Chip.setTraining_ports (k : Fin 6) (x : StackTraining) : (c.setTraining k x).ports = c.ports := rfl
@[simp] theorem Chip.setTraining_trigger (k : Fin 6) (x : StackTraining) : (c.setTraining k x).trigger = c.trigger := rfl
@[simp] theorem Chip.setTraining_past (k : Fin 6) (x : StackTraining) : (c.setTraining k x).past = c.past := rfl
@[simp] theorem Chip.setTraining_twin (k : Fin 6) (x : StackTraining) : (c.setTraining k x).twin = c.twin := rfl
@[simp] theorem Chip.setTraining_fe (k : Fin 6) (x : StackTraining) : (c.setTraining k x).fe = c.fe := rfl
@[simp] theorem Chip.setTraining_truss (k : Fin 6) (x : StackTraining) : (c.setTraining k x).truss = c.truss := rfl
@[simp] theorem Chip.setTraining_xe (k : Fin 6) (x : StackTraining) : (c.setTraining k x).xe = c.xe := rfl
@[simp] theorem Chip.setTraining_outs (k : Fin 6) (x : StackTraining) : (c.setTraining k x).outs = c.outs := rfl
@[simp] theorem Chip.setTraining_rst (k : Fin 6) (x : StackTraining) : (c.setTraining k x).rst = c.rst := rfl
@[simp] theorem Chip.setTraining_pkg (k : Fin 6) (x : StackTraining) : (c.setTraining k x).pkg = c.pkg := rfl
@[simp] theorem Chip.setTraining_rd (k : Fin 6) (x : StackTraining) (j : Nat) : (c.setTraining k x).rd j = c.rd j := rfl
@[simp] theorem Chip.setTraining_rdDom (k : Fin 6) (x : StackTraining) (j : Nat) : (c.setTraining k x).rdDom j = c.rdDom j := rfl

/-! ### A pseudo-channel set -/

@[simp] theorem Chip.setPc_lc (k : Nat) (x : PseudoChannel) : (c.setPc k x).lc = c.lc := rfl
@[simp] theorem Chip.setPc_xo (k : Nat) (x : PseudoChannel) : (c.setPc k x).xo = c.xo := rfl
@[simp] theorem Chip.setPc_free (k : Nat) (x : PseudoChannel) : (c.setPc k x).free = c.free := rfl
@[simp] theorem Chip.setPc_obj (k : Nat) (x : PseudoChannel) : (c.setPc k x).obj = c.obj := rfl
@[simp] theorem Chip.setPc_dom (k : Nat) (x : PseudoChannel) : (c.setPc k x).dom = c.dom := rfl
@[simp] theorem Chip.setPc_out (k : Nat) (x : PseudoChannel) : (c.setPc k x).out = c.out := rfl
@[simp] theorem Chip.setPc_dict (k : Nat) (x : PseudoChannel) : (c.setPc k x).dict = c.dict := rfl
@[simp] theorem Chip.setPc_faults (k : Nat) (x : PseudoChannel) : (c.setPc k x).faults = c.faults := rfl
@[simp] theorem Chip.setPc_ipend (k : Nat) (x : PseudoChannel) : (c.setPc k x).ipend = c.ipend := rfl
@[simp] theorem Chip.setPc_frontSeen (k : Nat) (x : PseudoChannel) : (c.setPc k x).frontSeen = c.frontSeen := rfl
@[simp] theorem Chip.setPc_frontAny (k : Nat) (x : PseudoChannel) : (c.setPc k x).frontAny = c.frontAny := rfl
@[simp] theorem Chip.setPc_streams (k : Nat) (x : PseudoChannel) : (c.setPc k x).streams = c.streams := rfl
@[simp] theorem Chip.setPc_writer (k : Nat) (x : PseudoChannel) : (c.setPc k x).writer = c.writer := rfl
@[simp] theorem Chip.setPc_time (k : Nat) (x : PseudoChannel) : (c.setPc k x).time = c.time := rfl
@[simp] theorem Chip.setPc_matrix (k : Nat) (x : PseudoChannel) : (c.setPc k x).matrix = c.matrix := rfl
@[simp] theorem Chip.setPc_power (k : Nat) (x : PseudoChannel) : (c.setPc k x).power = c.power := rfl
@[simp] theorem Chip.setPc_reports (k : Nat) (x : PseudoChannel) : (c.setPc k x).reports = c.reports := rfl
@[simp] theorem Chip.setPc_clock (k : Nat) (x : PseudoChannel) : (c.setPc k x).clock = c.clock := rfl
@[simp] theorem Chip.setPc_lanes (k : Nat) (x : PseudoChannel) : (c.setPc k x).lanes = c.lanes := rfl
@[simp] theorem Chip.setPc_bundles (k : Nat) (x : PseudoChannel) : (c.setPc k x).bundles = c.bundles := rfl
@[simp] theorem Chip.setPc_ports (k : Nat) (x : PseudoChannel) : (c.setPc k x).ports = c.ports := rfl
@[simp] theorem Chip.setPc_trigger (k : Nat) (x : PseudoChannel) : (c.setPc k x).trigger = c.trigger := rfl
@[simp] theorem Chip.setPc_past (k : Nat) (x : PseudoChannel) : (c.setPc k x).past = c.past := rfl
@[simp] theorem Chip.setPc_twin (k : Nat) (x : PseudoChannel) : (c.setPc k x).twin = c.twin := rfl
@[simp] theorem Chip.setPc_fe (k : Nat) (x : PseudoChannel) : (c.setPc k x).fe = c.fe := rfl
@[simp] theorem Chip.setPc_truss (k : Nat) (x : PseudoChannel) : (c.setPc k x).truss = c.truss := rfl
@[simp] theorem Chip.setPc_xe (k : Nat) (x : PseudoChannel) : (c.setPc k x).xe = c.xe := rfl
@[simp] theorem Chip.setPc_outs (k : Nat) (x : PseudoChannel) : (c.setPc k x).outs = c.outs := rfl
@[simp] theorem Chip.setPc_rst (k : Nat) (x : PseudoChannel) : (c.setPc k x).rst = c.rst := rfl
@[simp] theorem Chip.setPc_pkg (k : Nat) (x : PseudoChannel) : (c.setPc k x).pkg = c.pkg := rfl
@[simp] theorem Chip.setPc_rd (k : Nat) (x : PseudoChannel) (j : Nat) : (c.setPc k x).rd j = c.rd j := rfl
@[simp] theorem Chip.setPc_rdDom (k : Nat) (x : PseudoChannel) (j : Nat) : (c.setPc k x).rdDom j = c.rdDom j := rfl

/-! ### A DMA channel set -/

@[simp] theorem Chip.setDma_lc (k : Nat) (x : DmaChannel) : (c.setDma k x).lc = c.lc := rfl
@[simp] theorem Chip.setDma_xo (k : Nat) (x : DmaChannel) : (c.setDma k x).xo = c.xo := rfl
@[simp] theorem Chip.setDma_free (k : Nat) (x : DmaChannel) : (c.setDma k x).free = c.free := rfl
@[simp] theorem Chip.setDma_obj (k : Nat) (x : DmaChannel) : (c.setDma k x).obj = c.obj := rfl
@[simp] theorem Chip.setDma_dom (k : Nat) (x : DmaChannel) : (c.setDma k x).dom = c.dom := rfl
@[simp] theorem Chip.setDma_out (k : Nat) (x : DmaChannel) : (c.setDma k x).out = c.out := rfl
@[simp] theorem Chip.setDma_dict (k : Nat) (x : DmaChannel) : (c.setDma k x).dict = c.dict := rfl
@[simp] theorem Chip.setDma_faults (k : Nat) (x : DmaChannel) : (c.setDma k x).faults = c.faults := rfl
@[simp] theorem Chip.setDma_ipend (k : Nat) (x : DmaChannel) : (c.setDma k x).ipend = c.ipend := rfl
@[simp] theorem Chip.setDma_frontSeen (k : Nat) (x : DmaChannel) : (c.setDma k x).frontSeen = c.frontSeen := rfl
@[simp] theorem Chip.setDma_frontAny (k : Nat) (x : DmaChannel) : (c.setDma k x).frontAny = c.frontAny := rfl
@[simp] theorem Chip.setDma_streams (k : Nat) (x : DmaChannel) : (c.setDma k x).streams = c.streams := rfl
@[simp] theorem Chip.setDma_writer (k : Nat) (x : DmaChannel) : (c.setDma k x).writer = c.writer := rfl
@[simp] theorem Chip.setDma_time (k : Nat) (x : DmaChannel) : (c.setDma k x).time = c.time := rfl
@[simp] theorem Chip.setDma_hbm (k : Nat) (x : DmaChannel) : (c.setDma k x).hbm = c.hbm := rfl
@[simp] theorem Chip.setDma_power (k : Nat) (x : DmaChannel) : (c.setDma k x).power = c.power := rfl
@[simp] theorem Chip.setDma_reports (k : Nat) (x : DmaChannel) : (c.setDma k x).reports = c.reports := rfl
@[simp] theorem Chip.setDma_clock (k : Nat) (x : DmaChannel) : (c.setDma k x).clock = c.clock := rfl
@[simp] theorem Chip.setDma_lanes (k : Nat) (x : DmaChannel) : (c.setDma k x).lanes = c.lanes := rfl
@[simp] theorem Chip.setDma_bundles (k : Nat) (x : DmaChannel) : (c.setDma k x).bundles = c.bundles := rfl
@[simp] theorem Chip.setDma_ports (k : Nat) (x : DmaChannel) : (c.setDma k x).ports = c.ports := rfl
@[simp] theorem Chip.setDma_trigger (k : Nat) (x : DmaChannel) : (c.setDma k x).trigger = c.trigger := rfl
@[simp] theorem Chip.setDma_past (k : Nat) (x : DmaChannel) : (c.setDma k x).past = c.past := rfl
@[simp] theorem Chip.setDma_twin (k : Nat) (x : DmaChannel) : (c.setDma k x).twin = c.twin := rfl
@[simp] theorem Chip.setDma_fe (k : Nat) (x : DmaChannel) : (c.setDma k x).fe = c.fe := rfl
@[simp] theorem Chip.setDma_truss (k : Nat) (x : DmaChannel) : (c.setDma k x).truss = c.truss := rfl
@[simp] theorem Chip.setDma_xe (k : Nat) (x : DmaChannel) : (c.setDma k x).xe = c.xe := rfl
@[simp] theorem Chip.setDma_outs (k : Nat) (x : DmaChannel) : (c.setDma k x).outs = c.outs := rfl
@[simp] theorem Chip.setDma_rst (k : Nat) (x : DmaChannel) : (c.setDma k x).rst = c.rst := rfl
@[simp] theorem Chip.setDma_pkg (k : Nat) (x : DmaChannel) : (c.setDma k x).pkg = c.pkg := rfl
@[simp] theorem Chip.setDma_rd (k : Nat) (x : DmaChannel) (j : Nat) : (c.setDma k x).rd j = c.rd j := rfl
@[simp] theorem Chip.setDma_rdDom (k : Nat) (x : DmaChannel) (j : Nat) : (c.setDma k x).rdDom j = c.rdDom j := rfl
@[simp] theorem Chip.setDma_same (k : Nat) (x : DmaChannel) : (c.setDma k x).dma k = x := by simp [Chip.setDma, Chip.dma]
theorem Chip.setDma_ne (k : Nat) (x : DmaChannel) {j : Nat} (h : j ≠ k) : (c.setDma k x).dma j = c.dma j := sget_sset_ne _ _ x h

/-! ### An output port set -/

@[simp] theorem Chip.setPort_lc (k : Nat) (x : OutPort) : (c.setPort k x).lc = c.lc := rfl
@[simp] theorem Chip.setPort_xo (k : Nat) (x : OutPort) : (c.setPort k x).xo = c.xo := rfl
@[simp] theorem Chip.setPort_free (k : Nat) (x : OutPort) : (c.setPort k x).free = c.free := rfl
@[simp] theorem Chip.setPort_obj (k : Nat) (x : OutPort) : (c.setPort k x).obj = c.obj := rfl
@[simp] theorem Chip.setPort_dom (k : Nat) (x : OutPort) : (c.setPort k x).dom = c.dom := rfl
@[simp] theorem Chip.setPort_out (k : Nat) (x : OutPort) : (c.setPort k x).out = c.out := rfl
@[simp] theorem Chip.setPort_dict (k : Nat) (x : OutPort) : (c.setPort k x).dict = c.dict := rfl
@[simp] theorem Chip.setPort_faults (k : Nat) (x : OutPort) : (c.setPort k x).faults = c.faults := rfl
@[simp] theorem Chip.setPort_ipend (k : Nat) (x : OutPort) : (c.setPort k x).ipend = c.ipend := rfl
@[simp] theorem Chip.setPort_frontSeen (k : Nat) (x : OutPort) : (c.setPort k x).frontSeen = c.frontSeen := rfl
@[simp] theorem Chip.setPort_frontAny (k : Nat) (x : OutPort) : (c.setPort k x).frontAny = c.frontAny := rfl
@[simp] theorem Chip.setPort_streams (k : Nat) (x : OutPort) : (c.setPort k x).streams = c.streams := rfl
@[simp] theorem Chip.setPort_writer (k : Nat) (x : OutPort) : (c.setPort k x).writer = c.writer := rfl
@[simp] theorem Chip.setPort_time (k : Nat) (x : OutPort) : (c.setPort k x).time = c.time := rfl
@[simp] theorem Chip.setPort_hbm (k : Nat) (x : OutPort) : (c.setPort k x).hbm = c.hbm := rfl
@[simp] theorem Chip.setPort_matrix (k : Nat) (x : OutPort) : (c.setPort k x).matrix = c.matrix := rfl
@[simp] theorem Chip.setPort_power (k : Nat) (x : OutPort) : (c.setPort k x).power = c.power := rfl
@[simp] theorem Chip.setPort_reports (k : Nat) (x : OutPort) : (c.setPort k x).reports = c.reports := rfl
@[simp] theorem Chip.setPort_clock (k : Nat) (x : OutPort) : (c.setPort k x).clock = c.clock := rfl
@[simp] theorem Chip.setPort_lanes (k : Nat) (x : OutPort) : (c.setPort k x).lanes = c.lanes := rfl
@[simp] theorem Chip.setPort_bundles (k : Nat) (x : OutPort) : (c.setPort k x).bundles = c.bundles := rfl
@[simp] theorem Chip.setPort_trigger (k : Nat) (x : OutPort) : (c.setPort k x).trigger = c.trigger := rfl
@[simp] theorem Chip.setPort_past (k : Nat) (x : OutPort) : (c.setPort k x).past = c.past := rfl
@[simp] theorem Chip.setPort_twin (k : Nat) (x : OutPort) : (c.setPort k x).twin = c.twin := rfl
@[simp] theorem Chip.setPort_fe (k : Nat) (x : OutPort) : (c.setPort k x).fe = c.fe := rfl
@[simp] theorem Chip.setPort_truss (k : Nat) (x : OutPort) : (c.setPort k x).truss = c.truss := rfl
@[simp] theorem Chip.setPort_xe (k : Nat) (x : OutPort) : (c.setPort k x).xe = c.xe := rfl
@[simp] theorem Chip.setPort_outs (k : Nat) (x : OutPort) : (c.setPort k x).outs = c.outs := rfl
@[simp] theorem Chip.setPort_rst (k : Nat) (x : OutPort) : (c.setPort k x).rst = c.rst := rfl
@[simp] theorem Chip.setPort_pkg (k : Nat) (x : OutPort) : (c.setPort k x).pkg = c.pkg := rfl
@[simp] theorem Chip.setPort_rd (k : Nat) (x : OutPort) (j : Nat) : (c.setPort k x).rd j = c.rd j := rfl
@[simp] theorem Chip.setPort_rdDom (k : Nat) (x : OutPort) (j : Nat) : (c.setPort k x).rdDom j = c.rdDom j := rfl
@[simp] theorem Chip.setPort_same (k : Nat) (x : OutPort) : (c.setPort k x).port k = x := by simp [Chip.setPort, Chip.port]
theorem Chip.setPort_ne (k : Nat) (x : OutPort) {j : Nat} (h : j ≠ k) : (c.setPort k x).port j = c.port j := sget_sset_ne _ _ x h

/-! ### An output stream set -/

@[simp] theorem Chip.setOutStream_lc (k : Nat) (x : OutStream) : (c.setOutStream k x).lc = c.lc := rfl
@[simp] theorem Chip.setOutStream_xo (k : Nat) (x : OutStream) : (c.setOutStream k x).xo = c.xo := rfl
@[simp] theorem Chip.setOutStream_free (k : Nat) (x : OutStream) : (c.setOutStream k x).free = c.free := rfl
@[simp] theorem Chip.setOutStream_obj (k : Nat) (x : OutStream) : (c.setOutStream k x).obj = c.obj := rfl
@[simp] theorem Chip.setOutStream_dom (k : Nat) (x : OutStream) : (c.setOutStream k x).dom = c.dom := rfl
@[simp] theorem Chip.setOutStream_out (k : Nat) (x : OutStream) : (c.setOutStream k x).out = c.out := rfl
@[simp] theorem Chip.setOutStream_dict (k : Nat) (x : OutStream) : (c.setOutStream k x).dict = c.dict := rfl
@[simp] theorem Chip.setOutStream_faults (k : Nat) (x : OutStream) : (c.setOutStream k x).faults = c.faults := rfl
@[simp] theorem Chip.setOutStream_ipend (k : Nat) (x : OutStream) : (c.setOutStream k x).ipend = c.ipend := rfl
@[simp] theorem Chip.setOutStream_frontSeen (k : Nat) (x : OutStream) : (c.setOutStream k x).frontSeen = c.frontSeen := rfl
@[simp] theorem Chip.setOutStream_frontAny (k : Nat) (x : OutStream) : (c.setOutStream k x).frontAny = c.frontAny := rfl
@[simp] theorem Chip.setOutStream_streams (k : Nat) (x : OutStream) : (c.setOutStream k x).streams = c.streams := rfl
@[simp] theorem Chip.setOutStream_writer (k : Nat) (x : OutStream) : (c.setOutStream k x).writer = c.writer := rfl
@[simp] theorem Chip.setOutStream_time (k : Nat) (x : OutStream) : (c.setOutStream k x).time = c.time := rfl
@[simp] theorem Chip.setOutStream_hbm (k : Nat) (x : OutStream) : (c.setOutStream k x).hbm = c.hbm := rfl
@[simp] theorem Chip.setOutStream_matrix (k : Nat) (x : OutStream) : (c.setOutStream k x).matrix = c.matrix := rfl
@[simp] theorem Chip.setOutStream_power (k : Nat) (x : OutStream) : (c.setOutStream k x).power = c.power := rfl
@[simp] theorem Chip.setOutStream_reports (k : Nat) (x : OutStream) : (c.setOutStream k x).reports = c.reports := rfl
@[simp] theorem Chip.setOutStream_clock (k : Nat) (x : OutStream) : (c.setOutStream k x).clock = c.clock := rfl
@[simp] theorem Chip.setOutStream_lanes (k : Nat) (x : OutStream) : (c.setOutStream k x).lanes = c.lanes := rfl
@[simp] theorem Chip.setOutStream_bundles (k : Nat) (x : OutStream) : (c.setOutStream k x).bundles = c.bundles := rfl
@[simp] theorem Chip.setOutStream_ports (k : Nat) (x : OutStream) : (c.setOutStream k x).ports = c.ports := rfl
@[simp] theorem Chip.setOutStream_trigger (k : Nat) (x : OutStream) : (c.setOutStream k x).trigger = c.trigger := rfl
@[simp] theorem Chip.setOutStream_past (k : Nat) (x : OutStream) : (c.setOutStream k x).past = c.past := rfl
@[simp] theorem Chip.setOutStream_twin (k : Nat) (x : OutStream) : (c.setOutStream k x).twin = c.twin := rfl
@[simp] theorem Chip.setOutStream_fe (k : Nat) (x : OutStream) : (c.setOutStream k x).fe = c.fe := rfl
@[simp] theorem Chip.setOutStream_truss (k : Nat) (x : OutStream) : (c.setOutStream k x).truss = c.truss := rfl
@[simp] theorem Chip.setOutStream_xe (k : Nat) (x : OutStream) : (c.setOutStream k x).xe = c.xe := rfl
@[simp] theorem Chip.setOutStream_rst (k : Nat) (x : OutStream) : (c.setOutStream k x).rst = c.rst := rfl
@[simp] theorem Chip.setOutStream_pkg (k : Nat) (x : OutStream) : (c.setOutStream k x).pkg = c.pkg := rfl
@[simp] theorem Chip.setOutStream_rd (k : Nat) (x : OutStream) (j : Nat) : (c.setOutStream k x).rd j = c.rd j := rfl
@[simp] theorem Chip.setOutStream_rdDom (k : Nat) (x : OutStream) (j : Nat) : (c.setOutStream k x).rdDom j = c.rdDom j := rfl
@[simp] theorem Chip.setOutStream_same (k : Nat) (x : OutStream) : (c.setOutStream k x).outStream k = x := by simp [Chip.setOutStream, Chip.outStream]
theorem Chip.setOutStream_ne (k : Nat) (x : OutStream) {j : Nat} (h : j ≠ k) : (c.setOutStream k x).outStream j = c.outStream j := sget_sset_ne _ _ x h

/-! ### Objects read after they were set -/

@[simp] theorem Chip.wr_rd_same (k v : Nat) : (c.wr k v).rd k = v := by simp [Chip.wr, Chip.rd]
theorem Chip.wr_rd_ne (k v : Nat) {j : Nat} (h : j ≠ k) : (c.wr k v).rd j = c.rd j := sget_sset_ne _ _ v h
@[simp] theorem Chip.wrDom_rdDom_same (k : Nat) (b : List Byte) : (c.wrDom k b).rdDom k = b := by simp [Chip.wrDom, Chip.rdDom]
theorem Chip.wrDom_rdDom_ne (k : Nat) (b : List Byte) {j : Nat} (h : j ≠ k) : (c.wrDom k b).rdDom j = c.rdDom j :=
  sget_sset_ne _ _ b h

/-- Counting an object up changes that object alone, and by the count it wraps to its type. -/
theorem Chip.bump_rd (k n j : Nat) :
    (c.bump k n).rd j = if j = k ∧ n ≠ 0 then wrapObj k (c.rd k + n) else c.rd j := by
  unfold Chip.bump
  by_cases h : n = 0
  · simp [h]
  · by_cases e : j = k
    · subst e; simp [h]
    · simp [h, e, Chip.wr_rd_ne c k _ e]

/-- Counting an object up leaves everything but the scalar objects. -/
theorem Chip.bump_frame (k n : Nat) : ∃ o, c.bump k n = { c with obj := o } := by
  unfold Chip.bump Chip.wr
  split
  · exact ⟨c.obj, rfl⟩
  · exact ⟨_, rfl⟩

/-! ### Setters and the state after an instruction -/

variable (s : State) (n : Fin 8) (x : Setter)

@[simp] theorem State.after_pending : (s.after n x).pending = s.pending := rfl
@[simp] theorem State.after_chip : (s.after n x).dev.chip = s.dev.chip := rfl
@[simp] theorem State.after_mem : (s.after n x).dev.mem = s.dev.mem := rfl
@[simp] theorem State.after_same : (s.after n x).dev.cores[n] =
    { x with pc := (s.dev.cores[n]).pc + 1, cyc := (s.dev.cores[n]).cyc + 1 } := by
  simp [State.after, State.afterCycles]
theorem State.after_ne {m : Fin 8} (h : m ≠ n) : (s.after n x).dev.cores[m] = s.dev.cores[m] := by
  have : n.val ≠ m.val := fun e => h (Fin.ext e.symm)
  simp [State.after, State.afterCycles, this]

end Sys2Proof.Machine
end

