-- ==== Sys2Proof/WellFormed.lean ====
section
/-! DEFINITION. Which commands could arrive at all: the sizes that the wires, the frame formats and the buses fix for an
operand, and that its type does not. A command that is not well formed stands for nothing outside; its meaning is
defined all the same. -/

namespace Sys2Proof

/-- An IP address of 4 or 16 bytes, as the version says (R376). -/
def addressWf (v6 : Bool) (ip : List Byte) : Bool := ip.length == (if v6 then 16 else 4)

/-- A datagram came from an address of its IP version; its tag is 16 bytes when AUTH is set and absent otherwise
(R377, R384). -/
def Bdp.wf (d : Bdp) : Bool := addressWf d.v6 d.ip && d.tag.length == (if d.auth then 16 else 0)

/-- A unit request carries bytes of one 32-byte unit when it writes, none when it reads (R254, R267). -/
def HbmUnit.wf (u : HbmUnit) : Bool :=
  if u.write then decide (1 ≤ u.data.length) && decide (u.addr % 32 + u.data.length ≤ 32) else u.data.isEmpty

/-- A bus request is a piece of 1 to 256 bytes that carries its data when it writes (R323). -/
def MatrixReq.wf (r : MatrixReq) : Bool :=
  decide (1 ≤ r.len) && decide (r.len ≤ 256) && r.data.length == (if r.write then r.len else 0)

/-- The sizes of a command's operands. -/
def Instr.wf : Instr → Bool
  | .openSession d | .closeSession d | .keepalive d | .read d | .write d | .describe d | .beginTxn d | .commit d
  | .rollback d => d.wf
  | .neighbourSolicitation t ip _ => addressWf true t && addressWf true ip
  | .echoRequest v6 t ip _ _ => addressWf v6 t && addressWf v6 ip
  | .sdoDownloadInitiate f | .sdoUploadInitiate f | .sdoSegment f | .sdoBlockCommand f => f.length == 8
  | .dataBlock _ b => b.length == 8
  | .hbmRequest _ _ l => l.all HbmUnit.wf
  | .matrixAccess _ l => l.all MatrixReq.wf
  | _ => true

end Sys2Proof
end

