-- ==== Sys2Proof/Tests/Slice0.lean ====
section
/-! SUPPORT. The model's own tests: a term that the well-formedness check refuses, setter words written out from the encoding tables of
spec/11_setter_isa.md, and for each statement states and operands that meet its hypotheses. -/

open Sys2Proof Sys2Proof.Machine

namespace Sys2Proof.Tests

set_option maxRecDepth 100000
set_option Elab.async false
set_option linter.unusedVariables false

theorem test_wf_dataBlock_refused : (Instr.dataBlock 0 []).wf = false := by decide

/-! ### States to witness hypotheses -/

/-- READY after reset, every domain in RUN, the setters running, with objects as given. -/
def up (w : List (Nat × Nat)) : State :=
  let c := w.foldl (fun (a : Chip) e => a.wr e.1 e.2) ({ State.reset.dev.chip with lc := 1000 }.wr (od 0x5800 1) 5)
  { State.reset with dev := { State.reset.dev with chip := c, cores := Vector.replicate 8 { Setter.atReset with mode := .running } } }
/-- That state with the chip changed. -/
def upC (w : List (Nat × Nat)) (f : Chip → Chip) : State := { up w with dev := { (up w).dev with chip := f (up w).dev.chip } }
/-- A BDP request of session 1. -/
def req (sess : Nat) (more : Bool) (body : List Byte) : Bdp :=
  ⟨1, false, more, BitVec.ofNat 16 sess, 7, BitVec.ofNat 16 body.length, body, [], false, [10, 0, 0, 2], 999, 5⟩
/-- Session 1 open, an address, a port to send from. -/
def sess1 (w : List (Nat × Nat)) (f : Chip → Chip) : State :=
  upC ((od 0x1100 4, 0x0A000001) :: (od 0x1100 3, 0x1122) :: w) fun c =>
    f { c with dict := { c.dict with sessions := c.dict.sessions.set 1 { Session.free with isOpen := true } } }
/-- A transaction open. -/
def txn1 (o : Nat) (c : Chip) : Chip := { c with dict := { c.dict with txn := some ⟨o, 3, [(od 0x2C00 2, .num 1)], []⟩ } }
/-- The row of an object. -/
def theRow (i j : Nat) : ObjRow := (objRow i j).getD ⟨0, 0, .u8, .ro, 0, 0, 0, 0, none, []⟩
/-- A number as `n` bytes, big-endian. -/
def beL (v n : Nat) : List Byte := (List.range n).map fun i => BitVec.ofNat 8 (v / 256 ^ (n - 1 - i))
/-- A boot configuration with its header (R455). -/
def flashOf (v : Nat) (r : List Byte) : List Byte :=
  let h := beL 0x6400B0C5 4 ++ [1, 0, 0, 0] ++ beL v 4 ++ beL r.length 4
  h ++ beL (crc32 (h ++ r)) 4 ++ List.replicate 12 0 ++ r
/-- SLEEP asked for. -/
def sl0 : SleepCtl := ⟨true, .nobody, List.replicate 96 1, 0, none, 500, 600⟩
/-- SLEEP with two sources latched. -/
def sl1 : SleepCtl := { sl0 with latched := 5 }
/-- The clock in a state, with REF A eligible. -/
def clk (st : Nat) (w : List (Nat × Nat)) (f : Chip → Chip) : State :=
  upC ([(od 0x4800 1, st), (od 0x4810 1, 1), (od 0x4810 0x10, 4)] ++ w) fun c => f (c.setCand 0 ⟨true, true, false, none, true, 100, 0⟩)
/-- Every setter in reset. -/
def offS : State := { up [] with dev := { (up []).dev with cores := Vector.replicate 8 Setter.atReset } }
/-- Lane 3 in a state at a rate, in bundle 2 with lanes 3 and 5, of a role. -/
def laneS (st rate : Nat) (w : List (Nat × Nat)) (f : Lane → Lane) : State :=
  upC ([(od (0x2100+3) 1, 2), (od (0x2100+5) 1, 2), (od (0x2100+5) 2, 1), (od (0x2100+3) 0x10, st), (od (0x2100+3) 0x11, rate), (od (0x2100+5) 0x10, 0xA), (od (0x2100+5) 0x11, 5),
    (od 0x2001 1, 2), (od 0x2001 2, 2), (od 0x2302 1, 1), (od 0x2302 2, 5), (od 0x2302 3, 1), (od 0x2302 0x10, 3), (od 0x2302 0x11, 3), (od 0x2302 0x12, 3), (od 0x2302 5, 7), (od (0x2100+3) 0x25, 0x3F)] ++ w) fun c =>
    let c := c.wrDom (od (0x2100+3) 0x12) [0x20, 0x3F, 0x20, 7, 9, 0, 2, 3, 255, 255, 0,0,0,0,0,0]
    c.setLane 3 (f { Lane.atReset with los := false, since := 500 })
/-- A block body. -/
def mbits (v : Nat) : BitVec 56 := BitVec.ofNat 56 v
/-- Bundle 2 of lanes 3 and 5, up, with credit. -/
def bunS (w : List (Nat × Nat)) (g : Bundle → Bundle) : State :=
  let s := laneS 0xA 5 w id
  { s with dev := { s.dev with chip := s.dev.chip.setBundle 2 (g { Bundle.atReset with partner := some [100, 100, 1000], marker := some 4, row := 200, rowTime := 10 }) } }
/-- A CAP message of a Twiah-2 partner. -/
def capM : List Byte := let b : List Byte := [0x20, 0x3F, 0x20, 7, 9, 0, 2, 3, 255, 255, 0,0,0,0,0,0]; b ++ beL (crc32 b) 4
/-- A row of the input map: system input 5, format 1, bundle 2. -/
def rowB (on : Bool) (m : Nat) : List Byte := [if on then 0x80 else 0, 5, 0, 0x10, 0, 1, 0, BitVec.ofNat 8 m, 2, 0, 255, 255, 0,0,0,0] ++ List.replicate 16 0
/-- An ingest frame of format 1 (R86). -/
def ingF (str q n : Nat) : List Byte :=
  let h : List Byte := [0x10, 0x10] ++ beL str 2 ++ beL q 8 ++ [0,0,0,0,0,0] ++ beL n 2 ++ List.replicate 12 0 ++ (List.range n).map fun i => BitVec.ofNat 8 (i * 7)
  h ++ beL (crc32 h) 4
/-- Stream 9 on bundle 2. -/
def inS (w : List (Nat × Nat)) (x : Stream → Stream) (f : Chip → Chip) : State :=
  let s := laneS 0xA 5 ([(od 0x2001 1, 1), (od 0x2001 2, 1)] ++ w) id
  let c := s.dev.chip.wrDom (od 0x6000 0) (List.replicate (16+32*9) 0 ++ rowB true 1)
  { s with dev := { s.dev with chip := f (c.setStream 9 (x { Stream.atReset with rowIn := rowB true 1, rowOut := rowB true 1 })) } }
/-- A stick in the making. -/
def acc9 (n : Nat) : StickAcc := ⟨3, n, List.replicate 4 1, List.replicate 4 1, [], 0, 0, 0, [5]⟩
/-- Bytes and their CRC. -/
def crcd (h : List Byte) : List Byte := h ++ beL (crc32 h) 4
/-- A PEG frame of one peg from position 7. -/
def pegFr : List Byte := crcd ([0x12, 28, 16, 1] ++ beL 0 6 ++ beL 0 6 ++ List.replicate 16 0)
/-- A beacon or decision from position 7. -/
def ctlF (ty : Nat) : List Byte := crcd ([0x13, 28, 16, BitVec.ofNat 8 ty] ++ beL 0 6 ++ beL 0 6 ++ List.replicate (if ty = 1 then 16 else 24) 0)
/-- A SAMPLE frame from position 7. -/
def smpF : List Byte := crcd ([0x11, 28, 16, 0] ++ beL 0 6 ++ beL 1 2 ++ beL 0 2 ++ beL 4 6 ++ List.replicate 4124 1)
/-- Position 4 with a MESH bundle to position 7, and a half that fills with period 4. -/
def meshS : State :=
  let s := inS [(od 0x2001 1, 2), (od 0x2001 2, 2), (od (0xA000+7) 1, 2), (od 0x1080 1, 4), (od 0x2C10 1, 1), (od 0x2C10 2, 4)] id fun c =>
    ((c.wrDom (od 0x6004 0) (List.replicate 16 0 ++ beL 16 2 ++ beL 4 2 ++ [0,0,0,0,4,4,4,4,7,0,0,0])).setHalf 0 { c.half 0 with fixed := true })
  s
/-- The chip with a frame taken. -/
def tk (vl : Nat) (f : List Byte) : Chip := ((inS [(od 0x2001 1, 3), (od 0x2001 2, 3)] id id).dev.chip.takeFrame 2 vl f).getD State.reset.dev.chip
/-- A first release point. -/
def fp : Nat := ((inS [] (fun x => { x with st := .wait }) (fun c => (({ c with lc := 100000000 } : Chip).setStream 10 { Stream.atReset with st := .run, release := some 50000, rowIn := rowB true 1 }))).dev.chip.firstPoint 9).getD 0
/-- A position with 4 local channels, a truss map of 64 inputs, forme 3 correlate over channels 0-3 with the imposition of one entry. -/
def mapB : List Byte := List.replicate 16 0 ++ beL 64 2 ++ beL 4 2 ++ [0,0,0,0,4,4,4,4,4,4,4,4]
/-- The X-engine waits for its first period. -/
def xS (w : List (Nat × Nat)) (f : Chip → Chip) : State :=
  upC ([(od 0x1080 1, 4), (od 0x3000 1, 1), (od 0x3000 4, 1), (od 0x8003 1, 1), (od 0x8003 2, 1), (od 0x8003 4, 4), (od 0x8003 0x10, 2)] ++ w) fun c => f (c.wrDom (od 0x6004 0) mapB)
/-- An impression. -/
def imp0 : Impression := ⟨4, 0, 3, 0, 0⟩
/-- A full ledger slot. -/
def slot0 : LedgerSlot := ⟨3, 4, 0, 0, 0, [], List.replicate 64 (BeamRow.zero 256), none⟩
/-- A weight bank of one beam. -/
def bankB : List Byte := mkTable 0x11 (beL 1 2 ++ beL 64 2 ++ [0,0,0,0] ++ List.replicate (6*64) 0)
/-- A unit of the hub. -/
def hU (w : Bool) (a : Nat) (d : List Byte) : HbmUnit := ⟨9, w, a, if w then 32 else 16, d, false, false⟩
/-- The chip with pseudo-channel 0 as given. -/
def hS (g : Chip → PseudoChannel → PseudoChannel) (f : Chip → Chip) : State :=
  upC [] fun c => f (c.setPc (pcKey 0 0) (g c (c.hbm.pc (pcKey 0 0))))
/-- Where a unit lies. -/
def pl (c : Chip) (u : HbmUnit) : Nat := (c.unitPlace u.cls.val u.addr).getD 0
/-- The chip after reset, up. -/
def c0 : Chip := (up []).dev.chip
/-- A forwarded read. -/
def rdU : ReadUnit := ⟨9, 64, false, List.replicate 32 5, false, true⟩
/-- DMA channel 7 in a state. -/
def dch (st : Nat) (g : DmaChannel → DmaChannel) (w : List (Nat × Nat)) : State :=
  upC ([(od 0x4000 1, 1), (dmaOd 7 6, st), (dmaOd 7 1, 4096)] ++ w) fun c => c.setDma 7 (g { c.dma 7 with descAddr := 4096 })
/-- A descriptor. -/
def descB (src dst len : Nat) : List Byte := beL src 8 ++ beL dst 8 ++ beL len 4 ++ List.replicate 12 0
/-- Bytes in main SRAM. -/
def sramW (s : State) (a : Nat) (b : List Byte) : State := { s with dev := s.dev.writeSram a b }
/-- Output port 2 and stream 9, in the LEAD role. -/
def oS (w : List (Nat × Nat)) (f : Chip → Chip) : State := upC ([(portOd 2 1, 1), (portOd 2 0x10, 1), (outOd 9 1, 1), (od 0x5400 0x10, 2)] ++ w) f
/-- A readout whose records have left. -/
def rdo : Readout := ⟨3, 0, 0, 0, 500, 0, 0⟩
/-- An output frame. -/
def of1 : OutFrame := ⟨9, List.replicate 60 1, none, false⟩
/-- A capture. -/
def slotZ : Slot := ⟨⟨5000, 10, 10, 2, 0, false⟩, 0, 5, 4990, 5010, false, false, 500, 1000⟩
/-- A setter with a sound image header. -/
def bootC : Setter := { Setter.atReset with pram := [(0, BitVec.ofNat 64 (0x5A17 * 2^24 + 2^16 + 100)), (1, BitVec.ofNat 64 8)] }
/-- Setters with sound image headers. -/
def bootS : State := { up [] with dev := { (up []).dev with cores := Vector.replicate 8 (bootC) } }
/-- A control frame of the twin partner. -/
def twF (ty : Nat) (id : Nat) (body : List Byte) : List Byte := crcd ([0x13, 4*4+2, 4*4, BitVec.ofNat 8 ty] ++ beL 0 6 ++ beL id 6 ++ body)
/-- A twin in a role. -/
def twS (role : Nat) (w : List (Nat × Nat)) (f : Chip → Chip) : State :=
  inS ([(od 0x2001 1, 3), (od 0x2001 2, 3), (od 0x1080 1, 4), (od 0x5400 1, 1), (od 0x5400 2, 2), (od 0x5400 0x10, role)] ++ w) id f
/-- A heartbeat body. -/
def hbB (r : Nat) : List Byte := [BitVec.ofNat 8 r, 1] ++ List.replicate 14 0 ++ beL 55 2 ++ beL 66 6 ++ beL 9000 8
/-- The chip after a message from the twin. -/
def prt (s : State) (ty : Nat) (f : List Byte) : Chip := (s.dev.chip.twinIn 2 ty f).1
/-- The body of a message from the twin. -/
def bod (s : State) (ty : Nat) (f : List Byte) : List Byte := ((s.dev.chip.twinIn 2 ty f).2).getD []
/-- The end of a snapshot. -/
def snapB : List Byte := [1] ++ List.replicate 7 0 ++ beL 77 8
/-- A mirrored write. -/
def mwB : List Byte := beL 0x2C00 2 ++ [2, 0] ++ beL 0 4 ++ beL 4 4 ++ beL 4 4 ++ [0,0,7,208]
/-- A PTP frame. -/
def ptpFr : List Byte := List.replicate 12 1 ++ [0x88, 0xF7] ++ List.replicate 46 2
/-- A prepared PTP frame in the transmit ring. -/
def ptpS : State := sramW (up [(od 0x4C30 2, 4096)]) 4096 ([0x20, 0x80] ++ beL 64 2 ++ List.replicate 28 0)


/-! ### Setter words written out from the encoding tables -/

/-- The worked example of spec/11_setter_isa.md: `cmac.s acc2, w40, w5 || ldx w33, [p1++] || ldy w34, [p9+=m10]`. -/
theorem test_word_cmac : decodeSetter 2 0x18AA05090922_44CA =
    some (.cmac 2 ⟨true, 2, 40, 5, ⟨false, 0, false⟩, ⟨true, 0, 33, 1, 1, 0⟩, ⟨true, 0, 34, 3, 1, 2⟩⟩) := by decide +kernel
/-- R299: class 2, S 1, code 0b00001, WD 3, WA 4, WB 5. -/
theorem test_word_sub : decodeSetter 0 (2 * 2 ^ 60 + 2 ^ 59 + 1 * 2 ^ 54 + 3 * 2 ^ 48 + 4 * 2 ^ 42 + 5 * 2 ^ 36) =
    some (.sub 0 ⟨true, 3, 4, 5, ⟨false, 0, 0, 0, 0, 0⟩, ⟨false, 0, 0, 0, 0, 0⟩⟩) := by decide +kernel
/-- R301: class 4, DIR 1, space 1, W 9, address 0x155. -/
theorem test_word_near_store : decodeSetter 0 (4 * 2 ^ 60 + 2 ^ 59 + 1 * 2 ^ 57 + 9 * 2 ^ 51 + 0x155) =
    some (.nearAbsoluteStore 0 1 9 0x155) := by decide +kernel
/-- R303: class 6, kind 1, register 5, immediate 77. -/
theorem test_word_immediate : decodeSetter 0 (6 * 2 ^ 60 + 1 * 2 ^ 56 + 5 * 2 ^ 50 + 77) = some (.immediateP 0 5 77) := by
  decide +kernel
/-- R304: class 7, OP 2, D 3, S 4, immediate -1. -/
theorem test_word_addm : decodeSetter 0 (7 * 2 ^ 60 + 2 * 2 ^ 56 + 3 * 2 ^ 52 + 4 * 2 ^ 48 + 0xFFFFFFFF) =
    some (.addm 0 3 4 0xFFFFFFFF) := by decide +kernel
/-- R305: class 0, OP 0b01000, SRC 1, ROT 2, W 6, end 0x30, count 7. -/
theorem test_word_loop : decodeSetter 0 (8 * 2 ^ 55 + 2 ^ 50 + 2 * 2 ^ 48 + 6 * 2 ^ 40 + 0x30 * 2 ^ 16 + 7) =
    some (.loop 0 true 2 6 0x30 7) := by decide +kernel
/-- R297 and R305: OP 11 of the MAC class and OP 13 of the control class are reserved. -/
theorem test_words_reserved : decodeSetter 0 (2 ^ 60 + 11 * 2 ^ 55) = none ∧ decodeSetter 0 (13 * 2 ^ 55) = none := by
  decide +kernel
/-- The same worked example, encoded. -/
theorem test_encode_cmac : encodeSetter (.cmac 2 ⟨true, 2, 40, 5, ⟨false, 0, false⟩, ⟨true, 0, 33, 1, 1, 0⟩, ⟨true, 0, 34, 3, 1, 2⟩⟩) =
    some 0x18AA05090922_44CA := by decide +kernel
/-- spec/11_setter_isa.md, worked example: (0.5 + j0.25)(-0.75 + j0.5) in units of 2^-38. -/
theorem test_cmul_example : (match exec (.cmul 0 ⟨false, 0, 40, 5, ⟨false, 0, false⟩, ⟨false, 0, 0, 0, 0, 0⟩, ⟨false, 0, 0, 0, 0, 0⟩⟩)
    { up [] with dev := { (up []).dev with cores := (up []).dev.cores.map fun x =>
      { x with w := (x.w.set 40 0x4000020000).set 5 0xA000040000 } } } with
    | .next t => (t.dev.cores[0]).flight.map (·.what)
    | _ => []) = [.mac 0 (BitVec.ofInt 48 (-137438953472)) 17179869184, .flags false true false] := by decide +kernel

/-! ### Witnesses of the setter statements -/

/-- An idle parallel move. -/
def mv0 : Move := ⟨false, 0, 0, 0, 0, 0⟩
/-- A setter state with setter 3 as given. -/
def core3 (f : Setter → Setter) : State :=
  { up [] with dev := { (up []).dev with cores := (up []).dev.cores.set 3 (f { Setter.atReset with mode := .running }) } }
/-- A far store to main SRAM. -/
def fs0 : FarStore := ⟨0, 4096, [1, 2, 3, 4], 5⟩
/-- A far load or store of a word, with the window open. -/
def faO : FarOp := ⟨0, 0, 9, 2, 3, 1, 8⟩
/-- The windows of setter 3 open. -/
def faS : State := up [(od 0x4013 6, 0xFFFFFF), (od 0x4013 8, 0xFFFFFF)]
/-- The next state of a command, and the old one where there is none. -/
def after (i : Instr) (s : State) : State := match exec i s with | .next t => t | _ => s

/-- AluArithmetic, AluWords, AccumulatorOps, AccumulatorStores, MacProducts, MacLands: a quiet setter and moves that are not illegal. -/
theorem witness_Quiet : decide ((up []).quiet 3 ∧ moveIllegal mv0 = false ∧ moveIllegal ⟨true, 1, 5, 6, 7, 7⟩ = false ∧
    moveIllegal ⟨true, 2, 5, 0, 0, 0⟩ = false) = true := by decide +kernel
/-- NearAbsolute, StoredWordIsLoaded, ImmediatesAndPointers, RegisterMoves, ControlInstructions: the same of a setter with data. -/
theorem witness_QuietWithData : decide ((core3 fun x => { x with w := Vector.replicate 64 5, p := Vector.replicate 16 9, sr := 256 }).quiet 3) =
    true := by decide +kernel
/-- Branches and DelaySlots: a condition that holds and one that does not, FIP clear. -/
theorem witness_Branches : decide ((up []).quiet 3 ∧ ((up []).dev.cores[3]).fip = false ∧
    condHolds ((up []).dev.cores[3]).sr 0 = some true ∧ condHolds ((up []).dev.cores[3]).sr 1 = some false) = true := by
  decide +kernel
/-- RepeatAndLoop: a count of 0 and one above it, an end after the body's start. -/
theorem witness_RepeatAndLoop : decide ((up []).quiet 3 ∧ (7 : BitVec 16) ≠ 0 ∧
    ((up []).dev.cores[3]).pc.toNat < (12 : BitVec 16).toNat) = true := by decide +kernel
/-- RepeatAndLoop, LOOP_BACK: a loop at its end, with a count above 1, and one in another at its last. -/
theorem witness_LoopBack :
    decide (((core3 fun x => { x with looping := true, lpHit := true, inner := ⟨1, 5, 2, 1⟩ }).dev.cores[3]).lpHit = true) = true ∧
    decide (1 < ((core3 fun x => { x with looping := true, lpHit := true, inner := ⟨1, 5, 2, 1⟩ }).dev.cores[3]).inner.count.toNat) = true ∧
    decide (((core3 fun x => { x with looping := true, lpHit := true, inner := ⟨1, 5, 1, 1⟩, loopStack := [⟨1, 9, 4, 0⟩] }).dev.cores[3]).inner.count.toNat ≤ 1) =
      true := by decide +kernel
/-- InterruptEntry: IE set, source 4 pending, enabled and best. -/
theorem witness_InterruptEntry : (let s : State := core3 fun x => { x with sr := 256, imask := 16 };
    let s : State := { s with dev := { s.dev with chip := { s.dev.chip with ipend := s.dev.chip.ipend.set 3 16 } } };
    decide (s.quiet 3 ∧ (s.dev.cores[3]).ie = true ∧
      bestSource (s.dev.cores[3]).iprio (s.dev.chip.ipend[(3 : Fin 8)] &&& (s.dev.cores[3]).imask) = some 4)) = true := by decide +kernel
/-- FaultAndTimer and IllegalForms: FIP clear; a reserved move mode, a reserved condition, an end before the body. -/
theorem witness_IllegalForms : (let s : State := core3 fun x => { x with pc := 9 };
    decide (s.quiet 3 ∧ (s.dev.cores[3]).fip = false ∧ moveIllegal ⟨true, 0, 0, 7, 0, 0⟩ = true ∧
      condHolds (s.dev.cores[3]).sr 15 = none ∧ (9 : BitVec 16).toNat < (s.dev.cores[3]).pc.toNat + 1)) = true := by decide +kernel
/-- FarAccesses: the checks passed, the domain open; and its clock stopped. -/
theorem witness_FarAccesses : decide (faS.quiet 3 ∧ farCheck faS.dev.chip 3 (faS.dev.cores[3]) faO = .ok 1 ∧
    faS.dev.chip.domOpen (farDomain faS.dev.chip 0 8) = true) = true := by decide +kernel
/-- FarStoreCompletes: a posted store to main SRAM, its domain open. -/
theorem witness_FarStoreCompletes : (let s : State := core3 fun x => { x with farStores := [fs0] };
    decide ((s.dev.cores[3]).farStores = fs0 :: [] ∧ s.quiet 3 ∧ (s.dev.cores[3]).fip = false ∧
      s.dev.chip.domOpen (farDomain s.dev.chip fs0.space (farMask fs0.space fs0.addr)) = true ∧
      s.dev.chip.domClock (farDomain s.dev.chip fs0.space (farMask fs0.space fs0.addr)) = true)) = true := by decide +kernel
/-- ParallelMoves: a load and a store with a pointer that moves. -/
theorem witness_ParallelMoves : decide ((up []).quiet 3 ∧
    nearMode ((up []).dev.cores[3]).p[2] ((up []).dev.cores[3]).m[0] 1 = some (0, 1)) = true := by decide +kernel
/-- SetterFrame and PlainSetterFrame: a word that decodes to an instruction that answers a next state. -/
theorem witness_SetterFrame : decide (decodeSetter 3 0 = some (.nop 3)) = true ∧
    (match exec (.nop 3) (up []) with | .next _ => true | _ => false) = true ∧
    (match exec (.add 3 ⟨false, 1, 2, 3, mv0, mv0⟩) (up []) with | .next _ => true | _ => false) = true := by decide +kernel
/-- StepKeepsDevWf: the well-formed state after reset, and a step from it. -/
theorem witness_StepKeepsDevWf : (State.reset.dev.mem.wf = true ∧ ∀ n : Fin 8, (State.reset.dev.cores[n]).wf = true) ∧
    (match step State.reset with | .next _ => true | _ => false) = true := by decide +kernel
/-- FarAccesses and FarStoreCompletes: a domain whose clock stands. -/
theorem witness_FarAccessesStopped : (let d := farDomain (up []).dev.chip 2 8; let s : State := up [(od 0x4013 8, 0xFFFFFF), (od (0x5100 + d) 3, 3)]
    decide (s.quiet 3 ∧ farCheck s.dev.chip 3 (s.dev.cores[3]) { faO with space := 2 } = .ok 1 ∧
      s.dev.chip.domClock (farDomain s.dev.chip 2 8) = false)) = true := by decide +kernel

/-- Each clause of ResetSources has states and operands that meet its hypotheses. -/
theorem witness_ResetSources :
    (let s : State := up []; let sess : Fin 9 := 1; decide (s.accepts sess (od 0x5800 3) (.num 0xC55C))) = true ∧
    (let s : State := up []; let sess : Fin 9 := 1; decide (s.accepts sess (od 0x5800 3) (.num 0xA55A))) = true ∧
    (let s : State := upC [(od 0x2C00 2, 5)] fun c => { c with rst := { c.rst with command := some 4 } }; decide (s.dev.chip.rst.command = some 4)) = true ∧
    (let s : State := upC [] fun c => { c with rst := { c.rst with command := some 5 } }; decide (s.dev.chip.rst.command = some 5)) = true := by
  decide +kernel

/-- Each clause of BringUp has states and operands that meet its hypotheses. -/
theorem witness_BringUp :
    (let s : State := State.reset; let c := s.dev.chip; decide ((c.bringUp = 0) ∧ (c.rd (od 0x5800 2) ≠ 5))) = true ∧
    (let s : State := (upC [(od 0x5800 2, 5), (od 0x5800 1, 0)] id); let c := s.dev.chip; decide ((c.bringUp = 0) ∧ (c.rd (od 0x5800 2) = 5))) = true ∧
    (let s : State := up [(od 0x5800 1, 1)]; let c := s.dev.chip; decide (c.bringUp = 1)) = true ∧
    (let s : State := up [(od 0x5800 1, 3)]; let c := s.dev.chip; decide (c.bringUp = 3)) = true ∧
    (let s : State := up [(od 0x5800 1, 2)]; let c := s.dev.chip; decide ((c.clockState = 0) ∧ (c.bringUp = 2) ∧ (c.rst.noXo = false) ∧ (c.device ≠ 2))) = true ∧
    (let s : State := up [(od 0x5800 1, 4), (od 0x1080 3, 0)]; let c := s.dev.chip; decide (c.bringUp = 4)) = true ∧
    (let s : State := up [(od 0x5800 1, 1)]; let c := s.dev.chip; decide ((c.clockState = 0) ∧ (c.bringUp = 1) ∧ (c.xo = c.rst.since))) = true := by
  decide +kernel

/-- Each clause of BringUp has states and operands that meet its hypotheses. -/
theorem witness_BringUpB :
    (let s : State := upC [] fun c => { c with faults := { c.faults with active := [⟨0,1⟩, ⟨1,1⟩, ⟨2,1⟩, ⟨3,2⟩] } }; let sess : Fin 9 := 1; let seq : BitVec 32 := 2; decide (s.accepts sess (od 0x5800 0x13) (.num seq.toNat))) = true ∧
    (let s : State := up []; let c := s.dev.chip; decide ((1 ≤ c.bringUp) ∧ (c.rd (od 0x1100 1) ≠ 2))) = true ∧
    (let s : State := up []; let c := s.dev.chip; decide ((1 ≤ c.bringUp) ∧ (c.rd (od 0x1100 1) ≠ 1))) = true := by
  decide +kernel

/-- Each clause of BringUp has states and operands that meet its hypotheses. -/
theorem witness_BringUpBB :
    (let s : State := up [(od 0x5800 1, 4)]; let flash : List Byte := flashOf 77 [0x10, 0x17, 0, 0, 0, 0, 0, 2, 3, 4, 0, 0]; let version : Nat := 77; let records : List Byte := [0x10, 0x17, 0, 0, 0, 0, 0, 2, 3, 4, 0, 0]; let c := s.dev.chip; let shown : Dev := { s.dev with chip := c.wr (od 0x1080 6) version }; let walk := shown.bootRecords (records.length + 1) 0 records; decide ((c.bringUp = 4) ∧ (bootHeader (some flash) = (1, version, records)) ∧ (walk.2 = none))) = true ∧
    (let s : State := up [(od 0x5800 1, 4)]; let flash : List Byte := flashOf 77 []; let version : Nat := 77; let c := s.dev.chip; decide ((c.bringUp = 4) ∧ (bootHeader (some flash) = (1, version, [])) ∧ (c.dict.txn = none))) = true ∧
    (let s : State := up [(od 0x5800 1, 4)]; let flash : List Byte := flashOf 77 [0x10, 0x18, 0, 0, 0, 0, 0, 2, 3, 4, 0, 0]; let version : Nat := 77; let records : List Byte := [0x10, 0x18, 0, 0, 0, 0, 0, 2, 3, 4, 0, 0]; let c := s.dev.chip; let shown : Dev := { s.dev with chip := c.wr (od 0x1080 6) version }; let walk := shown.bootRecords (records.length + 1) 0 records; decide ((c.bringUp = 4) ∧ (bootHeader (some flash) = (1, version, records)) ∧ (walk.2.isSome))) = true ∧
    (let s : State := up [(od 0x5800 1, 4)]; let flash : List Byte := [1,2,3]; let c := s.dev.chip; decide ((c.bringUp = 4) ∧ ((bootHeader (some flash)).1 ≠ 1))) = true := by
  decide +kernel

/-- Each clause of BringUp has states and operands that meet its hypotheses. -/
theorem witness_BringUpBBB :
    (let s : State := up [(od 0x5800 1, 4)]; let c := s.dev.chip; decide (c.bringUp = 4)) = true ∧
    (let s : State := up [(od 0x5800 1, 4)]; let image : List Byte := flashOf 77 [0x10, 0x17, 0, 0, 0, 0, 0, 2, 3, 7, 0, 0]; let version : Nat := 77; let hi : Byte := 3; let lo : Byte := 7; let c := s.dev.chip; let written := hi.toNat * 256 + lo.toNat; decide ((c.bringUp = 4) ∧ (c.dict.txn = none) ∧ (bootHeader (some image) = (1, version, [0x10, 0x17, 0, 0, 0, 0, 0, 2, hi, lo, 0, 0])) ∧ ((c.wr (od 0x1080 6) version).gate true 0 (od 0x1017 0) (.num written) = .act))) = true := by
  decide +kernel

/-- Each clause of SessionRequests has states and operands that meet its hypotheses. -/
theorem witness_SessionRequests :
    (let s : State := sess1 [] id; let q : Bdp := req 0 false [1,2,3,4,5,6,7,8]; let c := s.dev.chip; let k := q.session.toNat; decide ((s.receives q) ∧ (k = 0) ∧ (q.body.length = 8) ∧ ((∃ j : Fin 9, 1 ≤ j.val ∧ (c.session j).isOpen = false)))) = true ∧
    (let s : State := sess1 [] (txn1 1); let q : Bdp := req 1 false []; decide (s.receivesNew q)) = true ∧
    (let s : State := sess1 [] id; let q : Bdp := req 1 false []; decide (s.receivesNew q)) = true ∧
    (let s : State := sess1 [] id; let q : Bdp := req 1 false []; let c := s.dev.chip; decide ((s.receivesNew q) ∧ (c.writable = true) ∧ (c.shadow = false) ∧ (c.dict.txn = none))) = true ∧
    (let s : State := sess1 [] (txn1 1); let q : Bdp := req 1 false [0x80,0,0,0,0,0,0,0,0,0,1,0]; let c := s.dev.chip; let k := q.session.toNat; decide ((s.receivesNew q) ∧ (c.shadow = false) ∧ (c.owner = some k) ∧ (q.body.length = 12))) = true ∧
    (let s : State := sess1 [] (txn1 1); let q : Bdp := req 1 false []; let c := s.dev.chip; let k := q.session.toNat; decide ((s.receivesNew q) ∧ (c.shadow = false) ∧ (c.owner = some k))) = true := by
  decide +kernel

/-- Each clause of ObjectRequests has states and operands that meet its hypotheses. -/
theorem witness_ObjectRequests :
    (let s : State := sess1 [] id; let q : Bdp := req 1 false [0x13, 0x00, 0x04, 0, 0, 0, 0, 0]; let c := s.dev.chip; decide ((s.receivesNew q) ∧ (q.body = [0x13, 0x00, 0x04, 0, 0, 0, 0, 0]) ∧ (c.readGate (od 0x1300 4) = .ok))) = true ∧
    (let s : State := sess1 [] id; let q : Bdp := req 1 true [0x14,0x00,0x02,0,0,0,0,0,1,2,3]; let r : ObjRow := theRow 0x1400 2; let index := beAt q.body 0 2; let sub := beAt q.body 2 1; decide ((s.receivesNew q) ∧ (8 ≤ q.body.length) ∧ (objRow (keyIndex (od index sub)) (keySub (od index sub)) = some r) ∧ (r.ty.size = 0) ∧ (beAt q.body 4 4 = 0) ∧ (q.more = true))) = true ∧
    (let s : State := sess1 [] id; let q : Bdp := req 1 false [0x14,0x00,0x02,0,0,0,0,1,1,2,3]; let r : ObjRow := theRow 0x1400 2; let c := s.dev.chip; let k := q.session.toNat; let index := beAt q.body 0 2; let sub := beAt q.body 2 1; decide ((s.receivesNew q) ∧ (8 ≤ q.body.length) ∧ (objRow (keyIndex (od index sub)) (keySub (od index sub)) = some r) ∧ (r.ty.size = 0) ∧ (beAt q.body 4 4 ≠ 0) ∧ ((c.session k).part = none))) = true ∧
    (let s : State := sess1 [] id; let q : Bdp := req 1 false [0x14,0x00,0x02,0]; let r : ObjRow := theRow 0x1400 2; let index := beAt q.body 0 2; let sub := beAt q.body 2 1; decide ((s.receivesNew q) ∧ (q.body.length = 4) ∧ (objRow (keyIndex (od index sub)) (keySub (od index sub)) = some r))) = true := by
  decide +kernel

/-- Each clause of TransactionsEnd has states and operands that meet its hypotheses. -/
theorem witness_TransactionsEnd :
    (let s : State := sess1 [] (fun c => let c := txn1 1 c; { c with dict := { c.dict with validating := some ⟨1, none, .plain 1 (od 0x1200 0x12)⟩ } }); let x : Validating := ⟨1, none, .plain 1 (od 0x1200 0x12)⟩; let w : Txn := ⟨1, 3, [(od 0x2C00 2, .num 1)], []⟩; let c := s.dev.chip; decide ((c.dict.validating = some x) ∧ (c.dict.txn = some w) ∧ (c.dict.held = []))) = true ∧
    (let s : State := sess1 [] (fun c => { c with dict := { c.dict with schedule := [⟨3, 1, 0, 0, [(od 0x2C00 2, .num 1)], [], false, 0⟩] } }); let p : Pending := ⟨3, 1, 0, 0, [(od 0x2C00 2, .num 1)], [], false, 0⟩; let v : Nat := 1; let c := s.dev.chip; decide ((c.dict.schedule = [p]) ∧ (p.begun = false) ∧ (p.writes = [(od 0x2C00 2, .num v)]) ∧ (p.tick ≤ c.reached))) = true ∧
    (let s : State := sess1 [] (txn1 1); let w : Txn := ⟨1, 3, [(od 0x2C00 2, .num 1)], []⟩; let c := s.dev.chip; decide ((c.dict.txn = some w) ∧ (c.dict.validating = none))) = true ∧
    (let s : State := sess1 [] (txn1 1); let k : Fin 9 := 1; let c := s.dev.chip; decide ((k ≠ 0) ∧ ((c.session k).isOpen = true) ∧ (c.dict.validating = none))) = true ∧
    (let s : State := sess1 [] (fun c => { c with dict := { c.dict with sessions := c.dict.sessions.set 1 { c.dict.sessions[1] with part := some ⟨od 0x1400 2, [1], 5⟩ } } }); let k : Fin 9 := 1; let part : PartialWrite := ⟨od 0x1400 2, [1], 5⟩; let c := s.dev.chip; decide ((c.session k).part = some part)) = true := by
  decide +kernel

/-- Each clause of SessionRequests has states and operands that meet its hypotheses. -/
theorem witness_SessionRequestsB :
    (let s : State := sess1 [] (fun c => { c with dom := sset (fun _ => []) c.dom (od 0x1100 6) [1,2,3,4,5,6,7,8,9,10,11,12,13,14,15,16] }); let ip4 : BitVec 32 := 0x0A000001; let m : Nat := 0x1122; let c := s.dev.chip; decide (c.ownMac false (beBytes 4 ip4.toNat) = some m)) = true ∧
    (let s : State := sess1 [] (fun c => { c with dom := sset (fun _ => []) c.dom (od 0x1100 6) [1,2,3,4,5,6,7,8,9,10,11,12,13,14,15,16] }); let ip6 : List Byte := [1,2,3,4,5,6,7,8,9,10,11,12,13,14,15,16]; let m : Nat := 0x1122; let c := s.dev.chip; decide (c.ownMac true ip6 = some m)) = true ∧
    (let s : State := sess1 [] (fun c => { c with dom := sset (fun _ => []) c.dom (od 0x1100 6) [1,2,3,4,5,6,7,8,9,10,11,12,13,14,15,16] }); let ip6 : List Byte := [1,2,3,4,5,6,7,8,9,10,11,12,13,14,15,16]; let v6 : Bool := true; let m : Nat := 0x1122; let c := s.dev.chip; decide (c.ownMac v6 ip6 = some m)) = true ∧
    (let s : State := sess1 [] (fun c => { c with dom := sset (fun _ => []) c.dom (od 0x1100 6) [1,2,3,4,5,6,7,8,9,10,11,12,13,14,15,16] }); let ip4 : BitVec 32 := 0x0A000007; let c := s.dev.chip; decide (c.ownMac false (beBytes 4 ip4.toNat) = none)) = true ∧
    (let s : State := sess1 [] (fun c => { c with dom := sset (fun _ => []) c.dom (od 0x1100 6) [1,2,3,4,5,6,7,8,9,10,11,12,13,14,15,16] }); let ip6 : List Byte := [3]; let c := s.dev.chip; decide (c.ownMac true ip6 = none)) = true ∧
    (let s : State := sess1 [] (fun c => { c with dom := sset (fun _ => []) c.dom (od 0x1100 6) [1,2,3,4,5,6,7,8,9,10,11,12,13,14,15,16] }); let ip6 : List Byte := [3]; let v6 : Bool := true; let c := s.dev.chip; decide (c.ownMac v6 ip6 = none)) = true := by
  decide +kernel

/-- Each clause of CanRequests has states and operands that meet its hypotheses. -/
theorem witness_CanRequests :
    (let s : State := upC [(od 0x1100 9, 5), (od 0x1100 8, 1)] id; let f : List Byte := [0x40, 0x00, 0x13, 0x04, 0, 0, 0, 0]; let c := s.dev.chip; decide ((s.receivesSdo f) ∧ (f = [0x40, 0x00, 0x13, 0x04, 0, 0, 0, 0]) ∧ (c.readGate (od 0x1300 4) = .ok))) = true ∧
    (let s : State := upC [(od 0x1100 9, 5), (od 0x1100 8, 1)] id; let f : List Byte := [0x21, 0x00, 0x13, 0x04, 7, 0, 0, 0]; let r : ObjRow := theRow 0x1300 4; let cmd := beAt f 0 1; let key := od (leVal (slice f 1 2)) (beAt f 3 1); decide ((s.receivesSdo f) ∧ (cmd / 32 = 1) ∧ (bitAt cmd 1 = false) ∧ (objRow (keyIndex key) (keySub key) = some r))) = true ∧
    (let s : State := upC [(od 0x1100 9, 5)] fun c => { c with dict := { c.dict with sdo := some ⟨false, od 0x1000 3, [1,2], none, 0, false, 100⟩ } }; let f : List Byte := [0x00, 1,2,3,4,5,6,7]; let x : SdoTransfer := ⟨false, od 0x1000 3, [1,2], none, 0, false, 100⟩; let c := s.dev.chip; let cmd := beAt f 0 1; decide ((s.receivesSdo f) ∧ (c.dict.sdo = some x) ∧ (x.upload = false) ∧ (cmd / 32 = 0) ∧ (bitAt cmd 4 = x.toggle) ∧ (bitAt cmd 0 = false))) = true ∧
    (let s : State := upC [(od 0x1100 9, 5), (od 0x1100 8, 1)] id; let f : List Byte := [0xA0, 0x00, 0x13, 0x04, 0, 0, 0, 0]; let cmd := beAt f 0 1; decide ((s.receivesSdo f) ∧ ((cmd / 32 = 5 ∨ cmd / 32 = 6)))) = true ∧
    (let s : State := upC [(od 0x1100 9, 5)] fun c => { c with dict := { c.dict with sdo := some ⟨false, od 0x1000 3, [1,2], none, 0, false, 100⟩ } }; let x : SdoTransfer := ⟨false, od 0x1000 3, [1,2], none, 0, false, 100⟩; let c := s.dev.chip; decide (c.dict.sdo = some x)) = true ∧
    (let s : State := upC [(od 0x1100 9, 5), (od 0x1100 8, 1)] id; let c := s.dev.chip; decide (c.canOn = true)) = true ∧
    (let s : State := up [(od 0x1100 9, 5), (od 0x1017 0, 100)]; let c := s.dev.chip; decide ((c.canOn = true) ∧ (c.rd (od 0x1017 0) ≠ 0))) = true ∧
    (let s : State := upC [(od 0x1100 9, 5), (od 0x1100 8, 1)] id; let c := s.dev.chip; decide ((s.accepts 0 (od 0x1200 0x10) (.num 1)) ∧ (c.dict.txn = none))) = true ∧
    (let s : State := upC [] (txn1 0); let tick : BitVec 64 := 5000; let c := s.dev.chip; decide ((s.accepts 0 (od 0x1200 0x11) (.num tick.toNat)) ∧ (c.owner = some 0))) = true ∧
    (let s : State := upC [] (txn1 0); let c := s.dev.chip; decide ((s.accepts 0 (od 0x1200 0x12) (.num 1)) ∧ (c.owner = some 0))) = true ∧
    (let s : State := upC [] (txn1 0); let w : Txn := ⟨0, 3, [(od 0x2C00 2, .num 1)], []⟩; let c := s.dev.chip; decide ((s.accepts 0 (od 0x1200 0x13) (.num 1)) ∧ (c.dict.txn = some w) ∧ (w.owner = 0))) = true := by
  decide +kernel

/-- Each clause of RegisterWrites has states and operands that meet its hypotheses. -/
theorem witness_RegisterWrites :
    (let s : State := up []; let sess : Fin 9 := 1; let index : BitVec 16 := 0x5800; let sub : BitVec 8 := 1; let data : List Byte := [3]; let v : Val := .num 3; let st : Status := .access; let c := s.dev.chip; let key := od index.toNat sub.toNat; decide ((c.power.rate = none) ∧ (valOf key data = some v) ∧ (c.gate false sess key v = .refuse st))) = true ∧
    (let s : State := upC [] (txn1 1); let sess : Fin 9 := 1; let index : BitVec 16 := 0x2C00; let sub : BitVec 8 := 2; let data : List Byte := [0,0,1,2]; let v : Val := .num 258; let w : Txn := ⟨1, 3, [(od 0x2C00 2, .num 1)], []⟩; let c := s.dev.chip; let key := od index.toNat sub.toNat; decide ((c.power.rate = none) ∧ (valOf key data = some v) ∧ (c.gate false sess key v = .stage) ∧ (c.dict.txn = some w))) = true ∧
    (let s : State := up []; let sess : Fin 9 := 1; let data : List Byte := [0,0,1,2]; decide ((data.length = 4) ∧ (s.accepts sess (od 0x1300 4) (.num (beVal data))))) = true ∧
    (let s : State := up []; let sess : Fin 9 := 1; let index : BitVec 16 := 0x3C00; let sub : BitVec 8 := 0x20; let data : List Byte := [1]; let r : ObjRow := theRow 0x3C00 0x20; let c := s.dev.chip; let key := od index.toNat sub.toNat; decide ((c.power.rate = none) ∧ (c.role ≠ 2) ∧ (valOf key data = some (.num 1)) ∧ (s.accepts sess key (.num 1)) ∧ (objRow index.toNat sub.toNat = some r) ∧ (r.clears ≠ []))) = true ∧
    (let s : State := up []; let sess : Fin 9 := 1; let data : List Byte := List.replicate 16 7; decide (s.accepts sess (od 0x1400 2) (.bytes data))) = true := by
  decide +kernel

/-- Each clause of PowerDomains has states and operands that meet its hypotheses. -/
theorem witness_PowerDomains :
    (let s : State := up []; let sess : Fin 9 := 1; let d : Fin 96 := 20; let v : BitVec 8 := 2; let c := s.dev.chip; decide ((s.accepts sess (od (0x5100 + d.val) 2) (.num v.toNat)) ∧ (v ≠ 1) ∧ (c.domState d = 1) ∧ (domAllows d v.toNat = true) ∧ (s.dev.usersStopped d = true))) = true ∧
    (let s : State := up [(od (0x5100+20) 3, 2)]; let sess : Fin 9 := 1; let d : Fin 96 := 20; let c := s.dev.chip; decide ((s.accepts sess (od (0x5100 + d.val) 2) (.num 1)) ∧ ((c.domState d = 2 ∨ c.domState d = 3)))) = true ∧
    (let s : State := upC [(od (0x5100+20) 3, 5)] fun c => { c with power := { c.power with drains := [⟨20, 2, .nobody, 500⟩] } }; let d : Fin 96 := 20; let x : Drain := ⟨20, 2, .nobody, 500⟩; let c := s.dev.chip; decide ((c.power.drains.find? fun y => y.dom == d.val) = some x)) = true ∧
    (let s : State := upC [(od (0x5100+20) 3, 5)] fun c => { c with power := { c.power with drains := [⟨20, 2, .nobody, 500⟩] } }; let d : Fin 96 := 20; let x : Drain := ⟨20, 2, .nobody, 500⟩; let c := s.dev.chip; decide ((c.domState d = 5) ∧ ((c.power.drains.find? fun y => y.dom == d.val) = some x))) = true ∧
    (let s : State := up [(od (0x5100+20) 3, 2), (od (0x5100+20) 2, 1)]; let d : Fin 96 := 20; let c := s.dev.chip; decide (((c.domState d = 2 ∨ c.domState d = 3)) ∧ (c.rd (od (0x5100 + d.val) 2) = 1))) = true := by
  decide +kernel

/-- Each clause of SleepAndWake has states and operands that meet its hypotheses. -/
theorem witness_SleepAndWake :
    (let s : State := offS; let sess : Fin 9 := 1; let kind : BitVec 8 := 2; let c := s.dev.chip; decide ((s.accepts sess (od 0x5000 2) (.num kind.toNat)) ∧ (c.power.rate = none) ∧ (s.dev.sleepFree = true))) = true ∧
    (let s : State := upC [(od 0x5000 1, 1)] fun c => { c with power := { c.power with sleep := some sl0 } }; let x : SleepCtl := sl0; let c := s.dev.chip; decide ((c.power.sleep = some x) ∧ (c.device = 1) ∧ (x.latched = 0) ∧ ((c.hbm.training.any fun y => y.pass.isSome) = false))) = true ∧
    (let s : State := upC [(od 0x5000 1, 1)] fun c => { c with power := { c.power with sleep := some sl0 }, hbm := { c.hbm with training := c.hbm.training.set 1 { c.hbm.training[1] with pass := some (3, 1) } } }; let x : SleepCtl := sl0; let c := s.dev.chip; decide ((c.power.sleep = some x) ∧ (c.device = 1) ∧ (x.latched = 0) ∧ ((c.hbm.training.any fun y => y.pass.isSome) = true))) = true ∧
    (let s : State := upC [(od 0x5000 1, 1)] fun c => { c with power := { c.power with sleep := some sl1 } }; let x : SleepCtl := sl1; let c := s.dev.chip; decide ((c.power.sleep = some x) ∧ (c.device = 1) ∧ (x.latched ≠ 0))) = true ∧
    (let ns : Nat := 2000; decide (1000 ≤ ns)) = true ∧
    (let s : State := upC [(od 0x5800 1, 5), (od 0x5000 1, 2), (od 0x5000 6, 0x1F), (od 0x5000 8, 5)] fun c => { c with power := { c.power with sleep := some sl0 } }; let c := s.dev.chip; decide ((c.device = 2) ∧ (c.rd (od 0x5000 8) ≠ 0))) = true ∧
    (let s : State := upC [(od 0x5000 1, 2)] fun c => { c with power := { c.power with sleep := some sl1 } }; let x : SleepCtl := sl1; let c := s.dev.chip; decide ((c.power.sleep = some x) ∧ (c.device = 2) ∧ (x.latched ≠ 0))) = true ∧
    (let s : State := upC [(od 0x5000 1, 3), (od 0x4800 1, 1)] fun c => { c with power := { c.power with sleep := some sl1 } }; let sess : Fin 9 := 1; let x : SleepCtl := sl1; let c := s.dev.chip; decide ((s.accepts sess (od 0x5000 3) (.num 1)) ∧ (c.power.sleep = some x) ∧ (c.device = 3) ∧ (c.clockState ≠ 0))) = true := by
  decide +kernel

/-- Each clause of PointsAndRegulators has states and operands that meet its hypotheses. -/
theorem witness_PointsAndRegulators :
    (let s : State := up [(od (0x5020) 2, 0x40), (od 0x5020 1, 1)]; let sess : Fin 9 := 1; let v : BitVec 8 := 1; let c := s.dev.chip; let now := c.rd (od 0x5000 0x11); decide ((s.accepts sess (od 0x5000 0x10) (.num v.toNat)) ∧ (c.power.badMode = false) ∧ (v.toNat ≠ now) ∧ ((v.toNat < now → c.overloaded (400 * (1 + v.toNat)) = false)))) = true ∧
    (let s : State := upC [] fun c => { c with power := { c.power with op := some ⟨2, 1, 100, .nobody⟩ } }; let x : OpChange := ⟨2, 1, 100, .nobody⟩; let mv : Nat := pointMv 2 + 10; let c := s.dev.chip; decide ((c.power.op = some x) ∧ (pointMv x.target ≤ mv + 10) ∧ (mv ≤ pointMv x.target + 10) ∧ (c.dict.held = []))) = true ∧
    (let s : State := upC [] fun c => { c with power := { c.power with op := some ⟨2, 1, 100, .nobody⟩ } }; let x : OpChange := ⟨2, 1, 100, .nobody⟩; let c := s.dev.chip; decide ((c.power.op = some x) ∧ (c.dict.held = []))) = true ∧
    (let s : State := offS; let sess : Fin 9 := 1; let v : BitVec 8 := 0; let c := s.dev.chip; decide ((s.accepts sess (od 0x5000 0x12) (.num v.toNat)) ∧ (c.partitionFree [] = true) ∧ (c.power.rate = none))) = true ∧
    (let s : State := up [(od (0x5020) 2, 0x40), (od 0x5020 1, 1)]; let r : RegReading := ⟨0, 0x17, 0x1234, 7, 9, 11⟩; let c := s.dev.chip; decide (c.regOn r.reg = true)) = true ∧
    (let s : State := up [(od (0x5020) 2, 0x40), (od 0x5020 1, 1)]; let sess : Fin 9 := 1; let i : Fin 16 := 0; let c := s.dev.chip; decide ((s.accepts sess (od (0x5020 + i.val) 8) (.num 1)) ∧ (c.rd (od (0x5020 + i.val) 2) ≠ 0xFF))) = true := by
  decide +kernel

/-- Each clause of ReferenceSelection has states and operands that meet its hypotheses. -/
theorem witness_ReferenceSelection :
    (let s : State := clk 3 [] id; let k : Fin 7 := 0; let c := s.dev.chip; let cand := fun (sub : Nat) => od (0x4810 + k.val) sub; decide ((c.on (cand 1) = true) ∧ (c.candActive k = true) ∧ (2 ≤ c.candState k))) = true ∧
    (let s : State := clk 1 [] fun c => (c.setCand 0 ⟨true, true, false, some 100, true, 0, 5000⟩); let k : Fin 7 := 0; let c := s.dev.chip; let cand := fun (sub : Nat) => od (0x4810 + k.val) sub; decide (((c.cand k).dwell.isSome = true) ∧ (2 ≤ c.candState k) ∧ (c.on (cand 1) = true))) = true ∧
    (let k : Fin 7 := 0; decide (k.val < 2)) = true ∧
    (let s : State := clk 1 [(od 0x4810 0x10, 3)] fun c => (c.setCand 0 ⟨true, true, false, none, true, 0, 5000⟩); let k : Fin 7 := 0; let c := s.dev.chip; let restored := c.untilLc (c.cand k).restore; decide ((c.candState k = 3) ∧ (restored.candQualified k = true))) = true ∧
    (let s : State := clk 2 [(od 0x4800 2, 0), (od 0x4810 0x10, 4)] fun c => ((c.setCand 0 ⟨true, true, false, none, true, 0, 0⟩).wr (od 0x4810 0x02) 1); let k : Fin 7 := 0; let phase : Int := 500; let freq : Int := -300; let c := s.dev.chip; let held := c.untilLc (c.clock.since + second); decide ((c.clockState = 2) ∧ (phase.natAbs ≤ 20000) ∧ (freq.natAbs ≤ 100000) ∧ (held.selected = some k) ∧ (held.candState k = 4) ∧ (held.bestCand = some k))) = true ∧
    (let s : State := clk 4 [] id; let c := s.dev.chip; decide (c.clockState = 4)) = true ∧
    (let s : State := clk 4 [(od 0x4800 0x14, 9)] fun c => { c with clock := { c.clock with computed := 500, since := 400 } }; let c := s.dev.chip; decide ((c.clockState = 4 ∨ c.clockState = 5))) = true ∧
    (let s : State := clk 3 [] id; let c := s.dev.chip; decide (c.clockState = 3)) = true := by
  decide +kernel

/-- Each clause of TimeViews has states and operands that meet its hypotheses. -/
theorem witness_TimeViews :
    (let s : State := up [(od 0x4800 1, 1)]; let c := s.dev.chip; decide ((s.pending = []) ∧ (c.timeRuns = true) ∧ (c.xoStands = false))) = true ∧
    (let s : State := up []; let sess : Fin 9 := 1; let v : Fin 4 := 2; let rate : BitVec 64 := BitVec.ofNat 64 (2^48+7); let c := s.dev.chip; let key := fun (sub : Nat) => od (0x4C10 + v.val) sub; decide ((s.accepts sess (key 3) (.num rate.toNat)) ∧ (rateOk rate = true) ∧ ((v ≠ 1 ∨ c.selected ≠ some 6)))) = true ∧
    (let s : State := up []; let sess : Fin 9 := 1; let v : Fin 4 := 2; let step : Int := -500; let c := s.dev.chip; let key := fun (sub : Nat) => od (0x4C10 + v.val) sub; decide ((-(2 ^ 63) ≤ step) ∧ (step < 2 ^ 63) ∧ (s.accepts sess (key 4) (.num (ofI step 64))) ∧ (c.stepBarred v (step * 2 ^ 32) = false))) = true ∧
    (let s : State := up []; let sess : Fin 9 := 1; let v : Fin 4 := 2; let data : List Byte := List.replicate 12 0 ++ beL (2^48) 8; let c := s.dev.chip; let w := c.time.views[v]; let key := fun (sub : Nat) => od (0x4C10 + v.val) sub; let set := BitVec.ofNat 64 (beAt data 12 8); let offset := toI (beAt data 0 8) 64 * 2 ^ 48 + (beAt data 8 4 : Nat) * 2 ^ 16; decide ((s.accepts sess (key 5) (.bytes data)) ∧ (data.length = 20) ∧ (rateOk set = true) ∧ (c.stepBarred v (offset + set.toNat * c.lc - w.exact c.lc) = false))) = true ∧
    (let s : State := up []; let sess : Fin 9 := 1; let v : Fin 4 := 2; let ns : BitVec 32 := 500; let key := fun (sub : Nat) => od (0x4C10 + v.val) sub; decide (s.accepts sess (key 7) (.num ns.toNat))) = true ∧
    (let s : State := upC [] (fun c => { c with time := { c.time with views := c.time.views.set 2 { c.time.views[2] with written := some 5, rate := BitVec.ofNat 64 (2^48) } } }); let v : Fin 4 := 2; let c := s.dev.chip; decide (c.viewStatus v = 1)) = true ∧
    (let s : State := upC [] (fun c => { c with time := { c.time with views := c.time.views.set 2 { c.time.views[2] with written := some 5, rate := BitVec.ofNat 64 (2^48) } } }); let c := s.dev.chip; decide ((c.serves = true) ∧ (c.domOpen 1 = true))) = true := by
  decide +kernel

/-- Each clause of PairsPpsAndPtp has states and operands that meet its hypotheses. -/
theorem witness_PairsPpsAndPtp :
    (let s : State := upC [(od 0x4C00 8, 100)] (fun c => { c with time := { c.time with armed := some 500, views := (c.time.views.map fun v => { v with written := some 5, rate := BitVec.ofNat 64 (2^48) }) } }); let sess : Fin 9 := 1; let tick : BitVec 64 := 900000; let c := s.dev.chip; decide ((s.accepts sess (od 0x4C00 0x11) (.num tick.toNat)) ∧ (c.frontPassed tick.toNat = false) ∧ (c.reached < tick.toNat))) = true ∧
    (let s : State := upC [] (fun c => { c with frontAny := true, frontSeen := 5000 }); let sess : Fin 9 := 1; let tick : BitVec 64 := 5; let c := s.dev.chip; decide ((s.accepts sess (od 0x4C00 0x11) (.num tick.toNat)) ∧ (c.frontPassed tick.toNat = true))) = true ∧
    (let s : State := upC [] (fun c => { c with frontAny := true, frontSeen := 5000, time := { c.time with armed := some 500 } }); let u : Nat := 500; let c := s.dev.chip; decide ((c.time.armed = some u) ∧ (u ≤ c.reached))) = true ∧
    (let s : State := upC [(od 0x4C00 8, 100)] (fun c => { c with time := { c.time with armed := some 500, views := (c.time.views.map fun v => { v with written := some 5, rate := BitVec.ofNat 64 (2^48) }) } }); let c := s.dev.chip; decide (c.viewStatus c.ppsView ≠ 0)) = true ∧
    (let s : State := upC [(od 0x4C00 8, 100)] (fun c => { c with time := { c.time with ppsOut := true, ppsFall := 1050, views := (c.time.views.map fun v => { v with written := some 5, rate := BitVec.ofNat 64 (2^48) }) } }); let c := s.dev.chip; decide ((c.time.ppsOut = true) ∧ (c.viewStatus c.ppsView ≠ 0))) = true ∧
    (let s : State := upC [(od 0x4C00 8, 100)] (fun c => { c with time := { c.time with armed := some 500, views := (c.time.views.map fun v => { v with written := some 5, rate := BitVec.ofNat 64 (2^48) }) } }); let c := s.dev.chip; decide (c.time.ppsOut = false ∨ c.viewStatus c.ppsView = 0)) = true ∧
    (let s : State := upC [(od 0x4C00 8, 100)] (fun c => { c with time := { c.time with armed := some 500, views := (c.time.views.map fun v => { v with written := some 5, rate := BitVec.ofNat 64 (2^48) }) } }); let frame : List Byte := ptpFr; let m : List Byte := (ptpMessage ptpFr).getD []; let c := s.dev.chip; decide ((c.awake = true) ∧ (ptpMessage frame = some m) ∧ (bitAt (byteAt s.dev.mem.sram (c.rd (od 0x4C30 1) + c.time.ptpRx % 256 * 512 + 1)).toNat 7 = false))) = true ∧
    (let s : State := ptpS; let port : Fin 9 := 2; let c := s.dev.chip; let tx := s.dev.readSram (c.rd (od 0x4C30 2) + c.time.ptpTx % 64 * 512) 32; decide ((c.awake = true) ∧ (bitAt (beAt tx 1 1) 7 = true) ∧ (beAt tx 0 1 / 16 = port.val))) = true := by
  decide +kernel

/-- Each clause of LaneBringUp has states and operands that meet its hypotheses. -/
theorem witness_LaneBringUp :
    (let s : State := laneS 2 0 [] id; let l : Fin 512 := 3; let c := s.dev.chip; let st := c.laneState l; decide (st = 2)) = true ∧
    (let s : State := laneS 3 0 [] id; let l : Fin 512 := 3; let msg : List Byte := capM; let c := s.dev.chip; let st := c.laneState l; decide ((st = 3) ∧ (msg.length = 20) ∧ (beAt msg 16 4 = crc32 (msg.take 16)))) = true ∧
    (let s : State := laneS 3 0 [] fun x => { x with gotCap := true, gotAck := true }; let l : Fin 512 := 3; let r : Nat := 4; let c := s.dev.chip; let st := c.laneState l; let x := c.lane l; decide ((st = 3) ∧ (x.gotCap = true) ∧ (x.gotAck = true) ∧ (c.nextRate l = some r))) = true ∧
    (let s : State := laneS 3 0 [(od (0x2100+3) 0x25, 1)] fun x => { x with gotCap := true, gotAck := true }; let l : Fin 512 := 3; let c := s.dev.chip; let st := c.laneState l; let x := c.lane l; decide ((st = 3) ∧ (x.gotCap = true) ∧ (x.gotAck = true) ∧ (c.nextRate l = none))) = true ∧
    (let s : State := laneS 3 0 [] id; let l : Fin 512 := 3; let c := s.dev.chip; let st := c.laneState l; decide (st = 3)) = true ∧
    (let s : State := laneS 5 0 [] fun x => { x with next := 4 }; let l : Fin 512 := 3; let c := s.dev.chip; let st := c.laneState l; decide (st = 5)) = true ∧
    (let s : State := laneS 6 4 [] id; let l : Fin 512 := 3; let c := s.dev.chip; let st := c.laneState l; decide ((st = 6) ∧ (4 ≤ c.laneRate l))) = true ∧
    (let s : State := laneS 6 4 [] id; let l : Fin 512 := 3; let c := s.dev.chip; let st := c.laneState l; decide (st = 6)) = true ∧
    (let s : State := laneS 7 6 [] id; let l : Fin 512 := 3; let ctl : BitVec 16 := 0x2C00; let ctlBar : BitVec 16 := ~~~0x2C00; let sta : BitVec 16 := 5; let staBar : BitVec 16 := 5; let c := s.dev.chip; let st := c.laneState l; decide ((st = 7) ∧ (ctl = ~~~ctlBar) ∧ (sta ≠ ~~~staBar))) = true ∧
    (let s : State := laneS 7 6 [] id; let l : Fin 512 := 3; let c := s.dev.chip; let st := c.laneState l; decide (st = 7)) = true ∧
    (let s : State := laneS 8 5 [] id; let l : Fin 512 := 3; let c := s.dev.chip; let st := c.laneState l; decide (st = 8)) = true ∧
    (let s : State := laneS 8 4 [] (fun x => { x with locked := true }); let l : Fin 512 := 3; let r : Nat := 5; let c := s.dev.chip; let st := c.laneState l; let x := c.lane l; decide ((st = 8) ∧ ((4 ≤ c.laneRate l → x.locked = true)) ∧ (x.errors = 0) ∧ (x.uncorr = 0) ∧ (c.nextRate l = some r))) = true ∧
    (let s : State := laneS 8 5 [] (fun x => { x with locked := true }); let l : Fin 512 := 3; let c := s.dev.chip; let st := c.laneState l; let x := c.lane l; decide ((st = 8) ∧ ((4 ≤ c.laneRate l → x.locked = true)) ∧ (x.errors = 0) ∧ (x.uncorr = 0) ∧ (c.nextRate l = none))) = true ∧
    (let s : State := laneS 9 4 [] id; let l : Fin 512 := 3; let c := s.dev.chip; let st := c.laneState l; decide (st = 9)) = true := by
  decide +kernel

/-- Each clause of LaneInOperation has states and operands that meet its hypotheses. -/
theorem witness_LaneInOperation :
    (let s : State := laneS 0xA 5 [] (fun x => { x with hold := true, aligned := true, locked := true }); let l : Fin 512 := 3; let c := s.dev.chip; let st := c.laneState l; decide (st = 0x0A)) = true ∧
    (let s : State := laneS 0xB 5 [] id; let l : Fin 512 := 3; let c := s.dev.chip; let st := c.laneState l; decide (st = 0x0B)) = true ∧
    (let s : State := laneS 0 0 [] (fun x => { x with hold := true }); let l : Fin 512 := 3; let c := s.dev.chip; decide ((c.lane l).hold = true)) = true ∧
    (let s : State := laneS 0xA 5 [] (fun x => { x with hold := true, aligned := true, locked := true }); let sess : Fin 9 := 1; let l : Fin 512 := 3; let key := fun (sub : Nat) => od (0x2100 + l.val) sub; decide (s.accepts sess (key 0x31) (.num 1))) = true ∧
    (let s : State := laneS 0 0 [(od 0x2302 1, 0)] id; let sess : Fin 9 := 1; let l : Fin 512 := 3; let v : BitVec 8 := 1; let c := s.dev.chip; let key := fun (sub : Nat) => od (0x2100 + l.val) sub; decide ((s.accepts sess (key 5) (.num v.toNat)) ∧ (v ≠ 0) ∧ (c.bundleOn (c.laneBundle l) = false))) = true ∧
    (let s : State := laneS 0xA 5 [] (fun x => { x with hold := true, aligned := true, locked := true }); let sess : Fin 9 := 1; let l : Fin 512 := 3; let key := fun (sub : Nat) => od (0x2100 + l.val) sub; decide (s.accepts sess (key 9) (.num 1))) = true ∧
    (let s : State := laneS 0xD 4 [(od (0x2103) 5, 1), (od 0x2103 8, 1)] id; let l : Fin 512 := 3; let c := s.dev.chip; let st := c.laneState l; let key := fun (sub : Nat) => od (0x2100 + l.val) sub; decide ((c.rd (key 8) ≠ 0) ∧ (st = 0x0D) ∧ (c.on (key 0x22) = false))) = true ∧
    (let s : State := laneS 0xD 4 [(od (0x2103) 5, 1), (od 0x2103 8, 1), (od 0x2103 0x22, 1)] (fun x => { x with prbsLocked := true, prbsSince := 900 }); let l : Fin 512 := 3; let c := s.dev.chip; let key := fun (sub : Nat) => od (0x2100 + l.val) sub; decide (c.on (key 0x22) = true)) = true := by
  decide +kernel

/-- Each clause of BlocksReceived has states and operands that meet its hypotheses. -/
theorem witness_BlocksReceived :
    (let s : State := bunS [] id; let l : Fin 512 := 3; let c := s.dev.chip; let up := c.laneState l = 0x0A ∧ 4 ≤ c.laneRate l; let member := up ∧ c.rxMember l = true; decide (member)) = true ∧
    (let s : State := bunS [] fun x => { x with sel := some 2, opens := [⟨2, 40, [1,2,3,4], false⟩] }; let l : Fin 512 := 3; let bytes : List Byte := [1,2,3,4,5,6,7,8]; let o : OpenFrame := ⟨2, 40, [1,2,3,4], false⟩; let vl : Nat := 2; let c := s.dev.chip; let b := c.laneBundle l; let x := c.bundle b; let up := c.laneState l = 0x0A ∧ 4 ≤ c.laneRate l; let member := up ∧ c.rxMember l = true; decide ((member) ∧ (x.lastIndex = none) ∧ (x.sel = some vl) ∧ (x.opens = [o]) ∧ (o.vl = vl) ∧ ((o.bytes ++ padTo 8 bytes).length < o.length))) = true ∧
    (let s : State := bunS [] (fun x => { x with sel := some 2, opens := [⟨2, 10, [1,2,3,4], false⟩] }); let l : Fin 512 := 3; let bytes : List Byte := [1,2,3,4,5,6,7,8]; let o : OpenFrame := ⟨2, 10, [1,2,3,4], false⟩; let vl : Nat := 2; let c := s.dev.chip; let b := c.laneBundle l; let x := c.bundle b; let up := c.laneState l = 0x0A ∧ 4 ≤ c.laneRate l; let member := up ∧ c.rxMember l = true; decide ((member) ∧ (x.lastIndex = none) ∧ (x.sel = some vl) ∧ (x.opens = [o]) ∧ (o.vl = vl) ∧ (o.length ≤ (o.bytes ++ padTo 8 bytes).length) ∧ (o.drop = false) ∧ (c.carries b = true))) = true ∧
    (let s : State := bunS [] (fun x => { x with sel := some 1, opens := [⟨2, 10, [1,2,3,4], false⟩] }); let l : Fin 512 := 3; let body : BitVec 56 := mbits (2 * 2^54 + 40 * 2^32 + 77); let c := s.dev.chip; let b := c.laneBundle l; let x := c.bundle b; let up := c.laneState l = 0x0A ∧ 4 ≤ c.laneRate l; let member := up ∧ c.rxMember l = true; let v := body.toNat; decide ((member) ∧ ((x.opens.any fun f => f.vl == bits v 54 2) = true))) = true ∧
    (let s : State := bunS [] id; let l : Fin 512 := 3; let c := s.dev.chip; let b := c.laneBundle l; let up := c.laneState l = 0x0A ∧ 4 ≤ c.laneRate l; let member := up ∧ c.rxMember l = true; decide ((member) ∧ (c.credited b = true) ∧ (c.carries b = true))) = true ∧
    (let s : State := bunS [] id; let l : Fin 512 := 3; let c := s.dev.chip; decide (c.laneState l = 0x0A)) = true ∧
    (let s : State := bunS [] id; let l : Fin 512 := 3; let body : BitVec 56 := mbits (0x5A * 2^48 + 1 * 2^40 + 77); let c := s.dev.chip; let up := c.laneState l = 0x0A ∧ 4 ≤ c.laneRate l; let v := body.toNat; decide ((up) ∧ (bits v 48 8 = 0x5A))) = true ∧
    (let s : State := bunS [] id; let l : Fin 512 := 3; let row : Nat := 1; let c := s.dev.chip; let b := c.laneBundle l; let x := c.bundle b; let up := c.laneState l = 0x0A ∧ 4 ≤ c.laneRate l; decide ((up) ∧ ((row = 1 ∨ row = 2)) ∧ (b < 256) ∧ ((x.rxRow.any fun e => e.1 == row && e.2 < (c.lane l).index) = false))) = true ∧
    (let s : State := bunS [] id; let l : Fin 512 := 3; let c := s.dev.chip; let b := c.laneBundle l; let up := c.laneState l = 0x0A ∧ 4 ≤ c.laneRate l; decide ((up) ∧ (b < 256))) = true := by
  decide +kernel

/-- Each clause of FramesAndMarkers has states and operands that meet its hypotheses. -/
theorem witness_FramesAndMarkers :
    (let s : State := bunS [] (fun x => { x with txNext := 1, rxNext := 2, samples := [⟨List.replicate 100 7, 0, false⟩], tx := [⟨2, List.replicate 100 9⟩] }); let b : Fin 256 := 2; let c := s.dev.chip; decide (c.bundleOn b = true)) = true ∧
    (let s : State := bunS [] (fun x => { x with samples := [⟨List.replicate 100 7, 0, false⟩] }); let b : Fin 256 := 2; let k : Nat := 3; let c := s.dev.chip; decide ((c.credited b = true) ∧ (c.carries b = true) ∧ (c.streamLane b = some k) ∧ (c.transmits k = true))) = true ∧
    (let s : State := bunS [] (fun x => { x with samples := [⟨List.replicate 100 7, 0, false⟩], tx := [⟨2, List.replicate 100 9⟩, ⟨0, [1,2,3]⟩], txSel := some 2 }); let b : Fin 256 := 2; let vl : Fin 3 := 2; let f : TxFrame := ⟨List.replicate 100 7, 0, false⟩; let c := s.dev.chip; decide ((c.headFrame b vl = some f) ∧ ((∀ v : Fin 3, c.mayStart b v = decide (v = vl))))) = true ∧
    (let s : State := bunS [] (fun x => { x with pegs := [List.replicate 64 3] }); let b : Fin 256 := 2; let f : TxFrame := (bunS [] (fun x => { x with pegs := [List.replicate 64 3] })).dev.chip.pegFrame 2; let c := s.dev.chip; decide ((c.headFrame b 1 = some f) ∧ (c.slotGrant b (c.mayStart b) = some 1))) = true ∧
    (let s : State := bunS [] (fun x => { x with samples := [⟨List.replicate 100 7, 0, false⟩] }); let b : Fin 256 := 2; let c := s.dev.chip; decide (c.slotGrant b (c.mayStart b) ≠ some 1)) = true ∧
    (let s : State := bunS [] (fun x => { x with samples := [⟨List.replicate 100 7, 0, false⟩], partner := none }); let b : Fin 256 := 2; let vl : Fin 3 := 2; let f : TxFrame := ⟨List.replicate 100 7, 0, false⟩; let c := s.dev.chip; decide ((c.headFrame b vl = some f) ∧ (c.carries b = true) ∧ (c.credited b = true) ∧ (c.mayStart b vl = false))) = true := by
  decide +kernel

/-- Each clause of FramesAndMarkers has states and operands that meet its hypotheses. -/
theorem witness_FramesAndMarkersB :
    (let s : State := bunS [] (fun x => { x with samples := [⟨List.replicate 100 7, 0, false⟩] }); let b : Fin 256 := 2; let vl : Fin 3 := 2; let k : Nat := 3; let f : TxFrame := ⟨List.replicate 100 7, 0, false⟩; let c := s.dev.chip; let x := c.bundle b; decide ((c.headFrame b vl = some f) ∧ ((∀ v : Fin 3, c.mayStart b v = decide (v = vl))) ∧ (x.tx = []) ∧ (c.streamLane b = some k) ∧ (c.transmits k = true))) = true := by
  decide +kernel

/-- Each clause of StreamFrames has states and operands that meet its hypotheses. -/
theorem witness_StreamFrames :
    (let s : State := inS [] (fun x => { x with st := .wait }) id; let b : Fin 256 := 2; let frame : List Byte := [1,2,3]; let c := s.dev.chip; decide ((c.bundleRole b = 1) ∧ ((c.takeFrame b 2 frame).isSome = true) ∧ (frame.length < 100))) = true ∧
    (let s : State := inS [] (fun x => { x with st := .wait }) id; let b : Fin 256 := 2; let frame : List Byte := ingF 9 5000 64; let c := s.dev.chip; let i := beAt frame 2 2 % 1024; let x := c.stream i; let row := (c.rowFor i (beAt frame 4 8)).2; decide ((c.bundleRole b = 1) ∧ ((c.takeFrame b 2 frame).isSome = true) ∧ (100 ≤ frame.length) ∧ (beAt frame 18 2 % 64 = 0) ∧ (64 ≤ beAt frame 18 2) ∧ (beAt frame 18 2 ≤ 16384) ∧ (payloadBytes (beAt frame 1 1 / 16) (beAt frame 18 2) = some (frame.length - 36)) ∧ (beAt frame (frame.length - 4) 4 = crc32 (frame.take (frame.length - 4))) ∧ (beAt frame 0 1 / 16 = 1) ∧ (rowOn row = true) ∧ (rowPrimary row = b) ∧ (rowFormat row = beAt frame 1 1 / 16) ∧ (x.dup = none) ∧ (x.release = none) ∧ (x.st = .wait) ∧ ((x.uniTick : Int) ≤ ownToTick x.rowIn (beAt frame 4 8 + beAt frame 18 2 - 1)))) = true ∧
    (let s : State := inS [] (fun x => { x with st := .wait }) (fun c => (({ c with lc := 100000000 } : Chip).setStream 10 { Stream.atReset with st := .run, release := some 50000, rowIn := rowB true 1 })); let n : Fin 1024 := 9; let q : Nat := fp; let c := s.dev.chip; decide ((c.leaving n = none) ∧ (c.firstPoint n = some q))) = true ∧
    (let s : State := inS [] (fun x => { x with st := .run, release := some 4000, highest := 90000, heard := 500 }) id; let n : Fin 1024 := 9; let q : Nat := 4000; let c := s.dev.chip; decide ((c.leaving n = some q) ∧ (c.dueEntry n (ownToTick (c.stream n).rowIn q) = c))) = true ∧
    (let s : State := inS [] (fun x => { x with st := .run, release := some 4000, highest := 9000, heard := 500, buf := [(4001, some ⟨1, 2, false, false, 0⟩)] }) id; let n : Fin 1024 := 9; let c := s.dev.chip; decide ((c.stream n).st = .run)) = true := by
  decide +kernel

/-- Each clause of StreamChanges has states and operands that meet its hypotheses. -/
theorem witness_StreamChanges :
    (let s : State := inS [] (fun x => { x with st := .run, release := some 4000, dcMode := 0, changes := [⟨3000, rowB true 2, true, true⟩] }) id; let n : Fin 1024 := 9; let e : RouteChange := ⟨3000, rowB true 2, true, true⟩; let c := s.dev.chip; let x := c.stream n; decide ((x.changes.find? fun f => f.entry && rowOn f.row) = some e)) = true ∧
    (let s : State := inS [] (fun x => { x with st := .run, release := some 4000, changes := [⟨3000, rowB true 2, false, true⟩] }) id; let n : Fin 1024 := 9; let e : RouteChange := ⟨3000, rowB true 2, false, true⟩; let c := s.dev.chip; let x := c.stream n; decide (((x.changes.find? fun f => f.entry && rowOn f.row) = none) ∧ ((x.changes.find? fun f => f.delayed) = some e))) = true ∧
    (let s : State := inS [] (fun x => { x with st := .run, release := some 4000, changes := [⟨3000, rowB false 2, true, true⟩] }) id; let n : Fin 1024 := 9; let e : RouteChange := ⟨3000, rowB false 2, true, true⟩; let c := s.dev.chip; let x := c.stream n; decide (((x.changes.find? fun f => f.entry && !rowOn f.row) = some e) ∧ (x.st ≠ .off) ∧ ((x.st = .run → ∃ q ∈ x.release, (e.tick : Int) ≤ ownToTick x.rowIn q)) ∧ ((∀ f ∈ x.changes, f.entry = true → rowOn f.row = true → f.tick ≤ e.tick)))) = true ∧
    (let s : State := inS [] (fun x => { x with st := .run, dcChanges := [⟨300, true, 77⟩] }) id; let n : Fin 1024 := 9; let d : DcChange := ⟨300, true, 77⟩; let rest : List DcChange := []; let c := s.dev.chip; let x := c.stream n; decide (x.dcChanges = d :: rest)) = true ∧
    (let s : State := inS [] (fun x => { x with st := .run, release := some 4000, dcMode := 0, changes := [⟨3000, rowB true 2, true, true⟩] }) id; let sess : Fin 9 := 1; let n : Fin 1024 := 9; let v : Int := -5; let c := s.dev.chip; let x := c.stream n; let key := fun (sub : Nat) => od (0x9000 + n.val) sub; decide ((s.accepts sess (key 6) (.num (ofI v 32))) ∧ (x.st ≠ .off) ∧ ((x.dcMode = 1 → x.dcFrozen = true)))) = true ∧
    (let s : State := inS [] id fun c => { c with writer := { c.writer with next := [⟨4096, 0, 8192, 100, [(9, 0)]⟩] } }; let r : Ring := ⟨4096, 0, 8192, 100, [(9, 0)]⟩; let rs : List Ring := []; let c := s.dev.chip; decide (c.writer.next = r :: rs)) = true ∧
    (let s : State := inS [] (fun x => { x with l0 := { x.l0 with on := true, warm := 1000000000 } }) id; let n : Fin 1024 := 9; let c := s.dev.chip; let x := c.stream n; let key := fun (sub : Nat) => od (0x9000 + n.val) sub; decide ((x.l0.on = true) ∧ (4 * 2 ^ c.rd (key 0x62) ≤ x.l0.warm))) = true := by
  decide +kernel

/-- Each clause of Channelizing has states and operands that meet its hypotheses. -/
theorem witness_Channelizing :
    (let s : State := inS [(od 0x2800 1, 1)] (fun x => { x with st := .run, spec := 3*256 + 7, next := some 10000000 }) (fun c => c.setAcc 9 (some (acc9 7))); let n : Fin 1024 := 9; let a : StickAcc := acc9 7; let c := s.dev.chip; let x := c.stream n; decide ((c.acc n = some a) ∧ (a.count = x.spec % 256) ∧ ((c.live n x.spec = true → x.st ≠ .off → (x.spec + 1) * c.fft ≤ x.next.getD 0)))) = true ∧
    (let s : State := inS [(od 0x2800 1, 0)] (fun x => { x with st := .off, spec := 3*256 + 7, next := some 10000000 }) (fun c => c.setAcc 9 (some (acc9 7))); let n : Fin 1024 := 9; let a : StickAcc := acc9 7; let c := s.dev.chip; let x := c.stream n; decide ((c.acc n = some a) ∧ (a.count = x.spec % 256) ∧ (a.count ≠ 0) ∧ (c.live n x.spec = false))) = true ∧
    (let s : State := inS [(od 0x2800 1, 1)] (fun x => { x with st := .run, spec := 4*256, next := some 10000000 }) (fun c => let c := c.setAcc 9 (some (acc9 256)); { c with fe := { c.fe with armed := some 9 } }); let n : Fin 1024 := 9; let a : StickAcc := acc9 256; let c := s.dev.chip; decide ((c.acc n = some a) ∧ (256 ≤ a.count))) = true ∧
    (let s : State := inS [(od 0x2800 1, 1)] (fun x => { x with st := .run, spec := 3*256 + 7, next := some 10000000 }) (fun c => c.setAcc 9 (some (acc9 7))); let sess : Fin 9 := 1; let n : Fin 1024 := 9; let rec_ : List Byte := List.replicate 48 0; let c := s.dev.chip; let x := c.stream n; let key := fun (sub : Nat) => od (0x9000 + n.val) sub; decide ((s.accepts sess (key 0x40) (.bytes rec_)) ∧ (rec_.length = 48) ∧ (x.segments = []))) = true ∧
    (let s : State := inS [(od 0x2800 1, 1)] (fun x => { x with st := .run, spec := 3*256 + 7, next := some 10000000 }) (fun c => c.setAcc 9 (some (acc9 7))); let sess : Fin 9 := 1; let n : Fin 1024 := 9; let key := fun (sub : Nat) => od (0x9000 + n.val) sub; decide (s.accepts sess (key 0x47) (.num 1))) = true ∧
    (let s : State := inS [(od 0x2800 1, 1)] (fun x => { x with st := .run, spec := 3*256 + 7, next := some 10000000 }) (fun c => c.setAcc 9 (some (acc9 7))); let sess : Fin 9 := 1; decide (s.accepts sess (od 0x2800 0x1B) (.num 1))) = true ∧
    (let s : State := inS [(od 0x5400 0x10, 1)] id (fun c => { c with lc := 100000000000, fe := { c.fe with ready := some 3, top := some 4 } }); let k : Nat := 3; let c := s.dev.chip; decide ((c.fe.ready = some k) ∧ (((List.range 1024).any fun m => c.producing m k) = false) ∧ ((k + 1) * 256 * c.fft ≤ c.reached) ∧ (c.quietIn (256 * k / c.chaseT) = true))) = true := by
  decide +kernel

/-- Each clause of MeshAndGalley has states and operands that meet its hypotheses. -/
theorem witness_MeshAndGalley :
    (let s : State := inS [] id (fun c => c.wr (od 0x2C10 4) 1); let h : Fin 2 := 1; let c := s.dev.chip; decide ((c.halfState h = 1) ∧ ((c.half h).fixed = false))) = true ∧
    (let s : State := inS [] id (fun c => c.wr (od 0x2C10 4) 1); let h : Fin 2 := 1; let c := s.dev.chip; decide (c.halfState h = 1)) = true ∧
    (let s : State := inS [] id (fun c => (c.wr (od 0x2C10 4) 2).setHalf 1 { c.half 1 with clearing := true }); let h : Fin 2 := 1; let c := s.dev.chip; decide ((c.halfState h = 2) ∧ ((c.half h).clearing = true) ∧ (c.truss.stopAt = none))) = true := by
  decide +kernel

/-- Each clause of MeshAndGalley has states and operands that meet its hypotheses. -/
theorem witness_MeshAndGalleyB :
    (let s : State := meshS; let b : Fin 256 := 2; let frame : List Byte := pegFr; let c1 : Chip := (meshS.dev.chip.takeFrame 2 1 pegFr).getD meshS.dev.chip; let c2 : Chip := (((meshS.dev.chip.takeFrame 2 1 pegFr).getD meshS.dev.chip).admitFrame 2 1 pegFr).1; let j : Nat := 0; let w : Option (Nat × Nat) := some (0, 1); let c := s.dev.chip; let src := beAt frame 1 1 / 4; decide ((c.bundleRole b = 2) ∧ (c.takeFrame b 1 frame = some c1) ∧ (c1.admitFrame b 1 frame = (c2, true)) ∧ (beAt frame 3 1 % 32 = 1) ∧ (judge (2 ^ 16) 256 (sget (fun _ => none) c2.trigger.pegsSeen src) (Peg.mk (slice frame 16 16) src).seq = (.fresh j, w)))) = true ∧
    (let s : State := meshS; let b : Fin 256 := 2; let frame : List Byte := ctlF 1; let c1 : Chip := (meshS.dev.chip.takeFrame 2 0 (ctlF 1)).getD meshS.dev.chip; let c2 : Chip := (((meshS.dev.chip.takeFrame 2 0 (ctlF 1)).getD meshS.dev.chip).admitFrame 2 0 (ctlF 1)).1; let j : Nat := 0; let w : Option (Nat × Nat) := some (0, 1); let c := s.dev.chip; let src := beAt frame 1 1 / 4; let fresh := fun (type : Nat) => judge (2 ^ 48) 64 (sget (fun _ => none) c.trigger.controlSeen (src * 256 + type)) (beAt frame 10 6); decide ((c.bundleRole b = 2) ∧ (c.takeFrame b 0 frame = some c1) ∧ (c1.admitFrame b 0 frame = (c2, true)) ∧ (beAt frame 3 1 = 1) ∧ (fresh 1 = (.fresh j, w)))) = true ∧
    (let s : State := meshS; let b : Fin 256 := 2; let frame : List Byte := ctlF 2; let c1 : Chip := (meshS.dev.chip.takeFrame 2 0 (ctlF 2)).getD meshS.dev.chip; let c2 : Chip := (((meshS.dev.chip.takeFrame 2 0 (ctlF 2)).getD meshS.dev.chip).admitFrame 2 0 (ctlF 2)).1; let j : Nat := 0; let w : Option (Nat × Nat) := some (0, 1); let c := s.dev.chip; let src := beAt frame 1 1 / 4; let fresh := fun (type : Nat) => judge (2 ^ 48) 64 (sget (fun _ => none) c.trigger.controlSeen (src * 256 + type)) (beAt frame 10 6); decide ((c.bundleRole b = 2) ∧ (c.takeFrame b 0 frame = some c1) ∧ (c1.admitFrame b 0 frame = (c2, true)) ∧ (beAt frame 3 1 = 2) ∧ (fresh 2 = (.fresh j, w)))) = true ∧
    (let s : State := inS [(od 0x2001 1, 3), (od 0x2001 2, 3)] id id; let b : Fin 256 := 2; let frame : List Byte := pegFr; let c1 : Chip := tk 1 pegFr; let c := s.dev.chip; decide ((c.bundleRole b = 3) ∧ (c.takeFrame b 1 frame = some c1) ∧ (frameLengthOk frame = true) ∧ (beAt frame (frame.length - 4) 4 = crc32 (frame.take (frame.length - 4))))) = true ∧
    (let s : State := inS [] id id; let b : Fin 256 := 2; let c := s.dev.chip; decide (c.bundleRole b ≠ 2)) = true ∧
    (let s : State := inS [] id id; let b : Fin 256 := 2; let c := s.dev.chip; decide ((c.bundleRole b ≠ 2) ∧ (c.bundleRole b ≠ 3))) = true := by
  decide +kernel

/-- Each clause of XEnginePeriods has states and operands that meet its hypotheses. -/
theorem witness_XEnginePeriods :
    (let s : State := xS [(od 0x2C10 1, 2), (od 0x2C10 2, 4)] id; let n : Nat := 4; let c := s.dev.chip; decide (c.nextPeriod = some n)) = true ∧
    (let s : State := xS [(od 0x2C00 7, 256)] fun c => { c with xe := { c.xe with periods := [⟨4, 10, 0, [3]⟩], newest := some 4 } }; let p : OpenPeriod := ⟨4, 10, 0, [3]⟩; let c := s.dev.chip; decide (((c.xe.periods.find? fun e => decide (e.staged < (localChannels (c.trussMap e.number) c.node).length)) = some p) ∧ (c.slabDone c.xe.nextHalf = true))) = true ∧
    (let s : State := xS [] (fun c => ({ c.wrDom (od 0x6005 0) (List.replicate 16 0 ++ beL 1 4 ++ [0,0,0,0] ++ [0, 3, 0, 0, 5, 0,0,0]) with xe := { c.xe with periods := [⟨4, 10, 1, [3]⟩], newest := some 4, chase := c.xe.chase.set 0 (some ⟨4, 0, []⟩) } } : Chip).setForme 3 { c.forme 3 with pos := some (4, 0, 0) }); let n : Nat := 5; let f : Nat := 3; let i : Impression := imp0; let c := s.dev.chip; decide ((c.xe.formes.filterMap fun e => (c.nextEntry e.1).map fun y => ((e.1, y) : Nat × Impression × Nat × Bool)) = [(f, i, n, false)])) = true ∧
    (let s : State := xS [] fun c => { c with xe := { c.xe with platens := [(5, { c.platen 5 with queue := [imp0] })], periods := [⟨4, 10, 2, [3]⟩], chase := c.xe.chase.set 0 (some ⟨4, 0, []⟩) } }; let q : Fin 64 := 5; let i : Impression := imp0; let l : List Impression := []; let c := s.dev.chip; decide (((c.platen q).queue = i :: l) ∧ ((c.platen q).stalled = none) ∧ ((c.platen q).buffer = none))) = true ∧
    (let s : State := xS [] fun c => { c with xe := { c.xe with platens := [(5, { c.platen 5 with queue := [imp0], buffer := some (imp0, ⟨[], []⟩) })], periods := [⟨4, 10, 2, [3]⟩] } }; let q : Fin 64 := 5; let i : Impression := imp0; let r : ImpResult := ⟨[], []⟩; let c := s.dev.chip; decide (((c.platen q).buffer = some (i, r)) ∧ ((c.platen q).stalled = none))) = true ∧
    (let s : State := xS [] (fun c => { c with xe := { c.xe with periods := [⟨4, 10, 4, [3]⟩], newest := some 4 } }); let p : OpenPeriod := ⟨4, 10, 4, [3]⟩; let rest : List OpenPeriod := []; let c := s.dev.chip; decide ((c.xe.periods = p :: rest) ∧ (c.periodDone p = true))) = true := by
  decide +kernel

/-- Each clause of BeamFormes has states and operands that meet its hypotheses. -/
theorem witness_BeamFormes :
    (let s : State := xS [(od 0x8003 1, 2), (od 0x8003 0x20, 1), (od 0x8003 0x24, 10)] id; let sess : Fin 9 := 1; let f : Fin 4096 := 3; let bank : Fin 2 := 1; let table : List Byte := bankB; let c := s.dev.chip; let y := c.forme f; let key := fun (sub : Nat) => od (0x8000 + f.val) sub; decide ((s.accepts sess (key (0x21 + bank.val)) (.bytes table)) ∧ (c.kindFor sess f = .num 2) ∧ (c.resizes sess f = false) ∧ (c.rd (key 0x30) ≠ bank) ∧ (y.fading = false) ∧ (bankCheck (c.rd (key 0x20)) (c.formeInputs f (mapN (c.table (od 0x6004 0)))) table = .ok))) = true ∧
    (let s : State := xS [(od 0x8003 1, 2), (od 0x8003 0x20, 1), (od 0x8003 0x24, 10)] id; let sess : Fin 9 := 1; let f : Fin 4096 := 3; let tick : BitVec 64 := 90000000; let c := s.dev.chip; let key := fun (sub : Nat) => od (0x8000 + f.val) sub; let sp := effectSpectrum c.fft tick.toNat; decide ((s.accepts sess (key 0x23) (.num tick.toNat)) ∧ (c.formeKind f = 2) ∧ (c.bankHeld f (c.swapTarget f) = false) ∧ (c.reached < sp * c.fft))) = true ∧
    (let s : State := xS [(od 0x8003 1, 2), (od 0x8003 0x20, 1), (od 0x8003 0x24, 10)] fun c => c.setForme 3 { c.forme 3 with waiting := some 7, scarfs := [⟨5, 10, 1⟩] }; let f : Fin 4096 := 3; let w : Nat := 7; let c := s.dev.chip; let y := c.forme f; decide ((y.waiting = some w) ∧ (y.fading = false) ∧ (c.bankHeld f (c.swapTarget f) = false))) = true ∧
    (let s : State := xS [(od 0x8003 1, 2), (od 0x8003 0x20, 1), (od 0x8003 0x24, 10)] fun c => c.setForme 3 { c.forme 3 with fading := true, scarfs := [⟨5, 10, 1⟩] }; let f : Fin 4096 := 3; let k : Scarf := ⟨5, 10, 1⟩; let l : List Scarf := []; let c := s.dev.chip; let y := c.forme f; decide ((y.fading = true) ∧ (y.scarfs = k :: l))) = true ∧
    (let s : State := xS [(od 0x8003 1, 2), (od 0x8003 0x20, 1), (od 0x8003 0x0A, 256), (od 0x2C00 7, 256)] fun c => ({ c with xe := { c.xe with slots := [slot0] } } : Chip).setForme 3 { c.forme 3 with release := some (4, 0, 0) }; let f : Fin 4096 := 3; let x : LedgerSlot := slot0; let c := s.dev.chip; let key := fun (sub : Nat) => od (0x8000 + f.val) sub; decide ((c.releaseSlot f = some x) ∧ (x.scaled = none) ∧ (256 ≤ (c.periodCfg x.period).rd (key 0x0A)))) = true ∧
    (let s : State := xS [(od 0x8003 1, 2), (od 0x8003 0x20, 1), (od 0x8003 0x0A, 256), (od 0x2C00 7, 256)] (fun c => ({ c with xe := { c.xe with slots := [{ slot0 with scaled := some [] }] } } : Chip).setForme 3 { c.forme 3 with release := some (4, 0, 0) }); let f : Fin 4096 := 3; let x : LedgerSlot := { slot0 with scaled := some [] }; let c := s.dev.chip; decide ((c.releaseSlot f = some x) ∧ (x.scaled.isSome = true))) = true ∧
    (let s : State := xS [(od 0x8003 1, 2), (od 0x8003 0x20, 1), (od 0x8003 0x2C, 1), (od 0x8003 0x28, 1)] fun c => c.setL1 (3*4096) { c.l1 (3*4096) with warm := 10 ^ 12 }; let tb : Fin 4096 := 0; let j : Nat := 3*4096; let c := s.dev.chip; decide ((c.triggerBeam tb = some j) ∧ (4 * 2 ^ (c.asOf ((c.l1 j).next * (c.l1 j).dt * c.fft)).rd (od 0x3800 0x0B) ≤ (c.l1 j).warm))) = true := by
  decide +kernel

/-- Each clause of PegsMachinesAndCaptures has states and operands that meet its hypotheses. -/
theorem witness_PegsMachinesAndCaptures :
    (let s : State := up [(od 0x3800 1, 1)]; let sess : Fin 9 := 1; let b : List Byte := List.replicate 16 0; let key := fun (sub : Nat) => od 0x3800 sub; decide ((s.accepts sess (key 0x0D) (.bytes b)) ∧ (b.length = 16))) = true ∧
    (let s : State := up [(od 0x3800 1, 1), (od 0x5400 0x10, 1)]; let sess : Fin 9 := 1; let b : List Byte := List.replicate 24 0; let c := s.dev.chip; let key := fun (sub : Nat) => od 0x3800 sub; decide ((s.accepts sess (key 0x0E) (.bytes b)) ∧ (b.length = 24) ∧ (c.role ≠ 3))) = true ∧
    (let s : State := upC [(od 0x3800 1, 1)] fun c => c.setGroup 3 { c.group 3 with waiting := [⟨List.replicate 16 1, 3⟩], clears := [5] }; let g : Fin 256 := 3; let p : Peg := ⟨List.replicate 16 1, 3⟩; let ps : List Peg := []; let c := s.dev.chip; let key := fun (sub : Nat) => od 0x3800 sub; decide (((c.group g).waiting = p :: ps) ∧ (c.on (key 1) = true))) = true ∧
    (let s : State := upC [(od 0x3800 1, 1)] fun c => (c.setMachine 2 { c.machine 2 with events := [⟨5000, false, 3, 7⟩] }); let m : Fin 64 := 2; let e : MachineEv := ⟨5000, false, 3, 7⟩; let c := s.dev.chip; let y := c.machine m; let key := fun (sub : Nat) => od 0x3800 sub; let body := c.machineBody e.tick m; let fits := (transitions body).find? fun r => beAt r 0 1 / 8 == y.state && beAt r 1 1 / 64 == b2n e.timer && beAt r 2 1 == e.number; let ready := firstEv y.events = some e ∧ y.restarts = [] ∧ (∀ i ∈ List.range 6, y.timers.getD i none = none) ∧ c.on (key 1) = true ∧ c.groupsBehind body e.tick = false; decide ((ready) ∧ (fits = none))) = true ∧
    (let s : State := upC [(od 0x3800 1, 1)] fun c => ((c.wrDom (od 0x6009 3) (List.replicate 16 0 ++ [1, 0, 0, 1] ++ List.replicate 20 0 ++ [0, 0, 3, 16, 0, 0, 0,0,0,0,0,0])).setMachine 2 { c.machine 2 with events := [⟨5000, false, 3, 7⟩] }); let m : Fin 64 := 2; let e : MachineEv := ⟨5000, false, 3, 7⟩; let row : List Byte := [0, 0, 3, 16, 0, 0, 0,0,0,0,0,0]; let c := s.dev.chip; let y := c.machine m; let key := fun (sub : Nat) => od 0x3800 sub; let body := c.machineBody e.tick m; let fits := (transitions body).find? fun r => beAt r 0 1 / 8 == y.state && beAt r 1 1 / 64 == b2n e.timer && beAt r 2 1 == e.number; let ready := firstEv y.events = some e ∧ y.restarts = [] ∧ (∀ i ∈ List.range 6, y.timers.getD i none = none) ∧ c.on (key 1) = true ∧ c.groupsBehind body e.tick = false; decide ((ready) ∧ (fits = some row))) = true ∧
    (let s : State := upC [(od 0x3800 1, 1)] fun c => (c.setMachine 2 { c.machine 2 with timers := (c.machine 2).timers.set 1 (some 7000) }); let m : Fin 64 := 2; let tm : Fin 4 := 1; let u : Nat := 7000; let c := s.dev.chip; let y := c.machine m; decide (y.timers.getD tm.val none = some u)) = true ∧
    (let s : State := upC [(od 0x3800 1, 1)] fun c => { c with trigger := { c.trigger with freezeNext := [(7000, true)] } }; let u : Nat := 7000; let fs : List (Nat × Bool) := []; let c := s.dev.chip; decide (c.trigger.freezeNext = (u, true) :: fs)) = true ∧
    (let s : State := upC [(od 0x3800 1, 1), (od 0x3800 (0x31+4), 1)] fun c => { c with writer := { c.writer with high := some 9000 }, trigger := { c.trigger with slots := c.trigger.slots.set 4 (some ⟨⟨5000, 10, 10, 2, 0, false⟩, 0, 5, 4990, 5010, false, false, 500, 1000⟩) } }; let k : Fin 8 := 4; let e : MachineEv := ⟨5000, false, 3, 7⟩; let w : Nat := 9000; let x : Slot := ⟨⟨5000, 10, 10, 2, 0, false⟩, 0, 5, 4990, 5010, false, false, 500, 1000⟩; let c := s.dev.chip; decide ((c.trigger.slots[k] = some x) ∧ (c.slotState k = 1) ∧ (c.writer.high = some w) ∧ (x.hi ≤ w) ∧ ((c.streams.any fun e => e.2.staged.any fun z => decide (z.1 ≤ x.hi)) = false))) = true ∧
    (let s : State := upC [(od 0x3800 1, 1), (od 0x3800 (0x31+4), 2)] fun c => { c with trigger := { c.trigger with slots := c.trigger.slots.set 4 (some ⟨⟨5000, 10, 10, 2, 0, false⟩, 0, 5, 4990, 5010, false, false, 500, 1000⟩) } }; let sess : Fin 9 := 1; let k : Fin 8 := 4; let c := s.dev.chip; let key := fun (sub : Nat) => od 0x3800 sub; decide ((s.accepts sess (key (0x51 + k.val)) (.num 1)) ∧ (c.slotState k ≠ 0))) = true ∧
    (let s : State := upC [(od 0x3800 1, 1), (od 0x3800 (0x31+4), 2)] fun c => { c with trigger := { c.trigger with slots := c.trigger.slots.set 4 (some ⟨⟨5000, 10, 10, 2, 0, false⟩, 0, 5, 4990, 5010, false, false, 500, 1000⟩) } }; let k : Fin 8 := 4; let c := s.dev.chip; decide (c.slotState k ≠ 0)) = true := by
  decide +kernel

/-- Each clause of HbmAndRetire has states and operands that meet its hypotheses. -/
theorem witness_HbmAndRetire :
    (let s : State := hS (fun c q => q) fun c => { c with hbm := { c.hbm with training := c.hbm.training.set 0 { c.hbm.training[0] with pass := some (0, 1) } } }; let k : Fin 6 := 0; let pc : Fin 32 := 0; let c := s.dev.chip; decide (c.pcBusy (pcKey k pc) = true)) = true ∧
    (let s : State := up []; let k : Fin 6 := 0; let pc : Fin 32 := 0; let u : HbmUnit := hU false 0 []; let p : Nat := pl c0 (hU false 0 []); let c := s.dev.chip; let q := c.hbm.pc (pcKey k pc); let settled := ∀ e ∈ c.streams, e.2.staged = []; let idle := c.pcBusy (pcKey k pc) = false ∧ q.classes = [] ∧ q.writes = [] ∧ q.reads = [] ∧ q.writing = false ∧ settled ∧ c.unitPlace u.cls.val u.addr = some p ∧ pcOf p = pcKey k pc; decide ((idle) ∧ (u.write = false) ∧ (0 < u.len) ∧ (u.addr % 32 + u.len ≤ 32))) = true ∧
    (let s : State := up []; let k : Fin 6 := 0; let pc : Fin 32 := 0; let u : HbmUnit := hU true 0 (List.replicate 32 9); let p : Nat := pl c0 (hU false 0 []); let c := s.dev.chip; let q := c.hbm.pc (pcKey k pc); let settled := ∀ e ∈ c.streams, e.2.staged = []; let idle := c.pcBusy (pcKey k pc) = false ∧ q.classes = [] ∧ q.writes = [] ∧ q.reads = [] ∧ q.writing = false ∧ settled ∧ c.unitPlace u.cls.val u.addr = some p ∧ pcOf p = pcKey k pc; decide ((idle) ∧ (u.write = true) ∧ (u.addr % 32 = 0) ∧ (u.data.length = 32))) = true ∧
    (let s : State := hS (fun c q => { q with reads := [rdU] }) fun c => { c with hbm := { c.hbm with training := c.hbm.training.set 0 { c.hbm.training[0] with pass := some (0, 1) } } }; let k : Fin 6 := 0; let pc : Fin 32 := 0; let v : ReadUnit := rdU; let l : List ReadUnit := []; let c := s.dev.chip; let q := c.hbm.pc (pcKey k pc); decide ((q.reads = v :: l) ∧ (c.pcBusy (pcKey k pc) = true))) = true ∧
    (let s : State := hS (fun c q => { q with reads := [rdU] }) id; let k : Fin 6 := 0; let pc : Fin 32 := 0; let v : ReadUnit := rdU; let l : List ReadUnit := []; let c := s.dev.chip; let q := c.hbm.pc (pcKey k pc); decide ((q.reads = v :: l) ∧ (c.pcBusy (pcKey k pc) = false))) = true ∧
    (let s : State := up []; let k : Fin 6 := 0; let c := s.dev.chip; decide (((c.hbm.training[k]).failed = false) ∧ ((c.hbm.training[k]).changing = false) ∧ ((c.hbm.training[k]).pass = none) ∧ (c.device = 0))) = true ∧
    (let s : State := hS (fun c q => q) (fun c => { c with hbm := { c.hbm with training := c.hbm.training.set 0 { c.hbm.training[0] with pass := some (5, 1) } } }); let k : Fin 6 := 0; let p : Nat := 5; let a : Nat := 1; let c := s.dev.chip; let settled := ∀ e ∈ c.streams, e.2.staged = []; decide (((c.hbm.training[k]).pass = some (p, a)) ∧ (a < 3) ∧ ((c.hbm.training[k]).deferred = false) ∧ (settled))) = true ∧
    (let s : State := up []; let r1 : Nat := 0; let c := s.dev.chip; decide (c.serviceFrom (c.hbm.scrub / rankBytes % 18) = some r1)) = true ∧
    (let a : Nat := 133; decide (a < 134217728)) = true ∧
    (let s : State := hS (fun c q => q) fun c => { c with hbm := { c.hbm with migration := some ⟨3, 16, 4096, false⟩ } }; let sess : Fin 9 := 1; let r : Fin 18 := 2; let c := s.dev.chip; decide ((s.accepts sess (rankOd r.val 5) (.num 1)) ∧ (c.rankState r.val = 1) ∧ (c.hbm.migration.isSome = true))) = true ∧
    (let s : State := up []; let sess : Fin 9 := 1; let r : Fin 18 := 17; let c := s.dev.chip; decide ((s.accepts sess (rankOd r.val 5) (.num 1)) ∧ (c.rankState r.val ≠ 1))) = true ∧
    (let s : State := hS (fun c q => q) fun c => { c with hbm := { c.hbm with migration := some ⟨2, 16, 4096, false⟩ } }; let m : Migration := ⟨2, 16, 4096, false⟩; let c := s.dev.chip; decide ((c.hbm.migration = some m) ∧ (m.copied < rankBytes))) = true ∧
    (let s : State := hS (fun c q => q) (fun c => { c with hbm := { c.hbm with migration := some ⟨2, 16, rankBytes, false⟩ } }); let m : Migration := ⟨2, 16, rankBytes, false⟩; let c := s.dev.chip; decide ((c.hbm.migration = some m) ∧ (rankBytes ≤ m.copied) ∧ (c.hbm.waiting = []) ∧ (m.src ≠ m.dst))) = true := by
  decide +kernel

/-- Each clause of SetterHost has states and operands that meet its hypotheses. -/
theorem witness_SetterHost :
    decide (True) = true ∧
    (let s : State := up []; let sess : Fin 9 := 1; let n : Fin 8 := 3; let v : BitVec 32 := 77; let key := fun (sub : Nat) => setterOd n sub; decide (s.accepts sess (key 3) (.num v.toNat))) = true ∧
    (let s : State := bootS; let sess : Fin 9 := 1; let n : Fin 8 := 3; let c := s.dev.chip; let x := s.dev.cores[n]; let key := fun (sub : Nat) => setterOd n sub; let started := s.accepts sess (key 1) (.num 1) ∧ c.rd (key 1) ≠ 1 ∧ c.domOpen (setterDomain n) = true ∧ c.imageHeld n = false; decide ((started) ∧ ((bootVerdict x).1 = 1))) = true ∧
    (let s : State := offS; let sess : Fin 9 := 1; let n : Fin 8 := 3; let c := s.dev.chip; let x := s.dev.cores[n]; let key := fun (sub : Nat) => setterOd n sub; let started := s.accepts sess (key 1) (.num 1) ∧ c.rd (key 1) ≠ 1 ∧ c.domOpen (setterDomain n) = true ∧ c.imageHeld n = false; decide ((started) ∧ ((bootVerdict x).1 ≠ 1))) = true ∧
    (let s : State := up []; let sess : Fin 9 := 1; let n : Fin 8 := 3; let w : BitVec 8 := 0; let x := s.dev.cores[n]; let key := fun (sub : Nat) => setterOd n sub; decide ((s.accepts sess (key 1) (.num w.toNat)) ∧ (w ≠ 1) ∧ (x.farStores = []))) = true ∧
    (let s : State := offS; let sess : Fin 9 := 1; let n : Fin 8 := 3; let table : List Byte := mkTable 0x12 (List.replicate 64 3); let c := s.dev.chip; let key := fun (sub : Nat) => setterOd n sub; let loads := s.accepts sess (key 0x10) (.bytes table) ∧ c.rd (key 1) ≠ 1; let body := tableBody table; decide ((loads) ∧ (tableCheck 0x12 table = none) ∧ (body.length ≤ 262144) ∧ (body.length % 8 = 0))) = true ∧
    (let s : State := offS; let sess : Fin 9 := 1; let n : Fin 8 := 3; let table : List Byte := (mkTable 0x12 (List.replicate 64 3)).set 20 9; let c := s.dev.chip; let key := fun (sub : Nat) => setterOd n sub; let loads := s.accepts sess (key 0x10) (.bytes table) ∧ c.rd (key 1) ≠ 1; decide ((loads) ∧ (tableCheck 0x12 table = some .crc))) = true ∧
    (let s : State := up []; let q : Fin 15 := 1; let r : MatrixReq := ⟨8, false, 67108864 + 64, 8, []⟩; let c := s.dev.chip; let reached := c.domClock (portDomain c q.val r.addr) = true ∧ c.domOpen (portDomain c q.val r.addr) = true; decide ((reached) ∧ (q.val < 4) ∧ (portAllows c q.val r = true) ∧ (r.write = false))) = true ∧
    (let s : State := up []; let q : Fin 15 := 1; let r : MatrixReq := ⟨8, true, 67108864 + 64, 4, [1,2,3,4]⟩; let c := s.dev.chip; let reached := c.domClock (portDomain c q.val r.addr) = true ∧ c.domOpen (portDomain c q.val r.addr) = true; decide ((reached) ∧ (q.val < 4) ∧ (portAllows c q.val r = true) ∧ (r.write = true))) = true ∧
    (let s : State := up [(od (0x5100+93) 3, 5)]; let q : Fin 15 := 1; let r : MatrixReq := ⟨8, false, 67108864 + 64, 8, []⟩; let c := s.dev.chip; decide ((c.domClock (portDomain c q.val r.addr) = true) ∧ (c.domOpen (portDomain c q.val r.addr) = false) ∧ (portAllows c q.val r = true))) = true ∧
    (let s : State := up []; let q : Fin 15 := 1; let r : MatrixReq := ⟨8, true, 67108864 * 2 + 64, 4, [1,2,3,4]⟩; let c := s.dev.chip; let reached := c.domClock (portDomain c q.val r.addr) = true ∧ c.domOpen (portDomain c q.val r.addr) = true; decide ((reached) ∧ (portAllows c q.val r = false))) = true := by
  decide +kernel

/-- Each clause of DmaAndQueues has states and operands that meet its hypotheses. -/
theorem witness_DmaAndQueues :
    (let s : State := dch 0 id []; let sess : Fin 9 := 1; let f : Fin 32 := 7; let c := s.dev.chip; let startable := c.on (od 0x4000 1) = true ∧ c.dmaState f = 0 ∧ c.partitionPending = false; decide ((s.accepts sess (dmaOd f 2) (.num 1)) ∧ (startable))) = true ∧
    (let s : State := dch 0 id []; let f : Fin 32 := 7; let c := s.dev.chip; let startable := c.on (od 0x4000 1) = true ∧ c.dmaState f = 0 ∧ c.partitionPending = false; decide (startable)) = true ∧
    (let s : State := dch 1 id []; let sess : Fin 9 := 1; let f : Fin 32 := 7; let c := s.dev.chip; decide ((s.accepts sess (dmaOd f 3) (.num 1)) ∧ (c.dmaState f = 1))) = true ∧
    (let s : State := dch 2 id []; let f : Fin 32 := 7; let c := s.dev.chip; decide (c.dmaState f = 2)) = true ∧
    (let s : State := dch 3 id []; let f : Fin 32 := 7; let c := s.dev.chip; decide (c.dmaState f = 3)) = true ∧
    (let s : State := sramW (dch 1 id []) 4096 (descB 0 4096 64); let f : Fin 32 := 7; let c := s.dev.chip; let x := c.dma f; let d := readDescriptor (s.dev.readSram x.descAddr 32); let loaded := c.dmaState f = 1 ∧ x.ending = none ∧ x.descAddr % 32 = 0 ∧ x.descAddr < 2 ^ 28; decide ((loaded) ∧ (descriptorOk c d = true))) = true ∧
    (let s : State := sramW (dch 1 id []) 4096 (descB 0 4096 0); let f : Fin 32 := 7; let c := s.dev.chip; let x := c.dma f; let d := readDescriptor (s.dev.readSram x.descAddr 32); let loaded := c.dmaState f = 1 ∧ x.ending = none ∧ x.descAddr % 32 = 0 ∧ x.descAddr < 2 ^ 28; decide ((loaded) ∧ (descriptorOk c d = false))) = true ∧
    (let s : State := dch 0 id []; let c := s.dev.chip; decide (c.dmaReady = [])) = true ∧
    (let s : State := dch 3 (fun x => { x with desc := readDescriptor (descB 0 4096 64) }) []; let f : Fin 32 := 7; let c := s.dev.chip; let x := c.dma f; let alone := c.dmaReady = [f.val] ∧ x.port = none ∧ x.buffer = [] ∧ x.stop = false ∧ x.read = 0 ∧ x.written = 0 ∧ x.ending = none ∧ 0 < x.desc.length ∧ dmaSpace x.desc.src = 0 ∧ c.domOpen (dmaDomain c x.desc.src) = true ∧ c.domOpen (dmaDomain c x.desc.dst) = true; decide (alone)) = true ∧
    (let s : State := dch 2 (fun x => { x with desc := readDescriptor (descB 0 4096 64) }) [(od 0x4000 4, 100)]; let f : Fin 32 := 7; let c := s.dev.chip; let x := c.dma f; decide ((c.dmaState f = 2) ∧ (c.rd (od 0x4000 4) ≠ 0) ∧ (x.written ≠ x.desc.length))) = true ∧
    (let s : State := dch 0 id []; let sess : Fin 9 := 1; let q : Fin 16 := 4; let v : BitVec 32 := 4096; let c := s.dev.chip; decide ((s.accepts sess (cqOd q 1) (.num v.toNat)) ∧ (c.queueBusy q = false))) = true ∧
    (let s : State := dch 2 (fun x => { x with desc := { readDescriptor (descB 0 4096 64) with cq := 4, record := true } }) [(od 0x4000 4, 100)]; let sess : Fin 9 := 1; let q : Fin 16 := 4; let v : BitVec 32 := 4096; let c := s.dev.chip; decide ((s.accepts sess (cqOd q 1) (.num v.toNat)) ∧ (c.queueBusy q = true))) = true ∧
    (let s : State := dch 0 id []; let sess : Fin 9 := 1; let q : Fin 16 := 4; let v : BitVec 32 := 4096; decide (s.accepts sess (cqOd q 4) (.num v.toNat))) = true := by
  decide +kernel

/-- Each clause of OutputPorts has states and operands that meet its hypotheses. -/
theorem witness_OutputPorts :
    (let s : State := oS [] id; let p : Fin 8 := 2; let c := s.dev.chip; let key := fun (sub : Nat) => portOd p.val sub; decide ((c.rd (key 1) ≠ 0) ∧ (c.rd (key 0x10) = 1))) = true ∧
    (let s : State := oS [(portOd 2 0x10, 2)] id; let p : Fin 8 := 2; let c := s.dev.chip; let key := fun (sub : Nat) => portOd p.val sub; decide (c.rd (key 0x10) = 2)) = true ∧
    (let s : State := oS [] id; let p : Fin 8 := 2; let c := s.dev.chip; let key := fun (sub : Nat) => portOd p.val sub; decide (c.rd (key 0x10) ≠ 2)) = true ∧
    (let s : State := oS [(portOd 2 0x10, 2)] id; let p : Fin 8 := 2; let b : List Byte := [1,2,3]; let c := s.dev.chip; let key := fun (sub : Nat) => portOd p.val sub; decide ((c.rd (key 0x10) = 2) ∧ (ptpMessage b = none))) = true ∧
    (let s : State := oS [(od 0x8003 1, 1), (od 0x8003 0x0A, 9), (setOd 3 0, 2), (od 0x8003 4, 4)] id; let n : Fin 256 := 9; let kind : Nat := 1; let f : Nat := 3; let k : Nat := 0; let c := s.dev.chip; let free := c.on (outOd n.val 1) = true ∧ (c.outStream n.val).reading = none; decide ((free) ∧ (c.source n.val = some (kind, f)) ∧ (kind < 4) ∧ (c.nextSet f = some k))) = true ∧
    (let s : State := oS [(od 0x8003 1, 1), (od 0x8003 0x0A, 9), (setOd 3 0, 3), (od 0x8003 4, 4)] (fun c => c.setOutStream 9 { c.outStream 9 with reading := some rdo }); let n : Fin 256 := 9; let r : Readout := rdo; let c := s.dev.chip; decide (((c.outStream n.val).reading = some r) ∧ (r.left = 0) ∧ (r.set_ ≠ 2))) = true ∧
    (let s : State := oS [(od 0x3800 4, 9), (od 0x3800 (0x31+4), 3)] (fun c => ({ c with trigger := { c.trigger with slots := c.trigger.slots.set 4 (some slotZ) } } : Chip).setOutStream 9 { c.outStream 9 with reading := some { rdo with unit := 4, set_ := 2 } }); let n : Fin 256 := 9; let r : Readout := { rdo with unit := 4, set_ := 2 }; let c := s.dev.chip; decide (((c.outStream n.val).reading = some r) ∧ (r.left = 0) ∧ (r.set_ = 2))) = true ∧
    (let s : State := oS [(od 0x3800 6, 256), (outOd 9 2, 2)] (fun c => c.setOutStream 9 { c.outStream 9 with built := [(of1, 3)] }); let p : Fin 8 := 2; let n : Fin 256 := 9; let k : Nat := 3; let o : OutFrame := of1; let l : List (OutFrame × Nat) := []; let c := s.dev.chip; decide ((256 ≤ c.rd (od 0x3800 6)) ∧ (c.role ≠ 1) ∧ ((∀ i ∈ List.range 256, i ≠ n.val → c.offer i = none)) ∧ ((c.outStream n.val).reading = none) ∧ ((c.outStream n.val).built = (o, k) :: l) ∧ (o.launch = none) ∧ (c.rd (outOd n.val 2) = p.val) ∧ ((c.port p.val).next = none))) = true ∧
    (let s : State := oS [(portOd 2 0x10, 2)] (fun c => c.setPort 2 { c.port 2 with next := some of1 }); let p : Fin 8 := 2; let o : OutFrame := of1; let c := s.dev.chip; let key := fun (sub : Nat) => portOd p.val sub; let ready := c.rd (key 0x10) ≠ 0 ∧ (c.port p.val).timed = [] ∧ (c.port p.val).next = some o; decide ((ready) ∧ (c.rd (key 0x10) = 2))) = true ∧
    (let s : State := oS [(portOd 2 0x10, 1)] (fun c => c.setPort 2 { c.port 2 with next := some of1 }); let p : Fin 8 := 2; let o : OutFrame := of1; let c := s.dev.chip; let key := fun (sub : Nat) => portOd p.val sub; let ready := c.rd (key 0x10) ≠ 0 ∧ (c.port p.val).timed = [] ∧ (c.port p.val).next = some o; decide ((ready) ∧ (c.rd (key 0x10) ≠ 2))) = true := by
  decide +kernel

/-- Each clause of TwinOperation has states and operands that meet its hypotheses. -/
theorem witness_TwinOperation :
    (let s : State := twS 0 [] id; let c := s.dev.chip; decide (c.role = 0)) = true ∧
    (let s : State := twS 2 [] id; let c := s.dev.chip; decide ((c.role ≠ 0) ∧ (c.twinBundle.isSome = true))) = true ∧
    (let s : State := twS 1 [] (fun c => { c with twin := { c.twin with seekSince := 700, heard := some 800 } }); let c := s.dev.chip; decide (c.role = 1)) = true ∧
    (let s : State := twS 3 [] (fun c => { c with twin := { c.twin with heard := some 40 }, trigger := { c.trigger with standby := [(⟨List.replicate 16 1, 3⟩, 100)] } }); let h : Nat := 40; let c := s.dev.chip; decide ((c.role = 3 ∨ c.role = 4) ∧ (c.twin.heard = some h))) = true ∧
    (let s : State := twS 2 [] id; let sess : Fin 9 := 1; let c := s.dev.chip; let key := twinOd; decide ((s.accepts sess (key 0x14) (.num 1)) ∧ (c.role = 2))) = true ∧
    (let s : State := twS 3 [] id; let sess : Fin 9 := 1; let c := s.dev.chip; let key := twinOd; decide ((s.accepts sess (key 0x14) (.num 1)) ∧ (c.role ≠ 2))) = true ∧
    (let s : State := (twS 3 [(od 0x5400 3, 1)] id); let b : Fin 256 := 2; let frame : List Byte := (twF 0x15 5 ((beL 12345678 8))); let body : List Byte := bod (twS 3 [(od 0x5400 3, 1)] id) 0x15 (twF 0x15 5 ((beL 12345678 8))); let d : Chip := prt (twS 3 [(od 0x5400 3, 1)] id) 0x15 (twF 0x15 5 ((beL 12345678 8))); let c := s.dev.chip; let heard := fun (type : Nat) => c.twinIn b.val type frame = (d, some body); decide ((heard 0x15) ∧ (d.role = 3))) = true ∧
    (let s : State := twS 2 [] (fun c => { c with twin := { c.twin with swapAt := some 40 } }); let h : Nat := 40; let c := s.dev.chip; decide ((c.twin.swapAt = some h) ∧ (c.role = 2))) = true ∧
    (let s : State := twS 3 [] (fun c => { c with twin := { c.twin with swapAt := some 40 } }); let h : Nat := 40; let c := s.dev.chip; decide ((c.twin.swapAt = some h) ∧ (c.role = 3))) = true ∧
    (let s : State := (twS 3 [(od 0x5400 3, 1)] id); let b : Fin 256 := 2; let frame : List Byte := (twF 0x13 5 ((hbB 2))); let body : List Byte := bod (twS 3 [(od 0x5400 3, 1)] id) 0x13 (twF 0x13 5 ((hbB 2))); let d : Chip := prt (twS 3 [(od 0x5400 3, 1)] id) 0x13 (twF 0x13 5 ((hbB 2))); let c := s.dev.chip; let heard := fun (type : Nat) => c.twinIn b.val type frame = (d, some body); decide ((heard 0x13) ∧ (d.role = 3) ∧ (beAt body 0 1 = 2))) = true ∧
    (let s : State := (twS 1 [(od 0x5400 3, 0)] id); let b : Fin 256 := 2; let frame : List Byte := (twF 0x13 5 ((hbB 1))); let body : List Byte := bod (twS 1 [(od 0x5400 3, 0)] id) 0x13 (twF 0x13 5 ((hbB 1))); let d : Chip := prt (twS 1 [(od 0x5400 3, 0)] id) 0x13 (twF 0x13 5 ((hbB 1))); let c := s.dev.chip; let heard := fun (type : Nat) => c.twinIn b.val type frame = (d, some body); decide ((heard 0x13) ∧ (d.role = 1) ∧ (beAt body 0 1 = 1) ∧ (d.preferred = true))) = true ∧
    (let s : State := (twS 3 [(od 0x5400 3, 1)] id); let b : Fin 256 := 2; let frame : List Byte := (twF 0x12 5 (([1] ++ List.replicate 7 0 ++ (beL 100 8 ++ beL 33 2 ++ List.replicate 6 0)))); let body : List Byte := bod (twS 3 [(od 0x5400 3, 1)] id) 0x12 (twF 0x12 5 (([1] ++ List.replicate 7 0 ++ (beL 100 8 ++ beL 33 2 ++ List.replicate 6 0)))); let d : Chip := prt (twS 3 [(od 0x5400 3, 1)] id) 0x12 (twF 0x12 5 (([1] ++ List.replicate 7 0 ++ (beL 100 8 ++ beL 33 2 ++ List.replicate 6 0)))); let c := s.dev.chip; let heard := fun (type : Nat) => c.twinIn b.val type frame = (d, some body); decide ((heard 0x12) ∧ (d.shadow = true) ∧ (beAt body 0 1 = 1))) = true ∧
    (let s : State := twS 4 [] (fun c => { c with twin := { c.twin with startAt := some 40, runs := [1] } }); let h : Nat := 40; let c := s.dev.chip; decide ((c.twin.startAt = some h) ∧ (c.role ≠ 0))) = true ∧
    (let s : State := (twS 3 [(od 0x5400 3, 1)] id); let b : Fin 256 := 2; let frame : List Byte := (twF 0x10 5 (mwB)); let body : List Byte := bod (twS 3 [(od 0x5400 3, 1)] id) 0x10 (twF 0x10 5 (mwB)); let d : Chip := prt (twS 3 [(od 0x5400 3, 1)] id) 0x10 (twF 0x10 5 (mwB)); let c := s.dev.chip; let heard := fun (type : Nat) => c.twinIn b.val type frame = (d, some body); decide ((heard 0x10) ∧ (d.mirrors = true) ∧ (beAt body 4 4 = 0) ∧ (bitAt (beAt body 3 1) 6 = false))) = true ∧
    (let s : State := (twS 3 [(od 0x5400 3, 1)] id); let b : Fin 256 := 2; let frame : List Byte := (twF 0x11 5 ((List.replicate 20 0))); let body : List Byte := bod (twS 3 [(od 0x5400 3, 1)] id) 0x11 (twF 0x11 5 ((List.replicate 20 0))); let d : Chip := prt (twS 3 [(od 0x5400 3, 1)] id) 0x11 (twF 0x11 5 ((List.replicate 20 0))); let c := s.dev.chip; let heard := fun (type : Nat) => c.twinIn b.val type frame = (d, some body); decide ((heard 0x11) ∧ (d.mirrors = true))) = true ∧
    (let s : State := (twS 4 [(od 0x5400 3, 1)] (fun c => { c with twin := { c.twin with snapshot := true } })); let b : Fin 256 := 2; let frame : List Byte := (twF 0x14 5 (snapB)); let body : List Byte := bod (twS 4 [(od 0x5400 3, 1)] (fun c => { c with twin := { c.twin with snapshot := true } })) 0x14 (twF 0x14 5 (snapB)); let d : Chip := prt (twS 4 [(od 0x5400 3, 1)] (fun c => { c with twin := { c.twin with snapshot := true } })) 0x14 (twF 0x14 5 (snapB)); let c := s.dev.chip; let heard := fun (type : Nat) => c.twinIn b.val type frame = (d, some body); decide ((heard 0x14) ∧ (d.role = 4) ∧ (d.twin.snapshot = true) ∧ (beAt body 0 1 = 1))) = true := by
  decide +kernel

/-- Each clause of QualifiedCandidates has states and operands that meet its hypotheses. -/
theorem witness_QualifiedCandidates :
    (let s : State := clk 3 [] id; let k : Fin 7 := 0; let raw : Int := 1000; let c := s.dev.chip; let d := c.untilLc ((c.cand k).gateAt + c.rd (od 0x4800 0x12) * 1000000); let y := if k = 6 then d.ptpOffset else raw + d.xoError; decide ((c.rd (od (0x4810 + k.val) 1) = 1) ∧ (c.candActive k = true) ∧ (2 ≤ c.candState k) ∧ (d.candActive k = true) ∧ (y.natAbs ≤ c.rd (od (0x4810 + k.val) 6)))) = true := by
  decide +kernel

end Sys2Proof.Tests
end

section
/-! SUPPORT. The CRC-32 of R88: the model's byte-wise register, which shifts towards its low end, is the reflection of
the register of the statement, which takes one message bit at a time and shifts towards its high end. -/

namespace Sys2Proof.Machine

/-! ### Reflection of a register -/

theorem reverse_xor {w : Nat} (x y : BitVec w) : (x ^^^ y).reverse = x.reverse ^^^ y.reverse := by
  ext i hi
  simp [BitVec.getElem_reverse, BitVec.getMsbD_xor]

theorem reverse_shiftLeft_one {w : Nat} (x : BitVec w) : (x <<< 1).reverse = x.reverse >>> 1 := by
  ext i hi
  simp [BitVec.getElem_reverse, BitVec.getMsbD_shiftLeft, BitVec.getLsbD_reverse, Nat.add_comm]

theorem getLsbD_zero_reverse {w : Nat} (x : BitVec w) : x.reverse.getLsbD 0 = x.msb := by
  rw [BitVec.getLsbD_reverse, BitVec.msb_eq_getMsbD_zero]

/-! ### One message bit -/

/-- The statement's step: one message bit against the top of the register, which shifts up (polynomial 0x04C11DB7). -/
def crcFeed (r : BitVec 32) (bit : Bool) : BitVec 32 :=
  if r.msb == bit then r <<< 1 else (r <<< 1) ^^^ 0x04C11DB7#32

/-- Its mirror image: one message bit against the bottom of the register, which shifts down (the polynomial reflected). -/
def crcFeedLow (c : BitVec 32) (bit : Bool) : BitVec 32 :=
  if c.getLsbD 0 == bit then c >>> 1 else (c >>> 1) ^^^ 0xEDB88320#32

theorem reverse_crcPolynomial : (0x04C11DB7#32).reverse = 0xEDB88320#32 := by decide +kernel

theorem reverse_crcFeed (r : BitVec 32) (bit : Bool) : (crcFeed r bit).reverse = crcFeedLow r.reverse bit := by
  unfold crcFeed crcFeedLow
  rw [getLsbD_zero_reverse]
  split
  · exact reverse_shiftLeft_one r
  · rw [reverse_xor, reverse_shiftLeft_one, reverse_crcPolynomial]

/-- The reflections of the two registers stay equal along a whole message. -/
theorem reverse_foldl_crcFeed (bits : List Bool) (r : BitVec 32) :
    (bits.foldl crcFeed r).reverse = bits.foldl crcFeedLow r.reverse :=
  (List.foldl_hom BitVec.reverse fun c bit => (reverse_crcFeed c bit).symm).symm

/-! ### One byte -/

/-- Bits that stand above the lowest pass through a step of the model's CRC unchanged, one place lower; the lowest one
is entered as a message bit. -/
theorem crcBit_xor (c y : BitVec 32) : crcBit (c ^^^ y) = crcFeedLow c (y.getLsbD 0) ^^^ (y >>> 1) := by
  unfold crcBit crcFeedLow
  rw [BitVec.getLsbD_xor, BitVec.ushiftRight_xor_distrib]
  by_cases h : c.getLsbD 0 = y.getLsbD 0
  · rw [h, Bool.xor_self, if_neg Bool.false_ne_true, if_pos BEq.rfl]
  · have hbit : (c.getLsbD 0 ^^ y.getLsbD 0) = true := by simpa using h
    rw [if_pos hbit, if_neg (by simpa using h)]
    ac_rfl

/-- `n` steps of the model's CRC enter the `n` low bits of a string of bits XORed into the register beforehand. -/
theorem iterate_crcBit_xor (c y : BitVec 32) (n : Nat) :
    crcBit^[n] (c ^^^ y) = ((List.range n).map y.getLsbD).foldl crcFeedLow c ^^^ (y >>> n) := by
  induction n with
  | zero => simp
  | succ n ih =>
    rw [Function.iterate_succ_apply', ih, crcBit_xor, ← BitVec.shiftRight_add, BitVec.getLsbD_ushiftRight]
    simp [List.range_succ]

/-- The bits of a byte in the order in which they enter the CRC, bit 0 first. -/
def crcBits (x : Byte) : List Bool := (List.range 8).map fun i => x.getLsbD i

theorem crcByte_eq_foldl_crcBits (c : BitVec 32) (x : Byte) : crcByte c x = (crcBits x).foldl crcFeedLow c := by
  have hbits : (List.range 8).map (x.setWidth 32).getLsbD = crcBits x := by
    refine List.map_congr_left fun i hi => ?_
    have hi32 : i < 32 := (List.mem_range.mp hi).trans (by decide)
    simp [hi32]
  have hnone : x.setWidth 32 >>> 8 = 0#32 := by
    ext i hi
    simp [BitVec.getLsbD_of_ge]
  calc crcByte c x = crcBit^[8] (c ^^^ x.setWidth 32) := rfl
    _ = (crcBits x).foldl crcFeedLow c := by rw [iterate_crcBit_xor, hbits, hnone, BitVec.xor_zero]

/-! ### The byte string -/

theorem foldl_crcByte_eq_reverse (b : List Byte) :
    b.foldl crcByte 0xFFFFFFFF#32 = ((b.flatMap crcBits).foldl crcFeed 0xFFFFFFFF#32).reverse := by
  have hones : (0xFFFFFFFF#32).reverse = 0xFFFFFFFF#32 := by decide +kernel
  rw [reverse_foldl_crcFeed, hones, List.foldl_flatMap]
  simp only [← crcByte_eq_foldl_crcBits]

/-- R88's check value, over the ASCII bytes of "123456789". -/
theorem crc32_checkValue : crc32 [0x31, 0x32, 0x33, 0x34, 0x35, 0x36, 0x37, 0x38, 0x39] = 0xCBF43926 := by
  decide +kernel

/-- Settles O55: the model's register is at every bit the reflection of the statement's (`reverse_crcFeed`), and its
eight steps for a byte enter the byte's bits in order (`crcByte_eq_foldl_crcBits`). -/
theorem crcIsReflected : Obligations.CrcIsReflected := by
  unfold Obligations.CrcIsReflected
  intro b
  refine ⟨?_, crc32_checkValue⟩
  unfold crc32
  rw [foldl_crcByte_eq_reverse]
  rfl

end Sys2Proof.Machine
end

section
/-! SUPPORT. The delay slots of R309: a branch that a quiet setter issues leaves nothing else under way, two instructions
of other classes pass through its slots, and one that R309 bars from a slot takes its fault there. -/

namespace Sys2Proof.Machine

/-! ### NOP and the instructions of R309, each by its meaning -/

section
variable (n : Fin 8) (cond pn : Fin 16) (target e k : BitVec 16) (src : Bool) (w : Fin 64) (rot : Fin 4) (no : BitVec 8)
  (s : State)

theorem exec_nop : exec (.nop n) s = execNop n s := rfl
theorem exec_br : exec (.br n cond target) s = execBr n cond target s := rfl
theorem exec_bri : exec (.bri n cond pn) s = execBri n cond pn s := rfl
theorem exec_call : exec (.call n cond target) s = execCall n cond target s := rfl
theorem exec_calli : exec (.calli n cond pn) s = execCalli n cond pn s := rfl
theorem exec_ret : exec (.ret n cond) s = execRet n cond s := rfl
theorem exec_rti : exec (.rti n) s = execRti n s := rfl
theorem exec_trap : exec (.trap n no) s = execTrap n no s := rfl
theorem exec_loop : exec (.loop n src rot w e k) s = execLoop n src rot w e k s := rfl
theorem exec_rpt : exec (.rpt n src w k) s = execRpt n src w k s := rfl

end

/-! ### A setter with nothing under way but perhaps a branch -/

/-- The core runs with an empty pipeline and no far load, repeat, loop or map change under way; a branch may be. -/
structure Setter.QuietButBranch (x : Setter) : Prop where
  mode : x.mode = .running
  syncing : x.syncing = false
  flight : x.flight = []
  farLoads : x.farLoads = []
  rptcnt : x.rptcnt = 0
  looping : x.looping = false
  lpHit : x.lpHit = false
  remap : x.remap = none

/-- Setter `n`'s clock runs, and its core is quiet but perhaps for a branch. -/
structure State.QuietButBranch (s : State) (n : Fin 8) : Prop where
  clock : s.dev.chip.domClock (78 + n.val) = true
  core : (s.dev.cores[n]).QuietButBranch

theorem State.quiet.quietButBranch {s : State} {n : Fin 8} (h : s.quiet n) : s.QuietButBranch n := by
  obtain ⟨hclock, hmode, hsync, hflight, hfar, -, hrpt, hloop, hhit, hremap⟩ := h
  exact ⟨hclock, hmode, hsync, hflight, hfar, hrpt, hloop, hhit, hremap⟩

/-- The state with setter `n`'s core as given. -/
def State.putCore (s : State) (n : Fin 8) (x : Setter) : State :=
  { s with dev := { s.dev with cores := s.dev.cores.set n x } }

@[simp] theorem State.putCore_chip (s : State) (n : Fin 8) (x : Setter) : (s.putCore n x).dev.chip = s.dev.chip := rfl

@[simp] theorem State.putCore_same (s : State) (n : Fin 8) (x : Setter) : (s.putCore n x).dev.cores[n] = x := by
  simp [State.putCore]

theorem State.QuietButBranch.putCore {s : State} {n : Fin 8} {x : Setter} (h : s.QuietButBranch n)
    (hx : x.QuietButBranch) : (s.putCore n x).QuietButBranch n :=
  ⟨h.clock, by rwa [State.putCore_same]⟩

namespace State.QuietButBranch

variable {s : State} {n : Fin 8} (h : s.QuietButBranch n)
include h

theorem ready : Machine.ready s.dev.chip n s.dev.cores[n] = true := by
  unfold Machine.ready
  rw [h.clock, h.core.mode, h.core.syncing]
  rfl

theorem not_interlocked (reads : List (Fin 64)) : interlocked s.dev.cores[n] reads = false := by
  unfold interlocked
  rw [h.core.farLoads]
  simp

/-- No loop-back is due before its next instruction. -/
theorem loopBack_running :
    ({ s.dev.cores[n] with mode := .running, syncing := false } : Setter).loopBack = s.dev.cores[n] := by
  rw [running_eta _ h.core.mode h.core.syncing, loopBack_of_not_hit _ h.core.lpHit]

/-- Nothing lands before it, and the repeat cache copies nothing. -/
theorem advance_copied : (s.dev.cores[n]).advance.copied = s.dev.cores[n] := by
  rw [advance_of_empty _ h.core.flight, copied_of_not_looping _ h.core.looping]

/-- A NOP only ends: it is of no class that R309 bars from a delay slot. -/
theorem exec_nop_eq_finish : exec (.nop n) s =
    .next (s.putCore n (finish s.dev.cores[n] (s.dev.cores[n]).pc none false 0)) := by
  rw [exec_nop]
  unfold execNop instruction
  simp only []
  rw [h.ready, h.loopBack_running, h.not_interlocked, h.advance_copied, h.core.rptcnt]
  simp [Shape.plainControl, Effect.plain, State.putCore]

/-- An instruction that R309 bars from a delay slot takes the fault ILLEGAL while a branch is under way. -/
theorem instruction_noSlot {sh : Shape} (hsh : sh.noSlot = true) (hb : (s.dev.cores[n]).branch.isSome = true)
    (reads : Setter → List (Fin 64)) (body : Chip → Setter → Effect) :
    ∃ t, instruction s n sh reads body = .next t ∧
      t.dev.cores[n] = (takeFault s.dev.chip n s.dev.cores[n] 1 0).2 := by
  unfold instruction
  simp only []
  rw [h.ready, h.loopBack_running, h.not_interlocked, h.advance_copied, h.core.rptcnt, hsh, hb]
  simp

end State.QuietButBranch

/-! ### The end of an instruction in a delay slot -/

/-- After the first delay slot the second is left. -/
theorem finish_firstSlot {x : Setter} (h : x.QuietButBranch) {b : Branch} (hb : x.branch = some b) (hslots : b.slots = 2)
    (a : BitVec 16) : finish x a none false 0 =
      { x with branch := some { b with slots := 1 }, pc := a + 1, cyc := x.cyc + 1 } := by
  obtain ⟨-, -, -, -, hrpt, hloop, hhit, hremap⟩ := h
  cases x
  simp_all [finish]

/-- After the second delay slot no branch is under way, and the next fetch is the target of a branch that is taken. -/
theorem finish_secondSlot {x : Setter} (h : x.QuietButBranch) {b : Branch} (hb : x.branch = some b) (hslots : b.slots = 1)
    (a : BitVec 16) : (finish x a none false 0).pc = (if b.taken then b.target else a + 1) ∧
      (finish x a none false 0).branch = none := by
  cases htaken : b.taken <;> cases hrti : b.rti <;>
    simp [finish, h.rptcnt, h.looping, h.remap, hb, hslots, htaken, hrti]

theorem enter_fault_of_empty {x : Setter} (h : x.flight = []) (v : Nat) (ret : BitVec 16) :
    (x.enter v ret).fault = x.fault := by
  simp [Setter.enter, flush_of_empty x h]

/-- A fault entered with FIP clear and nothing in flight sets FIP and tells its cause and address. -/
theorem enterFault_of_not_fip {x : Setter} (hfip : x.fip = false) (hflight : x.flight = []) (c : Chip) (n : Fin 8)
    (cause : BitVec 8) (faddr : BitVec 40) (a : BitVec 16) :
    (enterFault c n x cause faddr a).2.fip = true ∧
      (enterFault c n x cause faddr a).2.fault = BitVec.ofNat 32 (a.toNat * 2 ^ 16 + cause.toNat) := by
  simp [enterFault, hfip, enter_fault_of_empty, hflight]

/-- The fault of an instruction in the first delay slot, FIP clear, sets FIP and tells the instruction's own address. -/
theorem takeFault_firstSlot {x : Setter} (h : x.QuietButBranch) {b : Branch} (hb : x.branch = some b)
    (hslots : b.slots = 2) (hfip : x.fip = false) (c : Chip) (n : Fin 8) (cause : BitVec 8) (faddr : BitVec 40) :
    (takeFault c n x cause faddr).2.fip = true ∧
      (takeFault c n x cause faddr).2.fault = BitVec.ofNat 32 (x.pc.toNat * 2 ^ 16 + cause.toNat) := by
  have hrpt : ({ x with rptcnt := 0 } : Setter) = x := by
    rw [← h.rptcnt]
  unfold takeFault
  rw [if_neg (by simp [hfip]), hrpt, finish_firstSlot h hb hslots, loopBack_of_not_hit]
  · refine enterFault_of_not_fip ?_ ?_ ..
    · exact hfip
    · exact h.flight
  · exact h.lpHit

/-! ### A branch issued -/

/-- Instruction `i` of setter `n` issues a branch: in the state `t` after it the setter is at the next address, with two
delay slots to run before it goes on at `goal`, and with nothing else under way. -/
structure IssuesBranch (i : Instr) (s : State) (n : Fin 8) (goal : BitVec 16) (t : State) : Prop where
  exec_eq : exec i s = .next t
  quiet : t.QuietButBranch n
  pc : (t.dev.cores[n]).pc = (s.dev.cores[n]).pc + 1
  fip : (t.dev.cores[n]).fip = (s.dev.cores[n]).fip
  branch : ∃ b, (t.dev.cores[n]).branch = some b ∧ b.slots = 2 ∧
    goal = if b.taken then b.target else (s.dev.cores[n]).pc + 3

/-- What a branch instruction does to its core: the branch, LR and SR. -/
def Setter.issued (x : Setter) (b : Branch) (lr : BitVec 16) (sr : BitVec 32) : Setter :=
  { x with branch := some b, lr := lr, sr := sr }

/-- The branch of a conditional branch to `target`: one that is not taken has delay slots too (R309). -/
def condIssue (x : Setter) (target : BitVec 16) (pops taken : Bool) : Branch :=
  if taken then ⟨target, 2, true, false, pops⟩ else ⟨x.pc + 3, 2, false, false, false⟩

theorem condBranch_eq_issued {x : Setter} {cond : Fin 16} {taken : Bool} (hc : condHolds x.sr cond = some taken)
    (target : BitVec 16) (pops link : Bool) (c : Chip) : condBranch cond target pops link c x =
      ⟨c, x.issued (condIssue x target pops taken) (if taken && link then x.pc + 3 else x.lr) x.sr, none, true, 0, none⟩ := by
  cases taken <;> cases link <;> simp [condBranch, hc, Setter.issued, condIssue, issueNotTaken, issueBranch]

/-- The end of a branch instruction: the next address, with the branch under way. -/
theorem finish_issued {x : Setter} (h : x.QuietButBranch) (b : Branch) (lr : BitVec 16) (sr : BitVec 32) :
    finish (x.issued b lr sr) x.pc none true 0 = { x.issued b lr sr with pc := x.pc + 1, cyc := x.cyc + 1 } := by
  obtain ⟨-, -, -, -, -, hloop, hhit, hremap⟩ := h
  cases x
  simp_all [finish, Setter.issued]

section
variable {s : State} {n : Fin 8} (h : s.quiet n)
include h

/-- An instruction whose effect is to issue a branch with two slots issues it. -/
theorem issuesBranch_of_body {i : Instr} {sh : Shape} {reads : Setter → List (Fin 64)} {body : Chip → Setter → Effect}
    (hi : exec i s = instruction s n sh reads body) {b : Branch} (hslots : b.slots = 2) {lr : BitVec 16} {sr : BitVec 32}
    (hbody : body s.dev.chip s.dev.cores[n] = ⟨s.dev.chip, (s.dev.cores[n]).issued b lr sr, none, true, 0, none⟩) :
    ∃ t, IssuesBranch i s n (if b.taken then b.target else (s.dev.cores[n]).pc + 3) t := by
  have hq := h.quietButBranch
  obtain ⟨hmode, hsync, hflight, hfar, hrpt, hloop, hhit, hremap⟩ := hq.core
  have hfinish := finish_issued hq.core b lr sr
  refine ⟨s.putCore n (finish ((s.dev.cores[n]).issued b lr sr) (s.dev.cores[n]).pc none true 0), ?_, ?_, ?_, ?_, b, ?_⟩
  · rw [hi, instruction_quiet s n h, hbody]
    rfl
  · rw [hfinish]
    exact hq.putCore ⟨hmode, hsync, hflight, hfar, hrpt, hloop, hhit, hremap⟩
  all_goals rw [hfinish, State.putCore_same]
  · rfl
  · exact ⟨rfl, hslots, rfl⟩

/-- A conditional branch goes on at its target if the condition holds, else after its delay slots. -/
theorem issuesBranch_of_condBranch {cond : Fin 16} {taken : Bool} (hc : condHolds (s.dev.cores[n]).sr cond = some taken)
    {i : Instr} {sh : Shape} {reads : Setter → List (Fin 64)} {target : Setter → BitVec 16} {pops link : Bool}
    (hi : exec i s = instruction s n sh reads fun c x => condBranch cond (target x) pops link c x) :
    ∃ t, IssuesBranch i s n (if taken then target s.dev.cores[n] else (s.dev.cores[n]).pc + 3) t := by
  have hissue := issuesBranch_of_body h hi (b := condIssue s.dev.cores[n] (target s.dev.cores[n]) pops taken)
    (by cases taken <;> rfl) (condBranch_eq_issued hc ..)
  cases taken <;> exact hissue

/-- RTI goes on at IRET. -/
theorem issuesBranch_rti : ∃ t, IssuesBranch (.rti n) s n (s.dev.cores[n]).iret t :=
  issuesBranch_of_body h (exec_rti n s) (b := ⟨(s.dev.cores[n]).iret, 2, true, true, true⟩) rfl rfl

end

/-! ### What may follow it -/

namespace IssuesBranch

variable {i : Instr} {s t : State} {n : Fin 8} {goal : BitVec 16} (h : IssuesBranch i s n goal t)
include h

/-- Two NOPs run in the delay slots, and the setter then goes on at the branch's goal. -/
theorem runs_slots : ∃ s1 s2 s3, exec i s = .next s1 ∧ exec (.nop n) s1 = .next s2 ∧ exec (.nop n) s2 = .next s3 ∧
    (s1.dev.cores[n]).pc = (s.dev.cores[n]).pc + 1 ∧ (s2.dev.cores[n]).pc = (s.dev.cores[n]).pc + 2 ∧
    (s3.dev.cores[n]).pc = goal ∧ (s3.dev.cores[n]).branch = none := by
  obtain ⟨hexec, hq, hpc, -, b, hb, hslots, hgoal⟩ := h
  have hfirst := finish_firstSlot hq.core hb hslots (t.dev.cores[n]).pc
  obtain ⟨hmode, hsync, hflight, hfar, hrpt, hloop, hhit, hremap⟩ := hq.core
  have hcore2 : (finish t.dev.cores[n] (t.dev.cores[n]).pc none false 0).QuietButBranch := by
    rw [hfirst]
    exact ⟨hmode, hsync, hflight, hfar, hrpt, hloop, hhit, hremap⟩
  refine ⟨t, _, _, hexec, hq.exec_nop_eq_finish, (hq.putCore hcore2).exec_nop_eq_finish, hpc, ?_⟩
  rw [hfirst] at hcore2
  obtain ⟨hpc3, hb3⟩ := finish_secondSlot hcore2 rfl rfl ((t.dev.cores[n]).pc + 1)
  rw [State.putCore_same, State.putCore_same, hfirst]
  refine ⟨?_, ?_, hb3⟩
  · rw [hpc, BitVec.add_assoc]
    rfl
  · rw [hpc3, hgoal, hpc, BitVec.add_assoc, BitVec.add_assoc]
    rfl

/-- An instruction barred from delay slots, FIP clear, is ILLEGAL at the address of the first slot. -/
theorem noSlot_illegal (hfip : (s.dev.cores[n]).fip = false) {j : Instr} {sh : Shape} (hsh : sh.noSlot = true)
    {reads : Setter → List (Fin 64)} {body : Chip → Setter → Effect} (hj : exec j t = instruction t n sh reads body) :
    ∃ u, exec j t = .next u ∧ (u.dev.cores[n]).fip = true ∧
      (u.dev.cores[n]).fault = BitVec.ofNat 32 (((s.dev.cores[n]).pc + 1).toNat * 2 ^ 16 + 1) := by
  obtain ⟨-, hq, hpc, hfipt, b, hb, hslots, -⟩ := h
  obtain ⟨u, hu, hcore⟩ := hq.instruction_noSlot hsh (by rw [hb]; rfl) reads body
  obtain ⟨hfipu, hfault⟩ := takeFault_firstSlot hq.core hb hslots (hfipt.trans hfip) t.dev.chip n 1 0
  rw [hpc] at hfault
  exact ⟨u, hj.trans hu, by rw [hcore, hfipu], by rw [hcore, hfault]; rfl⟩

/-- Each instruction that R309 names is ILLEGAL in the first slot. -/
theorem slot_illegal (hfip : (s.dev.cores[n]).fip = false) (j : Instr) (cond pn : Fin 16) (target e k : BitVec 16)
    (src : Bool) (w : Fin 64) (rot : Fin 4) (no : BitVec 8)
    (hj : j ∈ [Instr.br n cond target, .bri n cond pn, .call n cond target, .calli n cond pn, .ret n cond, .rti n,
      .trap n no, .loop n src rot w e k, .rpt n src w k]) :
    ∃ u, exec j t = .next u ∧ (u.dev.cores[n]).fip = true ∧
      (u.dev.cores[n]).fault = BitVec.ofNat 32 (((s.dev.cores[n]).pc + 1).toNat * 2 ^ 16 + 1) := by
  simp only [List.mem_cons, List.not_mem_nil, or_false] at hj
  obtain rfl | rfl | rfl | rfl | rfl | rfl | rfl | rfl | rfl := hj
  exacts [h.noSlot_illegal hfip rfl (exec_br ..), h.noSlot_illegal hfip rfl (exec_bri ..),
    h.noSlot_illegal hfip rfl (exec_call ..), h.noSlot_illegal hfip rfl (exec_calli ..),
    h.noSlot_illegal hfip rfl (exec_ret ..), h.noSlot_illegal hfip rfl (exec_rti ..),
    h.noSlot_illegal hfip rfl (exec_trap ..), h.noSlot_illegal hfip rfl (exec_loop ..),
    h.noSlot_illegal hfip rfl (exec_rpt ..)]

end IssuesBranch

/-- Settles O24: each of the six issues a branch with two delay slots (`IssuesBranch`), which two NOPs run through
(`runs_slots`) and in the first of which the instructions that R309 names fault (`slot_illegal`). -/
theorem delaySlots : Obligations.DelaySlots := by
  unfold Obligations.DelaySlots
  intro s n cond pn target c h hfip hc
  obtain ⟨sbr, hbr⟩ := issuesBranch_of_condBranch h hc (target := fun _ => target) (exec_br ..)
  obtain ⟨sbri, hbri⟩ := issuesBranch_of_condBranch h hc (target := fun x => x.p[pn].setWidth 16) (exec_bri ..)
  obtain ⟨scall, hcall⟩ := issuesBranch_of_condBranch h hc (target := fun _ => target) (exec_call ..)
  obtain ⟨scalli, hcalli⟩ :=
    issuesBranch_of_condBranch h hc (target := fun x => x.p[pn].setWidth 16) (exec_calli ..)
  obtain ⟨sret, hret⟩ := issuesBranch_of_condBranch h hc (target := fun x => x.lr) (exec_ret ..)
  obtain ⟨srti, hrti⟩ := issuesBranch_rti h
  refine ⟨hbr.runs_slots, hbri.runs_slots, hcall.runs_slots, hcalli.runs_slots, hret.runs_slots, hrti.runs_slots, ?_⟩
  intro i hi s1 hs1 j cond' pn' t' e k src w rot no hj
  have hissue : ∃ goal t, IssuesBranch i s n goal t := by
    simp only [List.mem_cons, List.not_mem_nil, or_false] at hi
    obtain rfl | rfl | rfl | rfl | rfl | rfl := hi
    exacts [⟨_, _, hbr⟩, ⟨_, _, hbri⟩, ⟨_, _, hcall⟩, ⟨_, _, hcalli⟩, ⟨_, _, hret⟩, ⟨_, _, hrti⟩]
  obtain ⟨goal, t, ht⟩ := hissue
  obtain rfl : t = s1 := by simpa [ht.exec_eq] using hs1
  exact ht.slot_illegal hfip j cond' pn' t' e k src w rot no hj

end Sys2Proof.Machine
end

section
/-! SUPPORT. The qualification of reference candidates (R400): what of the chip it depends on, and that neither the passing of time, nor
reports and records, nor the selector change any of it. -/

namespace Sys2Proof.Machine

/-! ### What a candidate stands on -/

/-- The key of an object of a lane (OD 2100 to 22FF), or of one of the given subindices of a candidate (OD 4810 to 4816). -/
def CandKey (subs : List Nat) (j : Nat) : Prop :=
  (0x2100 ≤ keyIndex j ∧ keyIndex j < 0x2300) ∨ (0x4810 ≤ keyIndex j ∧ keyIndex j < 0x4817 ∧ keySub j ∈ subs)

/-- The subindices that qualification depends on (R394, R396, R400): enable, lane, assigned QL, received QL. -/
def qualSubs : List Nat := [0x01, 0x04, 0x05, 0x12]

/-- The subindices that the end of a gate reads: those of qualification, the soft threshold and the candidate's state. -/
def gateSubs : List Nat := [0x01, 0x04, 0x05, 0x06, 0x10, 0x12]

theorem keyIndex_od {idx sub : Nat} (h : sub < 256) : keyIndex (od idx sub) = idx := by
  unfold keyIndex od
  omega

theorem keySub_od {idx sub : Nat} (h : sub < 256) : keySub (od idx sub) = sub := by
  unfold keySub od
  omega

/-- An object of another index is none of them. -/
theorem not_candKey_od {subs : List Nat} {idx sub : Nat} (hsub : sub < 256)
    (hidx : idx < 0x2100 ∨ (0x2300 ≤ idx ∧ idx < 0x4810) ∨ 0x4817 ≤ idx) : ¬ CandKey subs (od idx sub) := by
  unfold CandKey
  rw [keyIndex_od hsub]
  omega

theorem not_candKey_candOd {subs : List Nat} {i : Fin 7} {sub : Nat} (hsub : sub < 256) (h : sub ∉ subs) :
    ¬ CandKey subs (candOd i sub) := by
  unfold CandKey candOd
  rw [keyIndex_od hsub, keySub_od hsub]
  rintro (⟨-, hlane⟩ | ⟨-, -, hmem⟩)
  · omega
  · exact h hmem

theorem candKey_candOd {subs : List Nat} {i : Fin 7} {sub : Nat} (hsub : sub < 256) (h : sub ∈ subs) :
    CandKey subs (candOd i sub) := by
  unfold CandKey candOd
  rw [keyIndex_od hsub, keySub_od hsub]
  exact .inr ⟨by omega, by omega, h⟩

theorem candKey_lane {subs : List Nat} {l sub : Nat} (hsub : sub < 256) (h : l < 512) :
    CandKey subs (od (0x2100 + l) sub) := by
  unfold CandKey
  rw [keyIndex_od hsub]
  omega

/-- What of a candidate beside its objects its qualification depends on: its edges, its disqualification, its first gate. -/
def Candidate.standing (x : Candidate) : Bool × Bool × Bool := (x.edges, x.disq, x.gated)

/-- From chip `c` to chip `d` the objects of `CandKey subs`, the time views and the standing of candidate `k` stay as they were. -/
structure KeepsCandidate (subs : List Nat) (k : Fin 7) (c d : Chip) : Prop where
  rd : ∀ j, CandKey subs j → d.rd j = c.rd j
  time : d.time = c.time
  standing : (d.cand k).standing = (c.cand k).standing

namespace KeepsCandidate

variable {subs : List Nat} {k : Fin 7} {c d : Chip}

theorem refl : KeepsCandidate subs k c c := ⟨fun _ _ => rfl, rfl, rfl⟩

theorem trans {e : Chip} (h : KeepsCandidate subs k c d) (h' : KeepsCandidate subs k d e) : KeepsCandidate subs k c e :=
  ⟨fun j hj => (h'.rd j hj).trans (h.rd j hj), h'.time.trans h.time, h'.standing.trans h.standing⟩

theorem mono {subs' : List Nat} (hsub : subs' ⊆ subs) (h : KeepsCandidate subs k c d) : KeepsCandidate subs' k c d :=
  ⟨fun j hj => h.rd j (hj.imp_right fun ⟨hlo, hhi, hmem⟩ => ⟨hlo, hhi, hsub hmem⟩), h.time, h.standing⟩

/-- A fold of updates that each keep the candidate keeps it. -/
theorem foldl {α : Type} {f : Chip → α → Chip} (hf : ∀ a x, KeepsCandidate subs k a (f a x)) (l : List α)
    (h : KeepsCandidate subs k c d) : KeepsCandidate subs k c (l.foldl f d) := by
  induction l generalizing d with
  | nil => exact h
  | cons x t ih => exact ih (h.trans (hf d x))

/-! ### What it tells of the candidate -/

theorem edges (h : KeepsCandidate subs k c d) : (d.cand k).edges = (c.cand k).edges := congrArg (·.1) h.standing

theorem disq (h : KeepsCandidate subs k c d) : (d.cand k).disq = (c.cand k).disq := congrArg (·.2.1) h.standing

theorem gated (h : KeepsCandidate subs k c d) : (d.cand k).gated = (c.cand k).gated := congrArg (·.2.2) h.standing

section
variable (h : KeepsCandidate qualSubs k c d)
include h

theorem on : d.on (candOd k 0x01) = c.on (candOd k 0x01) := by
  unfold Chip.on
  rw [h.rd _ (candKey_candOd (by decide) (by decide))]

theorem effectiveQl : d.effectiveQl k = c.effectiveQl k := by
  unfold Chip.effectiveQl
  rw [h.rd _ (candKey_candOd (by decide) (by decide : 0x12 ∈ qualSubs)),
    h.rd _ (candKey_candOd (by decide) (by decide : 0x05 ∈ qualSubs))]

/-- A REF pin's activity is its edges, a lane's is the lane's state, a time view's is the view's status (R394, R395). -/
theorem candActive : d.candActive k = c.candActive k := by
  have hlane : d.rd (candOd k 0x04) = c.rd (candOd k 0x04) := h.rd _ (candKey_candOd (by decide) (by decide))
  unfold Chip.candActive Chip.viewStatus
  simp only [h.edges, hlane, h.time]
  by_cases hl : c.rd (candOd k 0x04) < 512
  · rw [h.rd _ (candKey_lane (by decide) hl)]
  · simp only [hl, decide_false, Bool.false_and]

theorem candQualified : d.candQualified k = c.candQualified k := by
  unfold Chip.candQualified
  rw [h.on, h.candActive, h.effectiveQl, h.disq, h.gated]

end

theorem qual (h : KeepsCandidate gateSubs k c d) : KeepsCandidate qualSubs k c d := h.mono (by decide)

theorem candState (h : KeepsCandidate gateSubs k c d) : d.candState k = c.candState k :=
  h.rd _ (candKey_candOd (by decide) (by decide))

theorem softThreshold (h : KeepsCandidate gateSubs k c d) : d.rd (candOd k 0x06) = c.rd (candOd k 0x06) :=
  h.rd _ (candKey_candOd (by decide) (by decide))

/-! ### Objects, reports and records -/

theorem wr {j v : Nat} (h : KeepsCandidate subs k c d) (hj : ¬ CandKey subs j) : KeepsCandidate subs k c (d.wr j v) :=
  h.trans ⟨fun _ hi => Chip.wr_rd_ne d j v fun e => hj (e ▸ hi), rfl, rfl⟩

theorem bump {j n : Nat} (h : KeepsCandidate subs k c d) (hj : ¬ CandKey subs j) : KeepsCandidate subs k c (d.bump j n) := by
  unfold Chip.bump
  split
  · exact h
  · exact h.wr hj

theorem wrClk {sub v : Nat} (h : KeepsCandidate subs k c d) (hsub : sub < 256 := by decide) :
    KeepsCandidate subs k c (d.wr (clkOd sub) v) :=
  h.wr (not_candKey_od hsub (by decide))

theorem bumpClk {sub n : Nat} (h : KeepsCandidate subs k c d) (hsub : sub < 256 := by decide) :
    KeepsCandidate subs k c (d.bump (clkOd sub) n) :=
  h.bump (not_candKey_od hsub (by decide))

theorem send {x : Sent} (h : KeepsCandidate subs k c d) : KeepsCandidate subs k c (d.send x) := h.trans ⟨fun _ _ => rfl, rfl, rfl⟩

theorem irq {n : Nat} (h : KeepsCandidate subs k c d) : KeepsCandidate subs k c (d.irq n) := h.trans ⟨fun _ _ => rfl, rfl, rfl⟩

theorem event {type : Nat} {payload : List Byte} (h : KeepsCandidate subs k c d) : KeepsCandidate subs k c (d.event type payload) := by
  have hcount (sub : Nat) (hsub : sub < 256) : ¬ CandKey subs (od 0x1300 sub) := not_candKey_od hsub (by decide)
  have hring (x : Dict) : KeepsCandidate subs k c { d with dict := x } := h.trans ⟨fun _ _ => rfl, rfl, rfl⟩
  unfold Chip.event
  extract_lets
  split
  · exact (((hring _).bump (hcount 6 (by decide))).send).bump (hcount 7 (by decide))
  · exact (hring _).bump (hcount 6 (by decide))

theorem fault {sev : Severity} {kind : FaultKind} {object old new detail : Nat} (h : KeepsCandidate subs k c d) :
    KeepsCandidate subs k c (d.fault sev kind object old new detail) := by
  have hcount (sub : Nat) (hsub : sub < 256) : ¬ CandKey subs (od 0x5800 sub) := not_candKey_od hsub (by decide)
  have hlog (x : FaultLog) : KeepsCandidate subs k c { d with faults := x } := h.trans ⟨fun _ _ => rfl, rfl, rfl⟩
  unfold Chip.fault
  cases sev with
  | note => exact (((hlog _).bump (hcount _ (by decide))).bump (hcount _ (by decide))).event
  | degrade | fail => exact (((hlog _).bump (hcount _ (by decide))).bump (hcount _ (by decide))).event.irq

theorem countFault {sev : Severity} {j detail : Nat} (h : KeepsCandidate subs k c d) (hj : ¬ CandKey subs j) :
    KeepsCandidate subs k c (d.countFault sev j detail) := by
  unfold Chip.countFault
  exact (h.bump hj).fault

/-! ### The links and the time clock -/

theorem setBundle {b : Nat} {x : Bundle} (h : KeepsCandidate subs k c d) : KeepsCandidate subs k c (d.setBundle b x) :=
  h.trans ⟨fun _ _ => rfl, rfl, rfl⟩

theorem setLane {l : Nat} {x : Lane} (h : KeepsCandidate subs k c d) : KeepsCandidate subs k c (d.setLane l x) :=
  h.trans ⟨fun _ _ => rfl, rfl, rfl⟩

theorem sendStatus {l : Nat} (h : KeepsCandidate subs k c d) : KeepsCandidate subs k c (d.sendStatus l) := by
  unfold Chip.sendStatus
  exact h.send.setLane

theorem rowEnds {b : Nat} (h : KeepsCandidate subs k c d) : KeepsCandidate subs k c (d.rowEnds b) := by
  unfold Chip.rowEnds
  extract_lets
  split_ifs
  · exact (h.foldl (fun _ _ => refl.sendStatus) _).setBundle
  · exact (h.foldl (fun _ _ => refl.send) _).setBundle
  · exact h.setBundle

theorem putBlock {b : Nat} {block : Nat → Sent} (h : KeepsCandidate subs k c d) : KeepsCandidate subs k c (d.putBlock b block) := by
  have hrow : KeepsCandidate subs k c (if (d.streamLanes b).length ≤ (d.bundle b).col then d.rowEnds b else d) := by
    split
    · exact h.rowEnds
    · exact h
  unfold Chip.putBlock
  split
  · exact h
  · extract_lets
    split
    · exact hrow.setBundle.send
    · exact hrow.setBundle

theorem continueFrame {b vl : Nat} (h : KeepsCandidate subs k c d) : KeepsCandidate subs k c (d.continueFrame b vl) := by
  unfold Chip.continueFrame Chip.slotWent
  extract_lets
  split
  · exact h
  · split
    · exact h.setBundle.putBlock.setBundle
    · exact h.setBundle.putBlock.setBundle

theorem slotsOut {b n : Nat} (h : KeepsCandidate subs k c d) : KeepsCandidate subs k c (Chip.slotsOut b n d) := by
  induction n generalizing d with
  | zero => exact h
  | succ n ih =>
    refine ih ?_
    unfold Chip.streamSlot
    split
    · exact h.continueFrame
    · exact h.setBundle

theorem rowsOut {b n m : Nat} (h : KeepsCandidate subs k c d) : KeepsCandidate subs k c (Chip.rowsOut b n m d) := by
  induction n generalizing m d with
  | zero => exact h
  | succ n ih =>
    unfold Chip.rowsOut
    extract_lets
    split_ifs
    · exact h
    · exact ih h.setBundle.rowEnds
    · exact ih h.slotsOut.rowEnds

theorem rowsPass {n b : Nat} (h : KeepsCandidate subs k c d) : KeepsCandidate subs k c (d.rowsPass n b) := by
  unfold Chip.rowsPass
  extract_lets
  split
  · exact h
  · exact h.setBundle.rowsOut

theorem lanePass {n l : Nat} (h : KeepsCandidate subs k c d) : KeepsCandidate subs k c (d.lanePass n l) := by
  unfold Chip.lanePass
  extract_lets
  split_ifs
  · exact h
  · exact h.setLane
  · exact h.setLane.sendStatus

theorem linksPass {n : Nat} (h : KeepsCandidate subs k c d) : KeepsCandidate subs k c (d.linksPass n) := by
  unfold Chip.linksPass
  exact (h.foldl (fun _ _ => refl.rowsPass) _).foldl (fun _ _ => refl.lanePass) _

theorem beaconsDue (h : KeepsCandidate subs k c d) : KeepsCandidate subs k c d.beaconsDue := by
  have hpeer (p : Nat) : ¬ CandKey subs (peerOd p 0x20) := not_candKey_od (by decide) (.inr (.inr (by omega)))
  have htruss (x : Truss) : KeepsCandidate subs k c { d with truss := x } := h.trans ⟨fun _ _ => rfl, rfl, rfl⟩
  unfold Chip.beaconsDue
  extract_lets
  split
  · exact h
  · refine (htruss _).foldl (fun a p => ?_) _
    split
    · exact refl
    · exact refl.countFault (hpeer p)

theorem pass {n : Nat} (h : KeepsCandidate subs k c d) : KeepsCandidate subs k c (d.pass n) := by
  have hclock (lc xo seen : Nat) :
      KeepsCandidate subs k c { d.linksPass n with lc := lc, xo := xo, frontSeen := seen, frontAny := true } :=
    h.linksPass.trans ⟨fun _ _ => rfl, rfl, rfl⟩
  have hmark {a : Chip} (x : PowerCtl) : KeepsCandidate subs k a { a with power := x } := ⟨fun _ _ => rfl, rfl, rfl⟩
  unfold Chip.pass
  extract_lets lc xo seen links c1 last before
  clear_value before
  split_ifs
  · exact h
  · exact (hclock _ _ _).beaconsDue
  · refine KeepsCandidate.trans ?_ (hmark _)
    cases before with
    | some m => exact (hclock _ _ _).beaconsDue.wr (not_candKey_od (by decide) (by decide))
    | none => exact (hclock _ _ _).beaconsDue

theorem untilLc {t : Nat} (h : KeepsCandidate subs k c d) : KeepsCandidate subs k c (d.untilLc t) := by
  unfold Chip.untilLc
  split
  · exact h.pass
  · exact h

/-! ### The clock state and the selector -/

theorem clockEvent {code : Nat} {i prev : Option (Fin 7)} {phase : Int} (h : KeepsCandidate subs k c d) :
    KeepsCandidate subs k c (d.clockEvent code i prev phase) := by
  unfold Chip.clockEvent Chip.showQl
  exact h.wrClk.irq.event

theorem steer {y : Int} (h : KeepsCandidate subs k c d) : KeepsCandidate subs k c (d.steer y) := by
  unfold Chip.steer Chip.wrI32
  exact h.wrClk

theorem setClock {st : Nat} (h : KeepsCandidate subs k c d) : KeepsCandidate subs k c (d.setClock st) := by
  have hsince : KeepsCandidate subs k c { d with clock := { d.clock with since := d.lc } } := h.trans ⟨fun _ _ => rfl, rfl, rfl⟩
  unfold Chip.setClock
  split
  · exact h
  · exact hsince.wrClk.clockEvent

theorem acquire {i : Fin 7} (h : KeepsCandidate subs k c d) : KeepsCandidate subs k c (d.acquire i) := by
  have hfree : KeepsCandidate subs k c (d.freeBits 64).2 := h.trans ⟨fun _ _ => rfl, rfl, rfl⟩
  have hsamples {a : Chip} : KeepsCandidate subs k a { a with clock := { a.clock with samples := [] } } := ⟨fun _ _ => rfl, rfl, rfl⟩
  unfold Chip.acquire Chip.wrI32
  exact (hfree.wrClk.steer.wrClk.wrClk.wrClk.bumpClk.trans hsamples).setClock.clockEvent

theorem closeHistory (h : KeepsCandidate subs k c d) : KeepsCandidate subs k c d.closeHistory := h.trans ⟨fun _ _ => rfl, rfl, rfl⟩

theorem enterHoldover (h : KeepsCandidate subs k c d) : KeepsCandidate subs k c d.enterHoldover := by
  have hcomputed {a : Chip} {lc : Nat} : KeepsCandidate subs k a { a with clock := { a.clock with computed := lc } } :=
    ⟨fun _ _ => rfl, rfl, rfl⟩
  unfold Chip.enterHoldover Chip.wrI32
  exact (h.wrClk.bumpClk.wrClk.trans hcomputed).wrClk.steer.setClock

theorem enterFreeRun (h : KeepsCandidate subs k c d) : KeepsCandidate subs k c d.enterFreeRun := by
  unfold Chip.enterFreeRun
  exact h.wrClk.steer.setClock

theorem withoutReference (h : KeepsCandidate subs k c d) : KeepsCandidate subs k c d.withoutReference := by
  unfold Chip.withoutReference
  split
  · exact h.enterHoldover
  · exact h.enterFreeRun

theorem selectRef (h : KeepsCandidate subs k c d) : KeepsCandidate subs k c d.selectRef := by
  unfold Chip.selectRef Chip.showQl
  extract_lets best chosen keeps
  clear_value best
  have hchosen {a : Chip} (ha : KeepsCandidate subs k c a) : KeepsCandidate subs k c (chosen a) := by
    simp only [chosen]
    split
    · exact ha.acquire
    · exact ha
  refine KeepsCandidate.wrClk ?_
  split
  · exact hchosen h
  · exact hchosen h
  · exact hchosen h
  · split
    · exact h
    · exact hchosen h.closeHistory.withoutReference
  · split
    · split
      · exact h
      · exact h.closeHistory.acquire
    · exact h.closeHistory.withoutReference.fault
  · exact h

/-! ### The states of the candidate -/

theorem wrCand {i : Fin 7} {sub v : Nat} (h : KeepsCandidate subs k c d) (hsub : sub < 256) (hs : sub ∉ subs) :
    KeepsCandidate subs k c (d.wr (candOd i sub) v) :=
  h.wr (not_candKey_candOd hsub hs)

theorem bumpCand {i : Fin 7} {sub n : Nat} (h : KeepsCandidate subs k c d) (hsub : sub < 256) (hs : sub ∉ subs) :
    KeepsCandidate subs k c (d.bump (candOd i sub) n) :=
  h.bump (not_candKey_candOd hsub hs)

/-- What is set beside the candidate's objects may differ in all but its standing. -/
theorem setCand {x : Candidate} (h : KeepsCandidate subs k c d) (hedges : x.edges = (d.cand k).edges)
    (hdisq : x.disq = (d.cand k).disq) (hgated : x.gated = (d.cand k).gated) : KeepsCandidate subs k c (d.setCand k x) :=
  h.trans ⟨fun _ _ => rfl, rfl, by simp only [Chip.setCand_same, Candidate.standing, hedges, hdisq, hgated]⟩

theorem candTo {st code : Nat} (h : KeepsCandidate qualSubs k c d) : KeepsCandidate qualSubs k c (d.candTo k st code) := by
  unfold Chip.candTo
  exact (h.wrCand (by decide) (by decide)).clockEvent

theorem candDisqualified (h : KeepsCandidate qualSubs k c d) : KeepsCandidate qualSubs k c (d.candDisqualified k) := by
  unfold Chip.candDisqualified
  exact (h.bumpCand (by decide) (by decide)).candTo

theorem startRestore (h : KeepsCandidate subs k c d) : KeepsCandidate subs k c (d.startRestore k) := by
  unfold Chip.startRestore
  exact h.setCand rfl rfl rfl

theorem candRequalified (h : KeepsCandidate qualSubs k c d) : KeepsCandidate qualSubs k c (d.candRequalified k) := by
  have hknown : KeepsCandidate qualSubs k c (d.setCand k { d.cand k with known := true }) := h.setCand rfl rfl rfl
  unfold Chip.candRequalified
  extract_lets
  split_ifs
  · exact hknown.candTo
  · exact hknown.startRestore.candTo.candTo
  · exact hknown.startRestore.candTo

/-- An enabled, active candidate past LOST (R401) settles in a state of its qualification, which does not change. -/
theorem settleCand (h : KeepsCandidate qualSubs k c d) (hon : d.on (candOd k 0x01) = true) (hact : d.candActive k = true)
    (hst : 2 ≤ d.candState k) : KeepsCandidate qualSubs k c (d.settleCand k) := by
  unfold Chip.settleCand
  extract_lets st c1 off x fresh c2 q
  have hql : KeepsCandidate qualSubs k d c1 := by
    simp only [c1]
    split
    · exact (refl.wrCand (by decide) (by decide)).clockEvent
    · exact refl
  have hc2 : c2 = c1 := by
    simp only [c2]
    rw [if_neg (by omega), if_neg (by omega)]
  have h1 : KeepsCandidate qualSubs k c c1 := h.trans hql
  rw [hql.on, hql.candActive, hon, hact, hc2]
  simp only [Bool.not_true, Bool.false_eq_true, if_false]
  split_ifs
  · exact h1.candRequalified
  · exact h1
  · exact h1
  · exact h1.candDisqualified

/-- The candidate set on both sides, to the same standing. -/
theorem setCand_setCand {x y : Candidate} (h : KeepsCandidate subs k c d) (hxy : y.standing = x.standing) :
    KeepsCandidate subs k (c.setCand k x) (d.setCand k y) :=
  ⟨h.rd, h.time, by rw [Chip.setCand_same, Chip.setCand_same, hxy]⟩

end KeepsCandidate

/-! ### The end of a gate (R398 to R401) -/

/-- The candidate after a gate that ended at or below its soft threshold, as far as its standing goes (R399, R400). -/
def Candidate.gatedSoft (x : Candidate) : Candidate := { x with gated := true, disq := false }

theorem Chip.candActive_gatedSoft (c : Chip) (k : Fin 7) :
    (c.setCand k (c.cand k).gatedSoft).candActive k = c.candActive k := by
  unfold Chip.candActive
  rw [Chip.setCand_same]
  rfl

/-- The end of a gate at or below the soft threshold of an enabled, active candidate leaves it not disqualified and with a gate ended, and
nothing else that its qualification depends on changes. -/
theorem Chip.gateEnd_of_le_soft {c : Chip} {k : Fin 7} {raw : Int} (hon : c.on (candOd k 0x01) = true)
    (hact : c.candActive k = true) (hst : 2 ≤ c.candState k)
    (hsoft : (if k = 6 then c.ptpOffset else raw + c.xoError).natAbs ≤ c.rd (candOd k 0x06)) :
    KeepsCandidate qualSubs k (c.setCand k (c.cand k).gatedSoft) (c.gateEnd k raw) := by
  unfold Chip.gateEnd
  extract_lets y c1 a soft hard alarm c2 x dwell disq c3 out c4 w s' src c5
  have h1 : KeepsCandidate gateSubs k c c1 := KeepsCandidate.refl.wrCand (by decide) (by decide)
  have hle : a ≤ soft := by
    simp only [soft, h1.softThreshold]
    exact hsoft
  have h2 : KeepsCandidate gateSubs k c c2 := by
    simp only [c2, not_lt.mpr hle, hle, decide_false, Bool.false_and, Bool.false_eq_true, if_false]
    split
    · exact (h1.wrCand (by decide) (by decide)).clockEvent
    · exact h1
  have hdisq : disq = false := if_pos hle
  have h3 : KeepsCandidate gateSubs k (c.setCand k (c.cand k).gatedSoft) c3 := by
    refine h2.setCand_setCand ?_
    simp only [Candidate.standing, Candidate.gatedSoft, hdisq, x, h2.edges]
  have h5 : KeepsCandidate gateSubs k (c.setCand k (c.cand k).gatedSoft) c5 := by
    simp only [c5]
    split_ifs
    · exact h3.steer.trans ⟨fun _ _ => rfl, rfl, rfl⟩
    · exact h3.steer
    · exact h3
  have hact5 : c5.candActive k = true := by rwa [h5.qual.candActive, Chip.candActive_gatedSoft]
  have hst5 : c5.candState k = c.candState k := h5.candState
  exact (h5.qual.settleCand (h5.qual.on.trans hon) hact5 (hst5 ▸ hst)).selectRef

theorem exec_frequencyGateEnd (k : Fin 7) (raw : Int) (s : State) :
    exec (.frequencyGateEnd k raw) s = execFrequencyGateEnd k raw s := rfl

/-- R400, as the words define a qualified candidate. -/
theorem Chip.candQualified_iff (c : Chip) (k : Fin 7) : c.candQualified k = true ↔ c.rd (candOd k 0x01) = 1 ∧
    c.candActive k = true ∧ c.effectiveQl k ≠ 0xF ∧ (c.cand k).disq = false ∧ (c.cand k).gated = true := by
  simp [Chip.candQualified, Chip.on, and_assoc]

/-- Time passes, and then a gate ends at or below the soft threshold: the candidate is not disqualified, and qualified unless its
effective QL is 0xF. -/
theorem Chip.untilLc_gateEnd_of_le_soft {c d : Chip} {k : Fin 7} {raw : Int} {t : Nat} (hd : d = c.untilLc t)
    (hon : c.on (candOd k 0x01) = true) (hact : d.candActive k = true) (hst : 2 ≤ c.candState k)
    (hsoft : (if k = 6 then d.ptpOffset else raw + d.xoError).natAbs ≤ c.rd (candOd k 0x06)) :
    ((d.gateEnd k raw).cand k).disq = false ∧ (c.effectiveQl k ≠ 0xF → (d.gateEnd k raw).candQualified k = true) := by
  have hpass : KeepsCandidate gateSubs k c d := hd ▸ KeepsCandidate.refl.untilLc
  rw [← hpass.qual.on] at hon
  rw [← hpass.candState] at hst
  rw [← hpass.softThreshold] at hsoft
  rw [← hpass.qual.effectiveQl]
  have hend := Chip.gateEnd_of_le_soft hon hact hst hsoft
  constructor
  · rw [hend.disq, Chip.setCand_same]
    rfl
  · intro hql
    rw [hend.candQualified, Chip.candQualified_iff, Chip.candActive_gatedSoft, Chip.setCand_same]
    exact ⟨beq_iff_eq.mp hon, hact, hql, rfl, rfl⟩

/-- Settles O56: the definition of qualification (`Chip.candQualified_iff`), and that of what it depends on a gate at or below the soft
threshold changes nothing but the disqualification and the first gate (`Chip.gateEnd_of_le_soft`), the time that passes up to its end
nothing at all (`KeepsCandidate.untilLc`). -/
theorem qualifiedCandidates : Obligations.QualifiedCandidates := by
  unfold Obligations.QualifiedCandidates
  intro s k raw c d y
  refine ⟨c.candQualified_iff k, fun hon hact hst hactd hy => ?_⟩
  have honc : c.on (candOd k 0x01) = true := beq_iff_eq.mpr hon
  have hexec : exec (.frequencyGateEnd k raw) s = ok s (d.gateEnd k raw) := by
    rw [exec_frequencyGateEnd]
    unfold execFrequencyGateEnd
    exact if_pos (by simp [c, honc, hact, hst])
  obtain ⟨hdisq, hqual⟩ := Chip.untilLc_gateEnd_of_le_soft (d := d) rfl honc hactd hst hy
  exact ⟨_, hexec, rfl, hdisq, hqual, rfl, rfl⟩

end Sys2Proof.Machine
end

section
/-! SUPPORT. The words of the setter instructions (R295-R305): every field of an encoded word is the operand that was
put there, so that the word decodes to its instruction. -/

namespace Sys2Proof

/-! ### Fields of a word -/

theorem flagBit_le_one (b : Bool) : flagBit b ≤ 1 := by cases b <;> decide

/-- A Boolean put as a bit is read back. -/
theorem flagAt_of_fieldAt {w lo : Nat} {b : Bool} (h : fieldAt w lo 1 = flagBit b) : flagAt w lo = b := by
  unfold flagAt
  rw [h]
  cases b <;> rfl

theorem fin_ofNat_of_eq {k : Nat} [NeZero k] {v : Nat} {x : Fin k} (h : v = x.val) : Fin.ofNat k v = x := by
  rw [h]
  exact Fin.ofNat_val_eq_self x

theorem bitVec_ofNat_of_eq {k v : Nat} {x : BitVec k} (h : v = x.toNat) : BitVec.ofNat k v = x := by
  rw [h]
  simp

theorem encodeMove_lt (m : Move) : encodeMove m < 2 ^ 18 := by
  have hen := flagBit_le_one m.en
  unfold encodeMove
  omega

theorem decodeMove_encodeMove (m : Move) : decodeMove (encodeMove m) = m := by
  have hen := flagBit_le_one m.en
  obtain ⟨en, act, w, mode, pi, mi⟩ := m
  simp only [decodeMove, encodeMove, Move.mk.injEq] at hen ⊢
  refine ⟨flagAt_of_fieldAt ?_, fin_ofNat_of_eq ?_, fin_ofNat_of_eq ?_, fin_ofNat_of_eq ?_, fin_ofNat_of_eq ?_,
    fin_ofNat_of_eq ?_⟩ <;> simp only [fieldAt] <;> omega

/-! ### The operands of each class, one lemma per class -/

theorem decodeMacOp_encodeMac {op : Nat} (o : MacOp) (hop : op < 16) : decodeMacOp (encodeMac op o) = o := by
  obtain ⟨s, acc, wa, wb, ⟨en, pn, inc⟩, x, y⟩ := o
  have hs := flagBit_le_one s
  have hen := flagBit_le_one en
  have hinc := flagBit_le_one inc
  have hx := encodeMove_lt x
  have hy := encodeMove_lt y
  have hfx : fieldAt (encodeMac op ⟨s, acc, wa, wb, ⟨en, pn, inc⟩, x, y⟩) 18 18 = encodeMove x := by
    simp only [fieldAt, encodeMac]; omega
  have hfy : fieldAt (encodeMac op ⟨s, acc, wa, wb, ⟨en, pn, inc⟩, x, y⟩) 0 18 = encodeMove y := by
    simp only [fieldAt, encodeMac]; omega
  simp only [decodeMacOp, hfx, hfy, decodeMove_encodeMove, MacOp.mk.injEq, Pb.mk.injEq, and_true]
  refine ⟨flagAt_of_fieldAt ?_, fin_ofNat_of_eq ?_, fin_ofNat_of_eq ?_, fin_ofNat_of_eq ?_, flagAt_of_fieldAt ?_,
    fin_ofNat_of_eq ?_, flagAt_of_fieldAt ?_⟩ <;> simp only [fieldAt, encodeMac] <;> omega

theorem decodeAluOp_encodeAlu {op : Nat} (o : AluOp) (hop : op < 32) : decodeAluOp (encodeAlu op o) = o := by
  obtain ⟨s, wd, wa, wb, x, y⟩ := o
  have hs := flagBit_le_one s
  have hx := encodeMove_lt x
  have hy := encodeMove_lt y
  have hfx : fieldAt (encodeAlu op ⟨s, wd, wa, wb, x, y⟩) 18 18 = encodeMove x := by
    simp only [fieldAt, encodeAlu]; omega
  have hfy : fieldAt (encodeAlu op ⟨s, wd, wa, wb, x, y⟩) 0 18 = encodeMove y := by
    simp only [fieldAt, encodeAlu]; omega
  simp only [decodeAluOp, hfx, hfy, decodeMove_encodeMove, AluOp.mk.injEq, and_true]
  refine ⟨flagAt_of_fieldAt ?_, fin_ofNat_of_eq ?_, fin_ofNat_of_eq ?_, fin_ofNat_of_eq ?_⟩ <;>
    simp only [fieldAt, encodeAlu] <;> omega

theorem decodeAccOp_encodeAcc {op : Nat} (o : AccOp) (hop : op < 32) : decodeAccOp (encodeAcc op o) = o := by
  obtain ⟨s, accd, accs, w, sh, x, y⟩ := o
  have hs := flagBit_le_one s
  have hx := encodeMove_lt x
  have hy := encodeMove_lt y
  have hfx : fieldAt (encodeAcc op ⟨s, accd, accs, w, sh, x, y⟩) 18 18 = encodeMove x := by
    simp only [fieldAt, encodeAcc]; omega
  have hfy : fieldAt (encodeAcc op ⟨s, accd, accs, w, sh, x, y⟩) 0 18 = encodeMove y := by
    simp only [fieldAt, encodeAcc]; omega
  simp only [decodeAccOp, hfx, hfy, decodeMove_encodeMove, AccOp.mk.injEq, and_true]
  refine ⟨flagAt_of_fieldAt ?_, fin_ofNat_of_eq ?_, fin_ofNat_of_eq ?_, fin_ofNat_of_eq ?_, fin_ofNat_of_eq ?_⟩ <;>
    simp only [fieldAt, encodeAcc] <;> omega

theorem decodeFarOp_encodeFar (dir : Nat) (o : FarOp) : decodeFarOp (encodeFar dir o) = o := by
  obtain ⟨space, size, w, pn, mn, mode, disp⟩ := o
  have hdisp := disp.isLt
  simp only [decodeFarOp, FarOp.mk.injEq]
  refine ⟨fin_ofNat_of_eq ?_, fin_ofNat_of_eq ?_, fin_ofNat_of_eq ?_, fin_ofNat_of_eq ?_, fin_ofNat_of_eq ?_,
    fin_ofNat_of_eq ?_, bitVec_ofNat_of_eq ?_⟩ <;> simp only [fieldAt, encodeFar] <;> omega

/-! ### Words that spell an instruction -/

/-- The word fits 64 bits, and a setter decodes it to the instruction. -/
def Spells (w : Nat) (i : Instr) : Prop := w < 2 ^ 64 ∧ ∃ n : Fin 8, decodeSetter n w = some i

theorem spells_mac {n : Fin 8} {op : Nat} {o : MacOp} {i : Instr} (hop : op < 16)
    (hi : ∀ w, fieldAt w 55 4 = op → decodeMacOp w = o → decodeMac n w = some i) : Spells (encodeMac op o) i := by
  have hs := flagBit_le_one o.s
  have hen := flagBit_le_one o.pb.en
  have hinc := flagBit_le_one o.pb.inc
  have hx := encodeMove_lt o.x
  have hy := encodeMove_lt o.y
  have hclass : fieldAt (encodeMac op o) 60 4 = 1 := by simp only [fieldAt, encodeMac]; omega
  have hcode : fieldAt (encodeMac op o) 55 4 = op := by simp only [fieldAt, encodeMac]; omega
  refine ⟨by simp only [encodeMac]; omega, n, ?_⟩
  simp only [decodeSetter, hclass]
  exact hi _ hcode (decodeMacOp_encodeMac o hop)

theorem spells_alu {n : Fin 8} {op : Nat} {o : AluOp} {i : Instr} (hop : op < 32)
    (hi : ∀ w, fieldAt w 54 5 = op → decodeAluOp w = o → decodeAlu n w = some i) : Spells (encodeAlu op o) i := by
  have hs := flagBit_le_one o.s
  have hx := encodeMove_lt o.x
  have hy := encodeMove_lt o.y
  have hclass : fieldAt (encodeAlu op o) 60 4 = 2 := by simp only [fieldAt, encodeAlu]; omega
  have hcode : fieldAt (encodeAlu op o) 54 5 = op := by simp only [fieldAt, encodeAlu]; omega
  refine ⟨by simp only [encodeAlu]; omega, n, ?_⟩
  simp only [decodeSetter, hclass]
  exact hi _ hcode (decodeAluOp_encodeAlu o hop)

theorem spells_acc {n : Fin 8} {op : Nat} {o : AccOp} {i : Instr} (hop : op < 32)
    (hi : ∀ w, fieldAt w 54 5 = op → decodeAccOp w = o → decodeAcc n w = some i) : Spells (encodeAcc op o) i := by
  have hs := flagBit_le_one o.s
  have hx := encodeMove_lt o.x
  have hy := encodeMove_lt o.y
  have hclass : fieldAt (encodeAcc op o) 60 4 = 3 := by simp only [fieldAt, encodeAcc]; omega
  have hcode : fieldAt (encodeAcc op o) 54 5 = op := by simp only [fieldAt, encodeAcc]; omega
  refine ⟨by simp only [encodeAcc]; omega, n, ?_⟩
  simp only [decodeSetter, hclass]
  exact hi _ hcode (decodeAccOp_encodeAcc o hop)

theorem spells_far {dir : Bool} {o : FarOp} {n : Fin 8} :
    Spells (encodeFar (flagBit dir) o) (if dir then .farStore n o else .farLoad n o) := by
  have hdir := flagBit_le_one dir
  have hdisp := o.disp.isLt
  have hclass : fieldAt (encodeFar (flagBit dir) o) 60 4 = 5 := by simp only [fieldAt, encodeFar]; omega
  have hcode : flagAt (encodeFar (flagBit dir) o) 59 = dir :=
    flagAt_of_fieldAt (by simp only [fieldAt, encodeFar]; omega)
  refine ⟨by simp only [encodeFar]; omega, n, ?_⟩
  simp only [decodeSetter, hclass, hcode, decodeFarOp_encodeFar]
  cases dir <;> rfl

theorem spells_imm {w : Nat} {n : Fin 8} {op : Nat} {r : Fin 64} {v : BitVec 40} {i : Instr} (hop : op < 16)
    (hw : w = 6 * 2 ^ 60 + op * 2 ^ 56 + r.val * 2 ^ 50 + v.toNat)
    (hi : fieldAt w 56 4 = op → Fin.ofNat 64 (fieldAt w 50 6) = r → BitVec.ofNat 40 (fieldAt w 0 40) = v →
      decodeImm n w = some i) : Spells w i := by
  have hv := v.isLt
  have hclass : fieldAt w 60 4 = 6 := by simp only [fieldAt]; omega
  refine ⟨by omega, n, ?_⟩
  simp only [decodeSetter, hclass]
  refine hi ?_ (fin_ofNat_of_eq ?_) (bitVec_ofNat_of_eq ?_) <;> simp only [fieldAt] <;> omega

theorem spells_ptr {w : Nat} {n : Fin 8} {op : Nat} {d r : Fin 16} {v : BitVec 32} {i : Instr} (hop : op < 16)
    (hw : w = 7 * 2 ^ 60 + op * 2 ^ 56 + d.val * 2 ^ 52 + r.val * 2 ^ 48 + v.toNat)
    (hi : fieldAt w 56 4 = op → Fin.ofNat 16 (fieldAt w 52 4) = d → Fin.ofNat 16 (fieldAt w 48 4) = r →
      BitVec.ofNat 32 (fieldAt w 0 32) = v → decodePtr n w = some i) : Spells w i := by
  have hv := v.isLt
  have hclass : fieldAt w 60 4 = 7 := by simp only [fieldAt]; omega
  refine ⟨by omega, n, ?_⟩
  simp only [decodeSetter, hclass]
  refine hi ?_ (fin_ofNat_of_eq ?_) (fin_ofNat_of_eq ?_) (bitVec_ofNat_of_eq ?_) <;> simp only [fieldAt] <;> omega

theorem spells_near {store : Bool} {n : Fin 8} {sp : Fin 4} {r : Fin 64} {a : BitVec 17} :
    Spells (4 * 2 ^ 60 + flagBit store * 2 ^ 59 + sp.val * 2 ^ 57 + r.val * 2 ^ 51 + a.toNat)
      (if store then .nearAbsoluteStore n sp r a else .nearAbsoluteLoad n sp r a) := by
  have hstore := flagBit_le_one store
  have ha := a.isLt
  generalize hw : 4 * 2 ^ 60 + flagBit store * 2 ^ 59 + sp.val * 2 ^ 57 + r.val * 2 ^ 51 + a.toNat = w
  have hclass : fieldAt w 60 4 = 4 := by simp only [fieldAt]; omega
  have hcode : flagAt w 59 = store := flagAt_of_fieldAt (by simp only [fieldAt]; omega)
  have hsp : Fin.ofNat 4 (fieldAt w 57 2) = sp := fin_ofNat_of_eq (by simp only [fieldAt]; omega)
  have hr : Fin.ofNat 64 (fieldAt w 51 6) = r := fin_ofNat_of_eq (by simp only [fieldAt]; omega)
  have haddr : BitVec.ofNat 17 (fieldAt w 0 17) = a := bitVec_ofNat_of_eq (by simp only [fieldAt]; omega)
  refine ⟨by omega, n, ?_⟩
  simp only [decodeSetter, hclass, decodeNear, hcode, hsp, hr, haddr]
  cases store <;> rfl

theorem spells_registerMove {n : Fin 8} {dk sk : Fin 4} {d r : Fin 64} :
    Spells (8 * 2 ^ 60 + dk.val * 2 ^ 58 + d.val * 2 ^ 52 + sk.val * 2 ^ 50 + r.val * 2 ^ 44)
      (.registerMove n dk d sk r) := by
  generalize hw : 8 * 2 ^ 60 + dk.val * 2 ^ 58 + d.val * 2 ^ 52 + sk.val * 2 ^ 50 + r.val * 2 ^ 44 = w
  have hclass : fieldAt w 60 4 = 8 := by simp only [fieldAt]; omega
  have hdk : Fin.ofNat 4 (fieldAt w 58 2) = dk := fin_ofNat_of_eq (by simp only [fieldAt]; omega)
  have hd : Fin.ofNat 64 (fieldAt w 52 6) = d := fin_ofNat_of_eq (by simp only [fieldAt]; omega)
  have hsk : Fin.ofNat 4 (fieldAt w 50 2) = sk := fin_ofNat_of_eq (by simp only [fieldAt]; omega)
  have hr : Fin.ofNat 64 (fieldAt w 44 6) = r := fin_ofNat_of_eq (by simp only [fieldAt]; omega)
  refine ⟨by omega, n, ?_⟩
  simp only [decodeSetter, hclass, decodeMoveReg, hdk, hd, hsk, hr]

theorem spells_control {n : Fin 8} {op : Nat} {cond : Fin 16} {operands : Nat} {i : Instr} (hop : op < 32)
    (hlt : operands < 2 ^ 51)
    (hi : ∀ w, fieldAt w 55 5 = op → Fin.ofNat 16 (fieldAt w 51 4) = cond → w % 2 ^ 51 = operands →
      decodeControl n w = some i) : Spells (encodeControl op cond operands) i := by
  generalize hw : encodeControl op cond operands = w
  unfold encodeControl at hw
  have hclass : fieldAt w 60 4 = 0 := by simp only [fieldAt]; omega
  refine ⟨by omega, n, ?_⟩
  simp only [decodeSetter, hclass]
  exact hi w (by simp only [fieldAt]; omega) (fin_ofNat_of_eq (by simp only [fieldAt]; omega)) (by omega)

/-- A branch word carries its target in its low half. -/
theorem target_of_operands {w : Nat} {t : BitVec 16} (h : w % 2 ^ 51 = t.toNat) : BitVec.ofNat 16 (fieldAt w 0 16) = t :=
  bitVec_ofNat_of_eq (by have := t.isLt; simp only [fieldAt]; omega)

/-- An indirect branch word names its pointer above the low half. -/
theorem pointer_of_operands {w : Nat} {p : Fin 16} (h : w % 2 ^ 51 = p.val * 2 ^ 16) :
    Fin.ofNat 16 (fieldAt w 16 4) = p :=
  fin_ofNat_of_eq (by simp only [fieldAt]; omega)

theorem spells_rpt {n : Fin 8} {src : Bool} {w : Fin 64} {k : BitVec 16} :
    Spells (encodeControl 7 0 (flagBit src * 2 ^ 50 + w.val * 2 ^ 40 + k.toNat)) (.rpt n src w k) := by
  have hsrc := flagBit_le_one src
  have hk := k.isLt
  refine spells_control (n := n) (cond := 0) (by decide) (by omega) fun v hop _ h => ?_
  have hs : flagAt v 50 = src := flagAt_of_fieldAt (by simp only [fieldAt]; omega)
  have hr : Fin.ofNat 64 (fieldAt v 40 6) = w := fin_ofNat_of_eq (by simp only [fieldAt]; omega)
  have hc : BitVec.ofNat 16 (fieldAt v 0 16) = k := bitVec_ofNat_of_eq (by simp only [fieldAt]; omega)
  simp only [decodeControl, hop, hs, hr, hc]

theorem spells_loop {n : Fin 8} {src : Bool} {rot : Fin 4} {w : Fin 64} {e k : BitVec 16} :
    Spells (encodeControl 8 0 (flagBit src * 2 ^ 50 + rot.val * 2 ^ 48 + w.val * 2 ^ 40 + e.toNat * 2 ^ 16 + k.toNat))
      (.loop n src rot w e k) := by
  have hsrc := flagBit_le_one src
  have he := e.isLt
  have hk := k.isLt
  refine spells_control (n := n) (cond := 0) (by decide) (by omega) fun v hop _ h => ?_
  have hs : flagAt v 50 = src := flagAt_of_fieldAt (by simp only [fieldAt]; omega)
  have hrot : Fin.ofNat 4 (fieldAt v 48 2) = rot := fin_ofNat_of_eq (by simp only [fieldAt]; omega)
  have hr : Fin.ofNat 64 (fieldAt v 40 6) = w := fin_ofNat_of_eq (by simp only [fieldAt]; omega)
  have hlast : BitVec.ofNat 16 (fieldAt v 16 16) = e := bitVec_ofNat_of_eq (by simp only [fieldAt]; omega)
  have hc : BitVec.ofNat 16 (fieldAt v 0 16) = k := bitVec_ofNat_of_eq (by simp only [fieldAt]; omega)
  simp only [decodeControl, hop, hs, hrot, hr, hlast, hc]

theorem spells_trap {n : Fin 8} {k : BitVec 8} : Spells (encodeControl 10 0 k.toNat) (.trap n k) := by
  have hk := k.isLt
  refine spells_control (n := n) (cond := 0) (by decide) (by omega) fun v hop _ h => ?_
  have hno : BitVec.ofNat 8 (fieldAt v 0 8) = k := bitVec_ofNat_of_eq (by simp only [fieldAt]; omega)
  simp only [decodeControl, hop, hno]

/-! ### Every instruction -/

/-- Settles O22: class by class, each field of the word is the operand put there (`spells_mac` to `spells_trap`), and the
operation code picks the instruction. -/
theorem decodeOfEncode : Obligations.DecodeOfEncode := by
  unfold Obligations.DecodeOfEncode
  intro i w h
  show Spells w i
  cases i with
  | cmul n o | cmac n o | cmsu n o | cjmul n o | cjmac n o | cjmsu n o | dmul n o | dmac n o | dmsu n o | xmac n o
  | pmac n o =>
    cases h
    exact spells_mac (n := n) (by decide) fun w hop ho => by simp only [decodeMac, hop, ho]
  | add n o | sub n o | cadd n o | csub n o | neg n o | conj n o | abs n o | min n o | max n o | and n o | or n o
  | xor n o | not n o | asr n o | lsr n o | asl n o | casr n o | pack n o | unph n o | unpl n o | cmp n o | mov n o
  | swap n o | norm n o | tst n o =>
    cases h
    exact spells_alu (n := n) (by decide) fun w hop ho => by simp only [decodeAlu, hop, ho]
  | clra n o | ldac n o | ldar n o | adda n o | suba n o | mova n o | sra n o | sla n o | conja n o | stc n o | str n o
  | sti n o | norma n o =>
    cases h
    exact spells_acc (n := n) (by decide) fun w hop ho => by simp only [decodeAcc, hop, ho]
  | nearAbsoluteLoad n sp r a => cases h; exact spells_near (store := false)
  | nearAbsoluteStore n sp r a => cases h; exact spells_near (store := true)
  | farLoad n o => cases h; exact spells_far (dir := false)
  | farStore n o => cases h; exact spells_far (dir := true)
  | immediateW n r v =>
    exact spells_imm (n := n) (op := 0) (by decide) (by simpa [encodeSetter] using h.symm) fun hop hr hv => by
      simp only [decodeImm, hop, hr, hv]
  | immediateP n r v =>
    exact spells_imm (n := n) (op := 1) (by decide) (by simpa [encodeSetter] using h.symm) fun hop hr hv => by
      simp only [decodeImm, hop, hr, hv]
  | immediateM n r v =>
    exact spells_imm (n := n) (op := 2) (by decide) (by simpa [encodeSetter] using h.symm) fun hop hr hv => by
      simp only [decodeImm, hop, hr, hv]
  | immediateControl n r v =>
    exact spells_imm (n := n) (op := 3) (by decide) (by simpa [encodeSetter] using h.symm) fun hop hr hv => by
      simp only [decodeImm, hop, hr, hv]
  | addp n d r v =>
    exact spells_ptr (n := n) (op := 0) (by decide) (by simpa [encodeSetter] using h.symm) fun hop hd hr hv => by
      simp only [decodePtr, hop, hd, hr, hv]
  | modp n d r =>
    exact spells_ptr (n := n) (op := 1) (v := 0) (by decide) (by simpa [encodeSetter] using h.symm) fun hop hd hr _ => by
      simp only [decodePtr, hop, hd, hr]
  | addm n d r v =>
    exact spells_ptr (n := n) (op := 2) (by decide) (by simpa [encodeSetter] using h.symm) fun hop hd hr hv => by
      simp only [decodePtr, hop, hd, hr, hv]
  | cmpp n d r =>
    exact spells_ptr (n := n) (op := 3) (v := 0) (by decide) (by simpa [encodeSetter] using h.symm) fun hop hd hr _ => by
      simp only [decodePtr, hop, hd, hr]
  | registerMove n dk d sk r => cases h; exact spells_registerMove
  | br n c t | call n c t =>
    cases h
    exact spells_control (n := n) (by decide) (by omega) fun w hop hc ht => by
      simp only [decodeControl, hop, hc, target_of_operands ht]
  | bri n c p | calli n c p =>
    cases h
    exact spells_control (n := n) (by decide) (by omega) fun w hop hc hp => by
      simp only [decodeControl, hop, hc, pointer_of_operands hp]
  | ret n c =>
    cases h
    exact spells_control (n := n) (by decide) (by decide) fun w hop hc _ => by simp only [decodeControl, hop, hc]
  | nop n | rti n | idle n | sync n | brk n =>
    obtain rfl := Option.some.inj h
    exact spells_control (n := n) (cond := 0) (by decide) (by decide) fun w hop _ _ => by simp only [decodeControl, hop]
  | rpt n src w k => cases h; exact spells_rpt
  | loop n src rot w e k => cases h; exact spells_loop
  | trap n k => cases h; exact spells_trap
  | _ => cases h

end Sys2Proof
end

section
/-! SUPPORT. What every step of a setter leaves alone: its registers stay well formed (R281-R283, R311), and its memories, pointers and
posted stores change only where an instruction stores or moves a pointer. -/

namespace Sys2Proof.Machine

/-! ### SR -/

/-- An SR without reserved bits is one whose bits above the flags are 0 but for IE. -/
theorem srMask_eq_self_iff (v : BitVec 32) : v = srMask v ↔ v.toNat / 16 = 0 ∨ v.toNat / 16 = 16 := by
  have hmask : (srMask v).toNat = v.toNat &&& 271 := by simp [srMask]
  constructor
  · intro h
    have hq : (v.toNat &&& 271) / 16 = v.toNat / 16 &&& 16 := by
      simpa [Nat.shiftRight_eq_div_pow] using Nat.shiftRight_and_distrib (a := v.toNat) (b := 271) (i := 4)
    rw [← hmask, ← h, show 16 = 2 ^ 4 by rfl, Nat.and_two_pow] at hq
    cases hb : (v.toNat / 16).testBit 4 <;> simp [hb] at hq <;> omega
  · intro h
    have hsmall : ∀ r < 16, (r &&& 271 = r) ∧ ((256 + r) &&& 271 = 256 + r) := by decide
    have hr := hsmall (v.toNat % 16) (Nat.mod_lt _ (by decide))
    apply BitVec.eq_of_toNat_eq
    rw [hmask]
    rcases h with h | h
    · rw [show v.toNat = v.toNat % 16 by omega, hr.1]
    · rw [show v.toNat = 256 + v.toNat % 16 by omega, hr.2]

theorem srMask_srMask (v : BitVec 32) : srMask (srMask v) = srMask v := by
  simp [srMask, BitVec.and_assoc]

theorem srMask_clearIe {v : BitVec 32} (h : v = srMask v) : clearIe v = srMask (clearIe v) := by
  rw [clearIe, srMask, BitVec.and_assoc, BitVec.and_comm 0xFFFFFEFF#32, ← BitVec.and_assoc]
  exact congrArg (· &&& _) h

theorem srMask_setFlags {v : BitVec 32} (h : v = srMask v) (z n o : Bool) : setFlags v z n o = srMask (setFlags v z n o) := by
  rw [srMask_eq_self_iff] at h ⊢
  have hb : ∀ b, b2n b ≤ 1 := by decide
  have h0 := hb z
  have h1 := hb n
  have h2 := hb o
  have h3 := hb (o || bitAt v.toNat 3)
  simp only [setFlags, BitVec.toNat_ofNat]
  omega

/-! ### Well-formed cores -/

theorem Setter.wf_iff (x : Setter) : x.wf = true ↔
    x.sr = srMask x.sr ∧ x.mr.toNat ≤ 1 ∧ x.loopStack.length ≤ 3 ∧ (x.looping = false → x.loopStack = []) := by
  cases h : x.looping <;> simp [Setter.wf, h, and_assoc]

/-- Well-formedness speaks of SR, MR and the loop stack alone. -/
theorem Setter.wf_congr {x y : Setter} (h : x.wf = true) (hsr : y.sr = x.sr) (hmr : y.mr = x.mr)
    (hstack : y.loopStack = x.loopStack) (hloop : y.looping = x.looping) : y.wf = true := by
  rw [Setter.wf_iff] at h ⊢
  rwa [hsr, hmr, hstack, hloop]

/-- An SR without reserved bits may be put. -/
theorem Setter.wf_of_sr {x y : Setter} (h : x.wf = true) (hsr : y.sr = srMask y.sr) (hmr : y.mr = x.mr)
    (hstack : y.loopStack = x.loopStack) (hloop : y.looping = x.looping) : y.wf = true := by
  rw [Setter.wf_iff] at h ⊢
  rw [hmr, hstack, hloop]
  exact ⟨hsr, h.2⟩

theorem Setter.sr_of_wf {x : Setter} (h : x.wf = true) : x.sr = srMask x.sr := ((Setter.wf_iff x).1 h).1

theorem Setter.atReset_wf : Setter.atReset.wf = true := by decide

theorem Setter.resetKeep_wf (x y : SMap W40) (p : SMap W64) : (Setter.resetKeep x y p).wf = true := by
  rw [Setter.wf_iff]
  simp [Setter.resetKeep, srMask]

/-! ### The pipeline -/

theorem Setter.land_wf {x : Setter} (h : x.wf = true) (l : Landing) : (x.land l).wf = true := by
  cases l with
  | load | store | mac => exact h
  | flags z n v => exact Setter.wf_of_sr h (srMask_setFlags (Setter.sr_of_wf h) z n v) rfl rfl rfl

theorem Setter.advance_wf {x : Setter} (h : x.wf = true) : x.advance.wf = true :=
  List.foldlRecOn (motive := fun y : Setter => y.wf = true) _ _ h fun _ hy _ _ => Setter.land_wf hy _

theorem Setter.flush_wf {x : Setter} (h : x.wf = true) : x.flush.wf = true :=
  Setter.advance_wf (Setter.advance_wf (Setter.advance_wf h))

theorem Setter.writeW_wf {x : Setter} (h : x.wf = true) (c : Chip) (r : Fin 64) (v : W40) : (writeW c x r v).2.wf = true := by
  unfold writeW
  dsimp only
  split
  · split <;> exact h
  · exact h

theorem Setter.writeFlags_wf {x : Setter} (h : x.wf = true) (c : Chip) (z n v : Bool) : (writeFlags c x z n v).2.wf = true := by
  have hy : ({ x with sr := setFlags x.sr z n v } : Setter).wf = true :=
    Setter.wf_of_sr h (srMask_setFlags (Setter.sr_of_wf h) z n v) rfl rfl rfl
  unfold writeFlags
  dsimp only
  split
  · split <;> exact hy
  · exact hy

/-! ### Parallel moves -/

theorem Setter.xMove_wf {x : Setter} (h : x.wf = true) (o : Setter) (m : Move) : (xMove o x m).wf = true := by
  unfold xMove
  split
  · dsimp only
    split
    · exact h
    · split <;> exact h
  · exact h

theorem Setter.yMove_wf {x : Setter} (h : x.wf = true) (o : Setter) (m : Move) : (yMove o x m).wf = true := by
  unfold yMove
  split
  · dsimp only
    split
    · exact h
    · split <;> exact h
  · exact h

theorem Setter.moves_wf {x : Setter} (h : x.wf = true) (o : Setter) (mx my : Move) : (moves o x mx my).wf = true :=
  Setter.yMove_wf (Setter.xMove_wf h o mx) o my

/-! ### Loops -/

theorem Setter.popLoop_wf {x : Setter} (h : x.wf = true) : x.popLoop.wf = true := by
  obtain ⟨hsr, hmr, hlen, hloop⟩ := (Setter.wf_iff x).1 h
  rw [Setter.wf_iff]
  unfold Setter.popLoop
  split
  case h_1 hs => exact ⟨hsr, hmr, hlen, fun _ => hs⟩
  case h_2 l t hs =>
    refine ⟨hsr, hmr, ?_, fun hf => ?_⟩
    · simp only [hs, List.length_cons] at hlen
      exact Nat.le_of_succ_le hlen
    · exact absurd (hloop hf) (by simp [hs])

theorem Setter.refill_wf {x : Setter} (h : x.wf = true) : x.refill.wf = true := by
  unfold Setter.refill
  split <;> exact h

theorem Setter.copied_wf {x : Setter} (h : x.wf = true) : x.copied.wf = true := by
  unfold Setter.copied
  split <;> exact h

theorem Setter.iterate_wf {x : Setter} (h : x.wf = true) : x.iterate.wf = true := by
  unfold Setter.iterate
  split
  · exact h
  · exact Setter.refill_wf h

theorem Setter.loopBack_wf {x : Setter} (h : x.wf = true) : x.loopBack.wf = true := by
  unfold Setter.loopBack
  split
  · dsimp only
    split
    · exact Setter.iterate_wf (Setter.wf_congr h rfl rfl rfl rfl)
    · exact Setter.popLoop_wf (Setter.wf_congr h rfl rfl rfl rfl)
  · exact h

/-! ### Entries and the end of an instruction -/

theorem Setter.enter_wf {x : Setter} (h : x.wf = true) (v : Nat) (ret : BitVec 16) : (x.enter v ret).wf = true :=
  have hf := Setter.flush_wf h
  Setter.wf_of_sr hf (srMask_clearIe (Setter.sr_of_wf hf)) rfl rfl rfl

theorem Setter.enterFault_wf {x : Setter} (h : x.wf = true) (c : Chip) (n : Fin 8) (cause : BitVec 8) (faddr : BitVec 40)
    (a : BitVec 16) : (Machine.enterFault c n x cause faddr a).2.wf = true := by
  have hy : ({ x with faults := x.faults + 1, fault := BitVec.ofNat 32 (a.toNat * 2 ^ 16 + cause.toNat), faddr := faddr,
                      lastFault := BitVec.ofNat 32 (a.toNat * 2 ^ 16 + cause.toNat), lastFaddr := faddr } : Setter).wf = true := h
  unfold Machine.enterFault
  dsimp only
  split
  · exact Setter.wf_congr (Setter.flush_wf hy) rfl rfl rfl rfl
  · exact Setter.wf_congr (Setter.enter_wf hy 16 x.pc) rfl rfl rfl rfl

theorem Setter.finish_wf {x : Setter} (h : x.wf = true) (a : BitVec 16) (j : Option (BitVec 16)) (b : Bool) (k : Nat) :
    (Machine.finish x a j b k).wf = true := by
  unfold Machine.finish
  extract_lets hit y0 y1 y2
  have hy1 : y1.wf = true := by
    unfold y1
    split
    · exact h
    · split <;> exact h
  have hy2 : y2.wf = true := hy1
  clear_value y2
  split
  · exact hy1
  split
  · exact hy1
  split
  · exact hy2
  split
  · exact hy2
  split
  · exact hy2
  extract_lets y3 y4
  have hy3 : y3.wf = true := by
    unfold y3
    split
    · exact Setter.popLoop_wf hy2
    split
    · split
      · exact hy2
      · exact Setter.popLoop_wf (Setter.wf_congr hy2 rfl rfl rfl rfl)
    · exact hy2
  clear_value y3
  split
  · exact Setter.wf_of_sr hy3 (srMask_srMask _).symm rfl rfl rfl
  · exact hy3

/-! ### What the pipeline leaves: memories, pointers and posted stores -/

/-- The memories, pointers, modifiers, posted stores, IMASK and LR of a core. -/
def Setter.stored (x : Setter) : (SMap W40 × SMap W40 × SMap W64) × (Vector W40 16 × Vector (BitVec 32) 16) × List FarStore ×
    BitVec 16 × BitVec 16 :=
  ((x.xram, x.yram, x.pram), (x.p, x.m), x.farStores, x.imask, x.lr)

@[simp] theorem Setter.land_stored (x : Setter) (l : Landing) : (x.land l).stored = x.stored := by cases l <;> rfl

@[simp] theorem Setter.advance_stored (x : Setter) : x.advance.stored = x.stored :=
  List.foldlRecOn (motive := fun y : Setter => y.stored = x.stored) _ _ rfl fun y hy _ _ => by simpa using hy

@[simp] theorem Setter.flush_stored (x : Setter) : x.flush.stored = x.stored := by
  simp [Setter.flush]

@[simp] theorem Setter.writeW_stored (c : Chip) (x : Setter) (r : Fin 64) (v : W40) : (writeW c x r v).2.stored = x.stored := by
  unfold writeW
  dsimp only
  split
  · split <;> rfl
  · rfl

@[simp] theorem Setter.writeFlags_stored (c : Chip) (x : Setter) (z n v : Bool) : (writeFlags c x z n v).2.stored = x.stored := by
  unfold writeFlags
  dsimp only
  split
  · split <;> rfl
  · rfl

@[simp] theorem Setter.popLoop_stored (x : Setter) : x.popLoop.stored = x.stored := by
  unfold Setter.popLoop
  split <;> rfl

@[simp] theorem Setter.refill_stored (x : Setter) : x.refill.stored = x.stored := by
  unfold Setter.refill
  split <;> rfl

@[simp] theorem Setter.copied_stored (x : Setter) : x.copied.stored = x.stored := by
  unfold Setter.copied
  split <;> rfl

@[simp] theorem Setter.iterate_stored (x : Setter) : x.iterate.stored = x.stored := by
  unfold Setter.iterate
  split
  · rfl
  · exact Setter.refill_stored x

@[simp] theorem Setter.loopBack_stored (x : Setter) : x.loopBack.stored = x.stored := by
  unfold Setter.loopBack
  split
  · dsimp only
    split
    · exact Setter.iterate_stored _
    · exact Setter.popLoop_stored _
  · rfl

theorem Setter.enter_stored (x : Setter) (v : Nat) (ret : BitVec 16) : (x.enter v ret).stored = x.stored :=
  Setter.flush_stored x

@[simp] theorem Setter.enterFault_stored (c : Chip) (n : Fin 8) (x : Setter) (cause : BitVec 8) (faddr : BitVec 40) (a : BitVec 16) :
    (enterFault c n x cause faddr a).2.stored = x.stored := by
  unfold enterFault
  dsimp only
  split
  · exact Setter.flush_stored _
  · exact Setter.enter_stored _ 16 x.pc

@[simp] theorem Setter.finish_stored (x : Setter) (a : BitVec 16) (j : Option (BitVec 16)) (b : Bool) (k : Nat) :
    (finish x a j b k).stored = x.stored := by
  unfold finish
  extract_lets hit y0 y1 y2
  have hy1 : y1.stored = x.stored := by
    unfold y1
    split
    · rfl
    · split <;> rfl
  have hy2 : y2.stored = x.stored := hy1
  clear_value y2
  split
  · exact hy1
  split
  · exact hy1
  split
  · exact hy2
  split
  · exact hy2
  split
  · exact hy2
  extract_lets y3 y4
  have hy3 : y3.stored = x.stored := by
    unfold y3
    split
    · exact (Setter.popLoop_stored y2).trans hy2
    split
    · split
      · exact hy2
      · exact (Setter.popLoop_stored _).trans hy2
    · exact hy2
  clear_value y3
  split <;> exact hy3

/-! ### A property of a core and its chip that the common part of every instruction keeps -/

/-- The parts of `instruction` outside an instruction's own effect keep the property. -/
structure KeptByPipeline (n : Fin 8) (P : Chip → Setter → Prop) : Prop where
  resume : ∀ {c x}, P c x → P c { x with mode := .running, syncing := false }
  count : ∀ {c x} r k, P c x → P c { x with rptcnt := r, cyc := k }
  loopBack : ∀ {c x}, P c x → P c x.loopBack
  advance : ∀ {c x}, P c x → P c x.advance
  copied : ∀ {c x}, P c x → P c x.copied
  finish : ∀ {c x} a j b k, P c x → P c (finish x a j b k)
  enterFault : ∀ {c x} cause faddr a, P c x → P (enterFault c n x cause faddr a).1 (enterFault c n x cause faddr a).2

section
variable {n : Fin 8} {P : Chip → Setter → Prop} (hP : KeptByPipeline n P)
include hP

theorem KeptByPipeline.takeFault {c : Chip} {x : Setter} (h : P c x) (cause : BitVec 8) (faddr : BitVec 40) :
    P (takeFault c n x cause faddr).1 (takeFault c n x cause faddr).2 := by
  unfold Machine.takeFault
  split
  · exact hP.enterFault _ _ _ (hP.count x.rptcnt _ h)
  · exact hP.enterFault _ _ _ (hP.loopBack (hP.finish _ _ _ _ (hP.count 0 x.cyc h)))

/-- An instruction whose own effect keeps the property keeps it, and changes its own core and the chip alone. -/
theorem KeptByPipeline.instruction {s : State} (h : P s.dev.chip s.dev.cores[n]) (sh : Shape) (reads : Setter → List (Fin 64))
    {body : Chip → Setter → Effect} (hbody : ∀ c x, P c x → P (body c x).chip (body c x).core) :
    ∃ c y, instruction s n sh reads body = .next { s with dev := { s.dev with chip := c, cores := s.dev.cores.set n y } } ∧ P c y := by
  have hstay : ∃ c y, ok s s.dev.chip = .next { s with dev := { s.dev with chip := c, cores := s.dev.cores.set n y } } ∧ P c y :=
    ⟨s.dev.chip, s.dev.cores[n], by simp [ok], h⟩
  have hback := hP.loopBack (hP.resume h)
  have hcore := hP.copied (hP.advance hback)
  unfold Machine.instruction
  dsimp only
  split
  · exact hstay
  split
  · exact hstay
  generalize ({ s.dev.cores[n] with mode := .running, syncing := false } : Setter).loopBack.advance.copied = x at hcore ⊢
  split
  · exact ⟨_, _, rfl, hP.enterFault _ _ _ (hP.count _ _ hcore)⟩
  split
  · exact ⟨_, _, rfl, hP.takeFault hcore _ _⟩
  have heffect := hbody _ _ hcore
  split
  · exact ⟨_, _, rfl, hP.takeFault heffect _ _⟩
  · exact ⟨_, _, rfl, hP.finish _ _ _ _ heffect⟩

end

end Sys2Proof.Machine
end

section
/-! SUPPORT. Every setter instruction changes its own core and the chip alone, and of these it leaves P-RAM, the Local Counter, the
streams, the lanes and the DOMAIN objects as they were and a well-formed core well formed (R281-R283, R297-R311). -/

namespace Sys2Proof.Machine

/-! ### What a setter leaves of the chip -/

/-- The Local Counter, the streams, the lanes and the DOMAIN objects. -/
def Chip.ground (c : Chip) : Nat × SMap Stream × SMap Lane × SMap (List Byte) := (c.lc, c.streams, c.lanes, c.dom)

theorem Chip.wr_ground (c : Chip) (k v : Nat) : (c.wr k v).ground = c.ground := rfl

@[simp] theorem Chip.bump_ground (c : Chip) (k v : Nat) : (c.bump k v).ground = c.ground := by
  unfold Chip.bump
  split
  · rfl
  · exact Chip.wr_ground c k _

@[simp] theorem Chip.event_ground (c : Chip) (type : Nat) (b : List Byte) : (c.event type b).ground = c.ground := by
  unfold Chip.event
  dsimp only
  split
  · exact (Chip.bump_ground _ _ _).trans (Chip.bump_ground _ _ _)
  · exact Chip.bump_ground _ _ _

@[simp] theorem Chip.fault_ground (c : Chip) (sev : Severity) (kind : FaultKind) (object old new detail : Nat) :
    (c.fault sev kind object old new detail).ground = c.ground := by
  unfold Chip.fault
  extract_lets seq b c1 c2 c3
  have hc3 : c3.ground = c.ground := by
    simp only [c3, c2, Chip.event_ground, Chip.bump_ground]
    rfl
  split
  · exact hc3
  · exact hc3

/-! ### One instruction's steps -/

/-- From chip `c0` and core `x0` to `c` and `x`: P-RAM and what `Chip.ground` names are as they were, a well-formed core is well formed. -/
structure Follows (c0 : Chip) (x0 : Setter) (c : Chip) (x : Setter) : Prop where
  ground : c.ground = c0.ground
  pram : x.pram = x0.pram
  wf : x0.wf = true → x.wf = true

theorem Setter.pram_of_stored {x y : Setter} (h : y.stored = x.stored) : y.pram = x.pram := congrArg (·.1.2.2) h

namespace Follows

variable {c0 c : Chip} {x0 x : Setter}

theorem refl : Follows c0 x0 c0 x0 := ⟨rfl, rfl, id⟩

/-- An update of other registers. -/
theorem regs {y : Setter} (h : Follows c0 x0 c x) (hpram : y.pram = x.pram) (hsr : y.sr = x.sr) (hmr : y.mr = x.mr)
    (hstack : y.loopStack = x.loopStack) (hloop : y.looping = x.looping) : Follows c0 x0 c y :=
  ⟨h.ground, hpram.trans h.pram, fun w => Setter.wf_congr (h.wf w) hsr hmr hstack hloop⟩

theorem issue (h : Follows c0 x0 c x) (left : Nat) (l : Landing) : Follows c0 x0 c (x.issue left l) := h.regs rfl rfl rfl rfl rfl

/-- An update of registers with an SR without reserved bits. -/
theorem ofSr {y : Setter} (h : Follows c0 x0 c x) (hpram : y.pram = x.pram) (hsr : x.sr = srMask x.sr → y.sr = srMask y.sr)
    (hmr : y.mr = x.mr) (hstack : y.loopStack = x.loopStack) (hloop : y.looping = x.looping) : Follows c0 x0 c y :=
  ⟨h.ground, hpram.trans h.pram, fun w => Setter.wf_of_sr (h.wf w) (hsr (Setter.sr_of_wf (h.wf w))) hmr hstack hloop⟩

/-- A step that leaves the memories and keeps the core well formed. -/
theorem core {y : Setter} (h : Follows c0 x0 c x) (hy : y.stored = x.stored) (hwf : x.wf = true → y.wf = true) : Follows c0 x0 c y :=
  ⟨h.ground, (Setter.pram_of_stored hy).trans h.pram, fun w => hwf (h.wf w)⟩

/-- The chip changes outside its ground. -/
theorem chip {c1 : Chip} (h : Follows c0 x0 c x) (hc : c1.ground = c.ground) : Follows c0 x0 c1 x := ⟨hc.trans h.ground, h.pram, h.wf⟩

theorem writeW (h : Follows c0 x0 c x) (r : Fin 64) (v : W40) :
    Follows c0 x0 (Machine.writeW c x r v).1 (Machine.writeW c x r v).2 := by
  refine (h.core (Setter.writeW_stored c x r v) fun w => Setter.writeW_wf w c r v).chip ?_
  unfold Machine.writeW
  dsimp only
  split
  · split <;> rfl
  · rfl

theorem writeFlags (h : Follows c0 x0 c x) (z n v : Bool) :
    Follows c0 x0 (Machine.writeFlags c x z n v).1 (Machine.writeFlags c x z n v).2 := by
  refine (h.core (Setter.writeFlags_stored c x z n v) fun w => Setter.writeFlags_wf w c z n v).chip ?_
  unfold Machine.writeFlags
  dsimp only
  split
  · split <;> rfl
  · rfl

theorem moves (h : Follows c0 x0 c x) (o : Setter) (mx my : Move) : Follows c0 x0 c (moves o x mx my) := by
  have hx : (xMove o x mx).pram = x.pram := by
    unfold xMove
    split
    · dsimp only
      split
      · rfl
      · split <;> rfl
    · rfl
  have hy : ∀ z : Setter, (yMove o z my).pram = z.pram := by
    intro z
    unfold yMove
    split
    · dsimp only
      split
      · rfl
      · split <;> rfl
    · rfl
  exact ⟨h.ground, ((hy _).trans hx).trans h.pram, fun w => Setter.moves_wf (h.wf w) o mx my⟩

theorem enter (h : Follows c0 x0 c x) (v : Nat) (ret : BitVec 16) : Follows c0 x0 c (x.enter v ret) :=
  h.core (Setter.enter_stored x v ret) fun w => Setter.enter_wf w v ret

theorem loopBack (h : Follows c0 x0 c x) : Follows c0 x0 c x.loopBack := h.core (Setter.loopBack_stored x) Setter.loopBack_wf

theorem enterFault (h : Follows c0 x0 c x) (n : Fin 8) (cause : BitVec 8) (faddr : BitVec 40) (a : BitVec 16) :
    Follows c0 x0 (Machine.enterFault c n x cause faddr a).1 (Machine.enterFault c n x cause faddr a).2 := by
  refine (h.core (Setter.enterFault_stored c n x cause faddr a) fun w => Setter.enterFault_wf w c n cause faddr a).chip ?_
  unfold Machine.enterFault
  extract_lets word y
  clear_value y
  split
  · simp only [Chip.fault_ground]
  · rfl

theorem keptByPipeline (n : Fin 8) (c0 : Chip) (x0 : Setter) : KeptByPipeline n (Follows c0 x0) where
  resume h := h.regs rfl rfl rfl rfl rfl
  count _ _ h := h.regs rfl rfl rfl rfl rfl
  loopBack h := h.loopBack
  advance h := h.core (Setter.advance_stored _) Setter.advance_wf
  copied h := h.core (Setter.copied_stored _) Setter.copied_wf
  finish a j b k h := h.core (Setter.finish_stored _ a j b k) fun w => Setter.finish_wf w a j b k
  enterFault cause faddr a h := h.enterFault _ cause faddr a

theorem takeFault (h : Follows c0 x0 c x) (n : Fin 8) (cause : BitVec 8) (faddr : BitVec 40) :
    Follows c0 x0 (Machine.takeFault c n x cause faddr).1 (Machine.takeFault c n x cause faddr).2 :=
  (keptByPipeline n c0 x0).takeFault h cause faddr

end Follows

/-- The command completes, changes core `n` and the chip alone, and of these what `Follows` allows. -/
def CoreStep (s : State) (n : Fin 8) (r : Host.Outcome State Fault Refusal) : Prop :=
  ∃ c y, r = .next { s with dev := { s.dev with chip := c, cores := s.dev.cores.set n y } } ∧ Follows s.dev.chip s.dev.cores[n] c y

theorem coreStep_instruction {s : State} {n : Fin 8} {sh : Shape} {reads : Setter → List (Fin 64)} {body : Chip → Setter → Effect}
    (h : ∀ c0 x0 c x, Follows c0 x0 c x → Follows c0 x0 (body c x).chip (body c x).core) :
    CoreStep s n (instruction s n sh reads body) :=
  (Follows.keptByPipeline n s.dev.chip s.dev.cores[n]).instruction Follows.refl sh reads (h _ _)

section
variable {s : State} {n : Fin 8}

/-! ### The classes of instructions -/

theorem coreStep_alu (f : Bool → W40 → W40 → AluOut) (usesB : Bool) (o : AluOp) : CoreStep s n (execAlu f usesB n o s) := by
  refine coreStep_instruction fun c0 x0 c x h => ?_
  dsimp only
  split
  · exact h
  have hw : ∀ b : Bool, Follows c0 x0 (if b then writeW c x (x.phys o.wd) (f o.s (x.rdW o.wa) (x.rdW o.wb)).word else (c, x)).1
      (if b then writeW c x (x.phys o.wd) (f o.s (x.rdW o.wa) (x.rdW o.wb)).word else (c, x)).2 := by
    intro b
    cases b
    · exact h
    · exact h.writeW _ _
  split
  · exact ((hw _).writeFlags _ _ _).moves _ _ _
  · exact (hw _).moves _ _ _

theorem coreStep_acc (f : Bool → Nat → Int → Int → Int → Int → W40 → AccOut) (readsW : Bool) (o : AccOp) :
    CoreStep s n (execAcc f readsW n o s) := by
  refine coreStep_instruction fun c0 x0 c x h => ?_
  dsimp only
  split
  · exact h
  split
  · rename_i re im quiet _
    have ha := h.regs (y := { x with accR := x.accR.set o.accd (of48 (part o.s 48 re)),
                                     accI := x.accI.set o.accd (of48 (part o.s 48 im)) }) rfl rfl rfl rfl rfl
    cases quiet
    · exact (ha.writeFlags _ _ _).moves _ _ _
    · exact ha.moves _ _ _
  · exact ((h.writeFlags _ _ _).moves x o.x o.y).regs rfl rfl rfl rfl rfl

theorem follows_macB {c0 c : Chip} {x0 x : Setter} (h : Follows c0 x0 c x) (o : MacOp) : Follows c0 x0 c (macB x o).2.1 := by
  unfold macB
  split
  · dsimp only
    split
    · exact h.regs rfl rfl rfl rfl rfl
    · exact h
  · exact h

theorem coreStep_mac (f : Int → Int → Int → Int → Int → Int → Int × Int) (usesB : Bool) (o : MacOp) :
    CoreStep s n (execMac f usesB n o s) := by
  refine coreStep_instruction fun c0 x0 c x h => ?_
  dsimp only
  split
  · exact h
  have hb : Follows c0 x0 c (if usesB then macB x o else (0, x, 0)).2.1 := by
    cases usesB
    · exact h
    · exact follows_macB h o
  generalize (if usesB then macB x o else (0, x, 0)) = r at hb ⊢
  obtain ⟨b, y, st⟩ := r
  exact ((hb.moves x o.x o.y).issue _ _).issue _ _

/-! ### Loads, stores, immediates and moves -/

theorem coreStep_nearLoad (space : Fin 4) (w : Fin 64) (a : BitVec 17) : CoreStep s n (execNearAbsoluteLoad n space w a s) := by
  refine coreStep_instruction fun c0 x0 c x h => ?_
  have hload : ∀ v, Follows c0 x0 c (x.issue 3 (.load (x.phys w) v)) := fun v => h.issue _ _
  dsimp only
  split
  · exact hload _
  · exact hload _
  · exact hload _
  · exact h

theorem coreStep_nearStore (space : Fin 4) (w : Fin 64) (a : BitVec 17) : CoreStep s n (execNearAbsoluteStore n space w a s) := by
  refine coreStep_instruction fun c0 x0 c x h => ?_
  split
  · exact h.regs rfl rfl rfl rfl rfl
  · exact h.regs rfl rfl rfl rfl rfl
  · exact h

theorem coreStep_farLoad (o : FarOp) : CoreStep s n (execFarLoad n o s) := by
  refine coreStep_instruction fun c0 x0 c x h => ?_
  split
  · split
    · exact h
    · exact h.writeW _ _
  · exact h.regs rfl rfl rfl rfl rfl

theorem coreStep_farStore (o : FarOp) : CoreStep s n (execFarStore n o s) := by
  refine coreStep_instruction fun c0 x0 c x h => ?_
  split
  · exact h
  · exact h.regs rfl rfl rfl rfl rfl

theorem follows_ctlWrite {c0 c c1 : Chip} {x0 x x1 : Setter} (h : Follows c0 x0 c x) {r : Fin 64} {v : W40}
    (hw : ctlWrite c n x r v = some (c1, x1)) : Follows c0 x0 c1 x1 := by
  have hsr : ∀ w : BitVec 32, Follows c0 x0 c { x with sr := srMask w } := fun w =>
    h.ofSr rfl (fun _ => (srMask_srMask w).symm) rfl rfl rfl
  have hmr : ∀ w : BitVec 32, Follows c0 x0 c { x with mr := w &&& 1#32 } := fun w =>
    ⟨h.ground, h.pram, fun hx => by
      obtain ⟨hs, -, hl⟩ := (Setter.wf_iff x).1 (h.wf hx)
      refine (Setter.wf_iff _).2 ⟨hs, ?_, hl⟩
      simp only [BitVec.toNat_and, BitVec.toNat_ofNat]
      exact Nat.and_le_right⟩
  unfold ctlWrite at hw
  dsimp only at hw
  split at hw
  case h_1 => cases hw; exact hsr _
  case h_2 =>
    cases hw
    split
    · exact hmr _
    · exact (hmr _).regs rfl rfl rfl rfl rfl
  case h_10 => cases hw; exact h.chip rfl
  case h_17 => cases hw
  all_goals cases hw; exact h.regs rfl rfl rfl rfl rfl

theorem coreStep_immediateW (r : Fin 64) (v : BitVec 40) : CoreStep s n (execImmediateW n r v s) :=
  coreStep_instruction fun _ _ _ _ h => h.writeW _ _

theorem coreStep_immediateP (r : Fin 64) (v : BitVec 40) : CoreStep s n (execImmediateP n r v s) :=
  coreStep_instruction fun _ _ _ _ h => h.regs rfl rfl rfl rfl rfl

theorem coreStep_immediateM (r : Fin 64) (v : BitVec 40) : CoreStep s n (execImmediateM n r v s) :=
  coreStep_instruction fun _ _ _ _ h => h.regs rfl rfl rfl rfl rfl

theorem coreStep_immediateControl (r : Fin 64) (v : BitVec 40) : CoreStep s n (execImmediateControl n r v s) := by
  refine coreStep_instruction fun c0 x0 c x h => ?_
  split
  case h_1 z hz => exact follows_ctlWrite h hz
  case h_2 => exact h

theorem coreStep_addp (d r : Fin 16) (v : BitVec 32) : CoreStep s n (execAddp n d r v s) :=
  coreStep_instruction fun _ _ _ _ h => h.regs rfl rfl rfl rfl rfl

theorem coreStep_modp (d r : Fin 16) : CoreStep s n (execModp n d r s) :=
  coreStep_instruction fun _ _ _ _ h => h.regs rfl rfl rfl rfl rfl

theorem coreStep_addm (d r : Fin 16) (v : BitVec 32) : CoreStep s n (execAddm n d r v s) :=
  coreStep_instruction fun _ _ _ _ h => h.regs rfl rfl rfl rfl rfl

theorem coreStep_cmpp (d r : Fin 16) : CoreStep s n (execCmpp n d r s) :=
  coreStep_instruction fun _ _ _ _ h => h.writeFlags _ _ _

theorem follows_ctlRead {c0 c : Chip} {x0 x x1 : Setter} (h : Follows c0 x0 c x) {r : Fin 64} {v : W40}
    (hr : ctlRead c n x r = some (v, x1)) : Follows c0 x0 c x1 := by
  unfold ctlRead at hr
  dsimp only at hr
  split at hr
  case h_11 => cases hr; exact h.regs rfl rfl rfl rfl rfl
  case h_23 => cases hr
  all_goals cases hr; exact h

/-- The source of a register move leaves the core, but that a read of CYC_LO latches CYC_HI. -/
theorem follows_regMove {c0 c : Chip} {x0 x : Setter} (h : Follows c0 x0 c x) (dk : Fin 4) (d : Fin 64) (sk : Fin 4) (r : Fin 64) :
    Follows c0 x0 (regMove n dk d sk r c x).chip (regMove n dk d sk r c x).core := by
  unfold regMove
  dsimp only
  split
  case h_1 => exact h
  case h_2 v y hsource =>
    have hy : Follows c0 x0 c y := by
      split at hsource
      case h_4 => exact follows_ctlRead h hsource
      all_goals cases hsource; exact h
    split
    · exact hy.writeW _ _
    · exact hy.regs rfl rfl rfl rfl rfl
    · exact hy.regs rfl rfl rfl rfl rfl
    · split
      case h_1 z hz => exact follows_ctlWrite hy hz
      case h_2 => exact h

theorem coreStep_registerMove (dk : Fin 4) (d : Fin 64) (sk : Fin 4) (r : Fin 64) : CoreStep s n (execRegisterMove n dk d sk r s) :=
  coreStep_instruction fun _ _ _ _ h => follows_regMove h dk d sk r

theorem coreStep_cycLoRead (dk : Fin 4) (d : Fin 64) : CoreStep s n (execCycLoRead n dk d s) :=
  coreStep_instruction fun _ _ _ _ h => follows_regMove h dk d 3 0x0A

/-! ### Control -/

theorem follows_condBranch {c0 c : Chip} {x0 x : Setter} (h : Follows c0 x0 c x) (cond : Fin 16) (target : BitVec 16)
    (pops link : Bool) : Follows c0 x0 (condBranch cond target pops link c x).chip (condBranch cond target pops link c x).core := by
  unfold condBranch
  split
  · exact h
  · exact h.regs rfl rfl rfl rfl rfl
  · cases link <;> exact h.regs rfl rfl rfl rfl rfl

theorem coreStep_nop : CoreStep s n (execNop n s) := coreStep_instruction fun _ _ _ _ h => h

theorem coreStep_br (cond : Fin 16) (target : BitVec 16) : CoreStep s n (execBr n cond target s) :=
  coreStep_instruction fun _ _ _ _ h => follows_condBranch h _ _ _ _

theorem coreStep_bri (cond pn : Fin 16) : CoreStep s n (execBri n cond pn s) :=
  coreStep_instruction fun _ _ _ _ h => follows_condBranch h _ _ _ _

theorem coreStep_call (cond : Fin 16) (target : BitVec 16) : CoreStep s n (execCall n cond target s) :=
  coreStep_instruction fun _ _ _ _ h => follows_condBranch h _ _ _ _

theorem coreStep_calli (cond pn : Fin 16) : CoreStep s n (execCalli n cond pn s) :=
  coreStep_instruction fun _ _ _ _ h => follows_condBranch h _ _ _ _

theorem coreStep_ret (cond : Fin 16) : CoreStep s n (execRet n cond s) :=
  coreStep_instruction fun _ _ _ _ h => follows_condBranch h _ _ _ _

theorem coreStep_rti : CoreStep s n (execRti n s) :=
  coreStep_instruction fun _ _ _ _ h => h.ofSr rfl srMask_clearIe rfl rfl rfl

theorem coreStep_rpt (src : Bool) (w : Fin 64) (count : BitVec 16) : CoreStep s n (execRpt n src w count s) := by
  refine coreStep_instruction fun c0 x0 c x h => ?_
  dsimp only
  generalize (if src then (x.rdW w).setWidth 16 else count) = k
  split
  · exact h
  · exact h.regs rfl rfl rfl rfl rfl

/-- A loop is pushed only where fewer than four are active, so that at most three wait on the stack. -/
theorem coreStep_loop (src : Bool) (rot : Fin 4) (w : Fin 64) (e k : BitVec 16) : CoreStep s n (execLoop n src rot w e k s) := by
  refine coreStep_instruction fun c0 x0 c x h => ?_
  dsimp only
  generalize (if src then (x.rdW w).setWidth 16 else k) = count
  split
  · exact h
  split
  · exact h
  split
  · exact h
  split
  · exact h
  rename_i hdepth
  have hpush : ∀ l : HwLoop, Follows c0 x0 c
      { (if x.looping then { x with loopStack := x.inner :: x.loopStack } else x) with looping := true, inner := l } := by
    intro l
    refine ⟨h.ground, ?_, fun hx => ?_⟩
    · rw [← h.pram]
      split <;> rfl
    obtain ⟨hsr, hmr, hlen, hloop⟩ := (Setter.wf_iff x).1 (h.wf hx)
    rw [Setter.wf_iff]
    cases hl : x.looping
    · exact ⟨hsr, hmr, hlen, fun (hf : true = false) => Bool.noConfusion hf⟩
    · refine ⟨hsr, hmr, ?_, fun (hf : true = false) => Bool.noConfusion hf⟩
      simp only [Setter.depth, hl, if_true] at hdepth
      simp only [if_true, List.length_cons]
      omega
  exact (hpush _).core (Setter.refill_stored _) Setter.refill_wf

theorem coreStep_loopBack : CoreStep s n (execLoopBack n s) := ⟨s.dev.chip, _, rfl, Follows.refl.loopBack⟩

theorem coreStep_idle : CoreStep s n (execIdle n s) := by
  refine coreStep_instruction fun c0 x0 c x h => ?_
  split
  · exact h
  · exact h.regs rfl rfl rfl rfl rfl

theorem coreStep_trap (number : BitVec 8) : CoreStep s n (execTrap n number s) := by
  refine coreStep_instruction fun c0 x0 c x h => ?_
  have hhit : Follows c0 x0 c { x with lpHit := x.looping && x.pc == x.inner.last } := h.regs rfl rfl rfl rfl rfl
  have hentry := hhit.loopBack.enter 17 (x.pc + 1)
  dsimp only
  generalize Setter.enter _ 17 (x.pc + 1) = y at hentry ⊢
  exact hentry.regs rfl rfl rfl rfl rfl

theorem coreStep_sync : CoreStep s n (execSync n s) :=
  coreStep_instruction fun _ _ _ _ h => h.regs rfl rfl rfl rfl rfl

theorem coreStep_brk : CoreStep s n (execBrk n s) :=
  coreStep_instruction fun _ _ _ _ h => h.regs rfl rfl rfl rfl rfl

/-! ### Interrupts, faults and the timer -/

theorem coreStep_ok : CoreStep s n (ok s s.dev.chip) := ⟨s.dev.chip, s.dev.cores[n], by simp [ok], Follows.refl⟩

theorem coreStep_takeFault {r : Chip × Setter} (h : Follows s.dev.chip s.dev.cores[n] r.1 r.2) (cause : BitVec 8) (faddr : BitVec 40) :
    CoreStep s n (.next { s with dev := { s.dev with chip := (takeFault r.1 n r.2 cause faddr).1,
                                                     cores := s.dev.cores.set n (takeFault r.1 n r.2 cause faddr).2 } }) :=
  ⟨_, _, rfl, h.takeFault n cause faddr⟩

theorem coreStep_interruptEntry : CoreStep s n (execInterruptEntry n s) := by
  unfold execInterruptEntry
  extract_lets c x runs
  clear_value runs
  split
  · exact coreStep_ok
  split
  · exact ⟨_, _, rfl, (Follows.refl.loopBack.enter _ _).chip rfl⟩
  · exact coreStep_ok

theorem coreStep_faultEntry (cause : BitVec 8) (faddr : BitVec 40) : CoreStep s n (execFaultEntry n cause faddr s) := by
  have hzero : ∀ l : List (Fin 64), Follows s.dev.chip s.dev.cores[n]
      (l.foldl (fun a r => writeW a.1 a.2 r 0) (s.dev.chip, (s.dev.cores[n]).loopBack)).1
      (l.foldl (fun a r => writeW a.1 a.2 r 0) (s.dev.chip, (s.dev.cores[n]).loopBack)).2 := fun l =>
    List.foldlRecOn (motive := fun a : Chip × Setter => Follows s.dev.chip s.dev.cores[n] a.1 a.2) l _ Follows.refl.loopBack
      fun _ ha _ _ => ha.writeW _ _
  unfold execFaultEntry
  dsimp only
  split
  · exact coreStep_takeFault (hzero _) _ _
  · exact coreStep_takeFault (hzero _) _ _
  · exact coreStep_ok

theorem coreStep_timerCompare : CoreStep s n (execTimerCompare n s) :=
  ⟨_, _, rfl, rfl, rfl, fun w => Setter.wf_congr w rfl rfl rfl rfl⟩

end

/-! ### The instructions, each by its meaning -/

section
variable (n : Fin 8) (s : State)

theorem exec_cmul (o : MacOp) : exec (.cmul n o) s = execCmul n o s := rfl
theorem exec_cmac (o : MacOp) : exec (.cmac n o) s = execCmac n o s := rfl
theorem exec_cmsu (o : MacOp) : exec (.cmsu n o) s = execCmsu n o s := rfl
theorem exec_cjmul (o : MacOp) : exec (.cjmul n o) s = execCjmul n o s := rfl
theorem exec_cjmac (o : MacOp) : exec (.cjmac n o) s = execCjmac n o s := rfl
theorem exec_cjmsu (o : MacOp) : exec (.cjmsu n o) s = execCjmsu n o s := rfl
theorem exec_dmul (o : MacOp) : exec (.dmul n o) s = execDmul n o s := rfl
theorem exec_dmac (o : MacOp) : exec (.dmac n o) s = execDmac n o s := rfl
theorem exec_dmsu (o : MacOp) : exec (.dmsu n o) s = execDmsu n o s := rfl
theorem exec_xmac (o : MacOp) : exec (.xmac n o) s = execXmac n o s := rfl
theorem exec_pmac (o : MacOp) : exec (.pmac n o) s = execPmac n o s := rfl

theorem exec_add (o : AluOp) : exec (.add n o) s = execAdd n o s := rfl
theorem exec_sub (o : AluOp) : exec (.sub n o) s = execSub n o s := rfl
theorem exec_cadd (o : AluOp) : exec (.cadd n o) s = execCadd n o s := rfl
theorem exec_csub (o : AluOp) : exec (.csub n o) s = execCsub n o s := rfl
theorem exec_neg (o : AluOp) : exec (.neg n o) s = execNeg n o s := rfl
theorem exec_conj (o : AluOp) : exec (.conj n o) s = execConj n o s := rfl
theorem exec_abs (o : AluOp) : exec (.abs n o) s = execAbs n o s := rfl
theorem exec_min (o : AluOp) : exec (.min n o) s = execMin n o s := rfl
theorem exec_max (o : AluOp) : exec (.max n o) s = execMax n o s := rfl
theorem exec_and (o : AluOp) : exec (.and n o) s = execAnd n o s := rfl
theorem exec_or (o : AluOp) : exec (.or n o) s = execOr n o s := rfl
theorem exec_xor (o : AluOp) : exec (.xor n o) s = execXor n o s := rfl
theorem exec_not (o : AluOp) : exec (.not n o) s = execNot n o s := rfl
theorem exec_asr (o : AluOp) : exec (.asr n o) s = execAsr n o s := rfl
theorem exec_lsr (o : AluOp) : exec (.lsr n o) s = execLsr n o s := rfl
theorem exec_asl (o : AluOp) : exec (.asl n o) s = execAsl n o s := rfl
theorem exec_casr (o : AluOp) : exec (.casr n o) s = execCasr n o s := rfl
theorem exec_pack (o : AluOp) : exec (.pack n o) s = execPack n o s := rfl
theorem exec_unph (o : AluOp) : exec (.unph n o) s = execUnph n o s := rfl
theorem exec_unpl (o : AluOp) : exec (.unpl n o) s = execUnpl n o s := rfl
theorem exec_cmp (o : AluOp) : exec (.cmp n o) s = execCmp n o s := rfl
theorem exec_mov (o : AluOp) : exec (.mov n o) s = execMov n o s := rfl
theorem exec_swap (o : AluOp) : exec (.swap n o) s = execSwap n o s := rfl
theorem exec_norm (o : AluOp) : exec (.norm n o) s = execNorm n o s := rfl
theorem exec_tst (o : AluOp) : exec (.tst n o) s = execTst n o s := rfl

theorem exec_clra (o : AccOp) : exec (.clra n o) s = execClra n o s := rfl
theorem exec_ldac (o : AccOp) : exec (.ldac n o) s = execLdac n o s := rfl
theorem exec_ldar (o : AccOp) : exec (.ldar n o) s = execLdar n o s := rfl
theorem exec_adda (o : AccOp) : exec (.adda n o) s = execAdda n o s := rfl
theorem exec_suba (o : AccOp) : exec (.suba n o) s = execSuba n o s := rfl
theorem exec_mova (o : AccOp) : exec (.mova n o) s = execMova n o s := rfl
theorem exec_sra (o : AccOp) : exec (.sra n o) s = execSra n o s := rfl
theorem exec_sla (o : AccOp) : exec (.sla n o) s = execSla n o s := rfl
theorem exec_conja (o : AccOp) : exec (.conja n o) s = execConja n o s := rfl
theorem exec_stc (o : AccOp) : exec (.stc n o) s = execStc n o s := rfl
theorem exec_str (o : AccOp) : exec (.str n o) s = execStr n o s := rfl
theorem exec_sti (o : AccOp) : exec (.sti n o) s = execSti n o s := rfl
theorem exec_norma (o : AccOp) : exec (.norma n o) s = execNorma n o s := rfl

theorem exec_nearAbsoluteLoad (sp : Fin 4) (w : Fin 64) (a : BitVec 17) : exec (.nearAbsoluteLoad n sp w a) s = execNearAbsoluteLoad n sp w a s := rfl
theorem exec_nearAbsoluteStore (sp : Fin 4) (w : Fin 64) (a : BitVec 17) : exec (.nearAbsoluteStore n sp w a) s = execNearAbsoluteStore n sp w a s := rfl
theorem exec_farLoad (o : FarOp) : exec (.farLoad n o) s = execFarLoad n o s := rfl
theorem exec_farStore (o : FarOp) : exec (.farStore n o) s = execFarStore n o s := rfl
theorem exec_immediateW (r : Fin 64) (v : BitVec 40) : exec (.immediateW n r v) s = execImmediateW n r v s := rfl
theorem exec_immediateP (r : Fin 64) (v : BitVec 40) : exec (.immediateP n r v) s = execImmediateP n r v s := rfl
theorem exec_immediateM (r : Fin 64) (v : BitVec 40) : exec (.immediateM n r v) s = execImmediateM n r v s := rfl
theorem exec_immediateControl (r : Fin 64) (v : BitVec 40) : exec (.immediateControl n r v) s = execImmediateControl n r v s := rfl
theorem exec_addp (d r : Fin 16) (v : BitVec 32) : exec (.addp n d r v) s = execAddp n d r v s := rfl
theorem exec_modp (d r : Fin 16) : exec (.modp n d r) s = execModp n d r s := rfl
theorem exec_addm (d r : Fin 16) (v : BitVec 32) : exec (.addm n d r v) s = execAddm n d r v s := rfl
theorem exec_cmpp (d r : Fin 16) : exec (.cmpp n d r) s = execCmpp n d r s := rfl
theorem exec_registerMove (dk : Fin 4) (d : Fin 64) (sk : Fin 4) (r : Fin 64) : exec (.registerMove n dk d sk r) s = execRegisterMove n dk d sk r s := rfl
theorem exec_cycLoRead (dk : Fin 4) (d : Fin 64) : exec (.cycLoRead n dk d) s = execCycLoRead n dk d s := rfl
theorem exec_idle : exec (.idle n) s = execIdle n s := rfl
theorem exec_sync : exec (.sync n) s = execSync n s := rfl
theorem exec_brk : exec (.brk n) s = execBrk n s := rfl
theorem exec_loopBack : exec (.loopBack n) s = execLoopBack n s := rfl
theorem exec_interruptEntry : exec (.interruptEntry n) s = execInterruptEntry n s := rfl
theorem exec_faultEntry (cause : BitVec 8) (faddr : BitVec 40) : exec (.faultEntry n cause faddr) s = execFaultEntry n cause faddr s := rfl
theorem exec_timerCompare : exec (.timerCompare n) s = execTimerCompare n s := rfl

end

/-! ### Every instruction word -/

section
variable {n : Fin 8} {w : Nat} {i : Instr} {s : State}

theorem coreStep_of_decodeControl (h : decodeControl n w = some i) : CoreStep s n (exec i s) := by
  unfold decodeControl at h
  dsimp only at h
  split at h
  all_goals cases h
  · exact coreStep_br ..
  · exact coreStep_bri ..
  · exact coreStep_call ..
  · exact coreStep_calli ..
  · exact coreStep_ret ..
  · exact coreStep_nop
  · exact coreStep_rti
  · exact coreStep_rpt ..
  · exact coreStep_loop ..
  · exact coreStep_idle
  · exact coreStep_trap _
  · exact coreStep_sync
  · exact coreStep_brk

theorem coreStep_of_decodeMac (h : decodeMac n w = some i) : CoreStep s n (exec i s) := by
  unfold decodeMac at h
  dsimp only at h
  split at h
  all_goals cases h
  all_goals
    simp only [exec_cmul, exec_cmac, exec_cmsu, exec_cjmul, exec_cjmac, exec_cjmsu, exec_dmul, exec_dmac, exec_dmsu, exec_xmac,
    exec_pmac]
    exact coreStep_mac ..

theorem coreStep_of_decodeAlu (h : decodeAlu n w = some i) : CoreStep s n (exec i s) := by
  unfold decodeAlu at h
  dsimp only at h
  split at h
  all_goals cases h
  all_goals
    simp only [exec_add, exec_sub, exec_cadd, exec_csub, exec_neg, exec_conj, exec_abs, exec_min, exec_max, exec_and, exec_or,
    exec_xor, exec_not, exec_asr, exec_lsr, exec_asl, exec_casr, exec_pack, exec_unph, exec_unpl, exec_cmp, exec_mov,
    exec_swap, exec_norm, exec_tst]
    exact coreStep_alu ..

theorem coreStep_of_decodeAcc (h : decodeAcc n w = some i) : CoreStep s n (exec i s) := by
  unfold decodeAcc at h
  dsimp only at h
  split at h
  all_goals cases h
  all_goals
    simp only [exec_clra, exec_ldac, exec_ldar, exec_adda, exec_suba, exec_mova, exec_sra, exec_sla, exec_conja, exec_stc,
    exec_str, exec_sti, exec_norma]
    exact coreStep_acc ..

theorem coreStep_of_decodeNear (h : decodeNear n w = some i) : CoreStep s n (exec i s) := by
  unfold decodeNear at h
  dsimp only at h
  split at h
  all_goals cases h
  · exact coreStep_nearStore ..
  · exact coreStep_nearLoad ..

theorem coreStep_of_decodeImm (h : decodeImm n w = some i) : CoreStep s n (exec i s) := by
  unfold decodeImm at h
  dsimp only at h
  split at h
  all_goals cases h
  · exact coreStep_immediateW ..
  · exact coreStep_immediateP ..
  · exact coreStep_immediateM ..
  · exact coreStep_immediateControl ..

theorem coreStep_of_decodePtr (h : decodePtr n w = some i) : CoreStep s n (exec i s) := by
  unfold decodePtr at h
  dsimp only at h
  split at h
  all_goals cases h
  · exact coreStep_addp ..
  · exact coreStep_modp ..
  · exact coreStep_addm ..
  · exact coreStep_cmpp ..

theorem coreStep_of_decodeMoveReg (h : decodeMoveReg n w = some i) : CoreStep s n (exec i s) := by
  cases h
  exact coreStep_registerMove ..

/-- Whatever word a setter runs, its instruction is such a step. -/
theorem coreStep_of_decode (h : decodeSetter n w = some i) : CoreStep s n (exec i s) := by
  unfold decodeSetter at h
  split at h
  · exact coreStep_of_decodeControl h
  · exact coreStep_of_decodeMac h
  · exact coreStep_of_decodeAlu h
  · exact coreStep_of_decodeAcc h
  · exact coreStep_of_decodeNear h
  · split at h
    all_goals cases h
    · exact coreStep_farStore _
    · exact coreStep_farLoad _
  · exact coreStep_of_decodeImm h
  · exact coreStep_of_decodePtr h
  · exact coreStep_of_decodeMoveReg h
  · cases h

end

end Sys2Proof.Machine

namespace Sys2Proof
open Machine

/-- Settles O20: whatever the word, the instruction is a step of its own core and the chip (`coreStep_of_decode`). -/
theorem setterFrame : Obligations.SetterFrame := by
  unfold Obligations.SetterFrame
  intro n m w i s t hdecode hexec hne
  obtain ⟨c, y, heq, hfollows⟩ := coreStep_of_decode (s := s) hdecode
  obtain rfl : t = _ := by simpa [hexec] using heq
  have hground := hfollows.ground
  simp only [Chip.ground, Prod.mk.injEq] at hground
  obtain ⟨hlc, hstreams, hlanes, hdom⟩ := hground
  refine ⟨?_, rfl, rfl, ?_, hlc, hstreams, hlanes, hdom⟩
  · exact Vector.getElem_set_ne n.isLt m.isLt fun e => hne (Fin.ext e.symm)
  · simpa using hfollows.pram

end Sys2Proof
end

section
/-! SUPPORT. An instruction of the arithmetic, accumulator or MAC class without moves stores nothing (R296-R300). -/

namespace Sys2Proof.Machine

theorem moves_of_disabled (o x : Setter) {mx my : Move} (hx : mx.en = false) (hy : my.en = false) : moves o x mx my = x := by
  simp [moves, xMove, yMove, hx, hy]

/-- The command completes and leaves what setter `n` stores. -/
def StoresNothing (s : State) (n : Fin 8) (r : Host.Outcome State Fault Refusal) : Prop :=
  ∃ c y, r = .next { s with dev := { s.dev with chip := c, cores := s.dev.cores.set n y } } ∧ y.stored = (s.dev.cores[n]).stored

theorem storesNothing_instruction {s : State} {n : Fin 8} {sh : Shape} {reads : Setter → List (Fin 64)} {body : Chip → Setter → Effect}
    (h : ∀ c x, (body c x).core.stored = x.stored) : StoresNothing s n (instruction s n sh reads body) := by
  have hP : KeptByPipeline n fun _ x => x.stored = (s.dev.cores[n]).stored :=
    { resume := fun hx => hx
      count := fun _ _ hx => hx
      loopBack := fun hx => (Setter.loopBack_stored _).trans hx
      advance := fun hx => (Setter.advance_stored _).trans hx
      copied := fun hx => (Setter.copied_stored _).trans hx
      finish := fun _ _ _ _ hx => (Setter.finish_stored ..).trans hx
      enterFault := fun _ _ _ hx => (Setter.enterFault_stored ..).trans hx }
  exact hP.instruction rfl sh reads fun c x hx => (h c x).trans hx

section
variable {s : State} {n : Fin 8}

theorem storesNothing_alu (f : Bool → W40 → W40 → AluOut) (usesB : Bool) {o : AluOp} (hx : o.x.en = false) (hy : o.y.en = false) :
    StoresNothing s n (execAlu f usesB n o s) := by
  refine storesNothing_instruction fun c x => ?_
  dsimp only
  split
  · rfl
  have hw : ∀ b : Bool, (if b then writeW c x (x.phys o.wd) (f o.s (x.rdW o.wa) (x.rdW o.wb)).word else (c, x)).2.stored = x.stored := by
    intro b
    cases b
    · rfl
    · exact Setter.writeW_stored ..
  simp only [moves_of_disabled _ _ hx hy]
  split
  · exact (Setter.writeFlags_stored ..).trans (hw _)
  · exact hw _

theorem storesNothing_acc (f : Bool → Nat → Int → Int → Int → Int → W40 → AccOut) (readsW : Bool) {o : AccOp} (hx : o.x.en = false)
    (hy : o.y.en = false) : StoresNothing s n (execAcc f readsW n o s) := by
  refine storesNothing_instruction fun c x => ?_
  dsimp only
  split
  · rfl
  simp only [moves_of_disabled _ _ hx hy]
  split
  · rename_i re im quiet _
    cases quiet
    · exact Setter.writeFlags_stored ..
    · rfl
  · exact Setter.writeFlags_stored ..

theorem macB_of_disabled (x : Setter) {o : MacOp} (h : o.pb.en = false) : macB x o = (x.rdW o.wb, x, 0) := by
  simp [macB, h]

theorem storesNothing_mac (f : Int → Int → Int → Int → Int → Int → Int × Int) (usesB : Bool) {o : MacOp} (hx : o.x.en = false)
    (hy : o.y.en = false) (hb : o.pb.en = false) : StoresNothing s n (execMac f usesB n o s) := by
  refine storesNothing_instruction fun c x => ?_
  dsimp only
  split
  · rfl
  simp only [moves_of_disabled _ _ hx hy, macB_of_disabled x hb]
  cases usesB <;> rfl

end

end Sys2Proof.Machine

namespace Sys2Proof
open Machine

/-- Settles O21, by the three classes (`storesNothing_alu`, `storesNothing_acc`, `storesNothing_mac`). -/
theorem plainSetterFrame : Obligations.PlainSetterFrame := by
  unfold Obligations.PlainSetterFrame
  intro n a c k s t hax hay hcx hcy hkx hky hkb hexec
  have hstep : StoresNothing s n (.next t) := by
    rw [exec_add, exec_sub, exec_and, exec_adda, exec_stc, exec_cmac] at hexec
    rcases hexec with h | h | h | h | h | h <;> rw [← h]
    · exact storesNothing_alu _ _ hax hay
    · exact storesNothing_alu _ _ hax hay
    · exact storesNothing_alu _ _ hax hay
    · exact storesNothing_acc _ _ hcx hcy
    · exact storesNothing_acc _ _ hcx hcy
    · exact storesNothing_mac _ _ hkx hky hkb
  obtain ⟨c, y, heq, hstored⟩ := hstep
  cases heq
  simp only [Setter.stored, Prod.mk.injEq] at hstored
  obtain ⟨⟨hxram, hyram, hpram⟩, ⟨hp, hm⟩, hstores, himask, hlr⟩ := hstored
  simp [hxram, hyram, hpram, hp, hm, hstores, himask, hlr]

end Sys2Proof
end

section
/-! SUPPORT. The memories: bytes written are read back, and every write keeps the canonical form. -/

namespace Sys2Proof.Machine

/-! ### Read after write -/

/-- A byte outside a written string reads as before. -/
theorem byteAt_putBytes_of_outside (b : List Byte) {m : ByteMem} {a k : Nat} (h : k < a ∨ a + b.length ≤ k) :
    byteAt (putBytes m a b) k = byteAt m k := by
  induction b generalizing m a with
  | nil => rfl
  | cons v t ih =>
    rw [List.length_cons] at h
    calc byteAt (putBytes (putByte m a v) (a + 1) t) k = byteAt (putByte m a v) k := ih (by omega)
      _ = byteAt m k := byteAt_putByte_ne m v (by omega)

theorem getBytes_putBytes (m : ByteMem) (a : Nat) (b : List Byte) : getBytes (putBytes m a b) a b.length = b := by
  induction b generalizing m a with
  | nil => rfl
  | cons v t ih =>
    have hhead : byteAt (putBytes (putByte m a v) (a + 1) t) a = v := by
      rw [byteAt_putBytes_of_outside t (by omega), byteAt_putByte_same]
    show byteAt (putBytes (putByte m a v) (a + 1) t) a :: getBytes (putBytes (putByte m a v) (a + 1) t) (a + 1) t.length = v :: t
    rw [hhead, ih]

/-! ### Tags -/

theorem Mem.wf_iff (m : Mem) :
    m.wf = true ↔ Memory.wf m.sram = true ∧ Memory.wf m.hbm = true ∧ SMap.wf m.tagDefault m.tag = true := by
  simp [Mem.wf, and_assoc]

theorem Mem.wf_setSram {m : Mem} (h : m.wf = true) {b : ByteMem} (hb : Memory.wf b = true) : ({ m with sram := b } : Mem).wf = true := by
  rw [Mem.wf_iff] at h ⊢
  exact ⟨hb, h.2⟩

theorem Mem.wf_setHbm {m : Mem} (h : m.wf = true) {b : ByteMem} (hb : Memory.wf b = true) : ({ m with hbm := b } : Mem).wf = true := by
  rw [Mem.wf_iff] at h ⊢
  exact ⟨h.1, hb, h.2.2⟩

theorem Mem.sram_wf {m : Mem} (h : m.wf = true) : Memory.wf m.sram = true := ((Mem.wf_iff m).1 h).1

theorem Mem.hbm_wf {m : Mem} (h : m.wf = true) : Memory.wf m.hbm = true := ((Mem.wf_iff m).1 h).2.1

theorem Mem.setTag_wf {m : Mem} (h : m.wf = true) (u : Nat) (v : Bool) : (m.setTag u v).wf = true := by
  obtain ⟨hs, hh, ht⟩ := (Mem.wf_iff m).1 h
  exact (Mem.wf_iff _).2 ⟨hs, hh, sset_wf m.tagDefault m.tag u v ht⟩

theorem Mem.store_wf {m : Mem} (h : m.wf = true) (w : WriteUnit) : (m.store w).wf = true :=
  Mem.setTag_wf (Mem.wf_setHbm h (putBytes_wf _ _ _ (Mem.hbm_wf h))) _ _

/-- A poisoned range loses its tags, and outside it a tag reads unlisted as before. -/
theorem Mem.poisonRange_wf {m : Mem} (h : m.wf = true) (lo hi : Nat) : (m.poisonRange lo hi).wf = true := by
  unfold Mem.poisonRange
  split
  · exact h
  obtain ⟨hs, hh, ht⟩ := (Mem.wf_iff m).1 h
  refine (Mem.wf_iff _).2 ⟨hs, hh, filter_wfFrom m.tagDefault _ _ none m.tag (fun e _ he => ?_) ht⟩
  have hout : ¬ (lo ≤ 32 * e.1 ∧ 32 * e.1 < hi) := by
    have hkept : 32 * e.1 < lo ∨ hi ≤ 32 * e.1 := by simpa using he
    omega
  unfold Mem.tagDefault
  dsimp only
  cases hl : m.lost with
  | nil => simpa using hout
  | cons r t =>
    obtain ⟨a, b⟩ := r
    by_cases hb : b = lo
    · subst hb
      have hmerge : (a ≤ 32 * e.1 ∧ 32 * e.1 < hi) ↔ (a ≤ 32 * e.1 ∧ 32 * e.1 < b) := by omega
      simp [← Bool.decide_and, hmerge]
    · simp [hb, ← Bool.decide_and, hout]

/-! ### The device -/

namespace Dev

variable {d : Dev} (h : d.wf)
include h

theorem wf_setMem {m : Mem} (hm : m.wf = true) : ({ d with mem := m } : Dev).wf := ⟨hm, h.2⟩

theorem wf_setCore (n : Fin 8) {x : Setter} (hx : (d.cores[n]).wf = true → x.wf = true) :
    ({ d with cores := d.cores.set n x } : Dev).wf := by
  refine ⟨h.1, fun m => ?_⟩
  by_cases hm : m = n
  · subst hm
    simpa using hx (h.2 m)
  · have hne : n.val ≠ m.val := fun e => hm (Fin.ext e.symm)
    simpa [hne] using h.2 m

end Dev

theorem Mem.atReset_wf : Mem.atReset.wf = true := by decide

/-- A device with its setters and memories at reset. -/
theorem Dev.wf_atReset (c : Chip) : Dev.wf ⟨c, Vector.replicate 8 Setter.atReset, Mem.atReset⟩ :=
  ⟨Mem.atReset_wf, fun n => by simpa using Setter.atReset_wf⟩

end Sys2Proof.Machine

namespace Sys2Proof
open Machine

/-- Settles O60: each byte of the string is read back, byte by byte along it. -/
theorem memoryReadAfterWrite : Obligations.MemoryReadAfterWrite := by
  unfold Obligations.MemoryReadAfterWrite
  exact fun m a b => ⟨getBytes_putBytes m a b, fun _ hk => byteAt_putBytes_of_outside b hk⟩

/-- Settles O57. -/
theorem devWfReset : Obligations.DevWfReset := Dev.wf_atReset _

end Sys2Proof
end

section
/-! SUPPORT. The pipeline over several instructions (R291, R308): what an instruction sends ahead lands as the third one after it enters D. -/

namespace Sys2Proof.Machine

/-! ### Moves send loads ahead -/

theorem xMove_frame (o x : Setter) (m : Move) : ∃ p r f, xMove o x m = { x with p := p, xram := r, flight := x.flight ++ f } ∧
    ∀ e ∈ f, ∃ w v, e = ⟨3, .load w v⟩ := by
  have hsame : ∃ p r f, x = { x with p := p, xram := r, flight := x.flight ++ f } ∧
      ∀ e ∈ f, ∃ w v, e = (⟨3, .load w v⟩ : InFlight) := ⟨x.p, x.xram, [], by simp, by simp⟩
  unfold xMove
  split
  · dsimp only
    split
    · exact hsame
    split
    · exact ⟨_, _, [], by rw [List.append_nil], by simp⟩
    · exact ⟨_, _, [_], rfl, by simp⟩
  · exact hsame

theorem yMove_frame (o x : Setter) (m : Move) : ∃ p r f, yMove o x m = { x with p := p, yram := r, flight := x.flight ++ f } ∧
    ∀ e ∈ f, ∃ w v, e = ⟨3, .load w v⟩ := by
  have hsame : ∃ p r f, x = { x with p := p, yram := r, flight := x.flight ++ f } ∧
      ∀ e ∈ f, ∃ w v, e = (⟨3, .load w v⟩ : InFlight) := ⟨x.p, x.yram, [], by simp, by simp⟩
  unfold yMove
  split
  · dsimp only
    split
    · exact hsame
    split
    · exact ⟨_, _, [], by rw [List.append_nil], by simp⟩
    · exact ⟨_, _, [_], rfl, by simp⟩
  · exact hsame

/-- Parallel moves change pointers and stored words, and send loads three instructions ahead. -/
theorem moves_frame (o x : Setter) (mx my : Move) : ∃ p xr yr f,
    moves o x mx my = { x with p := p, xram := xr, yram := yr, flight := x.flight ++ f } ∧ ∀ e ∈ f, ∃ w v, e = ⟨3, .load w v⟩ := by
  obtain ⟨p, xr, f, hx, hf⟩ := xMove_frame o x mx
  obtain ⟨q, yr, g, hy, hg⟩ := yMove_frame o (xMove o x mx) my
  refine ⟨q, xr, yr, f ++ g, ?_, fun e he => ?_⟩
  · unfold moves
    rw [hy, hx]
    simp
  · rcases List.mem_append.1 he with he | he
    · exact hf e he
    · exact hg e he

/-! ### The pipeline alone -/

/-- Every entry is one instruction nearer. -/
def nearer (f : List InFlight) : List InFlight := f.map fun e => { e with left := e.left - 1 }

theorem advance_of_none_due {x : Setter} (h : ∀ e ∈ x.flight, 2 ≤ e.left) : x.advance = { x with flight := nearer x.flight } := by
  have hleft : ∀ e ∈ nearer x.flight, e.left ≠ 0 := by
    intro e he
    obtain ⟨e', he', rfl⟩ := List.mem_map.1 he
    have := h e' he'
    show e'.left - 1 ≠ 0
    omega
  have hdue : (nearer x.flight).filter (fun e => e.left == 0) = [] := by
    rw [List.filter_eq_nil_iff]
    simpa using hleft
  have hrest : (nearer x.flight).filter (fun e => e.left != 0) = nearer x.flight := by
    rw [List.filter_eq_self]
    simpa using hleft
  unfold nearer at hdue hrest ⊢
  simp only [Setter.advance, hdue, hrest, List.foldl_nil]

theorem advance_of_all_due {x : Setter} (h : ∀ e ∈ x.flight, e.left = 1) :
    x.advance = x.flight.foldl (fun y e => y.land e.what) { x with flight := [] } := by
  have hleft : ∀ e ∈ nearer x.flight, e.left = 0 := by
    intro e he
    obtain ⟨e', he', rfl⟩ := List.mem_map.1 he
    show e'.left - 1 = 0
    rw [h e' he']
  have hdue : (nearer x.flight).filter (fun e => e.left == 0) = nearer x.flight := by
    rw [List.filter_eq_self]
    simpa using hleft
  have hrest : (nearer x.flight).filter (fun e => e.left != 0) = [] := by
    rw [List.filter_eq_nil_iff]
    simpa using hleft
  unfold nearer at hdue hrest
  simp only [Setter.advance, hdue, hrest, List.foldl_map]

/-- A landing changes W registers, accumulators and SR. -/
theorem land_frame (x : Setter) (l : Landing) : ∃ w r i sr, x.land l = { x with w := w, accR := r, accI := i, sr := sr } := by
  cases l <;> exact ⟨_, _, _, _, rfl⟩

theorem foldl_land_frame (f : List InFlight) (x : Setter) :
    ∃ w r i sr, f.foldl (fun y e => y.land e.what) x = { x with w := w, accR := r, accI := i, sr := sr } :=
  List.foldlRecOn (motive := fun y : Setter => ∃ w r i sr, y = { x with w := w, accR := r, accI := i, sr := sr }) f _
    ⟨_, _, _, _, rfl⟩ fun y hy e _ => by
      obtain ⟨w, r, i, sr, rfl⟩ := hy
      exact land_frame _ e.what

theorem advance_frame (x : Setter) : ∃ w r i sr f, x.advance = { x with w := w, accR := r, accI := i, sr := sr, flight := f } := by
  obtain ⟨w, r, i, sr, h⟩ := foldl_land_frame _ { x with flight := (nearer x.flight).filter fun e => e.left != 0 }
  exact ⟨w, r, i, sr, _, h⟩

/-- Loads that land leave the accumulators. -/
theorem foldl_land_loads {f : List InFlight} (h : ∀ e ∈ f, ∃ k w v, e = ⟨k, .load w v⟩) (x : Setter) :
    ∃ w, f.foldl (fun y e => y.land e.what) x = { x with w := w } :=
  List.foldlRecOn (motive := fun y : Setter => ∃ w, y = { x with w := w }) f _ ⟨x.w, rfl⟩ fun y hy e he => by
    obtain ⟨w, rfl⟩ := hy
    obtain ⟨k, r, v, rfl⟩ := h e he
    exact ⟨_, rfl⟩

/-! ### NOPs -/

/-- No branch, repeat, loop or map change is under way. -/
structure Setter.Unbranched (x : Setter) : Prop where
  branch : x.branch = none
  rptcnt : x.rptcnt = 0
  looping : x.looping = false
  lpHit : x.lpHit = false
  remap : x.remap = none

/-- The core runs so; its pipeline may hold entries. -/
structure Setter.Straight (x : Setter) : Prop extends x.Unbranched where
  mode : x.mode = .running
  syncing : x.syncing = false

theorem Setter.Unbranched.advance {x : Setter} (h : x.Unbranched) : x.advance.Unbranched := by
  obtain ⟨w, r, i, sr, f, hx⟩ := advance_frame x
  rw [hx]
  exact ⟨h.branch, h.rptcnt, h.looping, h.lpHit, h.remap⟩

theorem advance_cyc (x : Setter) : x.advance.cyc = x.cyc := by
  obtain ⟨w, r, i, sr, f, hx⟩ := advance_frame x
  rw [hx]

/-- What a NOP leaves of such a core: what was due has landed. -/
def Setter.nopped (x : Setter) : Setter := { x.advance with pc := x.pc + 1, cyc := x.cyc + 1 }

theorem Setter.Straight.nopped {x : Setter} (h : x.Straight) : x.nopped.Straight := by
  obtain ⟨w, r, i, sr, f, hx⟩ := advance_frame x
  unfold Setter.nopped
  rw [hx]
  exact ⟨⟨h.branch, h.rptcnt, h.looping, h.lpHit, h.remap⟩, h.mode, h.syncing⟩

theorem State.quiet.straight {s : State} {n : Fin 8} (h : s.quiet n) : (s.dev.cores[n]).Straight := by
  obtain ⟨-, hmode, hsync, -, -, hbranch, hrpt, hloop, hhit, hremap⟩ := h
  exact ⟨⟨hbranch, hrpt, hloop, hhit, hremap⟩, hmode, hsync⟩

/-- A NOP of a running core outside a repeat and a loop: what is due lands, and the instruction ends. -/
theorem exec_nop_of_running {s : State} {n : Fin 8} (hclock : s.dev.chip.domClock (78 + n.val) = true)
    (hmode : (s.dev.cores[n]).mode = .running) (hsync : (s.dev.cores[n]).syncing = false) (hrpt : (s.dev.cores[n]).rptcnt = 0)
    (hloop : (s.dev.cores[n]).looping = false) (hhit : (s.dev.cores[n]).lpHit = false) :
    exec (.nop n) s = .next (s.putCore n (finish (s.dev.cores[n]).advance (s.dev.cores[n]).pc none false 0)) := by
  have hready : ready s.dev.chip n s.dev.cores[n] = true := by
    unfold ready
    rw [hclock, hmode, hsync]
    rfl
  have hback : ({ s.dev.cores[n] with mode := .running, syncing := false } : Setter).loopBack = s.dev.cores[n] := by
    rw [running_eta _ hmode hsync, loopBack_of_not_hit _ hhit]
  obtain ⟨w, r, i, sr, f, hadv⟩ := advance_frame s.dev.cores[n]
  have hcopied : (s.dev.cores[n]).advance.copied = (s.dev.cores[n]).advance := by
    rw [hadv]
    exact copied_of_not_looping _ hloop
  have hpc : (s.dev.cores[n]).advance.pc = (s.dev.cores[n]).pc := by rw [hadv]
  have hrpt' : (s.dev.cores[n]).advance.rptcnt = 0 := by rw [hadv]; exact hrpt
  rw [exec_nop]
  unfold execNop instruction
  simp only []
  rw [hready, hback, hcopied, hrpt', hpc]
  simp [interlocked, Shape.plainControl, Effect.plain, State.putCore]

theorem exec_nop_of_straight {s : State} {n : Fin 8} (hclock : s.dev.chip.domClock (78 + n.val) = true)
    (h : (s.dev.cores[n]).Straight) : exec (.nop n) s = .next (s.putCore n (s.dev.cores[n]).nopped) := by
  have hadv := h.toUnbranched.advance
  rw [exec_nop_of_running hclock h.mode h.syncing h.rptcnt h.looping h.lpHit,
    finish_quiet _ _ _ hadv.branch hadv.rptcnt hadv.looping hadv.lpHit hadv.remap, advance_cyc]
  rfl

@[simp] theorem State.putCore_putCore (s : State) (n : Fin 8) (x y : Setter) : (s.putCore n x).putCore n y = s.putCore n y := by
  simp [State.putCore]

/-- Three NOPs in a row. -/
theorem exec_three_nops {s : State} {n : Fin 8} {x : Setter} (hclock : s.dev.chip.domClock (78 + n.val) = true) (h : x.Straight) :
    exec (.nop n) (s.putCore n x) = .next (s.putCore n x.nopped) ∧
    exec (.nop n) (s.putCore n x.nopped) = .next (s.putCore n x.nopped.nopped) ∧
    exec (.nop n) (s.putCore n x.nopped.nopped) = .next (s.putCore n x.nopped.nopped.nopped) := by
  have hstep : ∀ y : Setter, y.Straight → exec (.nop n) (s.putCore n y) = .next (s.putCore n y.nopped) := fun y hy => by
    rw [exec_nop_of_straight (s := s.putCore n y) hclock (by rwa [State.putCore_same]), State.putCore_same,
      State.putCore_putCore]
  exact ⟨hstep _ h, hstep _ h.nopped, hstep _ h.nopped.nopped⟩

/-- Entries three instructions ahead are one instruction ahead after two NOPs. -/
theorem nopped_nopped_of_three {x : Setter} (h : ∀ e ∈ x.flight, e.left = 3) :
    x.nopped.nopped = { x with flight := nearer (nearer x.flight), pc := x.pc + 1 + 1, cyc := x.cyc + 1 + 1 } := by
  have h1 : x.nopped = { x with flight := nearer x.flight, pc := x.pc + 1, cyc := x.cyc + 1 } := by
    unfold Setter.nopped
    rw [advance_of_none_due fun e he => by rw [h e he]; decide]
  have h2 : ∀ e ∈ nearer x.flight, 2 ≤ e.left := by
    intro e he
    obtain ⟨e', he', rfl⟩ := List.mem_map.1 he
    show 2 ≤ e'.left - 1
    rw [h e' he']
  rw [h1]
  unfold Setter.nopped
  rw [advance_of_none_due h2]

/-- They land as the third NOP enters D. -/
theorem nopped_three {x : Setter} (h : ∀ e ∈ x.flight, e.left = 3) : x.nopped.nopped.nopped =
    { x.flight.foldl (fun y e => y.land e.what) { x with flight := [], pc := x.pc + 1 + 1, cyc := x.cyc + 1 + 1 } with
      pc := x.pc + 1 + 1 + 1, cyc := x.cyc + 1 + 1 + 1 } := by
  have hall : ∀ e ∈ nearer (nearer x.flight), e.left = 1 := by
    intro e he
    obtain ⟨e', he', rfl⟩ := List.mem_map.1 he
    obtain ⟨e'', he'', rfl⟩ := List.mem_map.1 he'
    show e''.left - 1 - 1 = 1
    rw [h e'' he'']
  rw [nopped_nopped_of_three h]
  unfold Setter.nopped
  rw [advance_of_all_due hall]
  simp only [nearer, List.foldl_map]

end Sys2Proof.Machine
end

section
/-! SUPPORT. One instruction of a quiet setter, class by class: nothing lands, nothing loops, and the state after it is its own effect
with pc and the cycle counter moved on (R287-R318). -/

namespace Sys2Proof.Machine

/-! ### The end of an instruction -/

theorem finish_of_unbranched {y : Setter} (h : y.Unbranched) (a : BitVec 16) (k : Nat) :
    finish y a none false k = { y with pc := a + 1, cyc := y.cyc + BitVec.ofNat 64 (1 + k) } :=
  finish_quiet y a k h.branch h.rptcnt h.looping h.lpHit h.remap

/-- The end of an instruction that sets up what follows it (a branch, RPT, LOOP or a skip), not at the end of a loop's body. -/
theorem finish_setup {y : Setter} {a : BitVec 16} (hend : (y.looping && a == y.inner.last) = false) (hhit : y.lpHit = false)
    (hremap : y.remap = none) (j : Option (BitVec 16)) (k : Nat) :
    finish y a j true k = { y with pc := j.getD (a + 1), cyc := y.cyc + BitVec.ofNat 64 (1 + k) } := by
  cases y
  simp_all [finish]

theorem putCore_afterCycles (s : State) (n : Fin 8) (k : Nat) (y : Setter) (hcyc : y.cyc = (s.dev.cores[n]).cyc) :
    s.putCore n { y with pc := (s.dev.cores[n]).pc + 1, cyc := y.cyc + BitVec.ofNat 64 k } = s.afterCycles n k y := by
  rw [hcyc]
  rfl

section
variable {s : State} {n : Fin 8} (h : s.quiet n)
include h

theorem instruction_of_body {sh : Shape} {reads : Setter → List (Fin 64)} {body : Chip → Setter → Effect} {e : Effect}
    (hbody : body s.dev.chip s.dev.cores[n] = e) (hfault : e.fault = none) :
    instruction s n sh reads body =
      .next { s with dev := { s.dev with chip := e.chip, cores := s.dev.cores.set n (finish e.core (s.dev.cores[n]).pc e.jump e.setup e.stall) } } := by
  rw [instruction_quiet s n h, hbody, hfault]

/-- An instruction of a quiet setter whose effect is another core, with nothing begun that outlasts it. -/
theorem instruction_after {sh : Shape} {reads : Setter → List (Fin 64)} {body : Chip → Setter → Effect} {y : Setter} {k : Nat}
    (hbody : body s.dev.chip s.dev.cores[n] = ⟨s.dev.chip, y, none, false, k, none⟩) (hy : y.Unbranched)
    (hcyc : y.cyc = (s.dev.cores[n]).cyc) : instruction s n sh reads body = .next (s.afterCycles n (1 + k) y) := by
  rw [instruction_of_body h hbody rfl, finish_of_unbranched hy, ← putCore_afterCycles s n (1 + k) y hcyc]
  rfl

/-- One that sets up what follows it. -/
theorem instruction_setup {sh : Shape} {reads : Setter → List (Fin 64)} {body : Chip → Setter → Effect} {y : Setter}
    (hbody : body s.dev.chip s.dev.cores[n] = ⟨s.dev.chip, y, none, true, 0, none⟩)
    (hend : (y.looping && (s.dev.cores[n]).pc == y.inner.last) = false) (hhit : y.lpHit = false) (hremap : y.remap = none)
    (hcyc : y.cyc = (s.dev.cores[n]).cyc) : instruction s n sh reads body = .next (s.after n y) := by
  rw [instruction_of_body h hbody rfl, finish_setup hend hhit hremap, State.after, ← putCore_afterCycles s n 1 y hcyc]
  rfl

theorem quiet_flight : (s.dev.cores[n]).flight = [] := by
  obtain ⟨-, -, -, hflight, -⟩ := h
  exact hflight

theorem quiet_unbranched : (s.dev.cores[n]).Unbranched := h.straight.toUnbranched

end

/-! ### Writes with an empty pipeline, and moves -/

theorem writeW_of_empty {x : Setter} (h : x.flight = []) (c : Chip) (r : Fin 64) (v : W40) :
    writeW c x r v = (c, { x with w := x.w.set r v }) := by
  cases x
  simp_all [writeW]

theorem writeFlags_of_empty {x : Setter} (h : x.flight = []) (c : Chip) (z n v : Bool) :
    writeFlags c x z n v = (c, { x with sr := setFlags x.sr z n v }) := by
  simp [writeFlags, h]

theorem Setter.Unbranched.moves {x : Setter} (h : x.Unbranched) (o : Setter) (mx my : Move) : (moves o x mx my).Unbranched := by
  obtain ⟨p, xr, yr, f, hm, -⟩ := moves_frame o x mx my
  rw [hm]
  exact ⟨h.branch, h.rptcnt, h.looping, h.lpHit, h.remap⟩

theorem moves_cyc (o x : Setter) (mx my : Move) : (moves o x mx my).cyc = x.cyc := by
  obtain ⟨p, xr, yr, f, hm, -⟩ := moves_frame o x mx my
  rw [hm]

/-! ### The ALU class -/

/-- What an ALU result leaves of a core with an empty pipeline, before the moves. -/
def Setter.aluResult (x : Setter) (o : AluOp) (r : AluOut) : Setter :=
  { x with w := if r.writes then x.w.set (x.phys o.wd) r.word else x.w,
           sr := match r.flags with | some (z, n, v) => setFlags x.sr z n v | none => x.sr }

section
variable {s : State} {n : Fin 8} (h : s.quiet n)
include h

theorem execAlu_of_quiet (f : Bool → W40 → W40 → AluOut) (usesB : Bool) {o : AluOp} (hx : moveIllegal o.x = false)
    (hy : moveIllegal o.y = false) : execAlu f usesB n o s = .next (s.after n (moves s.dev.cores[n]
      ((s.dev.cores[n]).aluResult o (f o.s ((s.dev.cores[n]).rdW o.wa) ((s.dev.cores[n]).rdW o.wb))) o.x o.y)) := by
  have hflight := quiet_flight h
  have hu := quiet_unbranched h
  have hresult : ∀ r, ((s.dev.cores[n]).aluResult o r).Unbranched := fun r =>
    ⟨hu.branch, hu.rptcnt, hu.looping, hu.lpHit, hu.remap⟩
  refine instruction_after h (k := 0) ?_ ((hresult _).moves _ _ _) (moves_cyc ..)
  generalize s.dev.cores[n] = x at *
  have hafter : ∀ c w z n v, writeFlags c { x with w := w } z n v = (c, { x with w := w, sr := setFlags x.sr z n v }) :=
    fun c w z n v => writeFlags_of_empty (x := { x with w := w }) hflight c z n v
  obtain ⟨word, writes, flags⟩ := f o.s (x.rdW o.wa) (x.rdW o.wb)
  cases writes <;> cases flags <;>
    simp [hx, hy, writeW_of_empty hflight, writeFlags_of_empty hflight, hafter, Effect.plain, Setter.aluResult]

end

/-! ### The accumulator class -/

/-- Both parts of ACCD written, beside the flags unless `quiet`. -/
def Setter.accResult (x : Setter) (o : AccOp) (re im : Int) (quiet : Bool) : Setter :=
  { x with accR := x.accR.set o.accd (of48 (part o.s 48 re)), accI := x.accI.set o.accd (of48 (part o.s 48 im)),
           sr := if quiet then x.sr else setFlags x.sr (part o.s 48 re == 0 && part o.s 48 im == 0) (decide (part o.s 48 re < 0))
             (outside 48 re || outside 48 im) }

/-- A word on its way to W[o.w], two instructions ahead; the near loads of the same instruction for that register are lost (R291). -/
def Setter.accStore (x : Setter) (o : AccOp) (v : W40) (z neg ovf : Bool) : Setter :=
  let y := moves x { x with sr := setFlags x.sr z neg ovf } o.x o.y
  ({ y with flight := y.flight.filter fun e => !(e.left == 3 && e.loads (x.phys o.w)) } : Setter).issue 2 (.store (x.phys o.w) v)

theorem accStore_frame (x : Setter) (o : AccOp) (v : W40) (z neg ovf : Bool) : ∃ p sr xr yr f,
    x.accStore o v z neg ovf = { x with p := p, sr := sr, xram := xr, yram := yr, flight := f } := by
  obtain ⟨p, xr, yr, f, hm, -⟩ := moves_frame x { x with sr := setFlags x.sr z neg ovf } o.x o.y
  unfold Setter.accStore
  rw [hm]
  exact ⟨_, _, _, _, _, rfl⟩

theorem Setter.Unbranched.accStore {x : Setter} (h : x.Unbranched) (o : AccOp) (v : W40) (z neg ovf : Bool) :
    (x.accStore o v z neg ovf).Unbranched := by
  obtain ⟨p, sr, xr, yr, f, hs⟩ := accStore_frame x o v z neg ovf
  rw [hs]
  exact ⟨h.branch, h.rptcnt, h.looping, h.lpHit, h.remap⟩

/-- What an accumulator result leaves of a core with an empty pipeline. -/
def Setter.accAfter (x : Setter) (o : AccOp) : AccOut → Setter
  | .acc re im quiet => moves x (x.accResult o re im quiet) o.x o.y
  | .word v z neg ovf => x.accStore o v z neg ovf

section
variable {s : State} {n : Fin 8} (h : s.quiet n)
include h

theorem execAcc_of_quiet (f : Bool → Nat → Int → Int → Int → Int → W40 → AccOut) (readsW : Bool) {o : AccOp}
    (hx : moveIllegal o.x = false) (hy : moveIllegal o.y = false) :
    let x := s.dev.cores[n]
    execAcc f readsW n o s = .next (s.after n (x.accAfter o (f o.s o.sh.val x.accR[o.accd].toInt x.accI[o.accd].toInt
      x.accR[o.accs].toInt x.accI[o.accs].toInt (x.rdW o.w)))) := by
  have hflight := quiet_flight h
  have hu := quiet_unbranched h
  have hacc : ∀ re im quiet, ((s.dev.cores[n]).accResult o re im quiet).Unbranched := fun _ _ _ =>
    ⟨hu.branch, hu.rptcnt, hu.looping, hu.lpHit, hu.remap⟩
  dsimp only
  refine instruction_after h (k := 0) ?_ ?_ ?_
  all_goals generalize f o.s o.sh.val _ _ _ _ _ = r
  all_goals generalize s.dev.cores[n] = x at *
  · cases r with
    | acc re im quiet =>
      have hafter : ∀ c r i z n v, writeFlags c { x with accR := r, accI := i } z n v =
          (c, { x with accR := r, accI := i, sr := setFlags x.sr z n v }) :=
        fun c r i z n v => writeFlags_of_empty (x := { x with accR := r, accI := i }) hflight c z n v
      cases quiet <;> simp [hx, hy, hafter, Effect.plain, Setter.accAfter, Setter.accResult]
    | word v z neg ovf => simp [hx, hy, writeFlags_of_empty hflight, Effect.plain, Setter.accAfter, Setter.accStore]
  · cases r with
    | acc re im quiet => exact (hacc re im quiet).moves _ _ _
    | word v z neg ovf => exact hu.accStore o v z neg ovf
  · cases r with
    | acc re im quiet => exact moves_cyc ..
    | word v z neg ovf =>
      obtain ⟨p, sr, xr, yr, f, hs⟩ := accStore_frame x o v z neg ovf
      simp only [Setter.accAfter, hs]

end

/-! ### The MAC class -/

theorem chained_of_empty {x : Setter} (h : x.flight = []) (a : Fin 8) : chained x a = (x.accR[a], x.accI[a]) := by
  simp [chained, h]

theorem macB_frame (x : Setter) (o : MacOp) : ∃ p, (macB x o).2.1 = { x with p := p } := by
  unfold macB
  split
  · dsimp only
    split
    · exact ⟨_, rfl⟩
    · exact ⟨_, rfl⟩
  · exact ⟨_, rfl⟩

section
variable {s : State} {n : Fin 8} (h : s.quiet n)
include h

theorem macSends_unbranched {y : Setter} (o : MacOp) (hy : ∃ p, y = { s.dev.cores[n] with p := p }) (re im : Int) :
    ((s.dev.cores[n]).macSends y o re im).Unbranched ∧ ((s.dev.cores[n]).macSends y o re im).cyc = (s.dev.cores[n]).cyc := by
  obtain ⟨p, rfl⟩ := hy
  have hu := quiet_unbranched h
  have hp : ({ s.dev.cores[n] with p := p } : Setter).Unbranched := ⟨hu.branch, hu.rptcnt, hu.looping, hu.lpHit, hu.remap⟩
  have hm := hp.moves s.dev.cores[n] o.x o.y
  exact ⟨⟨hm.branch, hm.rptcnt, hm.looping, hm.lpHit, hm.remap⟩, moves_cyc ..⟩

theorem execMac_of_quiet (f : Int → Int → Int → Int → Int → Int → Int × Int) {o : MacOp} (hx : moveIllegal o.x = false)
    (hy : moveIllegal o.y = false) :
    let x := s.dev.cores[n]
    let r := f (hi20 (x.rdW o.wa)) (lo20 (x.rdW o.wa)) (hi20 (macB x o).1) (lo20 (macB x o).1) x.accR[o.acc].toInt x.accI[o.acc].toInt
    execMac f true n o s = .next (s.afterCycles n (1 + (macB x o).2.2) (x.macSends (macB x o).2.1 o r.1 r.2)) := by
  have hflight := quiet_flight h
  have hsends := fun re im => macSends_unbranched h o (macB_frame s.dev.cores[n] o) re im
  refine instruction_after h ?_ (hsends _ _).1 (hsends _ _).2
  generalize s.dev.cores[n] = x at *
  simp [hx, hy, chained_of_empty hflight, Setter.macSends]

theorem execMac_squares_of_quiet (f : Int → Int → Int → Int → Int → Int → Int × Int) {o : MacOp} (hx : moveIllegal o.x = false)
    (hy : moveIllegal o.y = false) :
    let x := s.dev.cores[n]
    let r := f (hi20 (x.rdW o.wa)) (lo20 (x.rdW o.wa)) (hi20 0) (lo20 0) x.accR[o.acc].toInt x.accI[o.acc].toInt
    execMac f false n o s = .next (s.after n (x.macSends x o r.1 r.2)) := by
  have hflight := quiet_flight h
  have hsends := fun re im => macSends_unbranched h o ⟨(s.dev.cores[n]).p, rfl⟩ re im
  refine instruction_after h (k := 0) ?_ (hsends _ _).1 (hsends _ _).2
  generalize s.dev.cores[n] = x at *
  simp [hx, hy, chained_of_empty hflight, Setter.macSends]

end

end Sys2Proof.Machine

namespace Sys2Proof
open Machine

/-- Settles O2: each is `execAlu_of_quiet` for its operation. -/
theorem aluArithmetic : Obligations.AluArithmetic := by
  unfold Obligations.AluArithmetic
  intro s n o h hx hy
  dsimp only
  rw [exec_add, exec_sub, exec_neg, exec_abs, exec_asl, exec_cadd, exec_csub, exec_casr, exec_conj]
  exact ⟨execAlu_of_quiet h _ _ hx hy, execAlu_of_quiet h _ _ hx hy, execAlu_of_quiet h _ _ hx hy, execAlu_of_quiet h _ _ hx hy,
    execAlu_of_quiet h _ _ hx hy, execAlu_of_quiet h _ _ hx hy, execAlu_of_quiet h _ _ hx hy, execAlu_of_quiet h _ _ hx hy,
    execAlu_of_quiet h _ _ hx hy⟩

/-- Settles O3: each is `execAlu_of_quiet` for its operation. -/
theorem aluWords : Obligations.AluWords := by
  unfold Obligations.AluWords
  intro s n o h hx hy
  dsimp only
  rw [exec_min, exec_max, exec_and, exec_or, exec_xor, exec_not, exec_asr, exec_lsr, exec_pack, exec_unph, exec_unpl, exec_swap,
    exec_norm, exec_mov, exec_cmp, exec_tst]
  exact ⟨execAlu_of_quiet h _ _ hx hy, execAlu_of_quiet h _ _ hx hy, execAlu_of_quiet h _ _ hx hy, execAlu_of_quiet h _ _ hx hy,
    execAlu_of_quiet h _ _ hx hy, execAlu_of_quiet h _ _ hx hy, execAlu_of_quiet h _ _ hx hy, execAlu_of_quiet h _ _ hx hy,
    execAlu_of_quiet h _ _ hx hy, execAlu_of_quiet h _ _ hx hy, execAlu_of_quiet h _ _ hx hy, execAlu_of_quiet h _ _ hx hy,
    execAlu_of_quiet h _ _ hx hy, execAlu_of_quiet h _ _ hx hy, execAlu_of_quiet h _ _ hx hy, execAlu_of_quiet h _ _ hx hy⟩

/-- Settles O4. -/
theorem accumulatorOps : Obligations.AccumulatorOps := by
  unfold Obligations.AccumulatorOps
  intro s n o h hx hy
  dsimp only
  rw [exec_clra, exec_ldac, exec_ldar, exec_adda, exec_suba, exec_sra, exec_sla, exec_conja, exec_mova]
  exact ⟨execAcc_of_quiet h _ _ hx hy, execAcc_of_quiet h _ _ hx hy, execAcc_of_quiet h _ _ hx hy,
    execAcc_of_quiet h _ _ hx hy, execAcc_of_quiet h _ _ hx hy, execAcc_of_quiet h _ _ hx hy,
    execAcc_of_quiet h _ _ hx hy, execAcc_of_quiet h _ _ hx hy, execAcc_of_quiet h _ _ hx hy⟩

/-- Settles O5. -/
theorem accumulatorStores : Obligations.AccumulatorStores := by
  unfold Obligations.AccumulatorStores
  intro s n o h hx hy
  dsimp only
  rw [exec_stc, exec_str, exec_sti, exec_norma]
  exact ⟨execAcc_of_quiet h _ _ hx hy, execAcc_of_quiet h _ _ hx hy, execAcc_of_quiet h _ _ hx hy,
    execAcc_of_quiet h _ _ hx hy⟩

/-- Settles O6. -/
theorem macProducts : Obligations.MacProducts := by
  unfold Obligations.MacProducts
  intro s n o h hx hy
  dsimp only
  rw [exec_cmul, exec_cmac, exec_cmsu, exec_cjmul, exec_cjmac, exec_cjmsu, exec_dmul, exec_dmac, exec_dmsu, exec_xmac, exec_pmac]
  exact ⟨execMac_of_quiet h _ hx hy, execMac_of_quiet h _ hx hy, execMac_of_quiet h _ hx hy, execMac_of_quiet h _ hx hy,
    execMac_of_quiet h _ hx hy, execMac_of_quiet h _ hx hy, execMac_of_quiet h _ hx hy, execMac_of_quiet h _ hx hy,
    execMac_of_quiet h _ hx hy, execMac_of_quiet h _ hx hy, execMac_squares_of_quiet h _ hx hy⟩

end Sys2Proof
end

section
/-! SUPPORT. Quiet setters, continued: loads and stores, immediates, register moves, control, interrupts and faults (R301-R318). -/

namespace Sys2Proof.Machine

section
variable {s : State} {n : Fin 8} (h : s.quiet n)
include h

/-- One instruction further on, by an effect on registers that no branch, repeat, loop or map change stands in. -/
theorem instruction_regs {sh : Shape} {reads : Setter → List (Fin 64)} {body : Chip → Setter → Effect} {y : Setter}
    (hbody : body s.dev.chip s.dev.cores[n] = Effect.plain (s.dev.chip, y)) (hbranch : y.branch = (s.dev.cores[n]).branch)
    (hrpt : y.rptcnt = (s.dev.cores[n]).rptcnt) (hloop : y.looping = (s.dev.cores[n]).looping)
    (hhit : y.lpHit = (s.dev.cores[n]).lpHit) (hremap : y.remap = (s.dev.cores[n]).remap) (hcyc : y.cyc = (s.dev.cores[n]).cyc) :
    instruction s n sh reads body = .next (s.after n y) := by
  have hu := quiet_unbranched h
  exact instruction_after h (k := 0) hbody
    ⟨hbranch.trans hu.branch, hrpt.trans hu.rptcnt, hloop.trans hu.looping, hhit.trans hu.lpHit, hremap.trans hu.remap⟩ hcyc

/-- One that writes a W register. -/
theorem instruction_writeW {sh : Shape} {reads : Setter → List (Fin 64)} {body : Chip → Setter → Effect} {y : Setter} {r : Fin 64} {v : W40}
    (hbody : body s.dev.chip s.dev.cores[n] = Effect.plain (writeW s.dev.chip y r v)) (hflight : y.flight = (s.dev.cores[n]).flight)
    (hbranch : y.branch = (s.dev.cores[n]).branch) (hrpt : y.rptcnt = (s.dev.cores[n]).rptcnt)
    (hloop : y.looping = (s.dev.cores[n]).looping) (hhit : y.lpHit = (s.dev.cores[n]).lpHit)
    (hremap : y.remap = (s.dev.cores[n]).remap) (hcyc : y.cyc = (s.dev.cores[n]).cyc) :
    instruction s n sh reads body = .next (s.after n { y with w := y.w.set r v }) := by
  rw [writeW_of_empty (hflight.trans (quiet_flight h))] at hbody
  exact instruction_regs h hbody hbranch hrpt hloop hhit hremap hcyc

/-- One that changes the chip alone. -/
theorem instruction_chip {sh : Shape} {reads : Setter → List (Fin 64)} {body : Chip → Setter → Effect} {c : Chip}
    (hbody : body s.dev.chip s.dev.cores[n] = Effect.plain (c, s.dev.cores[n])) :
    instruction s n sh reads body =
      .next { s.after n s.dev.cores[n] with dev := { (s.after n s.dev.cores[n]).dev with chip := c } } := by
  have hfinish := finish_of_unbranched (quiet_unbranched h) (s.dev.cores[n]).pc 0
  rw [instruction_of_body h hbody rfl]
  dsimp only [Effect.plain]
  rw [hfinish]
  rfl

end

/-! ### A change of the fetch map under way (R283) -/

/-- The core with a change of the fetch map to `m` that `k` fetches still have to reach. -/
def Setter.remapping (x : Setter) (m : Bool) (k : Nat) : Setter := { x with remap := some (m, k) }

/-- The end of an instruction counts the change down. -/
theorem finish_remapping {x : Setter} (h : x.Unbranched) (m : Bool) (k : Nat) (a : BitVec 16) :
    finish (x.remapping m (k + 2)) a none false 0 = ({ x with pc := a + 1, cyc := x.cyc + 1 } : Setter).remapping m (k + 1) ∧
    finish (x.remapping m 1) a none false 0 = { x with pc := a + 1, cyc := x.cyc + 1, mapNow := m } := by
  obtain ⟨hbranch, hrpt, hloop, hhit, hremap⟩ := h
  cases x
  simp_all [finish, Setter.remapping]

theorem exec_nop_remapping {s : State} {n : Fin 8} {x : Setter} (hclock : s.dev.chip.domClock (78 + n.val) = true) (h : x.Straight)
    (hflight : x.flight = []) (m : Bool) (k : Nat) :
    exec (.nop n) (s.putCore n (x.remapping m k)) = .next (s.putCore n (finish (x.remapping m k) x.pc none false 0)) := by
  rw [exec_nop_of_running (s := s.putCore n (x.remapping m k)) hclock, State.putCore_same, State.putCore_putCore,
    advance_of_empty (x.remapping m k) hflight]
  · rfl
  all_goals rw [State.putCore_same]
  · exact h.mode
  · exact h.syncing
  · exact h.rptcnt
  · exact h.looping
  · exact h.lpHit

/-- A core one NOP further on, with an empty pipeline. -/
def Setter.stepped (x : Setter) : Setter := { x with pc := x.pc + 1, cyc := x.cyc + 1 }

theorem Setter.Straight.stepped {x : Setter} (h : x.Straight) : x.stepped.Straight :=
  ⟨⟨h.branch, h.rptcnt, h.looping, h.lpHit, h.remap⟩, h.mode, h.syncing⟩

/-- An immediate to MR that changes REMAP: the two instructions after it still come by the old map. -/
theorem remap_takes_two {s : State} {n : Fin 8} (h : s.quiet n) {imm : BitVec 40}
    (hnew : (bitAt imm.toNat 0 == bitAt (s.dev.cores[n]).mr.toNat 0) = false) : ∃ s1 s2 s3,
    execImmediateControl n 1 imm s = .next s1 ∧ exec (.nop n) s1 = .next s2 ∧ exec (.nop n) s2 = .next s3 ∧
    (s1.dev.cores[n]).mr = imm.setWidth 32 &&& 1#32 ∧ (s1.dev.cores[n]).mapNow = (s.dev.cores[n]).mapNow ∧
    (s2.dev.cores[n]).mapNow = (s.dev.cores[n]).mapNow ∧ (s3.dev.cores[n]).mapNow = bitAt imm.toNat 0 := by
  have hclock := h.1
  obtain ⟨⟨hbranch, hrpt, hloop, hhit, hremap⟩, hmode, hsync⟩ := h.straight
  have hflight := quiet_flight h
  have hbody : (match ctlWrite s.dev.chip n s.dev.cores[n] 1 imm with
      | some r => Effect.plain r
      | none => Effect.illegal s.dev.chip s.dev.cores[n]) = Effect.plain (s.dev.chip,
        ({ s.dev.cores[n] with mr := imm.setWidth 32 &&& 1#32 } : Setter).remapping (bitAt imm.toNat 0) 3) := by
    show Effect.plain (s.dev.chip, if bitAt imm.toNat 0 == bitAt (s.dev.cores[n]).mr.toNat 0 then _ else _) = _
    rw [hnew]
    rfl
  generalize hx : ({ s.dev.cores[n] with mr := imm.setWidth 32 &&& 1#32 } : Setter) = x at hbody
  have hst : x.Straight := by
    rw [← hx]
    exact ⟨⟨hbranch, hrpt, hloop, hhit, hremap⟩, hmode, hsync⟩
  have hempty : x.flight = [] := by rw [← hx]; exact hflight
  have hmap : x.mapNow = (s.dev.cores[n]).mapNow := by rw [← hx]
  have hmr : x.mr = imm.setWidth 32 &&& 1#32 := by rw [← hx]
  have hpc : (s.dev.cores[n]).pc = x.pc := by rw [← hx]
  have h1 : execImmediateControl n 1 imm s = .next (s.putCore n (x.stepped.remapping (bitAt imm.toNat 0) 2)) := by
    refine (instruction_of_body h hbody rfl).trans ?_
    show Host.Outcome.next (s.putCore n (finish (x.remapping (bitAt imm.toNat 0) 3) _ none false 0)) = _
    rw [hpc, (finish_remapping hst.toUnbranched _ 1 _).1]
    rfl
  have h2 := exec_nop_remapping (s := s) (n := n) hclock hst.stepped hempty (bitAt imm.toNat 0) 2
  have h3 := exec_nop_remapping (s := s) (n := n) hclock hst.stepped.stepped hempty (bitAt imm.toNat 0) 1
  rw [(finish_remapping hst.stepped.toUnbranched _ 0 _).1] at h2
  rw [(finish_remapping hst.stepped.stepped.toUnbranched _ 0 _).2] at h3
  refine ⟨_, _, _, h1, h2, h3, ?_, ?_, ?_, ?_⟩
  all_goals rw [State.putCore_same]
  · exact hmr
  · exact hmap
  · exact hmap

end Sys2Proof.Machine

namespace Sys2Proof
open Machine

/-- Settles O8. -/
theorem nearAbsolute : Obligations.NearAbsolute := by
  unfold Obligations.NearAbsolute
  intro s n w addr h
  dsimp only
  simp only [exec_nearAbsoluteLoad, exec_nearAbsoluteStore]
  exact ⟨instruction_regs h rfl rfl rfl rfl rfl rfl rfl, instruction_regs h rfl rfl rfl rfl rfl rfl rfl,
    instruction_regs h rfl rfl rfl rfl rfl rfl rfl, instruction_regs h rfl rfl rfl rfl rfl rfl rfl,
    instruction_regs h rfl rfl rfl rfl rfl rfl rfl⟩

/-- Settles O11. -/
theorem registerMoves : Obligations.RegisterMoves := by
  unfold Obligations.RegisterMoves
  intro s n d r h
  dsimp only
  simp only [exec_registerMove, exec_cycLoRead]
  refine ⟨instruction_writeW h rfl rfl rfl rfl rfl rfl rfl rfl, instruction_writeW h rfl rfl rfl rfl rfl rfl rfl rfl,
    instruction_writeW h rfl rfl rfl rfl rfl rfl rfl rfl, instruction_regs h rfl rfl rfl rfl rfl rfl rfl,
    instruction_regs h rfl rfl rfl rfl rfl rfl rfl, instruction_regs h rfl rfl rfl rfl rfl rfl rfl,
    instruction_regs h rfl rfl rfl rfl rfl rfl rfl, instruction_regs h rfl rfl rfl rfl rfl rfl rfl, ?_,
    instruction_regs h rfl rfl rfl rfl rfl rfl rfl, instruction_writeW h rfl rfl rfl rfl rfl rfl rfl rfl,
    instruction_writeW (y := { s.dev.cores[n] with cycHi := BitVec.ofNat 32 ((s.dev.cores[n]).cyc.toNat / 2 ^ 32) }) h
      rfl rfl rfl rfl rfl rfl rfl rfl⟩
  have hm : (((s.dev.cores[n]).m[Fin.ofNat 16 r.val]).setWidth 40).setWidth 32 = (s.dev.cores[n]).m[Fin.ofNat 16 r.val] := by
    rw [BitVec.setWidth_setWidth_of_le _ (by decide), BitVec.setWidth_eq]
  refine (instruction_regs h (y :=
    { s.dev.cores[n] with
      m := (s.dev.cores[n]).m.set (Fin.ofNat 16 d.val) ((((s.dev.cores[n]).m[Fin.ofNat 16 r.val]).setWidth 40).setWidth 32) })
    rfl rfl rfl rfl rfl rfl rfl).trans ?_
  rw [hm]

/-- Settles O10. -/
theorem immediatesAndPointers : Obligations.ImmediatesAndPointers := by
  unfold Obligations.ImmediatesAndPointers
  refine ⟨fun s n reg imm d r i h => ?_, fun s n imm h => ?_⟩
  · dsimp only
    rw [exec_immediateW, exec_immediateP, exec_immediateM, exec_immediateControl, exec_immediateControl, exec_immediateControl, exec_addp,
      exec_modp, exec_addm, exec_cmpp]
    refine ⟨instruction_writeW h rfl rfl rfl rfl rfl rfl rfl rfl, instruction_regs h rfl rfl rfl rfl rfl rfl rfl,
      instruction_regs h rfl rfl rfl rfl rfl rfl rfl, instruction_regs h rfl rfl rfl rfl rfl rfl rfl,
      instruction_regs h rfl rfl rfl rfl rfl rfl rfl, instruction_regs h rfl rfl rfl rfl rfl rfl rfl,
      instruction_regs h rfl rfl rfl rfl rfl rfl rfl, instruction_regs h rfl rfl rfl rfl rfl rfl rfl,
      instruction_regs h rfl rfl rfl rfl rfl rfl rfl, ?_⟩
    exact instruction_regs h (congrArg Effect.plain (writeFlags_of_empty (quiet_flight h) ..)) rfl rfl rfl rfl rfl rfl
  · dsimp only
    rw [exec_immediateControl]
    refine ⟨?_, fun hremap => ?_⟩
    · exact instruction_chip h rfl
    · exact remap_takes_two h (by rw [hremap])

/-- Settles O12. -/
theorem branches : Obligations.Branches := by
  unfold Obligations.Branches
  intro s n cond pn target h
  have hu := quiet_unbranched h
  have hbranch : ∀ (sh : Shape) (reads : Setter → List (Fin 64)) (body : Chip → Setter → Effect) (b : Branch) (lr : BitVec 16) (sr : BitVec 32),
      body s.dev.chip s.dev.cores[n] = ⟨s.dev.chip, (s.dev.cores[n]).issued b lr sr, none, true, 0, none⟩ →
      instruction s n sh reads body = .next (s.after n ((s.dev.cores[n]).issued b lr sr)) := fun sh reads body b lr sr hbody =>
    instruction_setup h hbody (Bool.and_eq_false_iff.2 (.inl hu.looping)) hu.lpHit hu.remap rfl
  dsimp only
  rw [exec_br, exec_bri, exec_call, exec_calli, exec_ret, exec_rti]
  refine ⟨fun hc => ⟨?_, ?_, ?_, ?_, ?_⟩, fun hc => ⟨?_, ?_, ?_, ?_, ?_⟩, hbranch _ _ _ _ _ _ rfl⟩
  all_goals exact hbranch _ _ _ _ _ _ (condBranch_eq_issued hc ..)

end Sys2Proof
end

section
/-! SUPPORT. Quiet setters, concluded: results that land, moves, loops, control, interrupts and faults (R291, R292, R305-R318). -/

namespace Sys2Proof

open Machine

/-! ### Loads, stores and products as they land -/

theorem after_eq_putCore (s : State) (n : Fin 8) (y : Setter) :
    s.after n y = s.putCore n { y with pc := (s.dev.cores[n]).pc + 1, cyc := (s.dev.cores[n]).cyc + 1 } := rfl

/-- The core as the first of three NOPs after an instruction finds it. -/
def stepInto (s : State) (n : Fin 8) (y : Setter) : Setter :=
  { y with pc := (s.dev.cores[n]).pc + 1, cyc := (s.dev.cores[n]).cyc + 1 }

theorem three_nops_after {s : State} {n : Fin 8} (hclock : s.dev.chip.domClock (78 + n.val) = true) {y : Setter} (hy : y.Straight) :
    ∃ s2 s3 s4, exec (.nop n) (s.after n y) = .next s2 ∧ exec (.nop n) s2 = .next s3 ∧ exec (.nop n) s3 = .next s4 ∧
      s3.dev.cores[n] = (stepInto s n y).nopped.nopped ∧ s4.dev.cores[n] = (stepInto s n y).nopped.nopped.nopped := by
  have hst : (stepInto s n y).Straight := ⟨⟨hy.branch, hy.rptcnt, hy.looping, hy.lpHit, hy.remap⟩, hy.mode, hy.syncing⟩
  obtain ⟨h2, h3, h4⟩ := exec_three_nops hclock hst
  exact ⟨_, _, _, h2, h3, h4, State.putCore_same .., State.putCore_same ..⟩

/-- What a product without the P-bus sends beside the loads of its moves: both parts and the flags. -/
theorem macSends_frame {x : Setter} (hx : x.Straight) (hflight : x.flight = []) (o : MacOp) (re im : Int) :
    (x.macSends x o re im).Straight ∧ (x.macSends x o re im).accR = x.accR ∧ (x.macSends x o re im).accI = x.accI ∧
    ∃ f z neg v, (∀ e ∈ f, ∃ w v, e = (⟨3, .load w v⟩ : InFlight)) ∧ (x.macSends x o re im).flight =
      f ++ [⟨3, .mac o.acc (of48 (part o.s 48 re)) (of48 (part o.s 48 im))⟩, ⟨3, .flags z neg v⟩] := by
  obtain ⟨p, xr, yr, f, hmoves, hloads⟩ := moves_frame x x o.x o.y
  unfold Setter.macSends
  rw [hmoves]
  refine ⟨⟨⟨hx.branch, hx.rptcnt, hx.looping, hx.lpHit, hx.remap⟩, hx.mode, hx.syncing⟩, rfl, rfl, f,
    part o.s 48 re == 0 && part o.s 48 im == 0, decide (part o.s 48 re < 0), outside 48 re || outside 48 im, hloads, ?_⟩
  dsimp only [Setter.issue]
  rw [hflight, List.nil_append, List.append_assoc]
  rfl

/-- The accumulators that three NOPs find when both parts of a product are three instructions ahead. -/
theorem nopped_mac {x : Setter} {f : List InFlight} (hf : ∀ e ∈ f, ∃ w v, e = (⟨3, .load w v⟩ : InFlight)) {a : Fin 8} {re im : BitVec 48}
    {z neg v : Bool} (hflight : x.flight = f ++ [⟨3, .mac a re im⟩, ⟨3, .flags z neg v⟩]) :
    x.nopped.nopped.accR = x.accR ∧ x.nopped.nopped.accI = x.accI ∧
    x.nopped.nopped.nopped.accR = x.accR.set a re ∧ x.nopped.nopped.nopped.accI = x.accI.set a im := by
  have hleft : ∀ e ∈ x.flight, e.left = 3 := by
    intro e he
    rw [hflight, List.mem_append] at he
    rcases he with he | he
    · obtain ⟨w, v, rfl⟩ := hf e he
      rfl
    · simp only [List.mem_cons, List.not_mem_nil, or_false] at he
      rcases he with rfl | rfl <;> rfl
  obtain ⟨w, hw⟩ := foldl_land_loads (fun e he => ⟨3, hf e he⟩) { x with flight := [], pc := x.pc + 1 + 1, cyc := x.cyc + 1 + 1 }
  rw [nopped_three hleft, nopped_nopped_of_three hleft, hflight, List.foldl_append, hw]
  exact ⟨rfl, rfl, rfl, rfl⟩

/-- Settles O7: the product is three instructions ahead after CMUL (`macSends_frame` tells what is beside it), and three NOPs bring it
down (`nopped_mac`). -/
theorem macLands : Obligations.MacLands := by
  unfold Obligations.MacLands
  intro s n o h hx hy hpb
  have hexec := execMac_of_quiet h (fun ar ai br bi _ _ => (ar * br - ai * bi, ar * bi + ai * br)) hx hy
  dsimp only at hexec ⊢
  rw [macB_of_disabled _ hpb] at hexec
  dsimp only at hexec
  obtain ⟨hst, hr0, hi0, f, z, neg, v, hloads, hsent⟩ := macSends_frame h.straight (quiet_flight h) o
    (hi20 ((s.dev.cores[n]).rdW o.wa) * hi20 ((s.dev.cores[n]).rdW o.wb) - lo20 ((s.dev.cores[n]).rdW o.wa) * lo20 ((s.dev.cores[n]).rdW o.wb))
    (hi20 ((s.dev.cores[n]).rdW o.wa) * lo20 ((s.dev.cores[n]).rdW o.wb) + lo20 ((s.dev.cores[n]).rdW o.wa) * hi20 ((s.dev.cores[n]).rdW o.wb))
  obtain ⟨s2, s3, s4, h2, h3, h4, hc3, hc4⟩ := three_nops_after h.1 hst
  obtain ⟨hr, hi, hr', hi'⟩ := nopped_mac hloads (x := stepInto s n (Setter.macSends ..)) hsent
  refine ⟨_, s2, s3, s4, (exec_cmul n s o).trans hexec, h2, h3, h4, ?_⟩
  rw [hc3, hc4, ← hr0, ← hi0]
  exact ⟨hr, hi, hr', hi'⟩

theorem flight_issue_of_quiet {s : State} {n : Fin 8} (h : s.quiet n) (l : Landing) :
    ((s.dev.cores[n]).issue 3 l).flight = [⟨3, l⟩] := by
  dsimp only [Setter.issue]
  rw [quiet_flight h]
  rfl

/-- What one load in flight leaves after three NOPs. -/
theorem nopped_load {x : Setter} {r : Fin 64} {v : W40} (hflight : x.flight = [⟨3, .load r v⟩]) :
    x.nopped.nopped.nopped = { x with w := x.w.set r v, flight := [], pc := x.pc + 1 + 1 + 1, cyc := x.cyc + 1 + 1 + 1 } := by
  have hleft : ∀ e ∈ x.flight, e.left = 3 := by simp [hflight]
  rw [nopped_three hleft, hflight]
  rfl

/-- Settles O9: the load takes the stored word from X-RAM at once, and its register has it as the third NOP enters D (`nopped_load`). -/
theorem storedWordIsLoaded : Obligations.StoredWordIsLoaded := by
  unfold Obligations.StoredWordIsLoaded
  intro s n w v addr h
  dsimp only
  obtain ⟨-, -, -, hstore, -⟩ := nearAbsolute s n w addr h
  have hst := h.straight
  obtain ⟨hclock, hmode, hsync, hflight, hfar, hbranch, hrpt, hloop, hhit, hremap⟩ := h
  generalize hs1 : s.after n { s.dev.cores[n] with xram := nearPut (s.dev.cores[n]).xram addr.toNat ((s.dev.cores[n]).rdW w) } = s1 at hstore
  have hcore : s1.dev.cores[n] = stepInto s n
      { s.dev.cores[n] with xram := nearPut (s.dev.cores[n]).xram addr.toNat ((s.dev.cores[n]).rdW w) } := by
    rw [← hs1, State.after_same]
    rfl
  have hchip : s1.dev.chip = s.dev.chip := by rw [← hs1]; rfl
  have hq : s1.quiet n := by
    unfold State.quiet
    rw [hcore, hchip]
    exact ⟨hclock, hmode, hsync, hflight, hfar, hbranch, hrpt, hloop, hhit, hremap⟩
  obtain ⟨hload, -⟩ := nearAbsolute s1 n v addr hq
  have hst' : ((s1.dev.cores[n]).issue 3 (.load ((s1.dev.cores[n]).phys v) (nearGet (s1.dev.cores[n]).xram addr.toNat))).Straight := by
    have h1 := hq.straight
    exact ⟨⟨h1.branch, h1.rptcnt, h1.looping, h1.lpHit, h1.remap⟩, h1.mode, h1.syncing⟩
  obtain ⟨s3, s4, s5, h3, h4, h5, -, hc5⟩ := three_nops_after (s := s1) (n := n) hq.1 hst'
  have hland := nopped_load (x := stepInto s1 n (Setter.issue ..)) (flight_issue_of_quiet hq (.load ((s1.dev.cores[n]).phys v) (nearGet (s1.dev.cores[n]).xram addr.toNat)))
  refine ⟨s1, _, s3, s4, s5, hstore, hload, h3, h4, h5, ?_⟩
  rw [hc5, hland]
  have hread : ({ s1.dev.cores[n] with
      w := (s1.dev.cores[n]).w.set ((s1.dev.cores[n]).phys v) (nearGet (s1.dev.cores[n]).xram addr.toNat) } : Setter).rdW v =
      nearGet (s1.dev.cores[n]).xram addr.toNat := by simp [Setter.rdW, Setter.phys]
  have hram : (s1.dev.cores[n]).xram = nearPut (s.dev.cores[n]).xram addr.toNat ((s.dev.cores[n]).rdW w) := by rw [hcore]; rfl
  refine ⟨hread.trans ?_, fun a ha => ?_⟩
  · rw [hram]
    exact sget_sset_same ..
  · show nearGet (s1.dev.cores[n]).xram a = _
    rw [hram]
    exact sget_sset_ne _ _ _ ha

/-! ### Parallel moves (R292) -/

theorem xMove_of_mode {o x : Setter} {m : Move} {a q : W40} (hen : m.en = true)
    (hmode : nearMode o.p[Fin.ofNat 16 m.pi.val] o.m[Fin.ofNat 16 m.mi.val] m.mode = some (a, q)) :
    xMove o x m = if m.act == 1
      then { x with p := x.p.set (Fin.ofNat 16 m.pi.val) q, xram := nearPut x.xram (nearAddr a) (o.rdW m.w) }
      else ({ x with p := x.p.set (Fin.ofNat 16 m.pi.val) q } : Setter).issue 3
        (.load (o.phys m.w) (loadAct m.act (nearGet o.xram (nearAddr a)))) := by
  unfold xMove
  rw [if_pos hen]
  dsimp only
  rw [hmode]

/-- Settles O23: the only move is the X move (`xMove_of_mode`). -/
theorem parallelMoves : Obligations.ParallelMoves := by
  unfold Obligations.ParallelMoves
  intro s n o a q h hx hy
  dsimp only
  intro hmode h7
  have hflight := quiet_flight h
  have hxi : moveIllegal o.x = false := by simp [moveIllegal, h7]
  have hyi : moveIllegal o.y = false := by simp [moveIllegal, hy]
  have hy0 : ∀ o' x, yMove o' x o.y = x := fun o' x => by simp [yMove, hy]
  refine ⟨_, (exec_mov ..).trans (execAlu_of_quiet h _ _ hxi hyi), rfl, ?_⟩
  dsimp only
  rw [State.after_same]
  generalize s.dev.cores[n] = x at *
  rw [moves, hy0, xMove_of_mode hx hmode]
  by_cases hact : o.x.act = 1
  · rw [if_pos (beq_iff_eq.2 hact)]
    exact ⟨rfl, rfl, rfl, fun _ => ⟨rfl, hflight⟩, fun hne => absurd hact hne⟩
  · rw [if_neg (mt beq_iff_eq.1 hact)]
    refine ⟨rfl, rfl, rfl, fun he => absurd he hact, fun _ => ⟨rfl, ?_⟩⟩
    show x.flight ++ _ = _
    rw [hflight]
    rfl

theorem State.putCore_ne (s : State) {n m : Fin 8} (h : m ≠ n) (x : Setter) : (s.putCore n x).dev.cores[m] = s.dev.cores[m] := by
  have hne : n.val ≠ m.val := fun e => h (Fin.ext e.symm)
  simp [State.putCore, hne]

/-! ### Repeats and loops (R310, R311) -/

/-- An instruction of a quiet setter that skips to `a` and leaves the core otherwise as it was. -/
theorem instruction_skip {s : State} {n : Fin 8} (h : s.quiet n) {sh : Shape} {reads : Setter → List (Fin 64)}
    {body : Chip → Setter → Effect} {a : BitVec 16}
    (hbody : body s.dev.chip s.dev.cores[n] = ⟨s.dev.chip, s.dev.cores[n], some a, true, 0, none⟩) :
    instruction s n sh reads body =
      .next (s.putCore n { s.dev.cores[n] with pc := a, cyc := (s.dev.cores[n]).cyc + BitVec.ofNat 64 (1 + 0) }) := by
  have hu := quiet_unbranched h
  have hfinish := finish_setup (a := (s.dev.cores[n]).pc) (Bool.and_eq_false_iff.2 (.inl hu.looping)) hu.lpHit hu.remap (some a) 0
  rw [instruction_of_body h hbody rfl]
  dsimp only
  rw [hfinish]
  rfl

/-- A fresh loop touches the repeat cache beside its own registers. -/
theorem refill_frame (x : Setter) : ∃ k, x.refill = { x with cache := k } := by
  unfold Setter.refill
  split
  · exact ⟨_, rfl⟩
  · exact ⟨x.cache, rfl⟩

theorem iterate_frame (x : Setter) : ∃ k, x.iterate = { x with cache := k } := by
  unfold Setter.iterate
  split
  · exact ⟨_, rfl⟩
  · exact refill_frame x

theorem execRpt_of_quiet {s : State} {n : Fin 8} (h : s.quiet n) (src : Bool) (w : Fin 64) (count : BitVec 16) :
    let x := s.dev.cores[n]
    let k := if src then (x.rdW w).setWidth 16 else count
    (k ≠ 0 → execRpt n src w count s = .next (s.after n { x with rptcnt := k })) ∧
    (k = 0 → ∃ t, execRpt n src w count s = .next t ∧ (t.dev.cores[n]).pc = x.pc + 2 ∧ (t.dev.cores[n]).rptcnt = 0) := by
  have hu := quiet_unbranched h
  dsimp only
  refine ⟨fun hk => ?_, fun hk => ?_⟩
  · exact instruction_setup h (by simp only [beq_iff_eq, if_neg hk]) (Bool.and_eq_false_iff.2 (.inl hu.looping)) hu.lpHit hu.remap rfl
  · refine ⟨_, instruction_skip h (a := (s.dev.cores[n]).pc + 2) (by simp only [beq_iff_eq, if_pos hk]), ?_⟩
    rw [State.putCore_same]
    exact ⟨rfl, hu.rptcnt⟩

theorem execLoop_of_quiet {s : State} {n : Fin 8} (h : s.quiet n) (src : Bool) (rot : Fin 4) (w : Fin 64) {e : BitVec 16} (count : BitVec 16)
    (he : (s.dev.cores[n]).pc.toNat < e.toNat) :
    let x := s.dev.cores[n]
    let k := if src then (x.rdW w).setWidth 16 else count
    (k ≠ 0 → execLoop n src rot w e count s =
      .next (s.after n ({ x with looping := true, inner := ⟨x.pc + 1, e, k.setWidth 32, rot⟩ } : Setter).refill)) ∧
    (k = 0 → ∃ t, execLoop n src rot w e count s = .next t ∧ (t.dev.cores[n]).pc = e + 1 ∧ (t.dev.cores[n]).looping = false) := by
  have hu := quiet_unbranched h
  have hloop := hu.looping
  have hafter : ¬e.toNat < (s.dev.cores[n]).pc.toNat + 1 := by omega
  have hbody : ∀ a, (s.dev.cores[n]).inBody a = false := fun a => by
    unfold Setter.inBody
    rw [hloop]
    rfl
  have hdepth : ¬4 ≤ (s.dev.cores[n]).depth := by
    unfold Setter.depth
    rw [hloop]
    simp
  dsimp only
  refine ⟨fun hk => ?_, fun hk => ?_⟩
  · obtain ⟨cache, hcache⟩ := refill_frame
      { s.dev.cores[n] with
        looping := true
        inner := ⟨(s.dev.cores[n]).pc + 1, e, (if src then ((s.dev.cores[n]).rdW w).setWidth 16 else count).setWidth 32, rot⟩ }
    refine instruction_setup h ?_ ?_ ?_ ?_ ?_
    · simp only [if_neg hafter, hbody, hloop, if_neg hdepth, beq_iff_eq, if_neg hk, Bool.false_and, Bool.false_eq_true, if_false]
    all_goals rw [hcache]
    · have hne : (s.dev.cores[n]).pc ≠ e := fun hpc => by rw [hpc] at he; omega
      simpa using hne
    · exact hu.lpHit
    · exact hu.remap
  · refine ⟨_, instruction_skip h (a := e + 1) ?_, ?_⟩
    · simp only [if_neg hafter, hbody, beq_iff_eq, if_pos hk, Bool.false_and, Bool.false_eq_true, if_false]
    · rw [State.putCore_same]
      exact ⟨rfl, hloop⟩

/-- The loop-back decision goes round again while LPCNT is above 1. -/
theorem loopBack_again {x : Setter} (hhit : x.lpHit = true) (hloop : x.looping = true) (hcount : 1 < x.inner.count.toNat) : ∃ k,
    x.loopBack = { x with lpHit := false, inner := { x.inner with count := x.inner.count - 1 },
                          pc := x.inner.start, rotoff := x.rotoff + BitVec.ofNat 5 (rotStep x.inner.rot), cache := k } := by
  unfold Setter.loopBack
  rw [if_pos (by rw [hhit, hloop]; rfl)]
  dsimp only
  rw [if_pos hcount]
  exact iterate_frame _

/-- It leaves the loop after the last iteration. -/
theorem loopBack_leaves {x : Setter} (hhit : x.lpHit = true) (hloop : x.looping = true) (hcount : x.inner.count.toNat ≤ 1) :
    x.loopBack = ({ x with lpHit := false, inner := { x.inner with count := x.inner.count - 1 } } : Setter).popLoop := by
  unfold Setter.loopBack
  rw [if_pos (by rw [hhit, hloop]; rfl)]
  dsimp only
  rw [if_neg (by omega)]

/-- Settles O13. -/
theorem repeatAndLoop : Obligations.RepeatAndLoop := by
  unfold Obligations.RepeatAndLoop
  refine ⟨fun s n src w count e rot h => ?_, fun s n hhit hloop => ?_⟩
  · obtain ⟨hset, hskip⟩ := execRpt_of_quiet h src w count
    dsimp only at hset hskip ⊢
    rw [exec_rpt, exec_loop]
    exact ⟨hset, hskip, fun he => (execLoop_of_quiet h src rot w count he).1, fun he => (execLoop_of_quiet h src rot w count he).2⟩
  · refine ⟨s.putCore n (s.dev.cores[n]).loopBack, exec_loopBack .., rfl, ?_⟩
    dsimp only
    rw [State.putCore_same]
    refine ⟨rfl, rfl, fun m hm => State.putCore_ne s hm _, ?_⟩
    generalize s.dev.cores[n] = x at *
    by_cases hcount : 1 < x.inner.count.toNat
    · obtain ⟨k, hback⟩ := loopBack_again hhit hloop hcount
      rw [hback]
      exact ⟨rfl, rfl, rfl, rfl, rfl, fun _ => ⟨rfl, rfl, hloop, rfl, rfl⟩, fun hle => absurd hcount (by omega)⟩
    · rw [loopBack_leaves hhit hloop (by omega)]
      refine ⟨?_, ?_, ?_, ?_, ?_, fun hlt => absurd hlt hcount, fun _ => ?_⟩
      all_goals cases hstack : x.loopStack <;> simp [Setter.popLoop, hloop]

/-! ### Control (R305, R286, R318) -/

/-- The vector is entered with nothing in flight: what was due has landed. -/
theorem enter_of_quiet {x : Setter} (h : x.Straight) (hflight : x.flight = []) (v : Nat) (ret : BitVec 16) :
    x.enter v ret = { x with iret := ret, isr := x.sr, sr := clearIe x.sr, vecTaken := BitVec.ofNat 8 v,
                             pc := BitVec.ofNat 16 (x.ivec.toNat / 128 * 128 + 4 * v) } := by
  unfold Setter.enter
  rw [flush_of_empty x hflight, ← h.branch, ← h.rptcnt, ← h.mode]

theorem execTrap_of_quiet {s : State} {n : Fin 8} (h : s.quiet n) (k : BitVec 8) :
    let x := s.dev.cores[n]
    execTrap n k s = .next (s.putCore n { x with
      iret := x.pc + 1, isr := x.sr, sr := clearIe x.sr, vecTaken := 17, trapNo := k, cyc := x.cyc + 1
      pc := BitVec.ofNat 16 (x.ivec.toNat / 128 * 128 + 68) }) := by
  have hst := h.straight
  have hnot : ({ s.dev.cores[n] with lpHit := (s.dev.cores[n]).looping && (s.dev.cores[n]).pc == (s.dev.cores[n]).inner.last } : Setter) =
      s.dev.cores[n] := by
    rw [hst.looping, Bool.false_and, ← hst.lpHit]
  have henter := enter_of_quiet hst (quiet_flight h) 17 ((s.dev.cores[n]).pc + 1)
  have hfinish := finish_setup (y := { (s.dev.cores[n]).enter 17 ((s.dev.cores[n]).pc + 1) with trapNo := k }) (a := (s.dev.cores[n]).pc)
    (by rw [henter]; exact Bool.and_eq_false_iff.2 (.inl hst.looping)) (by rw [henter]; exact hst.lpHit) (by rw [henter]; exact hst.remap)
    (some ((s.dev.cores[n]).enter 17 ((s.dev.cores[n]).pc + 1)).pc) 0
  dsimp only
  refine (instruction_of_body h (e := ⟨s.dev.chip, { (s.dev.cores[n]).enter 17 ((s.dev.cores[n]).pc + 1) with trapNo := k },
    some ((s.dev.cores[n]).enter 17 ((s.dev.cores[n]).pc + 1)).pc, true, 0, none⟩) ?_ rfl).trans ?_
  · dsimp only
    rw [hnot, loopBack_of_not_hit _ hst.lpHit]
  · dsimp only
    rw [hfinish, henter]
    rfl

/-- Settles O14. -/
theorem controlInstructions : Obligations.ControlInstructions := by
  unfold Obligations.ControlInstructions
  intro s n k h
  dsimp only
  rw [exec_nop, exec_idle, exec_sync, exec_brk]
  refine ⟨?_, ?_, ?_, ?_, ?_⟩
  · exact instruction_regs h rfl rfl rfl rfl rfl rfl rfl
  · refine instruction_regs h (y := if !(s.dev.cores[n]).ie && sourceReady s.dev.chip.ipend[n] (s.dev.cores[n]).imask
      then s.dev.cores[n] else { s.dev.cores[n] with mode := .idle }) ?_ ?_ ?_ ?_ ?_ ?_ ?_
    all_goals split <;> rfl
  · exact instruction_regs h rfl rfl rfl rfl rfl rfl rfl
  · exact instruction_regs h rfl rfl rfl rfl rfl rfl rfl
  · refine ⟨_, (exec_trap ..).trans (execTrap_of_quiet h k), rfl, rfl, rfl, fun m hm => State.putCore_ne s hm _, ?_⟩
    exact State.putCore_same ..

/-! ### Interrupts and faults (R306, R315-R318) -/

theorem acceptable_of_quiet {s : State} {n : Fin 8} (h : s.quiet n) (hie : (s.dev.cores[n]).ie = true) :
    acceptable n s.dev.cores[n] = true := by
  obtain ⟨-, -, -, hflight, hfar, hbranch, hrpt, hloop, -, -⟩ := h
  have hbody : ∀ a, (s.dev.cores[n]).inBody a = false := fun a => by
    unfold Setter.inBody
    rw [hloop]
    rfl
  unfold acceptable
  rw [hie, hbranch, hrpt, hfar, hbody, hflight]
  split <;> rfl

/-- Settles O15. -/
theorem interruptEntry : Obligations.InterruptEntry := by
  unfold Obligations.InterruptEntry
  intro s n v h hie hbest
  dsimp only
  have hst := h.straight
  have henter := enter_of_quiet hst (quiet_flight h) v (s.dev.cores[n]).pc
  have hexec : execInterruptEntry n s = .next { s with dev := { s.dev with
      chip := { s.dev.chip with ipend := s.dev.chip.ipend.set n (s.dev.chip.ipend[n] &&& ~~~ (BitVec.ofNat 16 (2 ^ v))) }
      cores := s.dev.cores.set n ((s.dev.cores[n]).enter v (s.dev.cores[n]).pc) } } := by
    unfold execInterruptEntry
    dsimp only
    rw [loopBack_of_not_hit _ hst.lpHit, hbest, hst.mode, acceptable_of_quiet h hie, h.1]
    rfl
  refine ⟨_, (exec_interruptEntry ..).trans hexec, rfl, rfl, rfl, fun m hm => State.putCore_ne s hm _, ?_⟩
  refine (State.putCore_same s n _).trans henter

theorem enterFault_of_quiet {x : Setter} (h : x.Straight) (hflight : x.flight = []) (hfip : x.fip = false) (c : Chip) (n : Fin 8)
    (cause : BitVec 8) (faddr : BitVec 40) (a : BitVec 16) :
    let word := BitVec.ofNat 32 (a.toNat * 2 ^ 16 + cause.toNat)
    enterFault c n x cause faddr a = (c, { x with
      faults := x.faults + 1, fault := word, faddr := faddr, lastFault := word, lastFaddr := faddr, iret := x.pc, isr := x.sr
      sr := clearIe x.sr, vecTaken := 16, fip := true, pc := BitVec.ofNat 16 (x.ivec.toNat / 128 * 128 + 64) }) := by
  dsimp only
  unfold enterFault
  dsimp only
  rw [if_neg (by rw [hfip]; decide)]
  generalize BitVec.ofNat 32 (a.toNat * 2 ^ 16 + cause.toNat) = word
  have hst : ({ x with faults := x.faults + 1, fault := word, faddr := faddr, lastFault := word, lastFaddr := faddr } : Setter).Straight :=
    ⟨⟨h.branch, h.rptcnt, h.looping, h.lpHit, h.remap⟩, h.mode, h.syncing⟩
  rw [enter_of_quiet hst hflight]
  rfl

/-- A fault of a quiet setter enters its vector. -/
theorem takeFault_of_quiet {x : Setter} (h : x.Straight) (hflight : x.flight = []) (hfip : x.fip = false) (c : Chip) (n : Fin 8)
    (cause : BitVec 8) (faddr : BitVec 40) : takeFault c n x cause faddr = (c, x.faultsWith cause faddr) := by
  have hrpt : ({ x with rptcnt := 0 } : Setter) = x := by rw [← h.rptcnt]
  have hst : ({ x with pc := x.pc + 1, cyc := x.cyc + BitVec.ofNat 64 (1 + 0) } : Setter).Straight :=
    ⟨⟨h.branch, h.rptcnt, h.looping, h.lpHit, h.remap⟩, h.mode, h.syncing⟩
  unfold takeFault
  rw [if_neg (by rw [hfip]; decide), hrpt, finish_of_unbranched h.toUnbranched, loopBack_of_not_hit _ hst.lpHit,
    enterFault_of_quiet hst hflight hfip]
  rfl

/-- An illegal instruction of a quiet setter. -/
theorem instruction_illegal {s : State} {n : Fin 8} (h : s.quiet n) (hfip : (s.dev.cores[n]).fip = false) {sh : Shape}
    {reads : Setter → List (Fin 64)} {body : Chip → Setter → Effect}
    (hbody : body s.dev.chip s.dev.cores[n] = Effect.illegal s.dev.chip s.dev.cores[n]) :
    instruction s n sh reads body =
      .next { s with dev := { s.dev with cores := s.dev.cores.set n ((s.dev.cores[n]).faultsWith 1 0) } } := by
  rw [instruction_quiet s n h, hbody]
  dsimp only [Effect.illegal, Effect.faulted]
  rw [takeFault_of_quiet h.straight (quiet_flight h) hfip]

theorem execAlu_illegal {s : State} {n : Fin 8} (h : s.quiet n) (hfip : (s.dev.cores[n]).fip = false)
    {f : Bool → W40 → W40 → AluOut} {usesB : Bool} {o : AluOp} (hmoves : (moveIllegal o.x || moveIllegal o.y) = true) :
    execAlu f usesB n o s = .next { s with dev := { s.dev with cores := s.dev.cores.set n ((s.dev.cores[n]).faultsWith 1 0) } } :=
  instruction_illegal h hfip (if_pos hmoves)

/-- Settles O17: each body answers the illegal effect, which a quiet setter takes (`instruction_illegal`). -/
theorem illegalForms : Obligations.IllegalForms := by
  unfold Obligations.IllegalForms
  intro s n o w a imm cond t e k rot h hfip
  dsimp only
  rw [exec_add, exec_mov, exec_cmp, exec_nearAbsoluteLoad, exec_nearAbsoluteStore, exec_nearAbsoluteStore, exec_immediateControl,
    exec_immediateControl, exec_br, exec_ret, exec_loop]
  refine ⟨fun hill => ?_, ?_, ?_, ?_, ?_, ?_, fun hc => ?_, fun he => ?_⟩
  · have hmoves : (moveIllegal o.x || moveIllegal o.y) = true := by simpa using hill
    exact ⟨execAlu_illegal h hfip hmoves, execAlu_illegal h hfip hmoves, execAlu_illegal h hfip hmoves⟩
  · exact instruction_illegal h hfip rfl
  · exact instruction_illegal h hfip rfl
  · exact instruction_illegal h hfip rfl
  · exact instruction_illegal h hfip rfl
  · exact instruction_illegal h hfip rfl
  · have hbranch : ∀ target pops link, condBranch cond target pops link s.dev.chip s.dev.cores[n] =
        Effect.illegal s.dev.chip s.dev.cores[n] := fun target pops link => by
      unfold condBranch
      rw [hc]
    exact ⟨instruction_illegal h hfip (hbranch ..), instruction_illegal h hfip (hbranch ..)⟩
  · exact instruction_illegal h hfip (if_pos he)

/-! ### Fault entry and the timer (R317, R318) -/

theorem foldl_writeW_of_empty {x : Setter} (h : x.flight = []) (c : Chip) (l : List (Fin 64)) :
    l.foldl (fun a r => writeW a.1 a.2 r 0) (c, x) = (c, { x with w := l.foldl (fun (v : Vector W40 64) (r : Fin 64) => v.set r 0) x.w }) := by
  induction l generalizing x with
  | nil => rfl
  | cons r l ih =>
    rw [List.foldl_cons, writeW_of_empty h, ih (x := { x with w := x.w.set r 0 }) h]
    rfl

theorem execFaultEntry_of_quiet {s : State} {n : Fin 8} (h : s.quiet n) (hfip : (s.dev.cores[n]).fip = false) (cause : BitVec 8)
    (faddr : BitVec 40) :
    let x := s.dev.cores[n]
    let lost := match decodeSetter n x.fetched.toNat with
      | some i => faultedLoads cause.toNat i
      | none => []
    execFaultEntry n cause faddr s = .next (s.putCore n
      (({ x with w := lost.foldl (fun (v : Vector W40 64) r => v.set (x.phys r) 0) x.w } : Setter).faultsWith cause faddr)) := by
  have hst := h.straight
  have hflight := quiet_flight h
  have hw : ∀ w, ({ s.dev.cores[n] with w := w } : Setter).Straight := fun w =>
    ⟨⟨hst.branch, hst.rptcnt, hst.looping, hst.lpHit, hst.remap⟩, hst.mode, hst.syncing⟩
  have hlost : ∀ l : List (Fin 64), (l.map fun r => (s.dev.cores[n]).phys r).foldl (fun a r => writeW a.1 a.2 r 0)
      (s.dev.chip, s.dev.cores[n]) =
      (s.dev.chip, { s.dev.cores[n] with w := l.foldl (fun (v : Vector W40 64) r => v.set ((s.dev.cores[n]).phys r) 0) (s.dev.cores[n]).w }) :=
    fun l => by rw [foldl_writeW_of_empty hflight, List.foldl_map]
  dsimp only
  generalize hafter : Host.Outcome.next (s.putCore n _) = after
  unfold execFaultEntry
  dsimp only
  rw [hst.mode, loopBack_of_not_hit _ hst.lpHit]
  cases hdecode : decodeSetter n (s.dev.cores[n]).fetched.toNat with
  | none =>
    dsimp only [List.foldl_nil]
    rw [takeFault_of_quiet hst hflight hfip, ← hafter, hdecode]
    rfl
  | some i =>
    dsimp only
    rw [hlost]
    dsimp only
    have htake := fun w => takeFault_of_quiet (x := { s.dev.cores[n] with w := w }) (hw w) hflight hfip s.dev.chip n cause faddr
    rw [htake, ← hafter, hdecode]
    rfl

/-- The clock runs on to the compare value. -/
theorem cyc_reaches (cyc : BitVec 64) (tcmp : BitVec 32) :
    (cyc + BitVec.ofNat 64 (tcmp - cyc.setWidth 32).toNat).setWidth 32 = tcmp := by
  bv_omega

/-- Settles O16. -/
theorem faultAndTimer : Obligations.FaultAndTimer := by
  unfold Obligations.FaultAndTimer
  intro s n cause faddr h
  refine ⟨fun hfip => ?_, _, exec_timerCompare .., rfl, ?_⟩
  · refine ⟨_, (exec_faultEntry ..).trans (execFaultEntry_of_quiet h hfip cause faddr), rfl, rfl, rfl,
      fun m hm => State.putCore_ne s hm _, State.putCore_same ..⟩
  · refine ⟨?_, fun m hm => ?_, ?_, ?_, rfl⟩
    · simp [Chip.irqTo]
    · have hne : n.val ≠ m.val := fun e => hm (Fin.ext e.symm)
      simp [Chip.irqTo, hne]
    · exact (congrArg (fun x : Setter => x.cyc.setWidth 32) (State.putCore_same s n _)).trans (cyc_reaches ..)
    · exact (congrArg (fun x : Setter => x.w) (State.putCore_same s n _)).trans rfl

end Sys2Proof
end

section
/-! SUPPORT. What every operation on the device keeps (O58): memories canonical, setters well formed. HBM, main SRAM, streams, truss
frames, X-engine and output (chapters 4 to 10 and 13). An operation that changes the chip alone keeps both as they are: `Dev.wf` does not
read the chip. -/

namespace Sys2Proof.Machine

namespace Dev

theorem wf_foldl {α : Type} {f : Dev → α → Dev} (hf : ∀ d e, d.wf → (f d e).wf) {d : Dev} (h : d.wf) (l : List α) : (l.foldl f d).wf :=
  List.foldlRecOn (motive := Dev.wf) l f h fun d hd e _ => hf d e hd

/-- The same where the device is part of what is folded. -/
theorem wf_foldl_of {α β : Type} {dev : β → Dev} {f : β → α → β} (hf : ∀ b e, (dev b).wf → (dev (f b e)).wf) {b : β} (h : (dev b).wf)
    (l : List α) : (dev (l.foldl f b)).wf :=
  List.foldlRecOn (motive := fun b => (dev b).wf) l f h fun b hb e _ => hf b e hb

theorem wf_ite {p : Prop} [Decidable p] {d e : Dev} (hd : d.wf) (he : e.wf) : (if p then d else e).wf := by
  split
  · exact hd
  · exact he

variable {d : Dev} (h : d.wf)
include h

/-- What changes the chip alone. -/
theorem wf.chip (c : Chip) : ({ d with chip := c } : Dev).wf := ⟨h.1, h.2⟩

/-! ### HBM and main SRAM -/

theorem stores_wf (l : List WriteUnit) : (l.foldl Mem.store d.mem).wf = true :=
  List.foldlRecOn (motive := fun m : Mem => m.wf = true) l _ h.1 fun _ hm w _ => Mem.store_wf hm w

theorem settle_wf (cls p : Nat) : (d.settle cls p).wf := by
  unfold settle
  dsimp only
  split
  · exact h
  · exact ⟨stores_wf h _, h.2⟩

/-! The kernel must not evaluate an address translation, which `match d.chip.translate a with` would have it do: it divides and compares
by the size of a rank. So the definitions from here to `writePiece_wf` are unfolded as functions, in an equation apart from the goal. -/

theorem readPiece_wf (u : HbmUser) (a n : Nat) : (d.readPiece u a n).2.2.wf := by
  have hdef := Eq.refl @readPiece
  conv at hdef => rhs; delta readPiece
  generalize hr : d.readPiece u a n = r
  rw [hdef] at hr
  beta_reduce at hr
  split at hr
  · subst hr
    exact h
  · extract_lets at hr
    split at hr
    subst hr
    exact h.chip _

theorem readPieces_wf (u : HbmUser) (l : List (Nat × Nat)) : (d.readPieces u l).2.wf := by
  have hpiece : ∀ d u a n, Dev.wf d → (d.readPiece u a n).2.2.wf := fun d u a n hd => readPiece_wf hd u a n
  have hdef := Eq.refl @readPieces
  conv at hdef => rhs; delta readPieces readPieces._f
  obtain ⟨piece, hp⟩ : ∃ p, p = @readPiece := ⟨_, rfl⟩
  rw [← hp] at hpiece hdef
  generalize hr : d.readPieces u l = r
  rw [hdef] at hr
  subst hr
  induction l generalizing d with
  | nil => exact h
  | cons e t ih => exact ih (hpiece d u e.1 e.2 h)

/-- What a read leaves, where the read is known by its result. -/
theorem readPieces_eq_wf {u : HbmUser} {l : List (Nat × Nat)} {b : List (List Byte × Bool)} {d1 : Dev} (he : d.readPieces u l = (b, d1)) :
    d1.wf := by
  have hd := readPieces_wf h u l
  rwa [he] at hd

theorem readHbm_wf (u : HbmUser) (a n : Nat) : (d.readHbm u a n).2.2.wf := by
  have hpieces := readPieces_wf h u (unitPieces a n)
  have hdef := Eq.refl @readHbm
  conv at hdef => rhs; delta readHbm
  generalize hr : d.readHbm u a n = r
  rw [hdef] at hr
  beta_reduce at hr
  generalize d.readPieces u (unitPieces a n) = p at *
  subst hr
  exact hpieces

theorem writePiece_wf (u : HbmUser) (a : Nat) (b : List Byte) (poison : Bool) : (d.writePiece u a b poison).wf := by
  have hdef := Eq.refl @writePiece
  conv at hdef => rhs; delta writePiece
  generalize hr : d.writePiece u a b poison = r
  rw [hdef] at hr
  beta_reduce at hr
  split at hr
  · subst hr
    exact h
  next ro _ =>
    have hs := settle_wf h u.cls (physical ro)
    have hm := Mem.wf_setHbm hs.1 (putBytes_wf _ (physical ro) b (Mem.hbm_wf hs.1))
    subst hr
    refine ⟨?_, hs.2⟩
    dsimp only
    split
    · exact Mem.setTag_wf hm _ _
    · exact hm

theorem writeHbm_wf (u : HbmUser) (a : Nat) (b : List Byte) (poison : Bool) : (d.writeHbm u a b poison).wf :=
  wf_foldl (fun _ _ hd => writePiece_wf hd ..) h _

theorem writeFresh_wf (u : HbmUser) (a : Nat) (b : List Byte) : (d.writeFresh u a b).wf := by
  have hw := writeHbm_wf h u a b false
  exact wf_setMem hw (List.foldlRecOn (motive := fun m : Mem => m.wf = true) _ _ hw.1 fun _ hm _ _ => Mem.setTag_wf hm ..)

theorem writeSram_wf (a : Nat) (b : List Byte) : (d.writeSram a b).wf :=
  (wf_setMem h (Mem.wf_setSram h.1 (putBytes_wf _ a b (Mem.sram_wf h.1)))).chip _

/-! ### Streams and truss frames -/

theorem ptpIn_wf (port : Nat) (frame m : List Byte) (lc frac : Nat) : (d.ptpIn port frame m lc frac).wf := by
  unfold ptpIn
  extract_lets
  exact wf_ite (h.chip _) ((writeSram_wf h ..).chip _)

theorem storeSample_wf (s k : Nat) (b : List Byte) : (d.storeSample s k b).wf := (writeHbm_wf h ..).chip _

theorem drainStaged_wf (s : Nat) (l : List (Nat × List Byte)) : (drainStaged s l d).wf := by
  induction l generalizing d with
  | nil => exact h.chip _
  | cons e t ih =>
    rw [drainStaged]
    exact wf_ite (ih h) (wf_ite (ih (h.chip _)) (wf_ite (ih (storeSample_wf h ..)) (h.chip _)))

theorem drainWriter_wf : d.drainWriter.wf := wf_foldl (fun _ _ hd => drainStaged_wf hd ..) h _

theorem writeSample_wf (s k : Nat) (x : Smp) : (d.writeSample s k x).wf := by
  have hs := drainStaged_wf h s (d.chip.stream s).staged
  unfold writeSample
  generalize drainStaged s (d.chip.stream s).staged d = e at *
  extract_lets
  split
  · exact hs
  · exact wf_ite hs (wf_ite (hs.chip _) (wf_ite ((storeSample_wf hs ..).chip _) (wf_ite (hs.chip _) (hs.chip _))))

theorem delayed_wf (s k : Nat) (x : Smp) : (d.delayed s k x).wf := writeSample_wf (h.chip _) s k x

theorem unified_wf (s k : Nat) (x : Smp) : (d.unified s k x).wf := delayed_wf (h.chip _) s k _

theorem formTicks_wf (s : Nat) (row : List Byte) (uni : SMap Smp) (lo hi : Nat) : (d.formTicks s row uni lo hi).wf :=
  wf_foldl (fun _ _ hd => unified_wf (hd.chip _) ..) h _

theorem unify_wf (s q : Nat) (x : Smp) : (d.unify s q x).wf := formTicks_wf (formTicks_wf (h.chip _) ..) ..

theorem leave_wf (s q : Nat) : (d.leave s q).wf := unify_wf (h.chip _) s q _

theorem firstFrame_wf (s tick : Nat) : (d.firstFrame s tick).wf := by
  unfold firstFrame
  extract_lets
  split
  · exact h.chip _
  · exact wf_ite h ((wf_foldl (fun _ _ hd => leave_wf hd ..) h _).chip _)

theorem placeFrame_wf (b s : Nat) (frame : List Byte) (x : Option (Nat × Nat × Nat)) : (d.placeFrame b s frame x).wf := by
  unfold placeFrame
  extract_lets
  refine wf_ite (h.chip _) ?_
  extract_lets
  exact (wf_ite (firstFrame_wf (h.chip _) ..) (h.chip _)).chip _

theorem ingestFrame_wf (b : Nat) (frame : List Byte) : (d.ingestFrame b frame).wf := by
  unfold ingestFrame
  extract_lets
  refine wf_ite (h.chip _) (wf_ite (h.chip _) (wf_ite (h.chip _) ?_))
  extract_lets
  refine wf_ite (h.chip _) (wf_ite (h.chip _) (wf_ite (h.chip _) ?_))
  extract_lets
  split
  extract_lets
  split
  · exact h.chip _
  · exact h.chip _
  · exact placeFrame_wf (h.chip _) ..
  · exact placeFrame_wf (h.chip _) ..

theorem writeSticks_wf (c : Fin 2) (n j ch first stick : Nat) (f : List Byte) : (d.writeSticks c n j ch first stick f).wf :=
  wf_foldl (fun _ _ hd => wf_ite hd (writeHbm_wf hd ..)) h _

theorem placeSample_wf (a : Arrival) (c : Fin 2) (own : Bool) (f : List Byte) : (d.placeSample a c own f).wf := by
  unfold placeSample
  extract_lets
  refine wf_ite (h.chip _) (wf_ite (h.chip _) ?_)
  extract_lets
  refine wf_ite ?_ (writeSticks_wf (h.chip _) ..)
  exact wf_ite (h.chip _) (h.chip _)

theorem localSample_wf (f : List Byte) : (d.localSample f).wf := by
  unfold localSample
  extract_lets
  split
  · exact placeSample_wf h ..
  · exact h.chip _
  · exact h.chip _

theorem retryLocal_wf : d.retryLocal.wf := wf_foldl (fun _ e hd => localSample_wf hd e) (h.chip _) _

theorem sampleIn_wf (b : Nat) (frame : List Byte) : (d.sampleIn b frame).wf := by
  unfold sampleIn
  extract_lets
  split
  · exact h.chip _
  · split
    refine wf_ite (h.chip _) ?_
    split
    · exact placeSample_wf (h.chip _) ..
    · exact h.chip _

theorem retryWaiting_wf : d.retryWaiting.wf :=
  retryLocal_wf (wf_foldl (fun _ _ hd => wf_ite (sampleIn_wf hd ..) hd) (h.chip _) _)

theorem formFrames_wf (k : Nat) (tooLate : Bool) : (d.formFrames k tooLate).wf :=
  wf_foldl (fun _ _ hd => wf_foldl (fun _ _ hd => wf_ite (wf_ite (hd.chip _) (localSample_wf hd _)) (hd.chip _)) hd _) h _

/-! ### X-engine -/

theorem stageStick_wf (src dst prec mark : Nat) : (d.stageStick src dst prec mark).1.wf := by
  unfold stageStick
  extract_lets
  split
  · exact writeSram_wf h ..
  · exact writeSram_wf ((readPieces_wf h ..).chip _) ..

theorem stageSlab_wf (n j : Nat) (c : Fin 2) : (d.stageSlab n j c).wf :=
  (wf_foldl_of (dev := fun a : Dev × SMap Nat => a.1) (fun _ _ hd => stageStick_wf hd ..) h _).chip _

theorem impress_wf (i : Impression) : (d.impress i).2.wf := by
  unfold impress
  extract_lets
  split
  · exact h
  · extract_lets
    split
    split
    · exact h.chip _
    · exact h.chip _

theorem accumulate_wf (f base nf m : Nat) (first early : Bool) (e : Nat × Addition) : (d.accumulate f base nf m first early e).wf := by
  have hread : ∀ a n, (d.readHbm (openUser 1) a n).2.2.wf := fun a n => readHbm_wf h _ a n
  have hdef := Eq.refl @accumulate
  conv at hdef => rhs; delta accumulate
  obtain ⟨read, hr⟩ : ∃ p, p = @readHbm := ⟨_, rfl⟩
  rw [← hr] at hread hdef
  rw [hdef]
  exact (writeHbm_wf (hread ..) ..).chip _

theorem toVisibility_wf (i : Impression) (r : ImpResult) : (d.toVisibility i r).wf := wf_foldl (fun _ _ hd => accumulate_wf hd ..) h _

theorem toProof_wf (g : Nat) (i : Impression) (r : ImpResult) : (d.toProof g i r).wf :=
  wf_ite h (wf_foldl (fun _ _ hd => (writeFresh_wf hd ..).chip _) h _)

theorem drain_wf (i : Impression) (r : ImpResult) : (d.drain i r).wf :=
  (wf_ite (h.chip _) (wf_foldl (fun _ _ hd => toProof_wf hd ..) (toVisibility_wf h ..) _)).chip _

/-! ### Output -/

theorem setFrame_wf (g : Chip) (s : Nat) (r : Readout) (gap : Bool) : (d.setFrame g s r gap).2.2.2.2.wf := by
  have hdef := Eq.refl @setFrame
  conv at hdef => rhs; delta setFrame
  generalize hf : d.setFrame g s r gap = f
  rw [hdef] at hf
  beta_reduce at hf
  extract_lets at hf
  split at hf
  next heq =>
    subst hf
    exact readPieces_eq_wf h heq

theorem streamBlock_wf (ring : Ring) (row s w : Nat) : (d.streamBlock ring row s w).2.2.wf :=
  wf_ite ((readPieces_wf h ..).chip _) (readPieces_wf h ..)

theorem slotFrame_wf (g : Chip) (s : Nat) (r : Readout) (x : Slot) (gap : Bool) : (d.slotFrame g s r x gap).2.2.2.2.wf := by
  have hblock : ∀ d ring row s w, Dev.wf d → (d.streamBlock ring row s w).2.2.wf := fun d ring row s w hd => streamBlock_wf hd ring row s w
  have hdef := Eq.refl @slotFrame
  conv at hdef => rhs; delta slotFrame
  obtain ⟨block, hb⟩ : ∃ p, p = @streamBlock := ⟨_, rfl⟩
  rw [← hb] at hblock hdef
  generalize hf : d.slotFrame g s r x gap = f
  rw [hdef] at hf
  beta_reduce at hf
  extract_lets at hf
  split at hf
  extract_lets at hf
  split at hf
  next heq =>
    subst hf
    obtain rfl := congrArg (fun a : List Byte × Bool × Dev => a.2.2) heq
    dsimp only
    refine wf_foldl_of (dev := fun a : List Byte × Bool × Dev => a.2.2) (b := ([], false, d)) (fun a e ha => ?_) h _
    exact hblock _ _ _ _ _ ha

theorem grant_wf (s p : Nat) (g : Chip) (bytes credit : Nat) : (d.grant s p g bytes credit).wf := by
  unfold grant
  extract_lets c x finish
  have hfinish : ∀ (e : Dev) f seq poison y, e.wf → (finish e f seq poison y).wf := fun e f seq poison y he => he.chip _
  split
  next r _ =>
    split
    · split
      · exact h
      next k _ =>
        have hs := slotFrame_wf h g s r k x.gap
        generalize d.slotFrame g s r k x.gap = fr at *
        exact hfinish _ _ _ _ _ hs
    · have hs := setFrame_wf h g s r x.gap
      generalize d.setFrame g s r x.gap = fr at *
      exact hfinish _ _ _ _ _ hs
  · split
    · exact h.chip _
    · exact hfinish _ _ _ _ _ h

theorem proofBeamsOut_wf (g : Nat) (x : LedgerSlot) (l : List ScaledBeam) : (d.proofBeamsOut g x l).wf :=
  wf_ite h (wf_foldl (fun _ _ hd => wf_ite (writeFresh_wf hd ..) hd) h _)

end Dev

end Sys2Proof.Machine
end

section
/-! SUPPORT. What every operation on the device keeps, continued: setters from outside, DMA, ranks and training, power domains, resets
(chapters 10, 12, 16 and 18). -/

namespace Sys2Proof.Machine

theorem srMask_flags (v : BitVec 32) : v &&& 0xF#32 = srMask (v &&& 0xF#32) := by
  simp [srMask, BitVec.and_assoc]

/-- Boot leaves SR with its flags alone. -/
theorem bootLeavings_wf {x : Setter} (h : x.wf = true) (f : Nat) : (bootLeavings x f).wf = true := by
  unfold bootLeavings
  refine Setter.wf_of_sr h ?_ rfl rfl rfl
  dsimp only
  exact srMask_flags _

theorem Setter.wf_of_mr {x y : Setter} (h : x.wf = true) (hmr : y.mr.toNat ≤ 1) (hsr : y.sr = x.sr) (hstack : y.loopStack = x.loopStack)
    (hloop : y.looping = x.looping) : y.wf = true := by
  rw [Setter.wf_iff] at h ⊢
  rw [hsr, hstack, hloop]
  exact ⟨h.1, hmr, h.2.2⟩

/-- Bytes stored into a setter's memories leave its registers. -/
theorem Setter.putMem_wf {x : Setter} (h : x.wf = true) (kind off : Nat) (b : List Byte) : (x.putMem kind off b).wf = true := by
  induction b generalizing x off with
  | nil => exact h
  | cons v t ih =>
    refine ih (x := x.putMemByte kind off v) ?_ (off + 1)
    unfold Setter.putMemByte
    split
    · exact Setter.wf_congr h rfl rfl rfl rfl
    · exact Setter.wf_congr h rfl rfl rfl rfl
    · exact Setter.wf_congr h rfl rfl rfl rfl

theorem lateFault_wf {x : Setter} (h : x.wf = true) (c : Chip) (n : Fin 8) (faddr : BitVec 40) (a : BitVec 16) :
    (lateFault c n x faddr a).2.wf = true := Setter.enterFault_wf (Setter.loopBack_wf h) ..

namespace Dev

variable {d : Dev} (h : d.wf)
include h

/-- A request whose action keeps the device well formed does. -/
theorem request_wf {act : Dev → Dev × Status} (ha : ∀ e : Dev, e.wf → (act e).1.wf) (sess key : Nat) (v : Val) :
    (d.request sess key v act).wf := by
  unfold request
  split
  · exact (ha d h).chip _
  · exact h.chip _

theorem ask_wf {act : Dev → Asker → Dev × Option Status} (ha : ∀ (e : Dev) a, e.wf → (act e a).1.wf) (sess key : Nat) (v : Val) :
    (d.ask sess key v act).wf := by
  unfold ask
  split
  · exact (ha d _ h).chip _
  · exact h.chip _

/-! ### Setters from outside, the bus matrix and DMA -/

theorem appendRecord_wf (q ch status : Nat) (poison chainEnd : Bool) (tag residue desc : Nat) :
    (d.appendRecord q ch status poison chainEnd tag residue desc).wf := by
  unfold appendRecord
  extract_lets
  exact wf_ite (h.chip _) ((writeSram_wf h ..).chip _)

theorem dmaEnd_wf (ch status : Nat) : (d.dmaEnd ch status).wf := by
  unfold dmaEnd
  extract_lets
  exact wf_ite (appendRecord_wf (h.chip _) ..) (h.chip _)

theorem dmaAbort_wf (ch : Nat) : (d.dmaAbort ch).wf := by
  unfold dmaAbort
  extract_lets
  split
  · exact h.chip _
  · exact h.chip _
  · exact dmaEnd_wf h ..
  · exact h

theorem ring_wf (n : Fin 8) (v : BitVec 32) : (d.ring n v).wf :=
  (wf_setCore h n (x := { d.cores[n] with inMail := v }) fun hx => Setter.wf_congr hx rfl rfl rfl rfl).chip _

theorem putMem_wf (n : Fin 8) (kind off : Nat) (b : List Byte) :
    ({ d with cores := d.cores.set n (d.cores[n].putMem kind off b) } : Dev).wf :=
  wf_setCore h n fun hx => Setter.putMem_wf hx ..

/-- A device in the answer of an operation that may give none. -/
def AnswerWf {α : Type} (dev : α → Dev) (r : Option α) : Prop := ∀ a ∈ r, (dev a).wf

omit h in
theorem answerWf_none {α : Type} (dev : α → Dev) : AnswerWf dev none := fun _ ha => by cases ha

omit h in
theorem answerWf_some {α : Type} {dev : α → Dev} {a : α} (ha : (dev a).wf) : AnswerWf dev (some a) := fun b hb => by
  obtain rfl : a = b := by simpa using hb
  exact ha

omit h in
theorem answerWf_ite {α : Type} {dev : α → Dev} {p : Prop} [Decidable p] {a b : Option α} (ha : AnswerWf dev a) (hb : AnswerWf dev b) :
    AnswerWf dev (if p then a else b) := by
  split
  · exact ha
  · exact hb

omit h in
theorem answerWf_map {α β : Type} {dev : α → Dev} {dev' : β → Dev} {r : Option α} (hr : AnswerWf dev r) {f : α → β}
    (hf : ∀ a, (dev a).wf → (dev' (f a)).wf) : AnswerWf dev' (r.map f) := by
  cases r with
  | none => exact answerWf_none _
  | some a => exact answerWf_some (hf a (hr a rfl))

omit h in
/-- A further answer asked of the device in an answer. -/
theorem answerWf_bind {α β : Type} {dev : α → Dev} {dev' : β → Dev} {r : Option α} (hr : AnswerWf dev r) {f : α → Option β}
    (hf : ∀ a, (dev a).wf → AnswerWf dev' (f a)) : AnswerWf dev' (r.bind f) := by
  cases r with
  | none => exact answerWf_none _
  | some a => exact hf a (hr a rfl)

theorem ctlRead32_wf (a : Nat) : AnswerWf Prod.snd (d.ctlRead32 a) := by
  have hsame : ∀ v : Nat, AnswerWf Prod.snd (some (v, d)) := fun v => answerWf_some h
  have hchip : ∀ (v : Nat) (c : Chip), AnswerWf Prod.snd (some (v, { d with chip := c })) := fun v c => answerWf_some (h.chip c)
  have hnone := answerWf_none (α := Nat × Dev) Prod.snd
  unfold ctlRead32
  extract_lets
  refine answerWf_ite hnone (answerWf_ite (hsame _) (answerWf_ite ?_ (answerWf_ite ?_ (answerWf_ite ?_ (answerWf_ite (hchip _ _) (answerWf_ite (hsame _)
    (answerWf_ite (hchip _ _) (answerWf_ite (hsame _) (answerWf_ite (hsame _) hnone)))))))))
  · exact answerWf_ite (hsame _) (answerWf_ite (hsame _) hnone)
  · extract_lets
    split
    · exact hsame _
    · split
      exact hchip _ _
    · exact hsame _
    · exact hsame _
    · exact hsame _
    · exact hnone
  · extract_lets
    split
    · exact hsame _
    · exact hsame _
    · exact hsame _
    · exact hnone

theorem ctlWrite32_wf (m : CtlMaster) (a v : Nat) : AnswerWf id (d.ctlWrite32 m a v) := by
  have hnone := answerWf_none (α := Dev) id
  have hchip : ∀ c : Chip, AnswerWf id (some ({ d with chip := c } : Dev)) := fun c => answerWf_some (h.chip c)
  unfold ctlWrite32
  extract_lets
  refine answerWf_ite hnone (answerWf_ite ?_ (answerWf_ite ?_ (answerWf_ite (hchip _) hnone)))
  · extract_lets
    refine answerWf_ite (answerWf_some (ring_wf h ..)) (answerWf_ite (answerWf_some ?_) hnone)
    exact wf_setCore h _ fun hx => Setter.wf_congr hx rfl rfl rfl rfl
  · extract_lets
    split
    · exact hchip _
    · split
      · exact answerWf_some (wf_ite (dmaAbort_wf (h.chip _) _) (h.chip _))
      · exact hnone
    · exact hnone

theorem portAccess_wf (port : Nat) (r : MatrixReq) : (d.portAccess port r).2.wf := by
  have hwrite := fun m => ctlWrite32_wf h m r.addr (beVal r.data)
  have hread := ctlRead32_wf h r.addr
  have hhbm := readHbm_wf h hubUser r.addr r.len
  unfold portAccess
  extract_lets m or_
  have hor : ∀ x, AnswerWf Prod.snd x → (or_ x).2.wf := by
    intro x hx
    cases x with
    | none => exact h
    | some e => exact hx e rfl
  clear_value or_
  split
  · split
    · exact writeSram_wf h ..
    · exact h
  split
  · split
    · exact writeHbm_wf h ..
    · generalize d.readHbm hubUser r.addr r.len = x at *
      exact hhbm
  split
  · refine hor _ (answerWf_ite ?_ ?_)
    · exact answerWf_map (hwrite m) fun _ hd => hd
    · exact answerWf_map hread fun _ hd => hd
  split
  · split
    · exact putMem_wf h ..
    · exact h
  split
  · exact h
  · split
    exact h.chip _

theorem farRead_wf (n : Fin 8) (space : Fin 4) (a len : Nat) : (d.farRead n space a len).2.wf := by
  unfold farRead
  extract_lets
  split
  · exact portAccess_wf h ..
  · exact portAccess_wf h ..
  · exact portAccess_wf h ..

theorem storeComplete_wf (n : Fin 8) (accepted : Bool) : (d.storeComplete n accepted).wf := by
  unfold storeComplete
  extract_lets x
  split
  · exact h
  next f t _ =>
    extract_lets a dom d1 r
    refine wf_ite h ?_
    have h1 : d1.wf := wf_setCore h n fun hx => Setter.wf_congr hx rfl rfl rfl rfl
    have hr : AnswerWf id r := by
      refine answerWf_ite (answerWf_none _) ?_
      split
      · exact answerWf_some (writeSram_wf h1 ..)
      · exact ctlWrite32_wf h1 _ _ _
      · exact answerWf_some (writeHbm_wf h1 ..)
    clear_value r d1
    split
    · exact hr _ rfl
    · split
      next he =>
        obtain rfl := congrArg Prod.snd he
        exact (wf_setCore h1 n fun hx => lateFault_wf hx ..).chip _

theorem boot_wf (n : Fin 8) : (d.boot n).wf := by
  unfold boot
  extract_lets x y
  have hy : x.wf = true → y.wf = true := fun hx => bootLeavings_wf (x := { x with xram := [], yram := [] }) (Setter.wf_congr hx rfl rfl rfl rfl) _
  clear_value y
  split
  refine (wf_setCore h n fun hx => ?_).chip _
  split
  · exact Setter.wf_of_mr (hy hx) (show (1 : BitVec 32).toNat ≤ 1 by decide) rfl rfl rfl
  · exact Setter.wf_congr (hy hx) rfl rfl rfl rfl

theorem drainStores_wf (n : Fin 8) (k : Nat) : (d.drainStores n k).wf := by
  induction k generalizing d with
  | zero => exact h
  | succ k ih => exact ih (storeComplete_wf h ..)

theorem resetSetter_wf (n : Fin 8) : (d.resetSetter n).wf :=
  (wf_setCore (drainStores_wf h n _) n fun _ => Setter.resetKeep_wf ..).chip _

theorem runControl_wf (n : Fin 8) (v : Nat) : (d.runControl n v).1.wf := by
  unfold runControl
  extract_lets
  split
  · split
    · exact h
    · split
      · exact h
      · exact boot_wf (h.chip _) n
  · exact resetSetter_wf (h.chip _) n

theorem firmware_wf (sess : Nat) (n : Fin 8) (b : List Byte) : (d.firmware sess n b).1.wf := by
  unfold firmware
  extract_lets
  split
  · exact h
  · split
    · exact h
    · exact h
    · split
      · exact h
      · exact (putMem_wf h ..).chip _

theorem ctlReads_wf (a : Nat) (fixed : Bool) (k : Nat) : AnswerWf Prod.snd (d.ctlReads a fixed k) := by
  induction k generalizing d a with
  | zero => exact answerWf_some h
  | succ k ih =>
    have hread := ctlRead32_wf h a
    rw [ctlReads]
    split
    · exact answerWf_none _
    next he =>
      have hrest := ih (hread _ he) (if fixed then a else a + 4)
      split
      · exact answerWf_none _
      next b d2 he' => exact answerWf_some (hrest (b, d2) he')

theorem ctlWrites_wf (a : Nat) (fixed : Bool) (l : List Nat) : AnswerWf id (d.ctlWrites a fixed l) := by
  induction l generalizing d a with
  | nil => exact answerWf_some h
  | cons v t ih =>
    have hwrite := ctlWrite32_wf h .dma a v
    rw [ctlWrites]
    split
    · exact answerWf_none _
    next he => exact ih (hwrite _ he) _

theorem dmaRead_wf (u : HbmUser) (a n : Nat) (fixed keep : Bool) : AnswerWf (fun r => r.2.2) (d.dmaRead u a n fixed keep) := by
  have hpieces := fun l => readPieces_wf h u l
  unfold dmaRead
  extract_lets o
  split
  · exact answerWf_some h
  · have hp := hpieces (unitPieces o n)
    generalize d.readPieces u (unitPieces o n) = r at *
    exact answerWf_some hp
  · exact answerWf_some h
  · exact answerWf_map (ctlReads_wf h _ _ _) fun _ hd => hd

theorem dmaWrite_wf (u : HbmUser) (a : Nat) (b : List Byte) (poison fixed : Bool) : AnswerWf id (d.dmaWrite u a b poison fixed) := by
  unfold dmaWrite
  extract_lets
  split
  · exact answerWf_some (writeSram_wf h ..)
  · exact answerWf_some (writeHbm_wf h ..)
  · exact answerWf_some (putMem_wf h ..)
  · exact ctlWrites_wf h _ _ _

theorem beatWrite_wf (ch : Nat) : (d.beatWrite ch).wf := by
  unfold beatWrite
  extract_lets
  split
  · exact h
  · refine wf_ite h ?_
    extract_lets
    split
    · exact h.chip _
    next he => exact (dmaWrite_wf h _ _ _ _ _ _ he).chip _

theorem beatRead_wf (ch : Nat) : (d.beatRead ch).wf := by
  unfold beatRead
  extract_lets
  refine wf_ite h (wf_ite (h.chip _) ?_)
  extract_lets
  refine wf_ite (h.chip _) ?_
  extract_lets
  split
  · exact h.chip _
  next he => exact (dmaRead_wf h _ _ _ _ _ _ he).chip _

theorem beatEnd_wf (ch : Nat) : (d.beatEnd ch).wf := by
  unfold beatEnd
  extract_lets
  exact wf_ite (wf_ite (dmaEnd_wf h ..) (dmaEnd_wf h ..)) (wf_ite (dmaEnd_wf h ..) (h.chip _))

theorem channelBeat_wf (ch : Nat) : (d.channelBeat ch).wf := by
  have hd := beatRead_wf (beatWrite_wf h ch) ch
  unfold channelBeat
  extract_lets
  exact beatEnd_wf (wf_ite hd (hd.chip _)) ch

/-! ### Ranks, training and scrub -/

theorem poisonRedirected_wf (old : List Nat) : (d.poisonRedirected old).wf := by
  unfold poisonRedirected
  extract_lets
  refine wf_setMem h (List.foldlRecOn (motive := fun m : Mem => m.wf = true) _ _ h.1 fun m hm t _ => ?_)
  split
  · exact Mem.poisonRange_wf hm ..
  · exact hm

theorem unback_wf (r : Nat) : (d.unback r).wf := (poisonRedirected_wf (h.chip _) _).chip _

theorem migrate_wf (r : Nat) : (d.migrate r).wf := by
  unfold migrate
  extract_lets
  split
  · exact unback_wf (h.chip _) r
  · exact h.chip _

theorem startMigrations_wf (n : Nat) : (startMigrations n d).wf := by
  induction n generalizing d with
  | zero => exact h
  | succ n ih =>
    rw [startMigrations]
    extract_lets
    refine wf_ite h ?_
    split
    · exact h
    · exact ih (migrate_wf (h.chip _) _)

theorem retire_wf (r detail : Nat) : (d.retire r detail).wf := by
  unfold retire
  extract_lets
  exact wf_ite h (startMigrations_wf (h.chip _) _)

theorem loseRank_wf (r : Nat) : (d.loseRank r).wf := by
  unfold loseRank
  extract_lets
  split
  · exact h.chip _
  · exact retire_wf h ..
  · exact h.chip _
  · split
    · exact wf_ite (startMigrations_wf (h.chip _) _) (h.chip _)
    · exact h.chip _
  · exact h

theorem failStack_wf (k : Fin 6) : (d.failStack k).wf := by
  unfold failStack
  refine wf_ite h ?_
  extract_lets
  exact wf_foldl (fun _ _ hd => loseRank_wf hd _) (wf_ite (h.chip _) (h.chip _)) _

theorem flushRange_wf (lo hi : Nat) : (d.flushRange lo hi).wf := by
  refine wf_foldl (fun e k he => ?_) h _
  extract_lets
  exact wf_ite he ((wf_setMem he (stores_wf he _)).chip _)

theorem migrationEnds_wf : d.migrationEnds.wf := by
  unfold migrationEnds
  extract_lets
  split
  · exact h
  · exact startMigrations_wf (h.chip _) _

theorem issueWrite_wf (k : Nat) : (d.issueWrite k).wf := by
  unfold issueWrite
  extract_lets
  split
  · exact (wf_setMem h (Mem.store_wf h.1 _)).chip _
  · exact h.chip _

theorem acceptUnit_wf (k : Nat) (u : HbmUnit) (p : Nat) : (d.acceptUnit k u p).wf := by
  unfold acceptUnit
  extract_lets
  refine wf_ite (h.chip _) ?_
  extract_lets
  split
  · exact h.chip _
  · exact h.chip _

theorem arbitrateUnit_wf (k : Nat) : (d.arbitrateUnit k).wf := by
  unfold arbitrateUnit
  extract_lets c q room head asked req win waits d1
  have hd1 : d1.wf := h.chip _
  clear_value win d1
  split
  · exact hd1
  · split
    · exact hd1
    · extract_lets
      split
      · exact acceptUnit_wf (h.chip _) ..
      · exact h.chip _

theorem writeBack_wf (p : Nat) : (d.writeBack p).wf := by
  unfold writeBack
  extract_lets
  exact wf_ite h (h.chip _)

theorem corrected_wf (p : Nat) : (d.corrected p).wf := by
  unfold corrected
  extract_lets
  split
  exact wf_ite (retire_wf (writeBack_wf (h.chip _) _) ..) (writeBack_wf (h.chip _) _)

theorem uncorrectable_wf (p : Nat) : (d.uncorrectable p).wf := by
  unfold uncorrectable
  extract_lets
  have ht := Mem.setTag_wf h.1 (p / 32) true
  exact wf_ite (retire_wf ((wf_setMem h ht).chip _) ..) ((wf_setMem h ht).chip _)

theorem readOutcome_wf (p : Nat) (ecc : Ecc) : (d.readOutcome p ecc).2.wf := by
  unfold readOutcome
  split
  · exact h
  · extract_lets
    split
    · exact h
    · exact corrected_wf h p
    · split
      · exact h
      · exact uncorrectable_wf h p

theorem trainStep_wf (k : Fin 6) (good : Bool) : (d.trainStep k good).wf := by
  unfold trainStep
  extract_lets
  split
  · exact h
  · refine wf_ite ((failStack_wf (h.chip _) k).chip _) (wf_ite (h.chip _) (wf_ite (h.chip _) (wf_ite (h.chip _) (wf_ite (h.chip _) (wf_ite (h.chip _) ?_)))))
    exact h.chip _

/-! ### Power domains and resets -/

theorem domLost_wf (dom : Nat) : (d.domLost dom).wf := by
  unfold domLost
  extract_lets
  refine wf_ite (h.chip _) (wf_ite (h.chip _) (wf_ite (h.chip _) (wf_ite (h.chip _) ?_)))
  extract_lets
  exact (wf_setCore h _ fun _ => Setter.atReset_wf).chip _

theorem domainRequest_wf (dom v : Nat) (a : Asker) : (d.domainRequest dom v a).1.wf := by
  unfold domainRequest
  extract_lets c st ends
  have hends : ∀ x r, (ends x r).1.wf := fun x r => h.chip _
  clear_value ends
  split
  · split
    · exact hends ..
    · split
      · exact hends ..
      · exact hends ..
  split
  · exact hends ..
  split
  · exact hends ..
  split
  · exact hends ..
  · exact h.chip _

theorem configuredEffect_wf (dom old new : Nat) : (d.configuredEffect dom old new).wf := by
  unfold configuredEffect
  extract_lets
  refine wf_ite h (wf_ite (wf_ite (h.chip _) ?_) ?_)
  · exact (domLost_wf h dom).chip _
  · extract_lets
    refine wf_ite ?_ (h.chip _)
    exact wf_setCore (h.chip _) _ fun _ => Setter.resetKeep_wf ..

theorem regAlert_wf (e : Nat × Nat) : (d.regAlert e).wf := by
  unfold regAlert
  extract_lets
  refine wf_ite h ?_
  extract_lets
  refine wf_ite (h.chip _) ?_
  extract_lets
  exact wf_ite (wf_foldl (fun _ _ hd => wf_ite (failStack_wf hd _) hd) (h.chip _) _) (h.chip _)

theorem sleepRequest_wf (kind : Nat) (a : Asker) : (d.sleepRequest kind a).1.wf := by
  unfold sleepRequest
  extract_lets
  split
  · exact h.chip _
  · exact h.chip _

theorem trip_wf (hottest : Int) : (d.trip hottest).wf := h.chip _

theorem thermal_wf : d.thermal.wf := wf_ite (trip_wf (h.chip _) _) (h.chip _)

omit h in
theorem coldReset_wf (d : Dev) (cause : Nat) : (d.coldReset cause).wf := wf_atReset _

omit h in
theorem warmReset_wf (d : Dev) : d.warmReset.wf := wf_atReset _

end Dev

end Sys2Proof.Machine
end

section
/-! SUPPORT. What every operation on the device keeps, concluded: the dictionary server, its transactions, BDP, CAN, boot configuration and
the twin's mirror (chapters 14, 17 and 18). -/

namespace Sys2Proof.Machine

namespace Dev

variable {d : Dev} (h : d.wf)
include h

omit h in
theorem wf_ite_fst {α : Type} {p : Prop} [Decidable p] {r r' : Dev × α} (hr : r.1.wf) (hr' : r'.1.wf) : (if p then r else r').1.wf := by
  split
  · exact hr
  · exact hr'

omit h in
theorem wf_ite_snd {α : Type} {p : Prop} [Decidable p] {r r' : α × Dev} (hr : r.2.wf) (hr' : r'.2.wf) : (if p then r else r').2.wf := by
  split
  · exact hr
  · exact hr'

theorem clear_wf (k : Nat) : (d.clear k).wf := by
  unfold clear
  extract_lets
  split
  · exact h
  · refine wf_ite ?_ (h.chip _)
    exact wf_setCore (h.chip _) _ fun hx => Setter.wf_congr hx rfl rfl rfl rfl

theorem emptied_wf (k : Nat) : (d.emptied k).wf := by
  unfold emptied
  extract_lets
  refine wf_ite ?_ (h.chip _)
  exact wf_setCore h _ fun hx => Setter.wf_congr hx rfl rfl rfl rfl

theorem rollBack_wf : d.rollBack.wf := by
  unfold rollBack
  split
  · exact h
  · exact wf_foldl (fun _ _ hd => emptied_wf hd _) (h.chip _) _

theorem rollbackBy_wf (sess : Nat) : (d.rollbackBy sess).1.wf := by
  unfold rollbackBy
  split
  · exact rollBack_wf h
  · exact h.chip _

theorem writeNum_wf (sess k n : Nat) (a : Asker) : (d.writeNum sess k n a).1.wf := by
  unfold writeNum
  extract_lets i b c up upd upo
  have hup : ∀ r, (up r).1.wf := fun r => h.chip _
  have hupo : ∀ r, (upo r).1.wf := fun r => h.chip _
  have hupd : ∀ r : Dev × Status, r.1.wf → (upd r).1.wf := fun r hr => hr
  clear_value up upo upd
  split
  · exact h
  · refine wf_ite_fst h (wf_ite_fst (wf_ite (clear_wf h k) h) (wf_ite_fst (hup _) (wf_ite_fst (hupo _) (wf_ite_fst (hupo _)
      (wf_ite_fst (hupd _ ?_) (wf_ite_fst (wf_ite_fst h (wf_ite_fst h (retire_wf h ..))) (wf_ite_fst (hupd _ (runControl_wf h ..))
      (wf_ite_fst (ring_wf h ..) (wf_ite_fst (wf_ite (dmaAbort_wf h _) h) (wf_ite_fst (sleepRequest_wf h ..) (wf_ite_fst (hupo _)
      (wf_ite_fst (domainRequest_wf h ..) (wf_ite_fst (hup _) (hup _))))))))))))))
    split
    · exact rollbackBy_wf h sess
    · exact h

theorem writeBytes_wf (sess k : Nat) (b : List Byte) (a : Asker) : (d.writeBytes sess k b a).1.wf := by
  unfold writeBytes
  extract_lets i s c up r
  have hup : ∀ r, (up r).1.wf := fun r => h.chip _
  have hr : r.1.wf := firmware_wf h ..
  clear_value up r
  exact wf_ite_fst (h.chip _) (wf_ite_fst (hup _) (wf_ite_fst (hup _) (wf_ite_fst (hup _) (wf_ite_fst (hup _) (wf_ite_fst (hup _)
    (wf_ite_fst (hup _) (wf_ite_fst hr (hup _))))))))

theorem writeNow_wf (sess k : Nat) (v : Val) (a : Asker) : (d.writeNow sess k v a).1.wf := by
  cases v with
  | num n => exact writeNum_wf h ..
  | bytes b => exact writeBytes_wf h ..

theorem accept_wf (sess k : Nat) (v : Val) (a : Asker) : (d.accept sess k v a).1.wf := by
  have hw := writeNow_wf h sess k v a
  unfold accept
  generalize d.writeNow sess k v a = r at *
  split
  split
  · exact hw.chip _
  · exact hw

theorem put_wf (sess k : Nat) (v : Val) (a : Asker) (held : Held) : (d.put sess k v a held).wf := by
  have ha := accept_wf h sess k v a
  unfold put
  extract_lets
  refine wf_ite (h.chip _) ?_
  split
  · exact h
  · exact h.chip _
  · exact h.chip _
  · exact h.chip _
  · generalize d.accept sess k v a = r at *
    exact ha.chip _

theorem write_wf (sess k : Nat) (v : Val) : (d.write sess k v).wf := put_wf h ..

theorem writeRaw_wf (sess k : Nat) (b : List Byte) : (d.writeRaw sess k b).wf := by
  unfold writeRaw
  split
  · exact write_wf h ..
  · exact write_wf h ..

/-! ### Effects -/

theorem sramEffect_wf (old : Chip) : (d.sramEffect old).wf := by
  unfold sramEffect
  extract_lets
  refine (wf_foldl (fun e _ he => ?_) h _).chip _
  exact (wf_setMem he (Mem.wf_setSram he.1 (lose_wf _ _ _ _ (Mem.sram_wf he.1)))).chip _

theorem hbmEffect_wf (old : Chip) (t : Nat) : (d.hbmEffect old t).wf := by
  unfold hbmEffect
  extract_lets
  exact (wf_setMem h (Mem.wf_setHbm h.1 (lose_wf _ _ _ _ (Mem.hbm_wf h.1)))).chip _

theorem objEffect_wf (old : Chip) (t : Nat) (e : Nat × Val) : (d.objEffect old t e).wf := by
  unfold objEffect
  extract_lets
  split
  · exact wf_ite (configuredEffect_wf h ..) (h.chip _)
  · exact wf_ite (sramEffect_wf (h.chip _) _) (wf_ite (hbmEffect_wf (h.chip _) ..) (h.chip _))

theorem actEffect_wf (e : Nat × Val) : (d.actEffect e).wf := by
  unfold actEffect
  extract_lets
  split
  · exact wf_ite (h.chip _) (writeNow_wf h ..)
  · exact writeNow_wf h ..

theorem applyWrites_wf (t : Nat) (w : List (Nat × Val)) : (d.applyWrites t w).wf := by
  unfold applyWrites
  extract_lets
  exact (wf_foldl (fun _ _ hd => actEffect_wf hd _) (wf_foldl (fun _ _ hd => objEffect_wf hd ..) (h.chip _) _) _).chip _

theorem dueStep_wf (x : Due) : (d.dueStep x).wf := by
  unfold dueStep
  extract_lets
  split
  · exact h
  · exact startMigrations_wf ((applyWrites_wf (h.chip _) ..).chip _) _

theorem runSchedule_wf (n : Nat) : (runSchedule n d).wf := by
  induction n generalizing d with
  | zero => exact h
  | succ n ih =>
    rw [runSchedule]
    split
    · exact h
    · exact ih (dueStep_wf h _)

theorem commitEnds_wf : d.commitEnds.wf := by
  unfold commitEnds
  split
  · extract_lets
    exact wf_ite (h.chip _) (h.chip _)
  · exact h.chip _
  · exact h

theorem endSession_wf (k : Nat) : (d.endSession k).wf := (wf_ite (rollBack_wf h) h).chip _

/-! ### BDP -/

theorem readNum_wf (k : Nat) : (d.readNum k).2.wf := by
  have hsame : ∀ v : Nat, (v, d).2.wf := fun _ => h
  unfold readNum
  extract_lets
  refine wf_ite_snd (hsame _) (wf_ite_snd (hsame _) (wf_ite_snd (hsame _) (wf_ite_snd (hsame _) (wf_ite_snd (hsame _) (wf_ite_snd (hsame _)
    (wf_ite_snd (hsame _) (wf_ite_snd (hsame _) (wf_ite_snd (hsame _) (wf_ite_snd (hsame _) (wf_ite_snd (hsame _) (wf_ite_snd ?_
    (wf_ite_snd (hsame _) (hsame _)))))))))))))
  refine wf_ite_snd ?_ (hsame _)
  split
  exact h.chip _

theorem readVal_wf (k : Nat) : (d.readVal k).2.wf := by
  have hn := readNum_wf h k
  unfold readVal
  split
  · exact h
  · split
    · exact h
    · generalize d.readNum k = r at *
      exact hn

theorem bdpRead_wf (sess : Nat) (q : Bdp) : (d.bdpRead sess q).wf := by
  unfold bdpRead
  extract_lets c key off refuse
  have hrefuse : ∀ st, (refuse st).wf := fun st => h.chip _
  clear_value refuse
  have hv := readVal_wf h key
  refine wf_ite (hrefuse _) ?_
  split
  · refine wf_ite (wf_ite (hrefuse _) ?_) ?_
    · generalize d.readVal key = r at *
      exact hv.chip _
    · extract_lets
      split
      · exact h.chip _
      · extract_lets
        exact wf_ite (h.chip _) (h.chip _)
  · exact hrefuse _

theorem bdpWrite_wf (sess : Nat) (q : Bdp) : (d.bdpWrite sess q).wf := by
  unfold bdpWrite
  extract_lets c key off data a refuse x c0 before
  have hrefuse : ∀ x st, (refuse x st).wf := fun x st => h.chip _
  clear_value refuse before
  refine wf_ite (hrefuse ..) ?_
  split
  · exact hrefuse ..
  · refine wf_ite (wf_ite (hrefuse ..) (put_wf h ..)) ?_
    split
    · exact hrefuse ..
    · exact wf_ite (hrefuse ..) (put_wf (h.chip _) ..)

theorem rollbackRequest_wf (sess : Nat) : (d.rollbackRequest sess).1.wf := by
  unfold rollbackRequest
  split
  · exact h
  · exact rollbackBy_wf h sess

theorem bdpAct_wf (op sess : Nat) (q : Bdp) : (d.bdpAct op sess q).wf := by
  have hb := rollbackRequest_wf h sess
  unfold bdpAct
  extract_lets
  refine wf_ite (endSession_wf (h.chip _) _) (wf_ite (h.chip _) (wf_ite (bdpRead_wf h ..) (wf_ite (bdpWrite_wf h ..)
    (wf_ite (h.chip _) (wf_ite ?_ (wf_ite ?_ (wf_ite ?_ (h.chip _))))))))
  · split
    exact h.chip _
  · split
    exact h.chip _
  · generalize d.rollbackRequest sess = r at *
    exact hb.chip _

theorem bdpHandle_wf (op : Nat) (q : Bdp) : (d.bdpHandle op q).wf := by
  unfold bdpHandle
  extract_lets
  split
  · exact h.chip _
  · refine wf_ite (h.chip _) ?_
    split
    · exact wf_ite (bdpAct_wf h ..) (h.chip _)
    · extract_lets
      exact wf_ite (wf_ite (h.chip _) (h.chip _)) (bdpAct_wf (h.chip _) ..)

theorem hold_wf (x : Held) : (d.hold x).wf := h.chip _

theorem bdpArrives_wf (op : Nat) (q : Bdp) : (d.bdpArrives op q).wf := by
  unfold bdpArrives
  extract_lets
  exact wf_ite (h.chip _) (wf_ite h (wf_ite (h.chip _) (wf_ite (hold_wf (h.chip _) _) (bdpHandle_wf (h.chip _) ..))))

/-! ### CAN -/

theorem sdoWrite_wf (key : Nat) (data reply frame : List Byte) : (d.sdoWrite key data reply frame).wf := put_wf h ..

theorem sdoDownload_wf (cmd key : Nat) (frame : List Byte) : (d.sdoDownload cmd key frame).wf := by
  unfold sdoDownload
  extract_lets
  exact wf_ite (sdoWrite_wf (h.chip _) ..) (wf_ite (h.chip _) (h.chip _))

theorem sdoUpload_wf (key : Nat) : (d.sdoUpload key).wf := by
  unfold sdoUpload
  extract_lets c
  have hv := readVal_wf (h.chip c) key
  split
  · generalize Dev.readVal { d with chip := c } key = r at *
    split
    exact wf_ite (hv.chip _) (hv.chip _)
  · exact h.chip _

theorem sdoDownSegment_wf (x : SdoTransfer) (cmd : Nat) (frame : List Byte) : (d.sdoDownSegment x cmd frame).wf := by
  unfold sdoDownSegment
  extract_lets
  exact wf_ite (wf_ite (sdoWrite_wf (h.chip _) ..) (h.chip _)) (h.chip _)

theorem sdoUpSegment_wf (x : SdoTransfer) : (d.sdoUpSegment x).wf := h.chip _

theorem sdoSegment_wf (upload : Bool) (cmd : Nat) (frame : List Byte) : (d.sdoSegment upload cmd frame).wf := by
  unfold sdoSegment
  extract_lets
  split
  · exact h.chip _
  · exact wf_ite (h.chip _) (wf_ite (h.chip _) (wf_ite (sdoUpSegment_wf h _) (sdoDownSegment_wf h ..)))

theorem sdoHandle_wf (frame : List Byte) : (d.sdoHandle frame).wf := by
  unfold sdoHandle
  extract_lets
  exact wf_ite (sdoSegment_wf h ..) (wf_ite (sdoDownload_wf h ..) (wf_ite (sdoUpload_wf h _) (wf_ite (sdoSegment_wf h ..)
    (wf_ite (h.chip _) (h.chip _)))))

theorem sdoArrives_wf (frame : List Byte) : (d.sdoArrives frame).wf := by
  unfold sdoArrives
  extract_lets
  exact wf_ite h (wf_ite (h.chip _) (wf_ite h (wf_ite (hold_wf h _) (sdoHandle_wf h _))))

theorem resumeHeld_wf (x : Held) : (d.resumeHeld x).wf := by
  refine wf_ite (hold_wf h _) ?_
  split
  · exact wf_ite (bdpHandle_wf h ..) h
  · exact wf_ite (sdoHandle_wf h _) h
  · exact write_wf h ..

theorem replay_wf : d.replay.wf := wf_ite h (wf_foldl (fun _ _ hd => resumeHeld_wf hd _) (h.chip _) _)

/-! ### Boot configuration and the mirror -/

theorem bootCommit_wf : d.bootCommit.1.wf := by
  unfold bootCommit
  split
  · exact h
  · exact commitEnds_wf (h.chip _)

theorem bootOpen_wf (key : Nat) : (d.bootOpen key).wf := wf_ite h (h.chip _)

theorem bootWrite_wf (key : Nat) (data : List Byte) : (d.bootWrite key data).1.wf := by
  have h0 := bootOpen_wf h key
  unfold bootWrite
  extract_lets d0 v
  have ha := accept_wf h0 0 key v .nobody
  split
  · exact h0
  · exact h0.chip _
  · generalize Dev.accept (d.bootOpen key) 0 key v .nobody = r at *
    split
    extract_lets
    split
    · exact commitEnds_wf ha
    · exact ha
  · exact h0

theorem bootRecords_wf (f n : Nat) (b : List Byte) : (bootRecords f n b d).1.wf := by
  induction f generalizing d n b with
  | zero => exact h
  | succ f ih =>
    rw [bootRecords]
    extract_lets key len size
    have hw := bootWrite_wf h key (slice b 8 len)
    refine wf_ite_fst ?_ (wf_ite_fst h ?_)
    · have hc := bootCommit_wf h
      split
      next he => rwa [he] at hc
      next he => rwa [he] at hc
    · split
      next d1 he =>
        have h1 : d1.wf := by rwa [he] at hw
        refine wf_ite_fst ?_ (ih h1 ..)
        have hc := bootCommit_wf h1
        split
        next he =>
          rw [he] at hc
          exact ih hc ..
        next he => rwa [he] at hc
      next he => rwa [he] at hw

theorem bootFailed_wf (x : BootFailure) : (d.bootFailed x).wf := (rollBack_wf h).chip _

theorem loadObject_wf (k : Nat) (v : Val) : (d.loadObject k v).wf := wf_ite (h.chip _) (applyWrites_wf h ..)

theorem mirrorComplete_wf (p : MirrorPart) : (d.mirrorComplete p).wf := by
  unfold mirrorComplete
  extract_lets
  refine wf_ite h ?_
  split
  · exact h
  · exact wf_ite (h.chip _) (wf_ite (loadObject_wf h ..) (writeNow_wf h ..))

theorem mirrorCommitIn_wf (body : List Byte) : (d.mirrorCommitIn body).wf := by
  unfold mirrorCommitIn
  extract_lets
  exact wf_ite (h.chip _) (h.chip _)

theorem snapshotBegin_wf : d.snapshotBegin.wf := by
  unfold snapshotBegin
  extract_lets
  exact (applyWrites_wf (h.chip _) ..).chip _

end Dev

end Sys2Proof.Machine
end

section
/-! SUPPORT. Every command completes, takes nothing from the queue, and keeps memories canonical and setters well formed. -/

namespace Sys2Proof.Machine

/-- The command completes, leaves the queue as it is, and keeps the device well formed. -/
def Completes (s : State) (r : Host.Outcome State Fault Refusal) : Prop := ∃ d, r = .next { s with dev := d } ∧ (s.dev.wf → d.wf)

section
variable {s : State}

theorem completes_ok (c : Chip) : Completes s (ok s c) := ⟨_, rfl, fun h => h.chip c⟩

theorem completes_done {d : Dev} (h : s.dev.wf → d.wf) : Completes s (done s d) := ⟨d, rfl, h⟩

theorem completes_ite {p : Prop} [Decidable p] {r r' : Host.Outcome State Fault Refusal} (h : Completes s r) (h' : Completes s r') :
    Completes s (if p then r else r') := by
  split
  · exact h
  · exact h'

/-- A step of one core and the chip is such a command. -/
theorem CoreStep.completes {n : Fin 8} {r : Host.Outcome State Fault Refusal} (h : CoreStep s n r) : Completes s r := by
  obtain ⟨c, y, rfl, hy⟩ := h
  exact ⟨_, rfl, fun hd => (Dev.wf_setCore hd n hy.wf).chip c⟩

/-! ### Commands with a device to give back -/

theorem completes_resetCommandStart : Completes s (execResetCommandStart s) := by
  unfold execResetCommandStart
  split
  · exact completes_ok _
  · exact completes_done fun _ => Dev.warmReset_wf _
  · exact completes_done fun _ => Dev.coldReset_wf ..

theorem completes_sramClear : Completes s (execSramClearComplete s) := by
  unfold execSramClearComplete
  extract_lets
  exact completes_ite (completes_ok _) (completes_done fun h => (Dev.wf_setMem h (Mem.wf_setSram h.1 zero_wf)).chip _)

theorem completes_hbmFill (f : List (Fin 6)) : Completes s (execHbmFillComplete f s) := by
  unfold execHbmFillComplete
  extract_lets d d1 d2
  refine completes_ite (completes_ok _) (completes_done fun h => ?_)
  have h2 : d2.wf := Dev.wf_foldl (fun _ _ hd => Dev.migrationEnds_wf hd) (Dev.wf_foldl (fun _ _ hd => Dev.failStack_wf hd _) h f) _
  have hm : ({ d2.mem with hbm := ByteMem.zero, lost := [], tag := [] } : Mem).wf = true :=
    (Mem.wf_iff _).2 ⟨Mem.sram_wf (m := d2.mem) h2.1, zero_wf, rfl⟩
  exact (Dev.wf_setMem h2 hm).chip _

theorem completes_bootConfiguration (flash : Option (List Byte)) : Completes s (execBootConfiguration flash s) := by
  unfold execBootConfiguration
  extract_lets d c
  refine completes_ite (completes_ok _) ?_
  split
  next version records _ =>
    extract_lets d1
    have hr := fun h : s.dev.wf => Dev.bootRecords_wf (h.chip (c.wr (od 0x1080 6) version)) (records.length + 1) 0 records
    split
    next he => exact completes_done fun h => Dev.wf.chip (by have := hr h; rwa [he] at this) _
    next he => exact completes_done fun h => Dev.bootFailed_wf (by have := hr h; rwa [he] at this) _
  · exact completes_ok _

theorem completes_transactionExpired : Completes s (execTransactionExpired s) := by
  unfold execTransactionExpired
  extract_lets
  split
  · exact completes_ok _
  · exact completes_ite (completes_ok _) (completes_done fun h => (Dev.rollBack_wf (h.chip _)).chip _)

theorem completes_sessionTimeout (k : Fin 9) : Completes s (execSessionTimeout k s) := by
  unfold execSessionTimeout
  extract_lets
  exact completes_ite (completes_ok _) (completes_done fun h => Dev.endSession_wf (h.chip _) _)

theorem completes_sleepRequest (sess : Fin 9) (kind : BitVec 8) : Completes s (execSleepRequest sess kind s) := by
  unfold execSleepRequest
  extract_lets
  exact completes_ite (completes_ok _) (completes_done fun h => Dev.ask_wf h (fun _ _ he => Dev.sleepRequest_wf he ..) ..)

theorem completes_domainDrain (d : Fin 96) : Completes s (execDomainDrainComplete d s) := by
  unfold execDomainDrainComplete
  extract_lets
  split
  · exact completes_ok _
  · extract_lets
    exact completes_done fun h => (Dev.wf_ite (Dev.domLost_wf (h.chip _) _) (h.chip _)).chip _

theorem completes_operatingPointTimeout : Completes s (execOperatingPointTimeout s) := by
  unfold execOperatingPointTimeout
  extract_lets
  split
  · exact completes_ok _
  · exact completes_done fun h => Dev.replay_wf (h.chip _)

theorem completes_voutPoll (v : Nat) : Completes s (execVoutPoll v s) := by
  unfold execVoutPoll
  split
  exact completes_done fun h => Dev.replay_wf (h.chip _)

theorem completes_ptpReceive (p : Fin 9) (frame : List Byte) (lc frac : Nat) : Completes s (execPtpReceive p frame lc frac s) := by
  unfold execPtpReceive
  extract_lets
  refine completes_ite (completes_ok _) ?_
  split
  · exact completes_done fun h => Dev.ptpIn_wf h ..
  · exact completes_ok _

theorem completes_ptpTransmit (p : Fin 9) (lc frac : Nat) : Completes s (execPtpTransmit p lc frac s) := by
  unfold execPtpTransmit
  extract_lets
  exact completes_ite (completes_ok _) (completes_done fun h => (Dev.writeSram_wf h ..).chip _)

theorem completes_ingestFrame (b : Fin 256) (frame : List Byte) : Completes s (execIngestFrame b frame s) := by
  unfold execIngestFrame
  extract_lets
  refine completes_ite (completes_ok _) ?_
  split
  · exact completes_ok _
  · exact completes_done fun h => Dev.ingestFrame_wf (h.chip _) ..

theorem completes_sampleRelease (n : Fin 1024) : Completes s (execSampleRelease n s) := by
  unfold execSampleRelease
  extract_lets
  split
  · exact completes_done fun h => Dev.leave_wf h ..
  · split
    · exact completes_ok _
    · exact completes_ok _

theorem completes_trussFramesReady : Completes s (execTrussFramesReady s) := by
  unfold execTrussFramesReady
  extract_lets
  split
  · exact completes_ok _
  · extract_lets
    exact completes_ite (completes_ok _) (completes_done fun h => (Dev.wf_ite h (Dev.formFrames_wf h ..)).chip _)

theorem completes_sampleFrame (b : Fin 256) (frame : List Byte) : Completes s (execSampleFrame b frame s) := by
  unfold execSampleFrame
  extract_lets
  exact completes_ite (completes_ok _) (completes_ite (completes_ite (completes_ok _) (completes_ok _))
    (completes_done fun h => Dev.sampleIn_wf h ..))

theorem completes_halfLayoutFix (c : Fin 2) : Completes s (execHalfLayoutFix c s) := by
  unfold execHalfLayoutFix
  extract_lets
  exact completes_ite (completes_done fun h => Dev.retryWaiting_wf (h.chip _)) (completes_ok _)

theorem completes_receiptMapCleared (c : Fin 2) : Completes s (execReceiptMapCleared c s) := by
  unfold execReceiptMapCleared
  extract_lets
  exact completes_ite (completes_ok _) (completes_done fun h => Dev.retryWaiting_wf (h.chip _))

theorem completes_slabStaged : Completes s (execSlabStaged s) := by
  unfold execSlabStaged
  extract_lets
  split
  · exact completes_ok _
  · exact completes_ite (completes_done fun h => Dev.stageSlab_wf h ..) (completes_ok _)

theorem completes_impressionEnd (p : Fin 64) : Completes s (execImpressionEnd p s) := by
  unfold execImpressionEnd
  extract_lets d x
  split
  next i _ _ _ =>
    have hi := fun h : s.dev.wf => Dev.impress_wf h i
    split
    next he => exact completes_done fun h => Dev.wf.chip (by have := hi h; rwa [he] at this) _
  · exact completes_ok _

theorem completes_impressionComplete (p : Fin 64) : Completes s (execImpressionComplete p s) := by
  unfold execImpressionComplete
  extract_lets
  split
  · exact completes_ok _
  · extract_lets
    split
    · exact completes_done fun h => (Dev.drain_wf h ..).chip _
    · exact completes_done fun h => (Dev.drain_wf h ..).chip _

theorem completes_slotDrain (f : Fin 4096) : Completes s (execSlotDrain f s) := by
  unfold execSlotDrain
  extract_lets
  split
  · exact completes_ok _
  · extract_lets
    refine completes_ite (completes_ok _) (completes_ite (completes_ok _) ?_)
    split
    exact completes_done fun h => Dev.wf_foldl (fun _ _ hd => Dev.proofBeamsOut_wf hd ..) (h.chip _) _

theorem completes_hbmRequest (k : Fin 6) (pc : Fin 32) (l : List HbmUnit) : Completes s (execHbmRequest k pc l s) :=
  completes_done fun h => Dev.wf_ite (h.chip _) (Dev.drainWriter_wf (Dev.issueWrite_wf (Dev.arbitrateUnit_wf (h.chip _) _) _))

theorem completes_hbmReadComplete (k : Fin 6) (pc : Fin 32) (ecc : Ecc) : Completes s (execHbmReadComplete k pc ecc s) := by
  unfold execHbmReadComplete
  extract_lets d key q
  split
  · exact completes_ok _
  next u rest _ =>
    extract_lets q1
    refine completes_ite (completes_ok _) ?_
    have hread := fun h : s.dev.wf => Dev.readOutcome_wf (h.chip (d.chip.setPc key (q1.access d.chip.lc u.addr u.close))) u.addr ecc
    split
    next he =>
      obtain rfl := congrArg Prod.snd he
      refine completes_done fun h => Dev.wf.chip (Dev.wf_ite_snd (h.chip _) ?_) _
      have hr := hread h
      generalize Dev.readOutcome _ u.addr ecc = r at *
      exact hr

theorem completes_scrubRead (ecc : Ecc) : Completes s (execScrubRead ecc s) := by
  unfold execScrubRead
  extract_lets d c r
  split
  · exact completes_ok _
  next r1 _ =>
    extract_lets p d1
    have hread := fun h : d1.wf => Dev.readOutcome_wf (h.chip (d1.chip.touch (openUser 10) p)) p ecc
    have h1 : s.dev.wf → d1.wf := fun h => h.chip _
    clear_value d1
    split
    next he =>
      obtain rfl := congrArg Prod.snd he
      refine completes_done fun h => Dev.wf.chip ?_ _
      split
      · exact (h1 h).chip _
      · exact hread (h1 h)

theorem completes_migrationBlock : Completes s (execMigrationBlock s) := by
  unfold execMigrationBlock
  extract_lets d
  split
  · exact completes_ok _
  next m _ =>
    refine completes_ite (completes_ok _) ?_
    extract_lets src dst d1 old copy mem
    refine completes_done fun h => ?_
    have h1 : d1.wf := Dev.flushRange_wf h ..
    clear_value d1
    refine (Dev.wf_setMem h1 (m := mem) ?_).chip _
    have hcopy := Mem.wf_setHbm h1.1 (putBytes_wf d1.mem.hbm dst (getBytes d1.mem.hbm src blockBytes) (Mem.hbm_wf h1.1))
    unfold mem
    split
    · exact Mem.poisonRange_wf h1.1 ..
    · exact List.foldlRecOn (motive := fun m : Mem => m.wf = true) _ _ hcopy fun _ hm _ _ => Mem.setTag_wf hm ..

theorem completes_migrationComplete : Completes s (execMigrationComplete s) := by
  unfold execMigrationComplete
  extract_lets
  split
  · exact completes_ok _
  · exact completes_ite (completes_ok _) (completes_done fun h => Dev.migrationEnds_wf h)

theorem completes_farLoadData (n : Fin 8) (w : Fin 64) (reply : FarReply) : Completes s (execFarLoadData n w reply s) := by
  unfold execFarLoadData
  extract_lets d
  split
  · exact completes_done id
  next f _ =>
    extract_lets a dom take
    refine completes_ite (completes_done id) ?_
    have htake : ∀ (e : Dev) v, (e.cores[n]).wf = true → (take e v).wf = true := fun e v he => Setter.wf_congr he rfl rfl rfl rfl
    clear_value take
    split
    next bytes d1 he =>
      have h1 : s.dev.wf → d1.wf := fun h => by
        obtain rfl := congrArg Prod.snd he
        exact Dev.wf_ite_snd (Dev.farRead_wf h ..) h
      split
      · exact completes_done fun h => Dev.wf_setCore (h1 h) n (htake d1 _)
      · split
        next hl =>
          obtain rfl := congrArg Prod.snd hl
          exact completes_done fun h => (Dev.wf_setCore (h1 h) n fun hx => lateFault_wf (htake d1 0 hx) ..).chip _

theorem completes_doorbell (by_ : Requester) (n : Fin 8) (v : BitVec 32) : Completes s (execDoorbell by_ n v s) := by
  unfold execDoorbell
  split
  · exact completes_done fun h => Dev.request_wf h (fun _ he => Dev.ring_wf he ..) ..
  · exact completes_done fun h => Dev.ring_wf h ..

theorem completes_controlCounterRead (a : BitVec 24) : Completes s (execControlCounterRead a s) := by
  unfold execControlCounterRead
  refine completes_ite ?_ (completes_ok _)
  split
  next he => exact completes_done fun h => (Dev.ctlRead32_wf h _ _ he).chip _
  · exact completes_ok _

theorem completes_matrixAccess (port : Fin 15) (l : List MatrixReq) : Completes s (execMatrixAccess port l s) := by
  unfold execMatrixAccess
  extract_lets d c port key wait heads hangs req won waits matrix d1 refuse
  have h1 : s.dev.wf → d1.wf := fun h => h.chip _
  have hrefuse : ∀ x : Dev, x.wf → (refuse x).wf := fun x hx => hx.chip _
  clear_value won heads d1 refuse
  split
  · exact completes_done h1
  · split
    · exact completes_done h1
    next r _ =>
      refine completes_ite (completes_done fun h => hrefuse _ (h1 h)) (completes_ite (completes_done fun h => (h1 h).chip _) ?_)
      have hp := fun h : s.dev.wf => Dev.portAccess_wf (h1 h) port r
      split
      next he =>
        rw [he] at hp
        exact completes_done fun h => Dev.wf_ite ((hp h).chip _) (hrefuse _ (hp h))
      next he =>
        rw [he] at hp
        exact completes_done fun h => (hp h).chip _

theorem completes_dmaStart (by_ : Requester) (c : Fin 32) : Completes s (execDmaStart by_ c s) := by
  unfold execDmaStart
  split
  · exact completes_ok _
  · exact completes_ok _
  · split
    · exact completes_ok _
    · extract_lets
      split
      next hl =>
        obtain rfl := congrArg Prod.snd hl
        exact ⟨_, rfl, fun h => (Dev.wf_setCore h _ fun hx => lateFault_wf hx ..).chip _⟩

theorem completes_dmaAbort (by_ : Requester) (c : Fin 32) : Completes s (execDmaAbort by_ c s) := by
  unfold execDmaAbort
  split
  · exact completes_done fun h => Dev.request_wf h (fun _ he => Dev.dmaAbort_wf he _) ..
  · exact completes_done fun h => Dev.dmaAbort_wf h _

theorem completes_descriptorLoaded (c : Fin 32) : Completes s (execDescriptorLoaded c s) := by
  unfold execDescriptorLoaded
  extract_lets
  refine completes_ite (completes_ok _) ?_
  split
  · exact completes_done fun h => Dev.dmaEnd_wf (h.chip _) ..
  · exact completes_ite (completes_done fun h => Dev.dmaEnd_wf (h.chip _) ..) (completes_done fun h => h.chip _)

theorem completes_dmaBeat : Completes s (execDmaBeat s) :=
  completes_done fun h => Dev.wf_foldl (fun _ _ hd => Dev.channelBeat_wf hd _) (h.chip _) _

theorem completes_dmaWatchdog (c : Fin 32) : Completes s (execDmaWatchdog c s) := by
  unfold execDmaWatchdog
  extract_lets
  exact completes_ite (completes_done fun h => Dev.dmaEnd_wf (h.chip _) ..) (completes_ok _)

theorem completes_portReceive (p : Fin 8) (fcs : Bool) (frame : List Byte) (lc frac : Nat) :
    Completes s (execPortReceive p fcs frame lc frac s) := by
  unfold execPortReceive
  extract_lets
  refine completes_ite (completes_ok _) (completes_ite (completes_ok _) ?_)
  split
  · exact completes_done fun h => Dev.ptpIn_wf h ..
  · exact completes_ok _

theorem completes_frameSlot (p : Fin 8) : Completes s (execFrameSlot p s) := by
  unfold execFrameSlot
  extract_lets d c x offers req prio wait
  have hd : s.dev.wf → d.wf := fun h => h.chip _
  clear_value offers req d
  split
  · exact completes_ok _
  · split
    · exact completes_ok _
    · exact completes_done fun h => Dev.grant_wf ((hd h).chip _) ..

theorem completes_mirrorWrite (b : Fin 256) (frame : List Byte) : Completes s (execMirrorWrite b frame s) := by
  unfold execMirrorWrite
  split
  · exact completes_ok _
  · refine completes_ite (completes_ok _) ?_
    split
    · exact completes_ok _
    · exact completes_done fun h => Dev.mirrorComplete_wf (h.chip _) _

theorem completes_mirrorCommit (b : Fin 256) (frame : List Byte) : Completes s (execMirrorCommit b frame s) := by
  unfold execMirrorCommit
  split
  · exact completes_ok _
  · exact completes_ite (completes_done fun h => Dev.mirrorCommitIn_wf (h.chip _) _) (completes_ok _)

theorem completes_snapshot (b : Fin 256) (frame : List Byte) : Completes s (execSnapshot b frame s) := by
  unfold execSnapshot
  split
  · exact completes_ok _
  · extract_lets
    exact completes_ite (completes_ok _) (completes_ite (completes_done fun h => Dev.snapshotBegin_wf (h.chip _))
      (completes_ite (completes_ok _) (completes_ok _)))

theorem completes_trainingStepEnd (k : Fin 6) (good : Bool) : Completes s (execTrainingStepEnd k good s) :=
  completes_done fun h => Dev.drainWriter_wf (Dev.wf_ite (Dev.replay_wf (Dev.trainStep_wf h ..)) (Dev.trainStep_wf h ..))

theorem completes_retire (sess : Fin 9) (r : Fin 18) : Completes s (execRetire sess r s) :=
  completes_done fun h => Dev.request_wf h (fun _ he => Dev.wf_ite_fst he (Dev.retire_wf he ..)) ..

theorem completes_operatingPointRequest (sess : Fin 9) (v : BitVec 8) : Completes s (execOperatingPointRequest sess v s) :=
  completes_done fun h => Dev.ask_wf h (fun _ _ he => he.chip _) ..

theorem completes_farStoreComplete (n : Fin 8) (reply : FarReply) : Completes s (execFarStoreComplete n reply s) := by
  unfold execFarStoreComplete
  split
  · exact completes_done fun h => Dev.storeComplete_wf h ..
  · exact completes_done fun h => Dev.storeComplete_wf h ..

/-! ### Commands of the chip alone whose branches nest -/

theorem completes_dataBlock (l : Fin 512) (b : List Byte) : Completes s (execDataBlock l b s) := by
  unfold execDataBlock
  split
  · exact completes_ok _
  · extract_lets
    split
    · exact completes_ok _
    · exact completes_ite (completes_ok _) (completes_ok _)

theorem completes_pairEntry : Completes s (execPairEntry s) := by
  unfold execPairEntry
  extract_lets c period armed
  clear_value armed
  split
  · exact completes_ok _
  · exact completes_ite (completes_ok _) (completes_ok _)

theorem completes_spectrum (n : Fin 1024) : Completes s (execSpectrum n s) := by
  unfold execSpectrum
  extract_lets _ _ _ _ _ here
  clear_value here
  split
  · exact completes_ok _
  extract_lets
  split
  · exact completes_ok _
  · exact completes_ite (completes_ok _) (completes_ok _)

/-! ### Every command -/

/-- Every command completes: those of the setters are steps of a core, those with a lemma above give a device back, and every branch of
the others changes the chip alone. -/
theorem exec_completes (i : Instr) : Completes s (exec i s) := by
  cases i
  case cmul | cmac | cmsu | cjmul | cjmac | cjmsu | dmul | dmac | dmsu | xmac | pmac =>
    simp only [exec_cmul, exec_cmac, exec_cmsu, exec_cjmul, exec_cjmac, exec_cjmsu, exec_dmul, exec_dmac, exec_dmsu, exec_xmac, exec_pmac]
    exact (coreStep_mac ..).completes
  case add | sub | cadd | csub | neg | conj | abs | min | max | and | or | xor | not | asr | lsr | asl | casr | pack | unph | unpl | cmp |
      mov | swap | norm | tst =>
    simp only [exec_add, exec_sub, exec_cadd, exec_csub, exec_neg, exec_conj, exec_abs, exec_min, exec_max, exec_and, exec_or, exec_xor,
      exec_not, exec_asr, exec_lsr, exec_asl, exec_casr, exec_pack, exec_unph, exec_unpl, exec_cmp, exec_mov, exec_swap, exec_norm,
      exec_tst]
    exact (coreStep_alu ..).completes
  case clra | ldac | ldar | adda | suba | mova | sra | sla | conja | stc | str | sti | norma =>
    simp only [exec_clra, exec_ldac, exec_ldar, exec_adda, exec_suba, exec_mova, exec_sra, exec_sla, exec_conja, exec_stc, exec_str,
      exec_sti, exec_norma]
    exact (coreStep_acc ..).completes
  case nearAbsoluteLoad => exact (coreStep_nearLoad ..).completes
  case nearAbsoluteStore => exact (coreStep_nearStore ..).completes
  case farLoad => exact (coreStep_farLoad ..).completes
  case farStore => exact (coreStep_farStore ..).completes
  case immediateW => exact (coreStep_immediateW ..).completes
  case immediateP => exact (coreStep_immediateP ..).completes
  case immediateM => exact (coreStep_immediateM ..).completes
  case immediateControl => exact (coreStep_immediateControl ..).completes
  case addp => exact (coreStep_addp ..).completes
  case modp => exact (coreStep_modp ..).completes
  case addm => exact (coreStep_addm ..).completes
  case cmpp => exact (coreStep_cmpp ..).completes
  case registerMove => exact (coreStep_registerMove ..).completes
  case nop => exact (coreStep_nop ..).completes
  case br => exact (coreStep_br ..).completes
  case bri => exact (coreStep_bri ..).completes
  case call => exact (coreStep_call ..).completes
  case calli => exact (coreStep_calli ..).completes
  case ret => exact (coreStep_ret ..).completes
  case rti => exact (coreStep_rti ..).completes
  case rpt => exact (coreStep_rpt ..).completes
  case loop => exact (coreStep_loop ..).completes
  case loopBack => exact (coreStep_loopBack ..).completes
  case idle => exact (coreStep_idle ..).completes
  case trap => exact (coreStep_trap ..).completes
  case sync => exact (coreStep_sync ..).completes
  case brk => exact (coreStep_brk ..).completes
  case interruptEntry => exact (coreStep_interruptEntry ..).completes
  case faultEntry => exact (coreStep_faultEntry ..).completes
  case timerCompare => exact (coreStep_timerCompare ..).completes
  case cycLoRead => exact (coreStep_cycLoRead ..).completes
  case registerWrite | clearCounters =>
    exact completes_done fun h => Dev.writeRaw_wf h ..
  case keyWrite | canBegin | canCommitAtTick | canCommitNow | canRollback | weightBankWrite | swapRequest | dcMeanWrite | delaySegmentWrite
      | clearSegments =>
    exact completes_done fun h => Dev.write_wf h ..
  case openSession | closeSession | keepalive | read | write | describe | beginTxn | commit | rollback =>
    exact completes_done fun h => Dev.bdpArrives_wf h ..
  case sdoDownloadInitiate | sdoUploadInitiate | sdoSegment | sdoBlockCommand =>
    exact completes_done fun h => Dev.sdoArrives_wf h _
  case powerOnReset | pwrGoodLow | resetLAssert =>
    exact completes_done fun _ => Dev.coldReset_wf ..
  case commitValidated => exact completes_done fun h => Dev.replay_wf (Dev.commitEnds_wf h)
  case sensorReading => exact completes_done fun h => Dev.thermal_wf (h.chip _)
  case transactionEffect => exact completes_done fun h => Dev.runSchedule_wf (h.chip _) _
  case pmbAlert => exact completes_done fun h => Dev.wf_foldl (fun _ _ hd => Dev.regAlert_wf hd _) (h.chip _) _
  case domainStateRequest => exact completes_done fun h => Dev.ask_wf h (fun _ _ he => Dev.domainRequest_wf he ..) ..
  case farStoreComplete => exact completes_farStoreComplete ..
  case dataBlock => exact completes_dataBlock ..
  case pairEntry => exact completes_pairEntry ..
  case runControl => exact completes_done fun h => Dev.request_wf h (fun _ he => Dev.runControl_wf he ..) ..
  case firmwareImage => exact completes_done fun h => Dev.request_wf h (fun _ he => Dev.firmware_wf he ..) ..
  case resetCommandStart => exact completes_resetCommandStart ..
  case sramClearComplete => exact completes_sramClear ..
  case hbmFillComplete => exact completes_hbmFill ..
  case bootConfiguration => exact completes_bootConfiguration ..
  case transactionExpired => exact completes_transactionExpired ..
  case sessionTimeout => exact completes_sessionTimeout ..
  case sleepRequest => exact completes_sleepRequest ..
  case domainDrainComplete => exact completes_domainDrain ..
  case operatingPointRequest => exact completes_operatingPointRequest ..
  case voutPoll => exact completes_voutPoll ..
  case operatingPointTimeout => exact completes_operatingPointTimeout ..
  case ptpReceive => exact completes_ptpReceive ..
  case ptpTransmit => exact completes_ptpTransmit ..
  case ingestFrame => exact completes_ingestFrame ..
  case sampleRelease => exact completes_sampleRelease ..
  case spectrum => exact completes_spectrum ..
  case trussFramesReady => exact completes_trussFramesReady ..
  case sampleFrame => exact completes_sampleFrame ..
  case halfLayoutFix => exact completes_halfLayoutFix ..
  case receiptMapCleared => exact completes_receiptMapCleared ..
  case slabStaged => exact completes_slabStaged ..
  case impressionEnd => exact completes_impressionEnd ..
  case impressionComplete => exact completes_impressionComplete ..
  case slotDrain => exact completes_slotDrain ..
  case hbmRequest => exact completes_hbmRequest ..
  case hbmReadComplete => exact completes_hbmReadComplete ..
  case trainingStepEnd => exact completes_trainingStepEnd ..
  case scrubRead => exact completes_scrubRead ..
  case retire => exact completes_retire ..
  case migrationBlock => exact completes_migrationBlock ..
  case migrationComplete => exact completes_migrationComplete ..
  case farLoadData => exact completes_farLoadData ..
  case doorbell => exact completes_doorbell ..
  case controlCounterRead => exact completes_controlCounterRead ..
  case matrixAccess => exact completes_matrixAccess ..
  case dmaStart => exact completes_dmaStart ..
  case dmaAbort => exact completes_dmaAbort ..
  case descriptorLoaded => exact completes_descriptorLoaded ..
  case dmaBeat => exact completes_dmaBeat ..
  case dmaWatchdog => exact completes_dmaWatchdog ..
  case portReceive => exact completes_portReceive ..
  case frameSlot =>
    dsimp only [exec]
    exact completes_frameSlot ..
  case mirrorWrite => exact completes_mirrorWrite ..
  case mirrorCommit => exact completes_mirrorCommit ..
  case snapshot => exact completes_snapshot ..
  all_goals
    dsimp only [exec]
    delta execResetRelease execColdResetCommand execWarmResetCommand execApllLock execXoEdgeTimeout execTapReset execExtest
      execSamplePreload execIdcode execClamp execHighz execExtestPulse execExtestTrain execBypass execTapTestExit execFaultAcknowledge
      execPartialWriteTimeout execArpRequest execNeighbourSolicitation execEchoRequest execSdoSegmentTimeout execCanBusOff
      execHeartbeatProducer execSleepEntry execWakeLAssert execCanWakeFrame execMgtWakeDatagram execSillWakeTimer execWake execResume
      execDrainTimeout execDomainReturnComplete execHbmRateChange execPmbusPoll execClearFaults execFrequencyGateEnd execDwellExpiry
      execRefEdgeTimeout execRefEdgeReturn execWaitToRestoreExpiry execAcquireLock execHoldoverLimitExpiry execHoldoverRecompute
      execViewRateWrite execViewStep execViewSet execViewUncertaintyWrite execServoTimeout execTimeReadLatch execPpsInEdge execPpsOutEdge
      execPpsOutWidthEnd execPairArm execLosAssert execLosClear execLolAssert execCdrLock execCommaAlignment execTAlignExpiry execCapMessage
      execCapExchangeDone execTCapExpiry execTLockExpiry execTrainingFrame execRxReadyExchange execTTrainExpiry execTConfirmExpiry
      execStepReady execTRelockExpiry execRetryHoldoffExpiry execLaneRestart execTestModeWrite execInjectError execInvalidSyncHeader
      execUncorrectableCodeword execSof execResumeBlock execCredit execStatus execMarker execMembers execUnknownControlBlock
      execMarkerPeriodStart execFrameStart execCreditReturnInterval execStallTimeout execRouteChangeEffect execStreamDisable execDcFreeze
      execTransientRingRestart execStickEnd execSkCaptureArm execCreditTimeout execPegFrame execCommitBeacon execTriggerDecision
      execGalleyClose execPeriodBegin execImpressionDispatch execPeriodComplete execScarfStart execScarfEnd execBeamBlockRelease
      execL0WarmupEnd execSoftPeg execSoftDecision execGroupTakePeg execMachineEvent execMachineTimerExpiry execCaptureFreeze
      execCaptureReady execReleaseSlot execHoldLimitExpiry execPegFrameSend execRefresh execOpenPageTimeout execRetrainStart
      execSramUncorrectable execQueueConfigure execQueueTailWrite execPortUp execPortDown execReadoutStart execReadoutEnd
      execTwinHeartbeatSend execHeartbeat execStartTimeout execTakeOver execHandOver execHandover execHandoverTick execPegs
      execStandbyExpiry execBlockLock execCodeViolation execPrbsCheckerLock execPrbsCheckerLockLoss execMgtLinkUp execMgtLinkDown
      execHistoryWindowFilled execJoiningDataPathStart execTQuietExpiry execL1WarmupEnd execMacFrameBoundary
    try extract_lets
    repeat' split
  all_goals
    try extract_lets
    repeat' split
  all_goals exact completes_ok ..

/-- A cycle in which no command comes changes the chip alone. -/
theorem idleCycle_wf {d : Dev} (h : d.wf) : (idleCycle d).wf := by
  unfold idleCycle
  extract_lets
  split
  · exact h
  split
  · exact h.chip _
  · exact h.chip _

/-- Every step, on a command or without one, is such a command on the queue without its front. -/
theorem step_completes (s : State) : Completes { s with pending := s.pending.tail } (step s) := by
  unfold step
  split
  next hp => exact ⟨_, by rw [hp]; rfl, idleCycle_wf⟩
  next i rest hp =>
    rw [hp]
    exact exec_completes i

end

end Sys2Proof.Machine

namespace Sys2Proof
open Machine

/-- Settles O59: every command completes and leaves the queue that it is given. -/
theorem stepTakesFrontOnly : Obligations.StepTakesFrontOnly := by
  unfold Obligations.StepTakesFrontOnly
  intro s
  obtain ⟨d, hd, -⟩ := step_completes s
  exact ⟨_, hd, rfl⟩

/-- Settles O58: every command, and a cycle without one, keeps the device well formed. -/
theorem stepKeepsDevWf : Obligations.StepKeepsDevWf := by
  unfold Obligations.StepKeepsDevWf
  intro s t hs ht
  obtain ⟨d, hd, hwf⟩ := step_completes s
  obtain rfl : { s with pending := s.pending.tail, dev := d } = t := Host.Outcome.next.inj (hd.symm.trans ht)
  exact hwf hs

/-- Settles O1: the queue's front is what `step` takes. -/
theorem stepRunsFrontCommand : Obligations.StepRunsFrontCommand := by
  unfold Obligations.StepRunsFrontCommand
  intro c rest s
  rfl

end Sys2Proof
end

section
/-! SUPPORT. Far accesses (R302, R286): what a read leaves, and the issue and completion of far loads and stores. -/

namespace Sys2Proof.Machine

/-! ### A read through a port of the bus matrix leaves the setters as they are -/

namespace Dev
variable (d : Dev)

theorem readPiece_cores (u : HbmUser) (a n : Nat) : (d.readPiece u a n).2.2.cores = d.cores := by
  have hdef := Eq.refl @readPiece
  conv at hdef => rhs; delta readPiece
  generalize hr : d.readPiece u a n = r
  rw [hdef] at hr
  beta_reduce at hr
  split at hr
  · subst hr
    rfl
  · extract_lets at hr
    split at hr
    subst hr
    rfl

theorem readPieces_cores (u : HbmUser) (l : List (Nat × Nat)) : (d.readPieces u l).2.cores = d.cores := by
  have hpiece := fun d : Dev => d.readPiece_cores u
  have hdef := Eq.refl @readPieces
  conv at hdef => rhs; delta readPieces readPieces._f
  obtain ⟨piece, hp⟩ : ∃ p, p = @readPiece := ⟨_, rfl⟩
  rw [← hp] at hpiece hdef
  generalize hr : d.readPieces u l = r
  rw [hdef] at hr
  subst hr
  induction l generalizing d with
  | nil => rfl
  | cons e t ih => exact (ih _).trans (hpiece d e.1 e.2)

theorem readHbm_cores (u : HbmUser) (a n : Nat) : (d.readHbm u a n).2.2.cores = d.cores := by
  have hpieces := d.readPieces_cores u (unitPieces a n)
  have hdef := Eq.refl @readHbm
  conv at hdef => rhs; delta readHbm
  generalize hr : d.readHbm u a n = r
  rw [hdef] at hr
  beta_reduce at hr
  generalize d.readPieces u (unitPieces a n) = p at *
  subst hr
  exact hpieces

theorem ctlRead32_cores (a : Nat) : ∀ e ∈ d.ctlRead32 a, e.2.cores = d.cores := by
  intro e he
  unfold ctlRead32 at he
  extract_lets at he
  repeat' split at he
  all_goals cases he
  all_goals rfl

theorem farRead_cores (n : Fin 8) (space : Fin 4) (a len : Nat) (h : space = 0 → a / 67108864 < 4) :
    (d.farRead n space a len).2.cores = d.cores := by
  have hctl := d.ctlRead32_cores a
  have hhbm := d.readHbm_cores hubUser a len
  unfold farRead
  extract_lets m
  split
  next h0 =>
    unfold portAccess
    rw [if_pos (h (Fin.ext h0))]
    rfl
  · unfold portAccess
    dsimp only
    rw [if_neg (by decide), if_neg (by decide), if_pos rfl, if_neg (by decide)]
    cases he : d.ctlRead32 a with
    | none => rfl
    | some e => exact hctl e he
  · unfold portAccess
    dsimp only
    rw [if_neg (by decide), if_pos rfl, if_neg (by decide)]
    generalize d.readHbm hubUser a len = x at *
    exact hhbm

end Dev

/-! ### Issue -/

theorem farCheck_len {c : Chip} {n : Fin 8} {x : Setter} {o : FarOp} {len : Nat} (h : farCheck c n x o = .ok len) :
    farBytes o.size = some len := by
  unfold farCheck at h
  dsimp only at h
  split at h
  · cases h
  next k hk =>
    repeat' split at h
    all_goals cases h
    exact hk

/-- A byte address of main SRAM lies on one of its four ports. -/
theorem farMask_sram_port (a : W40) : farMask 0 a / 67108864 < 4 := by
  have : a.toNat % 2 ^ 28 < 2 ^ 28 := Nat.mod_lt _ (by decide)
  change a.toNat % 2 ^ 28 / 67108864 < 4
  omega

section
variable {s : State} {n : Fin 8} (h : s.quiet n)
include h

theorem execFarLoad_of_quiet {o : FarOp} {len : Nat} (hcheck : farCheck s.dev.chip n (s.dev.cores[n]) o = .ok len) :
    execFarLoad n o s = .next (s.after n { s.dev.cores[n] with
      p := (s.dev.cores[n]).p.set o.pn (farPointer s.dev.cores[n] o len)
      farLoads := [⟨o.space, (s.dev.cores[n]).phys o.w, o.size, farAddr s.dev.cores[n] o, (s.dev.cores[n]).pc⟩] }) := by
  have hfar : (s.dev.cores[n]).farLoads = [] := h.2.2.2.2.1
  refine instruction_regs h ?_ rfl rfl rfl rfl rfl rfl
  rw [hcheck, hfar]
  rfl

theorem execFarStore_of_quiet {o : FarOp} {len : Nat} (hcheck : farCheck s.dev.chip n (s.dev.cores[n]) o = .ok len) :
    execFarStore n o s = .next (s.after n { s.dev.cores[n] with
      p := (s.dev.cores[n]).p.set o.pn (farPointer s.dev.cores[n] o len)
      farStores := (s.dev.cores[n]).farStores ++
        [⟨o.space, farAddr s.dev.cores[n] o, farData o.size ((s.dev.cores[n]).rdW o.w), (s.dev.cores[n]).pc⟩] }) := by
  refine instruction_regs h ?_ rfl rfl rfl rfl rfl rfl
  rw [hcheck]

end

/-! ### The data of a far load -/

section
variable {t : State} {n : Fin 8} {f : FarLoad} (hone : (t.dev.cores[n]).farLoads = [f])
include hone

theorem farLoads_find : ((t.dev.cores[n]).farLoads.find? fun g => g.w == f.w) = some f := by
  rw [hone]
  exact List.find?_cons_of_pos (beq_self_eq_true f.w)

/-- The load of a domain whose clock stands hangs. -/
theorem execFarLoadData_hangs (hclock : t.dev.chip.domClock (farDomain t.dev.chip f.space (farMask f.space f.addr)) = false) :
    execFarLoadData n f.w .done t = .next t := by
  unfold execFarLoadData
  dsimp only
  rw [farLoads_find hone]
  dsimp only
  rw [hclock]
  rfl

/-- The load of a domain that takes accesses delivers the bytes that the read gives. -/
theorem execFarLoadData_delivers {len : Nat} (hlen : farBytes f.size = some len)
    (hopen : t.dev.chip.domOpen (farDomain t.dev.chip f.space (farMask f.space f.addr)) = true) {b : List Byte}
    (hread : (t.dev.farRead n f.space (farMask f.space f.addr) len).1 = some b) :
    execFarLoadData n f.w .done t = .next { t with dev := { (t.dev.farRead n f.space (farMask f.space f.addr) len).2 with
      cores := t.dev.cores.set n { t.dev.cores[n] with farLoads := [], w := (t.dev.cores[n]).w.set f.w (farWord f.size b) } } } := by
  have hclock : t.dev.chip.domClock (farDomain t.dev.chip f.space (farMask f.space f.addr)) = true := by
    unfold Chip.domOpen at hopen
    unfold Chip.domClock
    rw [hopen]
    rfl
  have hcores := t.dev.farRead_cores n f.space (farMask f.space f.addr) len fun h0 => by
    rw [h0]
    exact farMask_sram_port _
  have herase : (t.dev.cores[n]).farLoads.erase f = [] := by
    rw [hone]
    exact List.erase_cons_head ..
  unfold execFarLoadData
  dsimp only
  rw [farLoads_find hone]
  dsimp only
  rw [hclock, hopen, hlen]
  dsimp only [Option.getD_some]
  generalize t.dev.farRead n f.space (farMask f.space f.addr) len = r at *
  obtain ⟨b', chip, cores, mem⟩ := r
  cases hread
  cases hcores
  rw [← herase]
  rfl

end

/-! ### The completion of a posted store -/

/-- A posted store to main SRAM whose domain takes accesses puts its bytes there. -/
theorem storeComplete_sram {d : Dev} {n : Fin 8} {f : FarStore} {rest : List FarStore} (hone : (d.cores[n]).farStores = f :: rest)
    (hspace : f.space = 0) (hopen : d.chip.domOpen (farDomain d.chip f.space (farMask f.space f.addr)) = true) :
    d.storeComplete n true =
      ({ d with cores := d.cores.set n { d.cores[n] with farStores := rest } } : Dev).writeSram (farMask 0 f.addr) f.bytes := by
  have hclock : d.chip.domClock (farDomain d.chip f.space (farMask f.space f.addr)) = true := by
    unfold Chip.domOpen at hopen
    unfold Chip.domClock
    rw [hopen]
    rfl
  unfold Dev.storeComplete
  dsimp only
  rw [hone]
  dsimp only
  rw [hclock, hopen, hspace]
  rfl

/-- A state in which setter 0's oldest posted store is a byte to the first entry of the peg log, which holds a byte already (R258). -/
def State.storesToPegLog : State :=
  { State.reset with dev := { State.reset.dev with
      chip := { Chip.atReset with trigger := { Chip.atReset.trigger with log := [(0, [0])] } }
      cores := State.reset.dev.cores.set 0 { Setter.atReset with farStores := [⟨0, 251658240, [1], 0⟩] } } }

end Sys2Proof.Machine

namespace Sys2Proof
open Machine

/-- Settles O18. -/
theorem farAccesses : Obligations.FarAccesses := by
  unfold Obligations.FarAccesses
  intro s n o len h hcheck
  have hlen := farCheck_len hcheck
  have hload := execFarLoad_of_quiet h hcheck
  extract_lets x p a dom l f
  set t := s.after n { x with p := p, farLoads := [l] } with ht
  have hcore : t.dev.cores[n] = { x with p := p, farLoads := [l], pc := x.pc + 1, cyc := x.cyc + 1 } := State.after_same ..
  have hone : (t.dev.cores[n]).farLoads = [l] := by rw [hcore]
  obtain ⟨d, hd, -⟩ := exec_completes (s := t) (.farLoadData n (x.phys o.w) .done)
  have hdata : ∀ b, s.dev.chip.domOpen dom = true → (t.dev.farRead n o.space a len).1 = some b →
      ∃ q, d = { (t.dev.farRead n o.space a len).2 with cores := q } ∧
        (q[n]).w = x.w.set (x.phys o.w) (farWord o.size b) ∧ (q[n]).farLoads = [] := by
    intro b hopen hread
    have hdel := execFarLoadData_delivers hone hlen hopen hread
    refine ⟨_, congrArg State.dev (Host.Outcome.next.inj (hd.symm.trans hdel)), ?_⟩
    rw [hcore]
    exact ⟨by simp [l], by simp⟩
  refine ⟨hload, execFarStore_of_quiet h hcheck, t, _, hload, hd, fun hclock => ?_, fun hopen => ⟨fun b hread => ?_, fun h0 => ?_⟩⟩
  · exact Host.Outcome.next.inj (hd.symm.trans (execFarLoadData_hangs hone hclock))
  · obtain ⟨q, rfl, hq⟩ := hdata b hopen hread
    exact hq
  · have hread : t.dev.farRead n o.space a len = (some (s.dev.readSram a len), t.dev) := by
      have hport : a / 67108864 < 4 := by
        have hsram := farMask_sram_port (farAddr x o)
        rwa [← h0] at hsram
      unfold Dev.farRead Dev.portAccess
      rw [h0]
      dsimp only [Fin.val_zero]
      rw [if_pos hport]
      rfl
    obtain ⟨q, rfl, hw, hfar⟩ := hdata (s.dev.readSram a len) hopen (by rw [hread])
    rw [hread]
    exact ⟨hw, hfar, rfl, rfl⟩

/-- Refutes O19: a store into the peg log changes the log's entry, which the model keeps with the chip and not in the SRAM map. -/
theorem not_farStoreCompletes : ¬ Obligations.FarStoreCompletes := by
  unfold Obligations.FarStoreCompletes
  intro h
  obtain ⟨hsram, -, -⟩ := h State.storesToPegLog 0 ⟨0, 251658240, [1], 0⟩ [] rfl
  obtain ⟨t, ht, -, -, hchip, -⟩ := hsram rfl (by decide)
  have hstore := storeComplete_sram (d := State.storesToPegLog.dev) (n := 0) rfl rfl (by decide)
  have hdone : exec (.farStoreComplete 0 .done) State.storesToPegLog =
      .next { State.storesToPegLog with dev := State.storesToPegLog.dev.storeComplete 0 true } := rfl
  obtain rfl := Host.Outcome.next.inj (ht.symm.trans hdone)
  dsimp only at hchip
  rw [hstore] at hchip
  have hlog : sget (fun _ => []) (State.storesToPegLog.dev.chip.putRingByte 251658240 1).trigger.log 0 = [1] := by decide
  have hold : sget (fun _ => []) State.storesToPegLog.dev.chip.trigger.log 0 = [0] := rfl
  rw [← hchip] at hold
  exact absurd (hlog.symm.trans hold) (by decide)

end Sys2Proof
end

section
/-! SUPPORT. What reports, the reference clock, the links and the passing of time may change of the chip, and what they leave. -/

namespace Sys2Proof.Machine

/-! ### Commands of the chip alone -/

theorem runs_ok {i : Instr} {s : State} {p : State → Prop} {c : Chip} (h : exec i s = ok s c) (hp : p { s with dev := { s.dev with chip := c } }) :
    Runs i s p := ⟨_, h, rfl, hp⟩

theorem runs_done {i : Instr} {s : State} {p : State → Prop} {d : Dev} (h : exec i s = done s d) (hp : p { s with dev := d }) :
    Runs i s p := ⟨_, h, rfl, hp⟩

/-! ### Levels of change -/

/-- The level of an object: 0 for one that a report or an answer shows, 1 for one that changes as time passes, 2 for the reference
clock's, 3 for a bundle's, 4 for a lane's, 5 for every other one. -/
def stirLevel (k : Nat) : Nat :=
  let i := keyIndex k
  let sub := keySub k
  if (i = 0x1300 ∧ 6 ≤ sub ∧ sub ≤ 7) ∨ (i = 0x5800 ∧ 0x11 ≤ sub ∧ sub ≤ 0x17) ∨ (i = 0x1100 ∧ sub = 0x0C) then 0
  else if (0xA000 ≤ i ∧ sub = 0x20) ∨ (i = 0x5000 ∧ sub = 0x17) then 1
  else if 0x4800 ≤ i ∧ i < 0x4820 then 2
  else if i = 0x2000 ∨ (0x2300 ≤ i ∧ i < 0x2400) then 3
  else if 0x2100 ≤ i ∧ i < 0x2300 then 4
  else 5

/-- The chip without what a change of any level may touch. -/
def Chip.still (c : Chip) : Chip :=
  { c with
    lc := 0, xo := 0, free := 0, obj := [], out := [], dict := { c.dict with ring := [] }, faults := ⟨[], []⟩
    ipend := Vector.replicate 8 0, frontSeen := 0, frontAny := false, power := { c.power with mark := none }
    clock := RefClock.atReset, lanes := [], bundles := [], truss := { c.truss with beacons := [] } }

/-- A lane without what the groups and blocks that leave it change. -/
def Lane.still (x : Lane) : Lane := { x with groupTime := 0, statusSeq := 0, fecSince := 0, uncorrSince := false }

def Chip.ofClock (c : Chip) : RefClock × Nat := (c.clock, c.free)
def Chip.ofLinks (c : Chip) : SMap Lane × SMap Bundle := (c.lanes, c.bundles)
def Chip.ofTime (c : Chip) : Nat × Nat × Nat × Bool × PowerCtl × Truss := (c.lc, c.xo, c.frontSeen, c.frontAny, c.power, c.truss)

/-- What a change may touch: the objects up to a level, the reference clock, the links at will, the links as blocks leave them, time. -/
structure Scope where
  objects : Nat
  clock : Bool
  links : Bool
  motion : Bool
  time : Bool

def Scope.report : Scope := ⟨0, false, false, false, false⟩
def Scope.refClock : Scope := ⟨2, true, false, false, false⟩
def Scope.bundles : Scope := ⟨3, true, false, true, false⟩
def Scope.lanes : Scope := ⟨4, true, true, true, false⟩
def Scope.waiting : Scope := ⟨1, false, false, true, true⟩
def Scope.every : Scope := ⟨5, true, true, true, true⟩

/-- From chip `c` to chip `d` nothing outside the scope has changed. -/
structure Chip.Stirs (a : Scope) (c d : Chip) : Prop where
  still : d.still = c.still
  rd : ∀ k, a.objects < stirLevel k → d.rd k = c.rd k
  clock : a.clock = false → d.ofClock = c.ofClock
  lanes : a.links = false → ∀ l, (d.lane l).still = (c.lane l).still
  links : a.links = false → a.motion = false → d.ofLinks = c.ofLinks
  time : a.time = false → d.ofTime = c.ofTime

namespace Chip.Stirs

variable {a : Scope} {c d : Chip}

theorem refl : Stirs a c c := ⟨rfl, fun _ _ => rfl, fun _ => rfl, fun _ _ => rfl, fun _ _ => rfl, fun _ => rfl⟩

theorem trans {e : Chip} (h : Stirs a c d) (h' : Stirs a d e) : Stirs a c e :=
  ⟨h'.still.trans h.still, fun k hk => (h'.rd k hk).trans (h.rd k hk), fun hn => (h'.clock hn).trans (h.clock hn),
   fun hn l => (h'.lanes hn l).trans (h.lanes hn l), fun hl hm => (h'.links hl hm).trans (h.links hl hm),
   fun hn => (h'.time hn).trans (h.time hn)⟩

theorem foldl {α : Type} {f : Chip → α → Chip} (hf : ∀ e x, Stirs a e (f e x)) (l : List α) (h : Stirs a c d) : Stirs a c (l.foldl f d) := by
  induction l generalizing d with
  | nil => exact h
  | cons x l ih => exact ih (h.trans (hf d x))

/-- A change of the reference clock and the reports leaves the links, and so does one that only time makes leave a lane's state. -/
theorem lane (h : Stirs a c d) (l : Nat) (ha : a.links = false := by rfl) (hm : a.motion = false := by rfl) : d.lane l = c.lane l := by
  have hl : d.lanes = c.lanes := congrArg Prod.fst (h.links ha hm)
  unfold Chip.lane
  rw [hl]

theorem bundle (h : Stirs a c d) (b : Nat) (ha : a.links = false := by rfl) (hm : a.motion = false := by rfl) : d.bundle b = c.bundle b := by
  have hb : d.bundles = c.bundles := congrArg Prod.snd (h.links ha hm)
  unfold Chip.bundle
  rw [hb]

theorem lc (h : Stirs a c d) (ha : a.time = false := by rfl) : d.lc = c.lc := congrArg Prod.fst (h.time ha)
theorem dom (h : Stirs a c d) : d.dom = c.dom := (congrArg Chip.dom h.still :)
theorem streams (h : Stirs a c d) : d.streams = c.streams := (congrArg Chip.streams h.still :)
theorem writer (h : Stirs a c d) : d.writer = c.writer := (congrArg Chip.writer h.still :)
theorem timeBlock (h : Stirs a c d) : d.time = c.time := (congrArg Chip.time h.still :)
theorem hbm (h : Stirs a c d) : d.hbm = c.hbm := (congrArg Chip.hbm h.still :)
theorem matrix (h : Stirs a c d) : d.matrix = c.matrix := (congrArg Chip.matrix h.still :)
theorem reports (h : Stirs a c d) : d.reports = c.reports := (congrArg Chip.reports h.still :)
theorem ports (h : Stirs a c d) : d.ports = c.ports := (congrArg Chip.ports h.still :)
theorem trigger (h : Stirs a c d) : d.trigger = c.trigger := (congrArg Chip.trigger h.still :)
theorem past (h : Stirs a c d) : d.past = c.past := (congrArg Chip.past h.still :)
theorem twin (h : Stirs a c d) : d.twin = c.twin := (congrArg Chip.twin h.still :)
theorem fe (h : Stirs a c d) : d.fe = c.fe := (congrArg Chip.fe h.still :)
theorem xe (h : Stirs a c d) : d.xe = c.xe := (congrArg Chip.xe h.still :)
theorem outs (h : Stirs a c d) : d.outs = c.outs := (congrArg Chip.outs h.still :)
theorem rst (h : Stirs a c d) : d.rst = c.rst := (congrArg Chip.rst h.still :)
theorem pkg (h : Stirs a c d) : d.pkg = c.pkg := (congrArg Chip.pkg h.still :)

/-! ### Reports -/

theorem wr {j v : Nat} (h : Stirs a c d) (hj : stirLevel j ≤ a.objects) : Stirs a c (d.wr j v) :=
  h.trans ⟨rfl, fun k hk => Chip.wr_rd_ne d j v fun e => by subst e; omega, fun _ => rfl, fun _ _ => rfl, fun _ _ => rfl, fun _ => rfl⟩

theorem bump {j v : Nat} (h : Stirs a c d) (hj : stirLevel j ≤ a.objects) : Stirs a c (d.bump j v) := by
  unfold Chip.bump
  split
  · exact h
  · exact h.wr hj

theorem send {x : Sent} (h : Stirs a c d) : Stirs a c (d.send x) :=
  h.trans ⟨rfl, fun _ _ => rfl, fun _ => rfl, fun _ _ => rfl, fun _ _ => rfl, fun _ => rfl⟩

theorem irq {k : Nat} (h : Stirs a c d) : Stirs a c (d.irq k) :=
  h.trans ⟨rfl, fun _ _ => rfl, fun _ => rfl, fun _ _ => rfl, fun _ _ => rfl, fun _ => rfl⟩

theorem stirLevel_report {k : Nat} (hk : stirLevel k = 0) : stirLevel k ≤ a.objects := by omega

theorem event {type : Nat} {payload : List Byte} (h : Stirs a c d) : Stirs a c (d.event type payload) := by
  have hring (r : SMap (List Byte)) : Stirs a c { d with dict := { d.dict with ring := r } } :=
    h.trans ⟨rfl, fun _ _ => rfl, fun _ => rfl, fun _ _ => rfl, fun _ _ => rfl, fun _ => rfl⟩
  unfold Chip.event
  extract_lets
  split
  · exact (((hring _).bump (stirLevel_report (by decide))).send).bump (stirLevel_report (by decide))
  · exact (hring _).bump (stirLevel_report (by decide))

theorem fault {sev : Severity} {kind : FaultKind} {object old new detail : Nat} (h : Stirs a c d) :
    Stirs a c (d.fault sev kind object old new detail) := by
  have hlog (x : FaultLog) : Stirs a c { d with faults := x } := h.trans ⟨rfl, fun _ _ => rfl, fun _ => rfl, fun _ _ => rfl, fun _ _ => rfl, fun _ => rfl⟩
  unfold Chip.fault
  cases sev with
  | note => exact (((hlog _).bump (stirLevel_report (by decide))).bump (stirLevel_report (by decide))).event
  | degrade | fail => exact (((hlog _).bump (stirLevel_report (by decide))).bump (stirLevel_report (by decide))).event.irq

theorem countFault {sev : Severity} {j detail : Nat} (h : Stirs a c d) (hj : stirLevel j ≤ a.objects) : Stirs a c (d.countFault sev j detail) := by
  unfold Chip.countFault
  exact (h.bump hj).fault

theorem answer {sess key : Nat} {st : Status} (h : Stirs a c d) : Stirs a c (d.answer sess key st) := by
  unfold Chip.answer
  extract_lets
  split
  · exact h.send.wr (stirLevel_report (by decide))
  · exact h.send

/-! ### The reference clock -/

section
variable (hn : a.clock = true ∧ 2 ≤ a.objects)
include hn

theorem stirLevel_clkOd {sub : Nat} (hsub : sub < 256) : stirLevel (clkOd sub) ≤ a.objects := by
  unfold clkOd stirLevel
  rw [keyIndex_od hsub, keySub_od hsub]
  dsimp only
  split_ifs <;> omega

theorem stirLevel_candOd {i : Fin 7} {sub : Nat} (hsub : sub < 256) : stirLevel (candOd i sub) ≤ a.objects := by
  unfold candOd stirLevel
  rw [keyIndex_od hsub, keySub_od hsub]
  dsimp only
  split_ifs <;> omega

theorem withClock {x : RefClock} (h : Stirs a c d) : Stirs a c { d with clock := x } :=
  h.trans ⟨rfl, fun _ _ => rfl, fun h0 => absurd (hn.1.symm.trans h0) (by decide), fun _ _ => rfl, fun _ _ => rfl, fun _ => rfl⟩

theorem wrClk {sub v : Nat} (h : Stirs a c d) (hsub : sub < 256 := by decide) : Stirs a c (d.wr (clkOd sub) v) :=
  h.wr (stirLevel_clkOd hn hsub)

theorem bumpClk {sub v : Nat} (h : Stirs a c d) (hsub : sub < 256 := by decide) : Stirs a c (d.bump (clkOd sub) v) :=
  h.bump (stirLevel_clkOd hn hsub)

theorem wrCand {i : Fin 7} {sub v : Nat} (h : Stirs a c d) (hsub : sub < 256 := by decide) : Stirs a c (d.wr (candOd i sub) v) :=
  h.wr (stirLevel_candOd hn hsub)

theorem bumpCand {i : Fin 7} {sub v : Nat} (h : Stirs a c d) (hsub : sub < 256 := by decide) : Stirs a c (d.bump (candOd i sub) v) :=
  h.bump (stirLevel_candOd hn hsub)

theorem setCand {i : Fin 7} {x : Candidate} (h : Stirs a c d) : Stirs a c (d.setCand i x) := h.withClock hn

theorem clockEvent {code : Nat} {i prev : Option (Fin 7)} {phase : Int} (h : Stirs a c d) : Stirs a c (d.clockEvent code i prev phase) := by
  unfold Chip.clockEvent Chip.showQl
  exact (h.wrClk hn).irq.event

theorem steer {y : Int} (h : Stirs a c d) : Stirs a c (d.steer y) := h.wrClk hn

theorem setClock {st : Nat} (h : Stirs a c d) : Stirs a c (d.setClock st) := by
  unfold Chip.setClock
  split
  · exact h
  · exact ((h.withClock hn).wrClk hn).clockEvent hn

theorem acquire {i : Fin 7} (h : Stirs a c d) : Stirs a c (d.acquire i) := by
  have hfree : Stirs a c { d with free := d.free + 1 } :=
    h.trans ⟨rfl, fun _ _ => rfl, fun h0 => absurd (hn.1.symm.trans h0) (by decide), fun _ _ => rfl, fun _ _ => rfl, fun _ => rfl⟩
  unfold Chip.acquire Chip.wrI32
  exact ((((((((hfree.wrClk hn).steer hn).wrClk hn).wrClk hn).wrClk hn).bumpClk hn).withClock hn).setClock hn).clockEvent hn

theorem closeHistory (h : Stirs a c d) : Stirs a c d.closeHistory := h.withClock hn

theorem withoutReference (h : Stirs a c d) : Stirs a c d.withoutReference := by
  unfold Chip.withoutReference
  split
  · exact (((((((h.wrClk hn).bumpClk hn).wrClk hn).withClock hn).wrClk hn).steer hn).setClock hn)
  · exact ((h.wrClk hn).steer hn).setClock hn

theorem chosen {best : Option (Fin 7)} (h : Stirs a c d) : Stirs a c (match best with | some i => d.acquire i | none => d) := by
  cases best with
  | none => exact h
  | some i => exact h.acquire hn

theorem selectRef (h : Stirs a c d) : Stirs a c d.selectRef := by
  unfold Chip.selectRef Chip.showQl
  extract_lets best chosen keeps
  clear_value best
  refine wrClk hn ?_
  split
  · exact h.chosen hn
  · exact h.chosen hn
  · exact h.chosen hn
  · split
    · exact h
    · exact ((h.closeHistory hn).withoutReference hn).chosen hn
  · split
    · split
      · exact h
      · exact (h.closeHistory hn).acquire hn
    · exact ((h.closeHistory hn).withoutReference hn).fault
  · exact h

theorem candTo {i : Fin 7} {st code : Nat} (h : Stirs a c d) : Stirs a c (d.candTo i st code) := by
  unfold Chip.candTo
  exact (h.wrCand hn).clockEvent hn

theorem candRequalified {i : Fin 7} (h : Stirs a c d) : Stirs a c (d.candRequalified i) := by
  unfold Chip.candRequalified Chip.startRestore
  extract_lets
  split_ifs
  · exact (h.setCand hn).candTo hn
  · exact (((h.setCand hn).setCand hn).candTo hn).candTo hn
  · exact ((h.setCand hn).setCand hn).candTo hn

theorem settleCand {i : Fin 7} (h : Stirs a c d) : Stirs a c (d.settleCand i) := by
  unfold Chip.settleCand
  extract_lets st d1 off x fresh d2 q
  have h1 : Stirs a c d1 := by
    simp only [d1]
    split
    · exact (h.wrCand hn).clockEvent hn
    · exact h
  have h2 : Stirs a c d2 := by
    simp only [d2]
    split_ifs
    · exact (h1.setCand hn).wrCand hn
    · exact (h1.setCand hn).candTo hn
    · exact h1
  split_ifs
  · exact h1
  · exact (h1.setCand hn).wrCand hn
  · exact h1
  · exact h1.wrCand hn
  · unfold Chip.candLost
    exact ((h1.setCand hn).bumpCand hn).candTo hn
  · exact h2.candRequalified hn
  · exact h2
  · exact h2
  · unfold Chip.candDisqualified
    exact (h2.bumpCand hn).candTo hn

theorem laneClock {l : Nat} (h : Stirs a c d) : Stirs a c (d.laneClock l) := by
  unfold Chip.laneClock
  extract_lets
  split
  · exact h
  · exact (h.foldl (fun _ _ => refl.settleCand hn) _).selectRef hn

end

/-! ### Signals on the links -/

section
variable (hn : a.motion = true)
include hn

theorem moveLane {l : Nat} {x : Lane} (h : Stirs a c d) (hx : x.still = (d.lane l).still) : Stirs a c (d.setLane l x) := by
  refine h.trans ⟨rfl, fun _ _ => rfl, fun _ => rfl, fun _ m => ?_, fun _ h0 => absurd (hn.symm.trans h0) (by decide), fun _ => rfl⟩
  by_cases hm : m = l
  · subst hm
    rw [Chip.setLane_same, hx]
  · rw [Chip.setLane_ne d l x hm]

theorem setBundle {b : Nat} {x : Bundle} (h : Stirs a c d) : Stirs a c (d.setBundle b x) :=
  h.trans ⟨rfl, fun _ _ => rfl, fun _ => rfl, fun _ _ => rfl, fun _ h0 => absurd (hn.symm.trans h0) (by decide), fun _ => rfl⟩

theorem sendStatus {l : Nat} (h : Stirs a c d) : Stirs a c (d.sendStatus l) := by
  unfold Chip.sendStatus
  exact h.send.moveLane hn rfl

theorem rowEnds {b : Nat} (h : Stirs a c d) : Stirs a c (d.rowEnds b) := by
  unfold Chip.rowEnds
  extract_lets
  split_ifs
  · exact (h.foldl (fun _ _ => refl.sendStatus hn) _).setBundle hn
  · exact (h.foldl (fun _ _ => refl.send) _).setBundle hn
  · exact h.setBundle hn

theorem putBlock {b : Nat} {block : Nat → Sent} (h : Stirs a c d) : Stirs a c (d.putBlock b block) := by
  have hrow : Stirs a c (if (d.streamLanes b).length ≤ (d.bundle b).col then d.rowEnds b else d) := by
    split
    · exact h.rowEnds hn
    · exact h
  unfold Chip.putBlock
  split
  · exact h
  · extract_lets
    split
    · exact (hrow.setBundle hn).send
    · exact hrow.setBundle hn

theorem slotWent {b vl : Nat} (h : Stirs a c d) : Stirs a c (d.slotWent b vl) := h.setBundle hn

theorem continueFrame {b vl : Nat} (h : Stirs a c d) : Stirs a c (d.continueFrame b vl) := by
  unfold Chip.continueFrame
  extract_lets
  split
  · exact h
  · split
    · exact ((h.setBundle hn).putBlock hn).slotWent hn
    · exact ((h.setBundle hn).putBlock hn).slotWent hn

theorem slotsOut {b m : Nat} (h : Stirs a c d) : Stirs a c (Chip.slotsOut b m d) := by
  induction m generalizing d with
  | zero => exact h
  | succ m ih =>
    refine ih ?_
    unfold Chip.streamSlot
    split
    · exact h.continueFrame hn
    · exact h.setBundle hn

theorem rowsOut {b m k : Nat} (h : Stirs a c d) : Stirs a c (Chip.rowsOut b m k d) := by
  induction m generalizing k d with
  | zero => exact h
  | succ m ih =>
    unfold Chip.rowsOut
    extract_lets
    split_ifs
    · exact h
    · exact ih ((h.setBundle hn).rowEnds hn)
    · exact ih ((h.slotsOut hn).rowEnds hn)

theorem rowsPass {m b : Nat} (h : Stirs a c d) : Stirs a c (d.rowsPass m b) := by
  unfold Chip.rowsPass
  extract_lets
  split
  · exact h
  · exact (h.setBundle hn).rowsOut hn

theorem lanePass {m l : Nat} (h : Stirs a c d) : Stirs a c (d.lanePass m l) := by
  unfold Chip.lanePass
  extract_lets
  split_ifs
  · exact h
  · exact h.moveLane hn rfl
  · exact (h.moveLane hn (by rfl)).sendStatus hn

theorem linksPass {m : Nat} (h : Stirs a c d) : Stirs a c (d.linksPass m) := by
  unfold Chip.linksPass
  exact (h.foldl (fun _ _ => refl.rowsPass hn) _).foldl (fun _ _ => refl.lanePass hn) _

end

/-! ### The state of bundles -/

section
variable (hn : a.motion = true ∧ 3 ≤ a.objects)
include hn

theorem stirLevel_bunOd {b sub : Nat} (hb : b < 256) (hsub : sub < 256) : stirLevel (bunOd b sub) ≤ a.objects := by
  unfold bunOd stirLevel
  rw [keyIndex_od hsub, keySub_od hsub]
  dsimp only
  split_ifs <;> omega

theorem wrBundle {b sub v : Nat} (h : Stirs a c d) (hb : b < 256) (hsub : sub < 256 := by decide) : Stirs a c (d.wr (bunOd b sub) v) :=
  h.wr (stirLevel_bunOd hn hb hsub)

theorem showCredit {b : Nat} (h : Stirs a c d) (hb : b < 256) : Stirs a c (d.showCredit b) := by
  unfold Chip.showCredit
  exact ((h.wrBundle hn hb).wrBundle hn hb).wrBundle hn hb

theorem sendCredit {b : Nat} (h : Stirs a c d) : Stirs a c (d.sendCredit b) := by
  unfold Chip.sendCredit
  exact ((h.setBundle hn.1).putBlock hn.1).slotWent hn.1

theorem bundleUp {b : Nat} (h : Stirs a c d) : Stirs a c (d.bundleUp b) := by
  unfold Chip.bundleUp
  extract_lets
  split
  · exact (h.setBundle hn.1).sendCredit hn
  · exact h.setBundle hn.1

theorem bundleSettle {b : Nat} (h : Stirs a c d) (hb : b < 256) : Stirs a c (d.bundleSettle b) := by
  unfold Chip.bundleSettle
  extract_lets d1 old m new e1 e2 e3
  have h1 : Stirs a c d1 := h.wrBundle hn hb
  have h2 : Stirs a c e2 := by
    simp only [e2]
    split
    · exact (h1.wrBundle hn hb).bundleUp hn
    · exact h1.wrBundle hn hb
  have h3 : Stirs a c e3 := by
    simp only [e3]
    split
    · exact h2.fault
    · exact h2
  split
  · exact h1.showCredit hn hb
  · exact h3.showCredit hn hb

end

/-! ### The state of lanes -/

section
variable (hn : a.links = true ∧ a.motion = true ∧ a.clock = true ∧ 4 ≤ a.objects)
include hn

theorem stirLevel_laneOd {l sub : Nat} (hl : l < 512) (hsub : sub < 256) : stirLevel (laneOd l sub) ≤ a.objects := by
  unfold laneOd stirLevel
  rw [keyIndex_od hsub, keySub_od hsub]
  dsimp only
  split_ifs <;> omega

theorem wrLane {l sub v : Nat} (h : Stirs a c d) (hl : l < 512) (hsub : sub < 256 := by decide) : Stirs a c (d.wr (laneOd l sub) v) :=
  h.wr (stirLevel_laneOd hn hl hsub)

theorem bumpLane {l sub v : Nat} (h : Stirs a c d) (hl : l < 512) (hsub : sub < 256 := by decide) : Stirs a c (d.bump (laneOd l sub) v) :=
  h.bump (stirLevel_laneOd hn hl hsub)

theorem setLane {l : Nat} {x : Lane} (h : Stirs a c d) : Stirs a c (d.setLane l x) :=
  h.trans ⟨rfl, fun _ _ => rfl, fun _ => rfl, fun h0 => absurd (hn.1.symm.trans h0) (by decide),
    fun h0 => absurd (hn.1.symm.trans h0) (by decide), fun _ => rfl⟩

theorem laneTo {l st : Nat} (h : Stirs a c d) (hl : l < 512) : Stirs a c (d.laneTo l st) := by
  have hup {v : Nat} {e : Chip} : Stirs a e (e.wr (od 0x2000 0x02) v) := refl.wr (Nat.le_trans (by decide : _ ≤ 3) (by omega))
  unfold Chip.laneTo Chip.sendSignal
  extract_lets old x d0 d1 up d2 b d3
  have h1 : Stirs a c d1 := ((h.setLane hn).wrLane hn hl).send
  have h2 : Stirs a c d2 := by
    simp only [d2]
    split_ifs
    · exact h1.trans hup
    · exact h1.trans hup
    · exact h1
  have h3 : Stirs a c d3 := by
    simp only [d3]
    split
    next hb => exact h2.bundleSettle ⟨hn.2.1, by omega⟩ (by simp at hb; omega)
    · exact h2
  exact h3.laneClock ⟨hn.2.2.1, by omega⟩

theorem tryAlign {l : Nat} (h : Stirs a c d) (hl : l < 512) : Stirs a c (d.tryAlign l) := by
  unfold Chip.tryAlign
  extract_lets
  split
  · exact h.laneTo hn hl
  · exact h

theorem listenNow {l : Nat} (h : Stirs a c d) (hl : l < 512) : Stirs a c (d.listenNow l) := by
  unfold Chip.listenNow
  extract_lets
  exact (((((h.setLane hn).wrLane hn hl).bumpLane hn hl).laneTo hn hl).tryAlign hn hl)

theorem toListen {l : Nat} (h : Stirs a c d) (hl : l < 512) : Stirs a c (d.toListen l) := by
  unfold Chip.toListen
  extract_lets
  split
  · exact (h.setLane hn).laneTo hn hl
  · exact h.listenNow hn hl

end

/-! ### The passing of time -/

section
variable (hn : a.time = true ∧ a.motion = true ∧ 1 ≤ a.objects)
include hn

theorem stirLevel_peerOd (p : Nat) : stirLevel (peerOd p 0x20) ≤ a.objects := by
  unfold peerOd stirLevel
  rw [keyIndex_od (by decide), keySub_od (by decide)]
  dsimp only
  split_ifs <;> omega

theorem beaconsDue (h : Stirs a c d) : Stirs a c d.beaconsDue := by
  have hbeacons (l : List Nat) : Stirs a c { d with truss := { d.truss with beacons := l } } :=
    h.trans ⟨rfl, fun _ _ => rfl, fun _ => rfl, fun _ _ => rfl, fun _ _ => rfl, fun h0 => absurd (hn.1.symm.trans h0) (by decide)⟩
  unfold Chip.beaconsDue
  extract_lets
  split
  · exact h
  · refine (hbeacons _).foldl (fun a p => ?_) _
    split
    · exact refl
    · exact refl.countFault (stirLevel_peerOd hn p)

theorem pass {m : Nat} (h : Stirs a c d) : Stirs a c (d.pass m) := by
  have hclock (lc xo seen : Nat) : Stirs a c { d.linksPass m with lc := lc, xo := xo, frontSeen := seen, frontAny := true } :=
    (h.linksPass hn.2.1).trans
      ⟨rfl, fun _ _ => rfl, fun _ => rfl, fun _ _ => rfl, fun _ _ => rfl, fun h0 => absurd (hn.1.symm.trans h0) (by decide)⟩
  have hmark {e : Chip} (m : Option Nat) : Stirs a e { e with power := { e.power with mark := m } } :=
    ⟨rfl, fun _ _ => rfl, fun _ => rfl, fun _ _ => rfl, fun _ _ => rfl, fun h0 => absurd (hn.1.symm.trans h0) (by decide)⟩
  have hspan : stirLevel (od 0x5000 0x17) ≤ a.objects := by
    rw [show stirLevel (od 0x5000 0x17) = 1 by decide]
    exact hn.2.2
  unfold Chip.pass
  extract_lets lc xo seen links c1 last before
  clear_value before
  split_ifs
  · exact h
  · exact (hclock _ _ _).beaconsDue hn
  · refine Stirs.trans ?_ (hmark _)
    cases before with
    | some m => exact ((hclock _ _ _).beaconsDue hn).wr hspan
    | none => exact (hclock _ _ _).beaconsDue hn

theorem untilLc {t : Nat} (h : Stirs a c d) : Stirs a c (d.untilLc t) := by
  unfold Chip.untilLc
  split
  · exact h.pass hn
  · exact h

end

end Chip.Stirs

end Sys2Proof.Machine
end

section
/-! SUPPORT. Reset and the TAP (R446-R456, R485). -/

namespace Sys2Proof.Machine

/-! ### The TAP -/

theorem stirs_testLeft (c : Chip) : Chip.Stirs .every c c.testLeft := by
  unfold Chip.testLeft
  have hlane : ∀ l ∈ List.range 512, ∀ a : Chip, Chip.Stirs .every a (if a.laneState l = 0 then a else a.toListen l) := by
    intro l hl a
    split
    · exact .refl
    · exact Chip.Stirs.refl.toListen (by decide) (List.mem_range.1 hl)
  have hfold : ∀ (m : List Nat) (d : Chip), (∀ l ∈ m, l ∈ List.range 512) → Chip.Stirs .every c d →
      Chip.Stirs .every c (m.foldl (fun a l => if a.laneState l = 0 then a else a.toListen l) d) := by
    intro m
    induction m with
    | nil => exact fun _ _ h => h
    | cons l m ih => exact fun d hm h => ih _ (fun k hk => hm k (.tail _ hk)) (h.trans (hlane l (hm l (.head _)) d))
  exact (hfold _ _ (fun _ h => h) .refl).wr (by decide)

theorem tap_ir (c : Chip) (code : Nat) : (c.tap code).pkg.ir = code := by
  unfold Chip.tap
  extract_lets _ c1
  split
  · rw [(stirs_testLeft c1).pkg]
  · rfl

/-! ### A request that is carried out -/

theorem request_act {c : Chip} {sess key : Nat} {v : Val} (h : c.gate false sess key v = .act) (act : Chip → Chip × Status) :
    c.request sess key v act = (act c).1.answer sess key (act c).2 := by
  unfold Chip.request
  rw [h]

theorem answer_out (c : Chip) (sess key : Nat) (st : Status) : (c.answer sess key st).out = .status sess key st.code :: c.out := by
  unfold Chip.answer
  dsimp only
  split <;> rfl

theorem answer_head (c : Chip) (sess key : Nat) (st : Status) : (c.answer sess key st).out.head? = some (.status sess key st.code) := by
  rw [answer_out]
  rfl

/-- An answer leaves everything but its own object and what leaves the chip. -/
theorem stirs_answer (c : Chip) (sess key : Nat) (st : Status) : Chip.Stirs .report c (c.answer sess key st) := Chip.Stirs.refl.answer

/-- A request that is carried out and answered at once. -/
theorem runs_request {i : Instr} {s : State} {sess key : Nat} {v : Val} {act : Chip → Chip × Status} {p : State → Prop}
    (hi : exec i s = ok s (s.dev.chip.request sess key v act)) (ha : s.accepts sess key v) {c : Chip} {st : Status}
    (hact : act s.dev.chip = (c, st)) (hp : p { s with dev := { s.dev with chip := c.answer sess key st } }) : Runs i s p := by
  refine runs_ok hi ?_
  rw [request_act ha, hact]
  exact hp

/-! ### Resets -/

theorem coldReset_rd (d : Dev) (cause : Nat) : (d.coldReset cause).chip.rd (od 0x5800 2) = cause ∧
    ∀ k : Nat, k ≠ od 0x5800 2 → (d.coldReset cause).chip.rd k = objDefault k :=
  ⟨Chip.wr_rd_same .., fun _ hk => Chip.wr_rd_ne _ _ _ hk⟩

end Sys2Proof.Machine

namespace Sys2Proof
open Machine

/-- Settles O27. -/
theorem tapInstructions : Obligations.TapInstructions := by
  unfold Obligations.TapInstructions
  intro s cells code
  have hselects : ∀ (i : Instr) (ir : Nat), exec i s = ok s (s.dev.chip.tap ir) →
      Runs i s fun t => t.dev.chip.pkg.ir = ir ∧ t.coresAndMemoryOf s :=
    fun i ir h => runs_ok h ⟨tap_ir _ _, rfl, rfl⟩
  have hcode : (if namedCode code.toNat then code.toNat else 0xFF) = if code ∈ [0, 1, 2, 3, 4, 8, 9] then code.toNat else 0xFF := by
    revert code
    decide
  refine ⟨hselects _ _ rfl, hselects _ _ rfl, hselects _ _ rfl, hselects _ _ rfl, hselects _ _ rfl, hselects _ _ rfl, ?_, ?_, ?_, ?_⟩
  · exact runs_ok rfl ⟨tap_ir s.dev.chip 1, rfl, rfl, rfl⟩
  · exact runs_ok rfl ⟨tap_ir s.dev.chip 2, rfl, rfl, rfl⟩
  · rw [← hcode]
    exact hselects _ _ rfl
  · rw [← hcode]
    exact hselects _ _ rfl

/-- Settles O25. -/
theorem resetSources : Obligations.ResetSources := by
  unfold Obligations.ResetSources
  intro s sess cold
  have hcold : ∀ (i : Instr) (cause : Nat), exec i s = done s (s.dev.coldReset cause) → Runs i s (cold cause) :=
    fun i cause h => runs_done h ⟨rfl, rfl, coldReset_rd _ _⟩
  refine ⟨hcold _ _ rfl, hcold _ _ rfl, hcold _ _ rfl, fun ha => ?_, fun ha => ?_, fun hc => ?_, fun hc => ?_⟩
  · exact runs_request rfl ha rfl ⟨by rw [(stirs_answer ..).rst], answer_head .., rfl, rfl⟩
  · exact runs_request rfl ha rfl ⟨by rw [(stirs_answer ..).rst], answer_head .., rfl, rfl⟩
  · refine hcold _ _ ?_
    change execResetCommandStart s = _
    unfold execResetCommandStart
    rw [hc]
    rfl
  · refine runs_done (d := ({ s.dev with chip := s.dev.chip.untilLc (s.dev.chip.rst.asked + 100000) } : Dev).warmReset) ?_ ⟨rfl, rfl⟩
    change execResetCommandStart s = _
    unfold execResetCommandStart
    rw [hc]
    rfl

end Sys2Proof
end

section
/-! SUPPORT. The states of a lane (R72-R84): what a change of state shows, and what it leaves. -/

namespace Sys2Proof.Machine

open Chip (Stirs)

theorem stirLevel_lane {l sub : Nat} (hl : l < 512) (hsub : sub < 256) : stirLevel (laneOd l sub) = 4 := by
  unfold laneOd stirLevel
  rw [keyIndex_od hsub, keySub_od hsub]
  dsimp only
  split_ifs <;> omega

theorem laneOd_ne {l sub sub' : Nat} (h : sub ≠ sub') : laneOd l sub ≠ laneOd l sub' := by
  unfold laneOd od
  omega

/-- Beside the lane's state and timers, a change of state touches the bundle and the reference clock alone. -/
theorem laneTo_stirs (c : Chip) (l st : Nat) : Stirs .bundles ((c.setLane l { c.lane l with since := c.lc, groupTime := 0 }).wr (laneOd l 0x10) st)
    (c.laneTo l st) := by
  unfold Chip.laneTo Chip.sendSignal
  extract_lets old x d0 d1 up d2 b d3
  have h1 : Stirs .bundles (d0.wr (laneOd l 0x10) st) d1 := Stirs.refl.send
  have h2 : Stirs .bundles (d0.wr (laneOd l 0x10) st) d2 := by
    simp only [d2]
    split_ifs
    · exact h1.wr (by decide)
    · exact h1.wr (by decide)
    · exact h1
  have h3 : Stirs .bundles (d0.wr (laneOd l 0x10) st) d3 := by
    simp only [d3]
    split
    next hb => exact h2.bundleSettle (by decide) (by simp at hb; omega)
    · exact h2
  exact h3.laneClock (by decide)

theorem laneTo_lane (c : Chip) (l st : Nat) : ((c.laneTo l st).lane l).still = { (c.lane l).still with since := c.lc } := by
  rw [(laneTo_stirs c l st).lanes rfl l]
  exact congrArg Lane.still (Chip.setLane_same ..)

section
variable {c d : Chip} {l : Nat} (hl : l < 512)
include hl

/-- What does not touch the lanes' objects leaves them. -/
theorem Chip.Stirs.rdLane {a : Scope} (h : Stirs a c d) (sub : Nat) (hsub : sub < 256 := by decide) (ha : a.objects < 4 := by decide) :
    d.rd (laneOd l sub) = c.rd (laneOd l sub) := h.rd _ (by rw [stirLevel_lane hl hsub]; exact ha)

theorem laneTo_laneState (st : Nat) : (c.laneTo l st).laneState l = st :=
  ((laneTo_stirs c l st).rdLane hl 0x10).trans (Chip.wr_rd_same ..)

theorem laneTo_rd (st : Nat) {sub : Nat} (hne : sub ≠ 0x10) (hsub : sub < 256 := by decide) :
    (c.laneTo l st).rd (laneOd l sub) = c.rd (laneOd l sub) :=
  ((laneTo_stirs c l st).rdLane hl sub hsub).trans (Chip.wr_rd_ne _ _ _ (laneOd_ne hne))

/-! ### Back to LISTEN -/

theorem tryAlign_laneState (hst : c.laneState l = 1) : (c.tryAlign l).laneState l = 1 ∨ (c.tryAlign l).laneState l = 2 := by
  unfold Chip.tryAlign
  extract_lets
  split
  · exact .inr (laneTo_laneState hl 2)
  · exact .inl hst

theorem tryAlign_rd {sub : Nat} (hne : sub ≠ 0x10) (hsub : sub < 256 := by decide) :
    (c.tryAlign l).rd (laneOd l sub) = c.rd (laneOd l sub) := by
  unfold Chip.tryAlign
  extract_lets
  split
  · exact laneTo_rd hl 2 hne hsub
  · rfl

theorem listenNow_laneState : (c.listenNow l).laneState l = 1 ∨ (c.listenNow l).laneState l = 2 := by
  unfold Chip.listenNow
  extract_lets
  exact tryAlign_laneState hl (laneTo_laneState hl 1)

theorem listenNow_rd : (c.listenNow l).rd (laneOd l 0x1C) = wrapObj (laneOd l 0x1C) (c.rd (laneOd l 0x1C) + 1) := by
  unfold Chip.listenNow
  extract_lets x recent y
  rw [tryAlign_rd hl (by decide), laneTo_rd hl 1 (by decide), Chip.bump_rd, if_pos ⟨rfl, by decide⟩,
    Chip.wr_rd_ne _ _ _ (laneOd_ne (by decide)), Chip.setLane_rd]

theorem listenNow_rd_ne {sub : Nat} (hne : sub ∉ [0x10, 0x11, 0x1C]) (hsub : sub < 256 := by decide) :
    (c.listenNow l).rd (laneOd l sub) = c.rd (laneOd l sub) := by
  simp only [List.mem_cons, List.not_mem_nil, or_false, not_or] at hne
  obtain ⟨h10, h11, h1C⟩ := hne
  unfold Chip.listenNow
  extract_lets x recent y
  rw [tryAlign_rd hl h10 hsub, laneTo_rd hl 1 h10 hsub, Chip.bump_rd, if_neg fun h => laneOd_ne h1C h.1,
    Chip.wr_rd_ne _ _ _ (laneOd_ne h11), Chip.setLane_rd]

/-- What `LISTEN` shows: the lane listens or, with a locked signal, aligns, and unless it holds off the entry is counted. -/
theorem toListen_spec (hst : c.laneState l ≠ 0x0C) : ((c.toListen l).laneState l = 1 ∨ (c.toListen l).laneState l = 2) ∧
    (((c.toListen l).lane l).hold = false →
      (c.toListen l).rd (laneOd l 0x1C) = wrapObj (laneOd l 0x1C) (c.rd (laneOd l 0x1C) + 1)) := by
  unfold Chip.toListen
  extract_lets x recent
  split
  · refine ⟨.inl (laneTo_laneState hl 1), fun hhold => ?_⟩
    have hlane := congrArg Lane.hold (laneTo_lane (c.setLane l { x with entries := recent, hold := true }) l 1)
    rw [Chip.setLane_same] at hlane
    exact absurd (hhold.symm.trans hlane : false = true) Bool.false_ne_true
  · exact ⟨listenNow_laneState hl, fun _ => listenNow_rd hl⟩

theorem toListen_rd_ne {sub : Nat} (hne : sub ∉ [0x10, 0x11, 0x1C]) (hsub : sub < 256 := by decide) :
    (c.toListen l).rd (laneOd l sub) = c.rd (laneOd l sub) := by
  unfold Chip.toListen
  extract_lets
  split
  · exact laneTo_rd hl _ (fun h => hne (by simp [h])) hsub
  · exact listenNow_rd_ne hl hne hsub

theorem toListen_laneState : (c.toListen l).laneState l = 1 ∨ (c.toListen l).laneState l = 2 ∨ (c.toListen l).laneState l = 0x0C := by
  unfold Chip.toListen
  extract_lets
  split
  · rw [laneTo_laneState hl]
    split
    · exact .inr (.inr rfl)
    · exact .inl rfl
  · exact (listenNow_laneState hl).imp_right .inl

/-- A fallback is counted, and leaves the lane held off or in LISTEN. -/
theorem fallback_spec (r : Nat) : ((c.fallback l r).laneState l = 1 ∨ (c.fallback l r).laneState l = 2 ∨ (c.fallback l r).laneState l = 0x0C) ∧
    (c.fallback l r).rd (laneOd l 0x1D) = wrapObj (laneOd l 0x1D) (c.rd (laneOd l 0x1D) + 1) := by
  unfold Chip.fallback
  extract_lets rates
  refine ⟨toListen_laneState hl, ?_⟩
  rw [toListen_rd_ne hl (by decide), laneTo_rd hl _ (by decide), Chip.bump_rd, if_pos ⟨rfl, by decide⟩,
    Chip.wr_rd_ne _ _ _ (laneOd_ne (by decide))]

end

/-! ### Time leaves what a lane may step to -/

/-- An object whose subindex time never counts in. -/
theorem one_lt_stirLevel_bunOd (b : Nat) {sub : Nat} (hsub : sub < 6 ∨ sub = 8) : 1 < stirLevel (bunOd b sub) := by
  unfold bunOd stirLevel
  rw [keyIndex_od (by omega), keySub_od (by omega)]
  dsimp only
  split_ifs <;> omega

theorem laneTimer_stirs (c : Chip) (l ns : Nat) : Stirs .waiting c (c.laneTimer l ns) := Stirs.refl.untilLc (by decide)

theorem Chip.Stirs.nextRate {c d : Chip} (h : Stirs .waiting c d) {l : Nat} (hl : l < 512) : d.nextRate l = c.nextRate l := by
  have hlane (sub : Nat) (hsub : sub < 256) : d.rd (laneOd l sub) = c.rd (laneOd l sub) := h.rdLane hl sub hsub
  have hbun (b sub : Nat) (hsub : sub < 6 ∨ sub = 8) : d.rd (bunOd b sub) = c.rd (bunOd b sub) := h.rd _ (one_lt_stirLevel_bunOd b hsub)
  have hdom (k : Nat) : d.rdDom k = c.rdDom k := by
    unfold Chip.rdDom
    rw [h.dom]
  unfold Chip.nextRate Chip.commonRates Chip.partnerVersion Chip.partnerRates Chip.laneRate Chip.laneBundle
  rw [hlane 0x01 (by decide), hlane 0x11 (by decide), hlane 0x25 (by decide), hdom, hbun _ 0x02 (by decide), hbun _ 0x08 (by decide)]

/-! ### Runs of a lane's timers -/

section
variable {s : State} {l : Fin 512} {i : Instr} {ns : Nat}

/-- An expired timer that falls back. -/
theorem runs_fallback {rate : Nat} (h : exec i s = ok s ((s.dev.chip.laneTimer l ns).fallback l rate)) : Runs i s fun t =>
    (t.dev.chip.laneState l = 1 ∨ t.dev.chip.laneState l = 2 ∨ t.dev.chip.laneState l = 0x0C) ∧
    t.dev.chip.rd (laneOd l 0x1D) = wrapObj (laneOd l 0x1D) (s.dev.chip.rd (laneOd l 0x1D) + 1) ∧ t.coresAndMemoryOf s := by
  obtain ⟨hst, hcount⟩ := fallback_spec (c := s.dev.chip.laneTimer l ns) l.isLt rate
  rw [(laneTimer_stirs s.dev.chip l ns).rdLane l.isLt 0x1D] at hcount
  refine runs_ok h ?_
  dsimp only
  exact ⟨hst, hcount, rfl, rfl⟩

/-- An expired timer that returns the lane to LISTEN. -/
theorem runs_toListen (hst : s.dev.chip.laneState l ≠ 0x0C) (h : exec i s = ok s ((s.dev.chip.laneTimer l ns).toListen l)) : Runs i s fun t =>
    (t.dev.chip.laneState l = 1 ∨ t.dev.chip.laneState l = 2) ∧ ((t.dev.chip.lane l).hold = false →
      t.dev.chip.rd (laneOd l 0x1C) = wrapObj (laneOd l 0x1C) (s.dev.chip.rd (laneOd l 0x1C) + 1)) ∧ t.coresAndMemoryOf s := by
  have htimer := laneTimer_stirs s.dev.chip l ns
  obtain ⟨hto, hcount⟩ := toListen_spec (c := s.dev.chip.laneTimer l ns) l.isLt ((htimer.rdLane l.isLt 0x10).trans_ne hst)
  rw [htimer.rdLane l.isLt 0x1C] at hcount
  exact runs_ok h ⟨hto, hcount, rfl, rfl⟩

end

/-! ### The events of R72 to R77 in the state that they belong to -/

@[simp] theorem setLane_laneState (c : Chip) (l m : Nat) (x : Lane) : (c.setLane l x).laneState m = c.laneState m := rfl

@[simp] theorem setLane_laneRate (c : Chip) (l m : Nat) (x : Lane) : (c.setLane l x).laneRate m = c.laneRate m := rfl

theorem wr_laneState (c : Chip) {l sub : Nat} (v : Nat) (h : sub ≠ 0x10) : (c.wr (laneOd l sub) v).laneState l = c.laneState l :=
  Chip.wr_rd_ne _ _ _ (laneOd_ne h.symm)

section
variable {s : State} {l : Fin 512}

theorem execCommaAlignment_align (inv : Bool) (h : s.dev.chip.laneState l = 2) : ∃ c : Chip, execCommaAlignment l inv s = ok s (c.laneTo l 3) ∧
    c.rd (laneOd l 0x13) = b2n inv := by
  unfold execCommaAlignment
  extract_lets l' c0 x c
  have hst : c.laneState l = 2 := (wr_laneState _ _ (by decide)).trans h
  rw [if_neg (by rw [h]; decide), hst]
  exact ⟨_, rfl, Chip.wr_rd_same ..⟩

theorem execCapExchangeDone_done (h : s.dev.chip.laneState l = 3) (hcap : (s.dev.chip.lane l).gotCap = true)
    (hack : (s.dev.chip.lane l).gotAck = true) :
    (∀ r, s.dev.chip.nextRate l = some r → execCapExchangeDone l s = ok s (s.dev.chip.toSwitch l r)) ∧
    (s.dev.chip.nextRate l = none → execCapExchangeDone l s = ok s (s.dev.chip.laneUp l)) := by
  unfold execCapExchangeDone
  dsimp only
  rw [h, hcap, hack]
  exact ⟨fun r hr => by rw [hr]; rfl, fun hr => by rw [hr]; rfl⟩

theorem execTConfirmExpiry_passed (h : s.dev.chip.laneState l = 8) (hlock : 4 ≤ s.dev.chip.laneRate l → (s.dev.chip.lane l).locked = true)
    (herr : (s.dev.chip.lane l).errors = 0) (hunc : (s.dev.chip.lane l).uncorr = 0) :
    (∀ r, s.dev.chip.nextRate l = some r → execTConfirmExpiry l false s = ok s ((s.dev.chip.laneTimer l milli).laneTo l 9)) ∧
    (s.dev.chip.nextRate l = none → execTConfirmExpiry l false s = ok s ((s.dev.chip.laneTimer l milli).laneUp l)) := by
  have hnext := (laneTimer_stirs s.dev.chip l milli).nextRate l.isLt
  have hready : ¬ (decide (8 ≠ 8) || (decide (4 ≤ s.dev.chip.laneRate l) && !(s.dev.chip.lane l).locked)) = true := by
    simpa using hlock
  unfold execTConfirmExpiry
  dsimp only
  rw [h, herr, hunc, hnext, if_neg hready, if_neg (by split_ifs <;> decide)]
  exact ⟨fun r hr => by rw [hr], fun hr => by rw [hr]⟩

theorem execTQuietExpiry_quiet (h : s.dev.chip.laneState l = 5) : ∃ c : Chip, execTQuietExpiry l s = ok s (c.laneTo l 6) ∧
    c.rd (laneOd l 0x11) = (s.dev.chip.lane l).next := by
  have hnext : ((s.dev.chip.laneTimer l 100000).lane l).next = (s.dev.chip.lane l).next :=
    (congrArg Lane.next ((laneTimer_stirs s.dev.chip l 100000).lanes rfl l) :)
  unfold execTQuietExpiry
  dsimp only
  rw [h, if_neg (by decide)]
  exact ⟨_, rfl, (Chip.wr_rd_same ..).trans hnext⟩

theorem execCdrLock_lock (h : s.dev.chip.laneState l = 6) (hr : 4 ≤ s.dev.chip.laneRate l) : ∃ c : Chip, execCdrLock l s = ok s (c.laneTo l 7) := by
  unfold execCdrLock
  dsimp only
  rw [setLane_laneState, setLane_laneRate, h]
  exact ⟨_, if_pos hr⟩

theorem execCapMessage_valid {msg : List Byte} (h : s.dev.chip.laneState l = 3) (hlen : msg.length = 20)
    (hcrc : beAt msg 16 4 = crc32 (msg.take 16)) : execCapMessage l msg s = ok s (s.dev.chip.capCheck l (msg.take 16)) := by
  unfold execCapMessage
  dsimp only
  rw [h, hlen, hcrc, if_neg (by decide), if_neg (by simp), if_pos rfl]

theorem execTrainingFrame_trains {ctl ctlBar sta staBar : BitVec 16} (h : s.dev.chip.laneState l = 7) (hctl : ctl = ~~~ctlBar)
    (hsta : sta ≠ ~~~staBar) :
    let c1 := s.dev.chip.setLane l ((s.dev.chip.lane l).train (s.dev.chip.laneRate l == 6) ctl.toNat)
    execTrainingFrame l ctl ctlBar sta staBar s = ok s c1 ∨ execTrainingFrame l ctl ctlBar sta staBar s = ok s (c1.sendSignal l) := by
  unfold execTrainingFrame
  dsimp only
  rw [h, if_neg (by decide), if_pos hctl, if_neg hsta]
  split
  · exact .inl rfl
  · exact .inr rfl

end

/-- A valid message is kept as what the partner announces. -/
theorem capCheck_rdDom (c : Chip) {l : Nat} (hl : l < 512) (p : List Byte) : (c.capCheck l p).rdDom (laneOd l 0x12) = p := by
  have hdom {d : Chip} (h : Stirs .lanes (c.wrDom (laneOd l 0x12) p) d) : d.rdDom (laneOd l 0x12) = p := by
    unfold Chip.rdDom
    rw [h.dom]
    exact Chip.wrDom_rdDom_same ..
  have hn : Scope.lanes.links = true ∧ Scope.lanes.motion = true ∧ Scope.lanes.clock = true ∧ 4 ≤ Scope.lanes.objects := by decide
  unfold Chip.capCheck
  extract_lets c1 x c2
  split
  · exact hdom ((((Stirs.refl.setLane hn).bumpLane hn hl).laneTo hn hl).fault)
  · split
    · exact hdom (Stirs.refl.setLane hn)
    · exact hdom (Stirs.refl.setLane hn).send

end Sys2Proof.Machine

namespace Sys2Proof
open Machine

/-- Settles O39. -/
theorem laneBringUp : Obligations.LaneBringUp := by
  unfold Obligations.LaneBringUp
  intro s l inv msg ctl ctlBar sta staBar r q c st x key goes listens falls
  have hl : l.val < 512 := l.isLt
  have hgoes {i : Instr} {c' : Chip} {b : Nat} (h : exec i s = ok s (c'.laneTo l b)) : goes i b := by
    refine runs_ok h ?_
    dsimp only
    exact ⟨laneTo_laneState hl b, rfl, rfl⟩
  refine ⟨fun h => ?_, fun h => ?_, fun h hlen hcrc => ?_, fun h hcap hack hr => ?_, fun h hcap hack hr => ?_, fun h => ?_, fun h => ?_,
    fun h hr => ?_, fun h => ?_, fun h hctl hsta => ?_, fun h => ?_, fun h => ?_, fun h => ?_, fun h hlock herr hunc hr => ?_,
    fun h hlock herr hunc hr => ?_, fun h => ?_⟩
  · obtain ⟨c', hexec, hinv⟩ := execCommaAlignment_align inv h
    refine runs_ok hexec ?_
    dsimp only
    exact ⟨laneTo_laneState hl 3, (laneTo_rd hl 3 (by decide)).trans hinv, rfl, rfl⟩
  · exact runs_toListen (h.trans_ne (by decide)) (if_pos h)
  · refine runs_ok (execCapMessage_valid h hlen hcrc) ?_
    dsimp only
    exact ⟨capCheck_rdDom c hl _, rfl, rfl⟩
  · exact hgoes ((execCapExchangeDone_done h hcap hack).1 r hr)
  · exact hgoes ((execCapExchangeDone_done h hcap hack).2 hr)
  · refine runs_toListen (h.trans_ne (by decide)) (ns := c.rd (od 0x2000 0x03) * milli) ?_
    change execTCapExpiry l s = _
    unfold execTCapExpiry
    dsimp only
    rw [show s.dev.chip.laneState l = 3 from h]
    rfl
  · obtain ⟨c', hexec, hnext⟩ := execTQuietExpiry_quiet h
    refine runs_ok hexec ?_
    dsimp only
    exact ⟨laneTo_laneState hl 6, (laneTo_rd hl 6 (by decide)).trans hnext, rfl, rfl⟩
  · obtain ⟨c', hexec⟩ := execCdrLock_lock h hr
    exact hgoes hexec
  · exact runs_fallback (if_pos h)
  · refine (execTrainingFrame_trains h hctl hsta).elim (fun hexec => runs_ok hexec ?_) fun hexec => runs_ok hexec ?_
    · exact ⟨Chip.setLane_same .., h, rfl, rfl⟩
    · exact ⟨Chip.setLane_same .., h, rfl, rfl⟩
  · exact hgoes (if_neg (by rw [show s.dev.chip.laneState l = 7 from h]; decide))
  · exact runs_fallback (if_pos h)
  · refine runs_ok (c := c.setLane l { x with locked := true, errors := 0, uncorr := 0, since := c.lc }) ?_
      ⟨Chip.setLane_same .., h, rfl, rfl⟩
    change execBlockLock l s = _
    unfold execBlockLock
    dsimp only
    rw [show s.dev.chip.laneState l = 8 from h]
    rfl
  · exact hgoes ((execTConfirmExpiry_passed h hlock herr hunc).1 r hr)
  · exact hgoes ((execTConfirmExpiry_passed h hlock herr hunc).2 hr)
  · exact hgoes (if_pos h)

end Sys2Proof
end

section
/-! SUPPORT. Lanes in operation (R78-R84): losses, errors and test modes. -/

namespace Sys2Proof.Machine

open Chip (Stirs)

@[simp] theorem bump_lane (c : Chip) (k n l : Nat) : (c.bump k n).lane l = c.lane l := by
  obtain ⟨o, h⟩ := c.bump_frame k n
  rw [h]
  rfl

theorem bump_rd_ne (c : Chip) {k j : Nat} (n : Nat) (h : j ≠ k) : (c.bump k n).rd j = c.rd j := by
  rw [Chip.bump_rd, if_neg fun h' => h h'.1]

theorem bump_rd_same (c : Chip) (k : Nat) {n : Nat} (h : n ≠ 0 := by decide) : (c.bump k n).rd k = wrapObj k (c.rd k + n) := by
  rw [Chip.bump_rd, if_pos ⟨rfl, h⟩]

/-! ### A lane that does not transmit -/

/-- Between the two chips a lane that does not transmit stays as it is, and no lane's objects change. -/
structure Chip.Quiets (l : Nat) (c d : Chip) : Prop where
  transmits : d.transmits l = c.transmits l
  lane : c.transmits l = false → d.lane l = c.lane l

namespace Chip.Quiets

variable {l : Nat} {c d : Chip}

theorem refl : Quiets l c c := ⟨rfl, fun _ => rfl⟩

theorem trans {e : Chip} (h : Quiets l c d) (h' : Quiets l d e) : Quiets l c e :=
  ⟨h'.transmits.trans h.transmits, fun hc => (h'.lane (h.transmits.trans hc)).trans (h.lane hc)⟩

theorem setBundle {b : Nat} {x : Bundle} (h : Quiets l c d) : Quiets l c (d.setBundle b x) := h.trans ⟨rfl, fun _ => rfl⟩

theorem send {x : Sent} (h : Quiets l c d) : Quiets l c (d.send x) := h.trans ⟨rfl, fun _ => rfl⟩

theorem sendStatus {m : Nat} (h : Quiets l c d) (hm : m ≠ l) : Quiets l c (d.sendStatus m) :=
  h.trans ⟨rfl, fun _ => Chip.setLane_ne _ m _ hm.symm⟩

theorem sendStatuses {lanes : List Nat} (h : Quiets l c d) (hl : l ∉ lanes) : Quiets l c (lanes.foldl Chip.sendStatus d) := by
  induction lanes generalizing d with
  | nil => exact h
  | cons m lanes ih =>
    rw [List.mem_cons, not_or] at hl
    exact ih (h.sendStatus fun e => hl.1 e.symm) hl.2

theorem sends {α : Type} {f : α → Sent} {lanes : List α} (h : Quiets l c d) : Quiets l c (lanes.foldl (fun a m => a.send (f m)) d) := by
  induction lanes generalizing d with
  | nil => exact h
  | cons m lanes ih => exact ih h.send

theorem rowEnds {b : Nat} (h : Quiets l c d) (hc : c.transmits l = false) : Quiets l c (d.rowEnds b) := by
  have hrow : l ∉ d.rowLanes b := by
    unfold Chip.rowLanes
    intro hmem
    have := (List.mem_filter.1 hmem).2
    rw [h.transmits, hc] at this
    cases this
  unfold Chip.rowEnds Chip.sendBlocks
  extract_lets
  split_ifs
  · exact (h.sendStatuses hrow).setBundle
  · exact h.sends.setBundle
  · exact h.setBundle

theorem putBlock {b : Nat} {block : Nat → Sent} (h : Quiets l c d) (hc : c.transmits l = false) : Quiets l c (d.putBlock b block) := by
  have hrow : Quiets l c (if (d.streamLanes b).length ≤ (d.bundle b).col then d.rowEnds b else d) := by
    split
    · exact h.rowEnds hc
    · exact h
  unfold Chip.putBlock
  split
  · exact h
  · extract_lets
    split
    · exact hrow.setBundle.send
    · exact hrow.setBundle

end Chip.Quiets

section
variable {c : Chip} {l : Nat}

theorem transmits_of_stirs {a : Scope} {d : Chip} (h : Stirs a c d) (hl : l < 512) (ha : a.objects < 4 := by decide) :
    d.transmits l = c.transmits l := by
  have hst : d.laneState l = c.laneState l := h.rdLane hl 0x10 (by decide) ha
  unfold Chip.transmits
  rw [hst]

theorem bundleUp_lane (hc : c.transmits l = false) (b : Nat) : (c.bundleUp b).lane l = c.lane l := by
  have h (x : Bundle) : Chip.Quiets l c (c.setBundle b x) := Chip.Quiets.refl.setBundle
  unfold Chip.bundleUp Chip.sendCredit Chip.slotWent
  extract_lets x c1
  split
  · exact (((h _).setBundle.putBlock hc).setBundle).lane hc
  · exact (h _).lane hc

theorem showCredit_lane (b : Nat) : (c.showCredit b).lane l = c.lane l := rfl

theorem fault_lane (sev : Severity) (kind : FaultKind) (object old new detail : Nat) :
    (c.fault sev kind object old new detail).lane l = c.lane l := (Stirs.fault (a := .report) .refl).lane l

theorem bundleSettle_lane (hl : l < 512) (hc : c.transmits l = false) {b : Nat} (hb : b < 256) : (c.bundleSettle b).lane l = c.lane l := by
  unfold Chip.bundleSettle
  extract_lets d old n new e1 e2 e3
  have h1 : e1.transmits l = false :=
    (transmits_of_stirs (a := .bundles) ((Stirs.refl.wrBundle (by decide) hb).wrBundle (by decide) hb) hl).trans hc
  have h2 : e2.lane l = c.lane l := by
    simp only [e2]
    split
    · exact bundleUp_lane h1 b
    · rfl
  have h3 : e3.lane l = c.lane l := by
    simp only [e3]
    split
    · exact (fault_lane ..).trans h2
    · exact h2
  split
  · exact showCredit_lane b
  · exact (showCredit_lane b).trans h3

theorem laneClock_lane (m : Nat) : (c.laneClock m).lane l = c.lane l := (Stirs.laneClock (a := .refClock) (by decide) .refl).lane l

/-- A lane that goes to a state without transmission keeps all but its timers. -/
theorem laneTo_lane_of_silent (hl : l < 512) {st : Nat} (hst : st ≠ 0x0A ∧ st ≠ 0x0B) :
    (c.laneTo l st).lane l = { c.lane l with since := c.lc, groupTime := 0 } := by
  have hsilent : ((c.setLane l { c.lane l with since := c.lc, groupTime := 0 }).wr (laneOd l 0x10) st).transmits l = false := by
    unfold Chip.transmits Chip.laneState
    rw [Chip.wr_rd_same]
    simp [hst]
  unfold Chip.laneTo Chip.sendSignal
  extract_lets old x d0 d1 up d2 b d3
  have h1 : d1.lane l = { c.lane l with since := c.lc, groupTime := 0 } := Chip.setLane_same ..
  have h2 : d2.lane l = d1.lane l ∧ d2.transmits l = false := by
    have hup {v : Nat} : (d1.wr (od 0x2000 0x02) v).transmits l = false :=
      (transmits_of_stirs (a := .bundles) (c := d1) (Stirs.refl.wr (by decide)) hl).trans hsilent
    simp only [d2]
    split_ifs
    · exact ⟨rfl, hup⟩
    · exact ⟨rfl, hup⟩
    · exact ⟨rfl, hsilent⟩
  have h3 : d3.lane l = d2.lane l := by
    simp only [d3]
    split
    next hb => exact bundleSettle_lane hl h2.2 (by simp at hb; omega)
    · rfl
  exact (laneClock_lane l).trans (h3.trans (h2.1.trans h1))

end

/-! ### Loss of a receive member -/

theorem memberFails_stirs (c : Chip) (l : Nat) : Stirs .bundles c (c.memberFails l) := by
  unfold Chip.memberFails Chip.membershipLoss
  split
  next h =>
    have hb : c.laneBundle l < 256 := by
      simp only [Chip.rxMember, Bool.and_eq_true, decide_eq_true_eq] at h
      exact h.2.1
    exact (Stirs.refl.bump (Stirs.stirLevel_bunOd (by decide) hb (by decide))).setBundle (by decide)
  · exact .refl

@[simp] theorem memberFails_lane (c : Chip) (l m : Nat) : (c.memberFails l).lane m = c.lane m := by
  unfold Chip.memberFails Chip.membershipLoss
  split
  · exact bump_lane ..
  · rfl

/-! ### What the return to LISTEN leaves of a lane -/

/-- A lane without its timers. -/
def Lane.untimed (x : Lane) : Lane := { x with since := 0, groupTime := 0 }

section
variable {c : Chip} {l : Nat} (hl : l < 512)
include hl

theorem laneTo_untimed {st : Nat} (hst : st ≠ 0x0A ∧ st ≠ 0x0B) : ((c.laneTo l st).lane l).untimed = (c.lane l).untimed := by
  rw [laneTo_lane_of_silent hl hst]
  rfl

theorem tryAlign_untimed : ((c.tryAlign l).lane l).untimed = (c.lane l).untimed := by
  unfold Chip.tryAlign
  extract_lets
  split
  · exact laneTo_untimed hl (by decide)
  · rfl

theorem listenNow_untimed : ∃ t al cdr, ((c.listenNow l).lane l).untimed = { (c.lane l).untimed with
    entries := t, hold := false, aligned := al, locked := false, gotCap := false, gotAck := false, cdr := cdr, events := [], violations := [] } := by
  unfold Chip.listenNow
  extract_lets x recent y
  refine ⟨y.entries, y.aligned, y.cdr, ?_⟩
  rw [tryAlign_untimed hl, laneTo_untimed hl (by decide), bump_lane]
  exact congrArg Lane.untimed (Chip.setLane_same ..)

theorem toListen_kept : ((c.toListen l).lane l).los = (c.lane l).los ∧ ((c.toListen l).lane l).uncorrSince = (c.lane l).uncorrSince := by
  unfold Chip.toListen
  extract_lets x recent
  split
  · rw [laneTo_lane_of_silent hl (by split_ifs <;> decide), Chip.setLane_same]
    exact ⟨rfl, rfl⟩
  · obtain ⟨t, al, cdr, h⟩ := listenNow_untimed (c := c) hl
    generalize (c.listenNow l).lane l = y at *
    exact ⟨(congrArg Lane.los h :), (congrArg Lane.uncorrSince h :)⟩

/-- Without a signal a lane that returns to LISTEN stays there. -/
theorem toListen_of_los (hlos : (c.lane l).los = true) (hst : c.laneState l ≠ 0x0C) : (c.toListen l).laneState l = 1 := by
  unfold Chip.toListen
  extract_lets x recent
  split
  · exact laneTo_laneState hl 1
  · unfold Chip.listenNow
    extract_lets y
    have hlane := laneTo_lane_of_silent (c := ((c.setLane l y).wr (laneOd l 0x11) 0).bump (laneOd l 0x1C) 1) hl (st := 1) (by decide)
    rw [bump_lane] at hlane
    unfold Chip.tryAlign
    extract_lets z
    have hz : z.los = true := (congrArg Lane.los hlane).trans ((congrArg Lane.los (Chip.setLane_same ..)).trans hlos)
    rw [if_neg (by simp [hz])]
    exact laneTo_laneState hl 1

/-! ### Health events -/

theorem healthEvent_rd {sub : Nat} (hne : sub ∉ [0x10, 0x11, 0x1C, 0x1E]) (hsub : sub < 256 := by decide) :
    (c.healthEvent l).rd (laneOd l sub) = c.rd (laneOd l sub) := by
  have hlisten : sub ∉ [0x10, 0x11, 0x1C] := fun h => hne (by simp at h ⊢; tauto)
  have hcount : sub ≠ 0x1E := fun h => hne (by simp [h])
  unfold Chip.healthEvent
  extract_lets
  split
  · rw [(Stirs.fault (a := .report) .refl).rdLane hl sub hsub, toListen_rd_ne hl hlisten hsub, bump_rd_ne _ _ (laneOd_ne hcount),
      (memberFails_stirs c l).rdLane hl sub hsub]
  · rfl

theorem healthEvent_uncorrSince : ((c.healthEvent l).lane l).uncorrSince = (c.lane l).uncorrSince := by
  unfold Chip.healthEvent
  extract_lets
  split
  · rw [fault_lane, (toListen_kept hl).2, bump_lane, memberFails_lane]
  · rw [Chip.setLane_same]

end

/-! ### The events of a lane in operation -/

section
variable {s : State} {l : Fin 512}

theorem execLosAssert_up (h : s.dev.chip.laneState l = 0x0A) : ∃ c : Chip, execLosAssert l s = ok s c ∧ c.laneState l = 1 ∧ (c.lane l).los = true := by
  unfold execLosAssert
  extract_lets l' c st x c1 counted
  have hst : st = 0x0A := ((memberFails_stirs _ _).rdLane l.isLt 0x10).trans h
  have hcounted : counted.laneState l = st := bump_rd_ne _ _ (laneOd_ne (by decide))
  have hlos : (counted.lane l).los = true := by
    rw [bump_lane, Chip.setLane_same]
  have hrep : Stirs .report (counted.toListen l) ((counted.toListen l).fault .note .change (laneOd l 0x10) 0x0A 1 0) := Stirs.refl.fault
  rw [hst, if_neg (by decide), if_pos rfl]
  refine ⟨_, rfl, ?_, ?_⟩
  · exact (hrep.rdLane l.isLt 0x10).trans (toListen_of_los l.isLt hlos (by rw [hcounted, hst]; decide))
  · rw [hrep.lane]
    exact (toListen_kept l.isLt).1.trans hlos

theorem execLolAssert_up (h : s.dev.chip.laneState l = 0x0A) : ∃ c : Chip, execLolAssert l s = ok s (c.laneTo l 0x0B) := by
  unfold execLolAssert
  extract_lets l' c st x c1
  have hst : st = 0x0A := ((memberFails_stirs _ _).rdLane l.isLt 0x10).trans h
  rw [hst, if_neg (by decide), if_pos rfl]
  exact ⟨_, rfl⟩

theorem execUncorrectableCodeword_counts : ∃ c : Chip, execUncorrectableCodeword l s = ok s c ∧
    c.rd (laneOd l 0x16) = wrapObj (laneOd l 0x16) (s.dev.chip.rd (laneOd l 0x16) + 1) ∧ (c.lane l).uncorrSince = true := by
  unfold execUncorrectableCodeword
  extract_lets l' c0 x c
  have hcount : c.rd (laneOd l 0x16) = wrapObj (laneOd l 0x16) (c0.rd (laneOd l 0x16) + 1) := bump_rd_same _ _
  have hsince : (c.lane l).uncorrSince = true := by
    rw [bump_lane, Chip.setLane_same]
  split
  · exact ⟨_, rfl, hcount, (congrArg Lane.uncorrSince (Chip.setLane_same ..)).trans hsince⟩
  · split
    · exact ⟨_, rfl, (healthEvent_rd l.isLt (by decide)).trans hcount, (healthEvent_uncorrSince l.isLt).trans hsince⟩
    · exact ⟨_, rfl, hcount, hsince⟩
  · exact ⟨_, rfl, hcount, hsince⟩

theorem execCodeViolation_counts : ∃ c : Chip, execCodeViolation l s = ok s c ∧
    c.rd (laneOd l 0x18) = wrapObj (laneOd l 0x18) (s.dev.chip.rd (laneOd l 0x18) + 1) := by
  unfold execCodeViolation
  extract_lets l' c0 x r window v x1 c
  have hcount : c.rd (laneOd l 0x18) = wrapObj (laneOd l 0x18) (c0.rd (laneOd l 0x18) + 1) := bump_rd_same _ _
  clear_value c r
  split
  · split
    · exact ⟨_, rfl, hcount⟩
    · exact ⟨_, rfl, hcount⟩
  · split
    · exact ⟨_, rfl, (healthEvent_rd l.isLt (by decide)).trans hcount⟩
    · exact ⟨_, rfl, hcount⟩
  · exact ⟨_, rfl, hcount⟩

theorem execPrbsCheckerLock_locks (hk : s.dev.chip.rd (laneOd l 0x08) ≠ 0) (h : s.dev.chip.laneState l = 0x0D)
    (hon : s.dev.chip.on (laneOd l 0x22) = false) : ∃ c : Chip, execPrbsCheckerLock l s = ok s c ∧ c.rd (laneOd l 0x22) = 1 ∧
    (c.lane l).prbsLocked = true := by
  unfold execPrbsCheckerLock
  extract_lets l' c x c1
  have hlock : c1.rd (laneOd l 0x22) = 1 := (bump_rd_ne _ _ (laneOd_ne (by decide))).trans (Chip.wr_rd_same ..)
  have hlane : (c1.lane l).prbsLocked = true := (congrArg Lane.prbsLocked (bump_lane ..)).trans (congrArg Lane.prbsLocked (Chip.setLane_same ..))
  rw [if_neg (by simp [c, l', hk, h, hon])]
  refine ⟨_, rfl, ?_⟩
  split
  · exact ⟨(bump_rd_ne _ _ (laneOd_ne (by decide))).trans hlock, (congrArg Lane.prbsLocked (bump_lane ..)).trans hlane⟩
  · exact ⟨hlock, hlane⟩

theorem execPrbsCheckerLockLoss_counts (hon : s.dev.chip.on (laneOd l 0x22) = true) : ∃ c : Chip, execPrbsCheckerLockLoss l s = ok s c ∧
    c.rd (laneOd l 0x22) = 0 ∧
    c.rd (laneOd l 0x20) = wrapObj (laneOd l 0x20) (s.dev.chip.rd (laneOd l 0x20) + max 1024 (s.dev.chip.prbsChecked l)) ∧
    c.rd (laneOd l 0x21) = wrapObj (laneOd l 0x21) (s.dev.chip.rd (laneOd l 0x21) + 512) := by
  have hmax : max 1024 (s.dev.chip.prbsChecked l) ≠ 0 := by omega
  refine ⟨_, if_pos hon, ?_, ?_, ?_⟩
  · rw [bump_rd_ne _ _ (laneOd_ne (by decide)), bump_rd_ne _ _ (laneOd_ne (by decide)), Chip.wr_rd_same]
  · rw [bump_rd_ne _ _ (laneOd_ne (by decide))]
    refine (bump_rd_same _ _ hmax).trans ?_
    rw [Chip.wr_rd_ne _ _ _ (laneOd_ne (by decide))]
  · rw [bump_rd_same, bump_rd_ne _ _ (laneOd_ne (by decide)), Chip.wr_rd_ne _ _ _ (laneOd_ne (by decide))]

end

theorem laneRestart_rd (c : Chip) {l : Nat} (hl : l < 512) : (c.laneRestart l).rd (laneOd l 0x25) = c.rd (laneOd l 0x03) := by
  unfold Chip.laneRestart
  extract_lets c1 st
  have h1 : c1.rd (laneOd l 0x25) = c.rd (laneOd l 0x03) := Chip.wr_rd_same ..
  split
  · exact h1
  · exact (toListen_rd_ne hl (by decide)).trans (((memberFails_stirs c1 l).rdLane hl 0x25).trans h1)

theorem testMode_spec {c : Chip} {l v : Nat} (hl : l < 512) (hv : v ≠ 0) (hoff : c.bundleOn (c.laneBundle l) = false) :
    ∃ d, c.testMode l v = (d, .ok) ∧ d.laneState l = 0x0D ∧ d.rd (laneOd l 0x05) = v := by
  unfold Chip.testMode
  extract_lets c1 x
  rw [hoff, if_neg (by decide), if_neg hv]
  refine ⟨_, rfl, laneTo_laneState hl _, (laneTo_rd hl _ (by decide)).trans ?_⟩
  rw [Chip.wr_rd_ne _ _ _ (laneOd_ne (by decide)), Chip.setLane_rd, Chip.wr_rd_ne _ _ _ (laneOd_ne (by decide)), Chip.wr_rd_same]

theorem injectError_flips (c : Chip) (l : Nat) : ((c.injectError l).lane l).flips = (c.lane l).flips + 1 := by
  unfold Chip.injectError
  extract_lets x c1
  have h1 : (c1.lane l).flips = (c.lane l).flips + 1 := congrArg Lane.flips (Chip.setLane_same ..)
  split
  · rw [bump_lane, h1]
  · exact h1

end Sys2Proof.Machine

namespace Sys2Proof
open Machine

/-- Settles O40. -/
theorem laneInOperation : Obligations.LaneInOperation := by
  unfold Obligations.LaneInOperation
  intro s sess l v c st key goes
  have hl : l.val < 512 := l.isLt
  refine ⟨fun h => ?_, ?_, fun h => ?_, fun h => ?_, fun h => ?_, ?_, ?_, fun ha => ?_, fun ha hv hoff => ?_, fun ha => ?_,
    fun hk h hon => ?_, fun hon => ?_⟩
  · obtain ⟨c', hexec, hst, hlos⟩ := execLosAssert_up h
    exact runs_ok hexec ⟨hst, hlos, rfl, rfl⟩
  · refine runs_ok rfl ?_
    dsimp only
    refine ⟨(congrArg Lane.los (tryAlign_untimed hl)).trans ?_, rfl, rfl⟩
    exact (congrArg Lane.los (congrArg Lane.untimed (Chip.setLane_same ..)))
  · obtain ⟨c', hexec⟩ := execLolAssert_up h
    exact runs_ok hexec ⟨laneTo_laneState hl _, rfl, rfl⟩
  · obtain ⟨t, ht, hp, hstates, -, hkept⟩ := runs_toListen (i := .tRelockExpiry l) (h.trans_ne (by decide)) (if_pos h)
    exact ⟨t, ht, hp, hstates, hkept⟩
  · refine runs_ok (if_pos h) ?_
    dsimp only
    obtain ⟨_, _, _, hlane⟩ := listenNow_untimed (c := c.laneTimer l (c.rd (od 0x2000 0x07) * milli)) hl
    exact ⟨(congrArg Lane.hold hlane :), rfl, rfl⟩
  · obtain ⟨c', hexec, hcount, hsince⟩ := execUncorrectableCodeword_counts (s := s) (l := l)
    exact runs_ok hexec ⟨hcount, hsince, rfl, rfl⟩
  · obtain ⟨c', hexec, hcount⟩ := execCodeViolation_counts (s := s) (l := l)
    exact runs_ok hexec ⟨hcount, rfl, rfl⟩
  · exact runs_request rfl ha rfl ⟨((stirs_answer ..).rdLane hl 0x25).trans (laneRestart_rd c hl), answer_head .., rfl, rfl⟩
  · obtain ⟨d, hd, hst, hmode⟩ := testMode_spec hl (v := v.toNat) (by simpa [BitVec.toNat_eq] using hv) hoff
    exact runs_request rfl ha hd ⟨((stirs_answer ..).rdLane hl 0x10).trans hst, ((stirs_answer ..).rdLane hl 0x05).trans hmode,
      answer_head .., rfl, rfl⟩
  · refine runs_request rfl ha rfl ⟨?_, answer_head .., rfl, rfl⟩
    dsimp only
    rw [(stirs_answer ..).lane]
    exact injectError_flips ..
  · obtain ⟨c', hexec, hlock, hlane⟩ := execPrbsCheckerLock_locks hk h hon
    exact runs_ok hexec ⟨hlock, hlane, rfl, rfl⟩
  · obtain ⟨c', hexec, hoff, hbits, herrs⟩ := execPrbsCheckerLockLoss_counts hon
    exact runs_ok hexec ⟨hoff, hbits, herrs, rfl, rfl⟩

end Sys2Proof
end

section
/-! SUPPORT. Control and data blocks that arrive on a lane (R147-R155). -/

namespace Sys2Proof.Machine

open Chip (Stirs)

/-! ### The lanes of a bundle are read from the lanes' own objects -/

section
variable {α β : Type} {f : Nat × α → Option β} {k : Nat} (hk : ∀ v, f (k, v) = none)
include hk

theorem filterMap_sdel (m : SMap α) : (sdel m k).filterMap f = m.filterMap f := by
  induction m with
  | nil => rfl
  | cons e t ih =>
    obtain ⟨a, v⟩ := e
    unfold sdel
    split
    next h => rw [ih, List.filterMap_cons, ← h, hk]
    · rw [List.filterMap_cons, List.filterMap_cons, ih]

theorem filterMap_sins (m : SMap α) (x : α) : (sins m k x).filterMap f = m.filterMap f := by
  induction m with
  | nil => simp [sins, hk]
  | cons e t ih =>
    obtain ⟨a, v⟩ := e
    unfold sins
    split
    next h => rw [List.filterMap_cons, List.filterMap_cons, hk, ← h, hk]
    · split
      · rw [List.filterMap_cons, hk]
      · rw [List.filterMap_cons, List.filterMap_cons, ih]

theorem filterMap_sset [DecidableEq α] (d : Nat → α) (m : SMap α) (x : α) : (sset d m k x).filterMap f = m.filterMap f := by
  unfold sset
  split
  · exact filterMap_sdel hk m
  · exact filterMap_sins hk m x

end

/-- An object that is not a lane's bundle does not change which lanes a bundle has. -/
theorem wr_bundleLanes (c : Chip) {k : Nat} (v b : Nat) (hk : keySub k ≠ 1) : (c.wr k v).bundleLanes b = c.bundleLanes b := by
  refine filterMap_sset (fun v => ?_) _ _ _
  dsimp only
  rw [if_neg]
  simp [hk]

theorem bump_bundleLanes (c : Chip) {k : Nat} (n b : Nat) (hk : keySub k ≠ 1) : (c.bump k n).bundleLanes b = c.bundleLanes b := by
  unfold Chip.bump
  split
  · rfl
  · exact wr_bundleLanes c _ b hk

theorem keySub_bunOd {b sub : Nat} (hsub : sub < 256) : keySub (bunOd b sub) = sub := keySub_od hsub

theorem bunOd_ne {b sub sub' : Nat} (h : sub ≠ sub') : bunOd b sub ≠ bunOd b sub' := by
  unfold bunOd od
  omega

theorem lt_of_mem_bundleLanes {c : Chip} {b l : Nat} (h : l ∈ c.bundleLanes b) : l < 512 := by
  unfold Chip.bundleLanes at h
  obtain ⟨e, -, he⟩ := List.mem_filterMap.1 h
  dsimp only at he
  split at he
  next hlane =>
    simp only [Bool.and_eq_true, decide_eq_true_eq] at hlane
    obtain ⟨⟨⟨-, hlt⟩, -⟩, -⟩ := hlane
    have := Option.some.inj he
    omega
  · cases he

theorem bump_bundleRole (c : Chip) {b sub : Nat} (n e : Nat) (hsub : sub < 256) (hne : sub ≠ 1) :
    (c.bump (bunOd b sub) n).bundleRole e = c.bundleRole e := by
  unfold Chip.bundleRole
  rw [bump_bundleLanes c n e (by rw [keySub_bunOd hsub]; exact hne)]
  split
  next l _ h =>
    have hl : l < 512 := lt_of_mem_bundleLanes (c := c) (b := e) (by rw [h]; exact List.mem_cons_self ..)
    refine bump_rd_ne _ _ ?_
    unfold bunOd od
    omega
  · rfl

@[simp] theorem setBundle_bundleRole (c : Chip) (b e : Nat) (x : Bundle) : (c.setBundle b x).bundleRole e = c.bundleRole e := rfl

/-! ### A block of the stream -/

section
variable {c : Chip} {l : Nat}

theorem laneBundle_lt_of_rxMember (h : c.rxMember l = true) : c.laneBundle l < 256 := by
  unfold Chip.rxMember at h
  simp only [Bool.and_eq_true, decide_eq_true_eq] at h
  exact h.1

/-- What a block of a receive member makes of the chip: frames of lanes that have failed since the last one are given up, and its lane is
the last. -/
structure StreamBlock (c : Chip) (b : Nat) (d : Chip) : Prop where
  rd : ∀ k, k ≠ bunOd b 0x1B → d.rd k = c.rd k
  role : ∀ e, d.bundleRole e = c.bundleRole e
  sel : (d.bundle b).sel = (c.bundle b).sel
  opens : (d.bundle b).opens.map (·.vl) = (c.bundle b).opens.map (·.vl)
  kept : (c.bundle b).lastIndex = none → (d.bundle b).opens = (c.bundle b).opens
  ready : (d.bundle b).ready = (c.bundle b).ready

theorem streamBlock_of_member (hst : c.laneState l = 0x0A) (hr : 4 ≤ c.laneRate l) (hm : c.rxMember l = true) :
    ∃ d, c.streamBlock l = some d ∧ StreamBlock c (c.laneBundle l) d := by
  unfold Chip.streamBlock
  extract_lets b i x mask failed lost c1
  rw [hst, hm, if_neg (by simp; omega)]
  have hset {e : Chip} (he : StreamBlock c b e) : StreamBlock c b (e.setBundle b { e.bundle b with lastIndex := some i }) := by
    refine ⟨he.rd, he.role, ?_, ?_, ?_, ?_⟩ <;> rw [Chip.setBundle_same]
    exacts [he.sel, he.opens, he.kept, he.ready]
  refine ⟨_, rfl, hset ?_⟩
  have hloss : (c.membershipLoss b).bundle b = { c.bundle b with opens := (c.bundle b).opens.map fun o => { o with drop := true } } :=
    Chip.setBundle_same ..
  simp only [c1]
  split
  next hlost =>
    refine ⟨fun k hk => bump_rd_ne _ _ hk, fun e => bump_bundleRole _ _ _ (by decide) (by decide), ?_, ?_, fun hlast => ?_, ?_⟩
    · rw [hloss]
    · rw [hloss]
      exact List.map_map
    · simp only [lost, x] at hlost
      rw [hlast] at hlost
      cases hlost
    · rw [hloss]
  · exact ⟨fun _ _ => rfl, fun _ => rfl, rfl, rfl, fun _ => rfl, rfl⟩

end

section
variable {c d : Chip} {b : Nat} (h : StreamBlock c b d)
include h

theorem StreamBlock.laneBundle (l : Nat) : d.laneBundle l = c.laneBundle l := by
  refine h.rd _ ?_
  unfold laneOd bunOd od
  omega

theorem StreamBlock.carries (e : Nat) : d.carries e = c.carries e := by
  have hst : d.bundleState e = c.bundleState e := h.rd _ (by unfold bunOd od; omega)
  unfold Chip.carries
  rw [hst]

theorem StreamBlock.credited (e : Nat) : d.credited e = c.credited e := by
  unfold Chip.credited
  rw [h.role]

/-- Which virtual lanes have an open frame is as before. -/
theorem StreamBlock.anyOpen (p : Nat → Bool) : ((d.bundle b).opens.any fun o => p o.vl) = (c.bundle b).opens.any fun o => p o.vl := by
  have hmap (l : List OpenFrame) : (l.any fun o => p o.vl) = (l.map (·.vl)).any p := (List.any_map ..).symm
  rw [hmap, hmap, h.opens]

end

/-! ### What each block makes of its bundle -/

section
variable {s : State} {l : Fin 512} (hst : s.dev.chip.laneState l = 0x0A) (hr : 4 ≤ s.dev.chip.laneRate l) (hm : s.dev.chip.rxMember l = true)
include hst hr hm

theorem execSof_opens (body : BitVec 56) :
    let c := s.dev.chip
    let b := c.laneBundle l
    let v := body.toNat
    ∃ d : Chip, execSof l body s = ok s d ∧ (d.bundle b).sel = some (bits v 54 2) ∧
      (d.bundle b).opens.getLast? = some ⟨bits v 54 2, bits v 32 16, beBytes 4 (bits v 0 32),
        bits v 54 2 = 3 || bits v 32 16 < 8 || (c.bundleRole b = 1 && bits v 54 2 ≠ 2) || !c.carries b⟩ := by
  obtain ⟨d, hd, h⟩ := streamBlock_of_member hst hr hm
  intro c b v
  unfold execSof
  rw [hd]
  dsimp only
  rw [h.laneBundle, h.role, h.carries]
  refine ⟨_, rfl, ?_, ?_⟩
  · rw [Chip.setBundle_same]
  · rw [Chip.setBundle_same]
    exact List.getLast?_concat

section
variable {o : OpenFrame} {vl : Nat} (hlast : (s.dev.chip.bundle (s.dev.chip.laneBundle l)).lastIndex = none)
  (hsel : (s.dev.chip.bundle (s.dev.chip.laneBundle l)).sel = some vl) (hopen : (s.dev.chip.bundle (s.dev.chip.laneBundle l)).opens = [o])
  (hvl : o.vl = vl)
include hlast hsel hopen hvl

/-- A data block of the selected frame, the only one that is open. -/
theorem execDataBlock_of_selected (bytes : List Byte) : ∃ d : Chip, StreamBlock s.dev.chip (s.dev.chip.laneBundle l) d ∧
    execDataBlock l bytes s =
      (let b := s.dev.chip.laneBundle l
       let got := o.bytes ++ padTo 8 bytes
       if got.length < o.length then ok s (d.setBundle b { d.bundle b with opens := [{ o with bytes := got }] })
       else
         let c1 := d.setBundle b { d.bundle b with opens := [], sel := none }
         ok s (if o.drop then c1 else c1.frameIn b o.vl (got.take o.length))) := by
  obtain ⟨d, hd, h⟩ := streamBlock_of_member hst hr hm
  have hfind : (some vl).bind (fun v => [o].find? fun o => o.vl == v) = some o := by
    simp [hvl]
  have hrest : ([o].filter fun p => p.vl != o.vl) = [] := by
    simp
  refine ⟨d, h, ?_⟩
  unfold execDataBlock
  rw [hd]
  dsimp only
  rw [h.laneBundle, h.sel, hsel, h.kept hlast, hopen, hfind]
  dsimp only
  rw [hrest]
  rfl

end

theorem execResumeBlock_selects {body : BitVec 56}
    (hopen : ((s.dev.chip.bundle (s.dev.chip.laneBundle l)).opens.any fun f => f.vl == bits body.toNat 54 2) = true) :
    ∃ d : Chip, execResumeBlock l body s = ok s d ∧ (d.bundle (s.dev.chip.laneBundle l)).sel = some (bits body.toNat 54 2) := by
  obtain ⟨d, hd, h⟩ := streamBlock_of_member hst hr hm
  unfold execResumeBlock
  rw [hd]
  dsimp only
  rw [h.laneBundle, h.anyOpen (· == bits body.toNat 54 2), hopen, if_pos rfl]
  exact ⟨_, rfl, congrArg Bundle.sel (Chip.setBundle_same ..)⟩

theorem execCredit_takes {body : BitVec 56} (hcred : s.dev.chip.credited (s.dev.chip.laneBundle l) = true)
    (hcarr : s.dev.chip.carries (s.dev.chip.laneBundle l) = true) :
    ∃ d : Chip, execCredit l body s = ok s d ∧ (d.bundle (s.dev.chip.laneBundle l)).partner =
      some [bits body.toNat 32 16, bits body.toNat 16 16, bits body.toNat 0 16] := by
  obtain ⟨d, hd, h⟩ := streamBlock_of_member hst hr hm
  unfold execCredit
  rw [hd]
  dsimp only
  rw [h.laneBundle, h.credited, h.carries, hcred, hcarr, if_pos (by rfl)]
  exact ⟨_, rfl, congrArg Bundle.partner (Chip.setBundle_same ..)⟩

end

@[simp] theorem bump_bundle (c : Chip) (k n b : Nat) : (c.bump k n).bundle b = c.bundle b := by
  obtain ⟨o, h⟩ := c.bump_frame k n
  rw [h]
  rfl

/-- A whole frame of a bundle that carries frames is ready. -/
theorem frameIn_bundle {c : Chip} {b : Nat} (h : c.carries b = true) (vl : Nat) (bytes : List Byte) :
    (c.frameIn b vl bytes).bundle b = { c.bundle b with ready := (c.bundle b).ready ++ [(vl, bytes)] } := by
  unfold Chip.frameIn
  rw [if_pos h]
  exact Chip.setBundle_same ..

/-! ### STATUS and invalid sync headers -/

theorem laneQl_lane (c : Chip) (l q m : Nat) : (c.laneQl l q).lane m = c.lane m := by
  have hclock : Scope.refClock.clock = true ∧ 2 ≤ Scope.refClock.objects := by decide
  have h : Stirs .refClock c (c.laneQl l q) := by
    unfold Chip.laneQl
    extract_lets
    split
    · exact .refl
    · exact (Stirs.refl.foldl (fun _ _ => (Stirs.refl.wrCand hclock).settleCand hclock) _).selectRef hclock
  exact h.lane m

section
variable {s : State} {l : Fin 512}

theorem execStatus_takes {body : BitVec 56} (hst : s.dev.chip.laneState l = 0x0A) : ∃ c : Chip, execStatus l body s = ok s c ∧
    (c.lane l).partnerUp = bitAt body.toNat 10 ∧ (c.lane l).partnerSkew = bitAt body.toNat 11 := by
  unfold execStatus
  extract_lets l' c x q n c1 b
  have hlane : c1.lane l = { x with partnerUp := bitAt body.toNat 10, partnerSkew := bitAt body.toNat 11, qlSeen := (q, n) } :=
    Chip.setLane_same ..
  rw [if_neg (not_not.2 hst)]
  refine ⟨_, rfl, ?_⟩
  split
  · rw [laneQl_lane]
    split
    · exact ⟨congrArg Lane.partnerUp hlane, congrArg Lane.partnerSkew hlane⟩
    · exact ⟨congrArg Lane.partnerUp hlane, congrArg Lane.partnerSkew hlane⟩
  · exact ⟨congrArg Lane.partnerUp hlane, congrArg Lane.partnerSkew hlane⟩

theorem execMarker_takes {body : BitVec 56} {lag : Nat} (hst : s.dev.chip.laneState l = 0x0A) (hr : 4 ≤ s.dev.chip.laneRate l)
    (hmark : bits body.toNat 48 8 = 0x5A) : ∃ c : Chip, execMarker l body lag s = ok s c ∧
    (c.lane l).index = bits body.toNat 40 6 ∧ (c.lane l).skewed = decide (18000 < lag) ∧ c.rd (laneOd l 0x14) = min 65535 lag := by
  unfold execMarker
  extract_lets l' c late x c1
  have hlane : c1.lane l = { c.lane l with index := bits body.toNat 40 6, skewed := late } := Chip.setLane_same ..
  have hlag : c1.rd (laneOd l 0x14) = min 65535 lag := Chip.wr_rd_same ..
  rw [hst, hmark, if_neg (by simp; omega)]
  refine ⟨_, rfl, ?_⟩
  split
  · rw [bump_lane, hlane, bump_rd_ne _ _ (laneOd_ne (by decide))]
    exact ⟨rfl, rfl, hlag⟩
  · rw [hlane]
    exact ⟨rfl, rfl, hlag⟩

theorem execMembers_notes {body : BitVec 56} {row : Nat} (hst : s.dev.chip.laneState l = 0x0A) (hr : 4 ≤ s.dev.chip.laneRate l)
    (hrow : row = 1 ∨ row = 2) (hb : s.dev.chip.laneBundle l < 256)
    (hfresh : ((s.dev.chip.bundle (s.dev.chip.laneBundle l)).rxRow.any fun e => e.1 == row && e.2 < (s.dev.chip.lane l).index) = false) :
    ∃ c : Chip, execMembers l row body s = ok s c ∧
      (row, (s.dev.chip.lane l).index) ∈ (c.bundle (s.dev.chip.laneBundle l)).rxRow := by
  unfold execMembers
  extract_lets c b x i m taken next
  rw [hst, if_neg (by simp [b, c]; omega), show taken = false from hfresh, if_neg (by decide)]
  refine ⟨_, rfl, ?_⟩
  rw [Chip.setBundle_same]
  exact List.mem_append_right _ (List.mem_singleton_self _)

theorem execInvalidSyncHeader_counts : ∃ c : Chip, execInvalidSyncHeader l s = ok s c ∧
    c.rd (laneOd l 0x17) = wrapObj (laneOd l 0x17) (s.dev.chip.rd (laneOd l 0x17) + 1) := by
  unfold execInvalidSyncHeader
  extract_lets l' c0 y c z b x c1
  have hcount : c.rd (laneOd l 0x17) = wrapObj (laneOd l 0x17) (c0.rd (laneOd l 0x17) + 1) := bump_rd_same _ _
  have h1 : c1.rd (laneOd l 0x17) = c.rd (laneOd l 0x17) := by
    simp only [c1]
    split
    · split
      next hm =>
        have hb : b < 256 := laneBundle_lt_of_rxMember hm
        refine bump_rd_ne _ _ ?_
        unfold laneOd bunOd od
        omega
      · rfl
    · rfl
  clear_value c1
  split
  · exact ⟨_, rfl, hcount⟩
  · refine ⟨_, rfl, ?_⟩
    split
    · exact (healthEvent_rd l.isLt (by decide)).trans (h1.trans hcount)
    · exact h1.trans hcount
  · exact ⟨_, rfl, hcount⟩

end

end Sys2Proof.Machine

namespace Sys2Proof
open Machine

/-- Settles O41. -/
theorem blocksReceived : Obligations.BlocksReceived := by
  unfold Obligations.BlocksReceived
  intro s l body bytes lag row type o vl c b x up member v key
  refine ⟨fun hm => ?_, fun hm hlast hsel hopen hvl hlen => ?_, fun hm hlast hsel hopen hvl hlen hdrop hcarr => ?_, fun hm hopen => ?_,
    fun hm hcred hcarr => ?_, fun hst => ?_, fun hup hmark => ?_, fun hup hrow hb hfresh => ?_, fun hup hb => ?_, ?_⟩
  · obtain ⟨⟨hst, hr⟩, hrx⟩ := hm
    obtain ⟨d, hexec, hsel, hopen⟩ := execSof_opens hst hr hrx body
    exact runs_ok hexec ⟨hsel, hopen, rfl, rfl⟩
  · obtain ⟨⟨hst, hr⟩, hrx⟩ := hm
    obtain ⟨d, -, hexec⟩ := execDataBlock_of_selected hst hr hrx hlast hsel hopen hvl bytes
    refine runs_ok (hexec.trans (if_pos hlen)) ⟨?_, rfl, rfl⟩
    exact congrArg Bundle.opens (Chip.setBundle_same ..)
  · obtain ⟨⟨hst, hr⟩, hrx⟩ := hm
    obtain ⟨d, h, hexec⟩ := execDataBlock_of_selected hst hr hrx hlast hsel hopen hvl bytes
    refine runs_ok (hexec.trans ((if_neg (by omega)).trans (by rw [hdrop]))) ?_
    have hin := frameIn_bundle (c := d.setBundle (c.laneBundle l) { d.bundle (c.laneBundle l) with opens := [], sel := none })
      ((h.carries _).trans hcarr) o.vl ((o.bytes ++ padTo 8 bytes).take o.length)
    rw [Chip.setBundle_same] at hin
    exact ⟨congrArg Bundle.opens hin, (congrArg Bundle.ready hin).trans (by rw [← h.ready, hvl]), rfl, rfl⟩
  · obtain ⟨⟨hst, hr⟩, hrx⟩ := hm
    obtain ⟨d, hexec, hsel⟩ := execResumeBlock_selects hst hr hrx hopen
    exact runs_ok hexec ⟨hsel, rfl, rfl⟩
  · obtain ⟨⟨hst, hr⟩, hrx⟩ := hm
    obtain ⟨d, hexec, htot⟩ := execCredit_takes hst hr hrx hcred hcarr
    exact runs_ok hexec ⟨htot, rfl, rfl⟩
  · obtain ⟨c', hexec, hup, hskew⟩ := execStatus_takes hst
    exact runs_ok hexec ⟨hup, hskew, rfl, rfl⟩
  · obtain ⟨hst, hr⟩ := hup
    obtain ⟨c', hexec, hindex, hskew, hlag⟩ := execMarker_takes hst hr hmark
    exact runs_ok hexec ⟨hindex, hskew, hlag, rfl, rfl⟩
  · obtain ⟨hst, hr⟩ := hup
    obtain ⟨c', hexec, hnoted⟩ := execMembers_notes hst hr hrow hb hfresh
    exact runs_ok hexec ⟨hnoted, rfl, rfl⟩
  · refine runs_ok (if_pos ?_) ⟨bump_rd_same _ _, rfl, rfl⟩
    obtain ⟨hst, hr⟩ : s.dev.chip.laneState l = 0x0A ∧ 4 ≤ s.dev.chip.laneRate l := hup
    replace hb : s.dev.chip.laneBundle l < 256 := hb
    simp [hst, hr, hb]
  · obtain ⟨c', hexec, hcount⟩ := execInvalidSyncHeader_counts (s := s) (l := l)
    exact runs_ok hexec ⟨hcount, rfl, rfl⟩

end Sys2Proof
end

section
/-! SUPPORT. Frames, markers and credit on a bundle (R65-R71, R147-R154): what the signals that pass leave of a bundle. -/

namespace Sys2Proof.Machine

open Chip (Stirs)

/-- A bundle without its place in the row. -/
def Bundle.unplaced (x : Bundle) : Bundle := { x with row := 0, col := 0, sampleWait := 0 }

/-- A bundle without what the slots of a row take from it. -/
def Bundle.still (x : Bundle) : Bundle := { x with row := 0, col := 0, sampleWait := 0, rowTime := 0, tx := [], txSel := none }

theorem Bundle.still_of_unplaced {x y : Bundle} (h : x.unplaced = y.unplaced) : x.still = y.still := (congrArg Bundle.still h :)

/-- From `c` to `d` no bundle has changed as `p` sees it. -/
def Chip.Leaves (p : Bundle → Bundle) (c d : Chip) : Prop := ∀ b, p (d.bundle b) = p (c.bundle b)

namespace Chip.Leaves

variable {p : Bundle → Bundle} {c d : Chip}

theorem refl : Leaves p c c := fun _ => rfl

theorem trans {e : Chip} (h : Leaves p c d) (h' : Leaves p d e) : Leaves p c e := fun b => (h' b).trans (h b)

theorem foldl {α : Type} {f : Chip → α → Chip} (hf : ∀ e x, Leaves p e (f e x)) (l : List α) (h : Leaves p c d) : Leaves p c (l.foldl f d) := by
  induction l generalizing d with
  | nil => exact h
  | cons x l ih => exact ih (h.trans (hf d x))

/-- What does not touch the bundles. -/
theorem of_bundles {e : Chip} (h : Leaves p c d) (he : e.bundles = d.bundles) : Leaves p c e := fun b => by
  have hb : e.bundle b = d.bundle b := by
    unfold Chip.bundle
    rw [he]
  rw [hb]
  exact h b

theorem setBundle {b : Nat} {x : Bundle} (h : Leaves p c d) (hx : p x = p (d.bundle b)) : Leaves p c (d.setBundle b x) := by
  refine h.trans fun e => ?_
  by_cases he : e = b
  · subst he
    rw [Chip.setBundle_same, hx]
  · rw [Chip.setBundle_ne d b x he]

theorem send {x : Sent} (h : Leaves p c d) : Leaves p c (d.send x) := h.of_bundles rfl

theorem sendStatus {l : Nat} (h : Leaves p c d) : Leaves p c (d.sendStatus l) := h.of_bundles rfl

theorem still (h : Leaves Bundle.unplaced c d) : Leaves Bundle.still c d := fun b => Bundle.still_of_unplaced (h b)

theorem rowEnds {b : Nat} (h : Leaves Bundle.unplaced c d) : Leaves Bundle.unplaced c (d.rowEnds b) := by
  unfold Chip.rowEnds Chip.sendBlocks
  extract_lets
  split_ifs
  · exact (h.foldl (fun _ _ => refl.sendStatus) _).setBundle rfl
  · exact (h.foldl (fun _ _ => refl.send) _).setBundle rfl
  · exact h.setBundle rfl

theorem putBlock {b : Nat} {block : Nat → Sent} (h : Leaves Bundle.unplaced c d) : Leaves Bundle.unplaced c (d.putBlock b block) := by
  unfold Chip.putBlock
  split
  · exact h
  · extract_lets c1 x c2
    have h1 : Leaves Bundle.unplaced c c1 := by
      simp only [c1]
      split
      · exact h.rowEnds
      · exact h
    have h2 : Leaves Bundle.unplaced c c2 := by
      refine h1.setBundle ?_
      rfl
    split
    · exact h2.send
    · exact h2

theorem slotWent {b vl : Nat} (h : Leaves Bundle.unplaced c d) : Leaves Bundle.unplaced c (d.slotWent b vl) := h.setBundle rfl

theorem slot {b vl : Nat} {block : Nat → Sent} (h : Leaves Bundle.still c d) : Leaves Bundle.still c ((d.putBlock b block).slotWent b vl) :=
  h.trans refl.putBlock.slotWent.still

theorem rowEnds_still {b : Nat} (h : Leaves Bundle.still c d) : Leaves Bundle.still c (d.rowEnds b) := h.trans refl.rowEnds.still

theorem continueFrame {b vl : Nat} (h : Leaves Bundle.still c d) : Leaves Bundle.still c (d.continueFrame b vl) := by
  unfold Chip.continueFrame
  extract_lets x
  split
  · exact h
  · split
    · refine slot (h.setBundle ?_)
      rfl
    · refine slot (h.setBundle ?_)
      split <;> rfl

theorem slotsOut {b m : Nat} (h : Leaves Bundle.still c d) : Leaves Bundle.still c (Chip.slotsOut b m d) := by
  induction m generalizing d with
  | zero => exact h
  | succ m ih =>
    refine ih ?_
    unfold Chip.streamSlot
    split
    · exact h.continueFrame
    · exact h.setBundle rfl

theorem rowsOut {b m k : Nat} (h : Leaves Bundle.still c d) : Leaves Bundle.still c (Chip.rowsOut b m k d) := by
  induction m generalizing k d with
  | zero => exact h
  | succ m ih =>
    unfold Chip.rowsOut
    extract_lets
    split_ifs
    · exact h
    · refine ih (rowEnds_still (h.setBundle ?_))
      rfl
    · exact ih h.slotsOut.rowEnds_still

theorem linksPass {m : Nat} (h : Leaves Bundle.still c d) : Leaves Bundle.still c (d.linksPass m) := by
  have hrows (e : Chip) (b : Nat) : Leaves Bundle.still e (e.rowsPass m b) := by
    unfold Chip.rowsPass
    extract_lets
    split
    · exact refl
    · refine rowsOut (refl.setBundle ?_)
      rfl
  have hlanes (e : Chip) (l : Nat) : Leaves Bundle.still e (e.lanePass m l) := by
    unfold Chip.lanePass
    extract_lets
    split_ifs
    · exact refl
    · exact refl.of_bundles rfl
    · exact refl.of_bundles rfl
  unfold Chip.linksPass
  exact (h.foldl hrows _).foldl hlanes _

theorem wr {k v : Nat} (h : Leaves p c d) : Leaves p c (d.wr k v) := h.of_bundles rfl

theorem bump {k n : Nat} (h : Leaves p c d) : Leaves p c (d.bump k n) := h.trans fun b => by rw [bump_bundle]

theorem countFault {sev : Severity} {k detail : Nat} (h : Leaves p c d) : Leaves p c (d.countFault sev k detail) := by
  unfold Chip.countFault
  exact h.bump.trans fun b => by rw [(Stirs.fault (a := .report) .refl).bundle]

theorem beaconsDue (h : Leaves p c d) : Leaves p c d.beaconsDue := by
  unfold Chip.beaconsDue
  extract_lets
  split
  · exact h
  · refine foldl (fun e _ => ?_) _ (h.of_bundles rfl)
    split
    · exact refl
    · exact refl.countFault

theorem untilLc {t : Nat} (h : Leaves Bundle.still c d) : Leaves Bundle.still c (d.untilLc t) := by
  have hclock (m lc xo seen : Nat) : Leaves Bundle.still c { d.linksPass m with lc := lc, xo := xo, frontSeen := seen, frontAny := true } :=
    h.linksPass.of_bundles rfl
  have hmark {e : Chip} (m : Option Nat) : Leaves Bundle.still e { e with power := { e.power with mark := m } } := refl.of_bundles rfl
  unfold Chip.untilLc Chip.pass
  extract_lets lc xo seen links c1 last before
  clear_value before
  split_ifs
  · exact h
  · exact (hclock _ _ _ _).beaconsDue
  · refine Leaves.trans ?_ (hmark _)
    cases before with
    | some m => exact (hclock _ _ _ _).beaconsDue.wr
    | none => exact (hclock _ _ _ _).beaconsDue
  · exact h

theorem slotsBefore {b vl m : Nat} (h : Leaves Bundle.still c d) : Leaves Bundle.still c (Chip.slotsBefore b vl m d) := by
  induction m generalizing d with
  | zero => exact h
  | succ m ih =>
    unfold Chip.slotsBefore
    extract_lets
    split
    · split
      · exact h
      · exact ih h.continueFrame
    · exact h

end Chip.Leaves

theorem Chip.Stirs.slotsBefore {a : Scope} {c d : Chip} (hn : a.motion = true) {b vl m : Nat} (h : Stirs a c d) :
    Stirs a c (Chip.slotsBefore b vl m d) := by
  induction m generalizing d with
  | zero => exact h
  | succ m ih =>
    unfold Chip.slotsBefore
    extract_lets
    split
    · split
      · exact h
      · exact ih (h.continueFrame hn)
    · exact h

/-! ### What a bundle's settling shows -/

/-- The scope of blocks that leave. -/
def Scope.blocks : Scope := ⟨0, false, false, true, false⟩

theorem stirLevel_bundle {b sub : Nat} (hb : b < 256) (hsub : sub < 256) : stirLevel (bunOd b sub) = 3 := by
  unfold bunOd stirLevel
  rw [keyIndex_od hsub, keySub_od hsub]
  dsimp only
  split_ifs <;> omega

theorem Chip.Stirs.rdBundle {a : Scope} {c d : Chip} (h : Stirs a c d) {b : Nat} (hb : b < 256) (sub : Nat) (hsub : sub < 256 := by decide)
    (ha : a.objects < 3 := by decide) : d.rd (bunOd b sub) = c.rd (bunOd b sub) := h.rd _ (by rw [stirLevel_bundle hb hsub]; exact ha)

theorem showCredit_rd (c : Chip) {b sub : Nat} (hne : sub ∉ [0x1E, 0x1F, 0x20]) : (c.showCredit b).rd (bunOd b sub) = c.rd (bunOd b sub) := by
  simp only [List.mem_cons, List.not_mem_nil, or_false, not_or] at hne
  obtain ⟨h0, h1, h2⟩ := hne
  unfold Chip.showCredit
  extract_lets
  rw [Chip.wr_rd_ne _ _ _ (bunOd_ne h2), Chip.wr_rd_ne _ _ _ (bunOd_ne h1), Chip.wr_rd_ne _ _ _ (bunOd_ne h0)]

/-- A bundle's settling writes its count of lanes, its state and what it shows of its credit. -/
theorem bundleSettle_rd (c : Chip) {b sub : Nat} (hb : b < 256) (hne : sub ∉ [0x10, 0x13, 0x1E, 0x1F, 0x20]) (hsub : sub < 256 := by decide) :
    (c.bundleSettle b).rd (bunOd b sub) = c.rd (bunOd b sub) := by
  have hcredit : sub ∉ [0x1E, 0x1F, 0x20] := fun h => hne (by simp at h ⊢; tauto)
  simp only [List.mem_cons, List.not_mem_nil, or_false, not_or] at hne
  obtain ⟨h10, h13, -⟩ := hne
  have hup (e : Chip) : Stirs .blocks e (e.bundleUp b) := by
    unfold Chip.bundleUp Chip.sendCredit
    extract_lets
    split
    · exact (((Stirs.refl.setBundle rfl).setBundle rfl).putBlock rfl).slotWent rfl
    · exact Stirs.refl.setBundle rfl
  unfold Chip.bundleSettle
  extract_lets d old n new e1 e2 e3
  have hd : d.rd (bunOd b sub) = c.rd (bunOd b sub) := Chip.wr_rd_ne _ _ _ (bunOd_ne h13)
  have h1 : e1.rd (bunOd b sub) = c.rd (bunOd b sub) := (Chip.wr_rd_ne _ _ _ (bunOd_ne h10)).trans hd
  have h2 : e2.rd (bunOd b sub) = c.rd (bunOd b sub) := by
    simp only [e2]
    split
    · exact ((hup e1).rdBundle hb sub hsub).trans h1
    · exact h1
  have h3 : e3.rd (bunOd b sub) = c.rd (bunOd b sub) := by
    simp only [e3]
    split
    · exact ((Stirs.fault (a := .report) .refl).rdBundle hb sub hsub).trans h2
    · exact h2
  split
  · exact (showCredit_rd d hcredit).trans hd
  · exact (showCredit_rd e3 hcredit).trans h3

/-! ### The slots of a row -/

theorem slotsBefore_of_none_open {c : Chip} {b : Nat} (vl : Nat) (h : (c.bundle b).tx = []) :
    Chip.slotsBefore b vl (c.bundle b).slotsLeft c = c := by
  unfold Bundle.slotsLeft
  rw [h]
  rfl

/-- The one virtual lane that asks has the slot. -/
theorem slotGrant_of_only {c : Chip} {b : Nat} {vl : Fin 3} {req : Nat → Bool} (h : ∀ v : Fin 3, req v = decide (v = vl)) :
    c.slotGrant b req = some vl.val := by
  have hreq : (List.range 3).filter req = [vl.val] := by
    have h0 := h 0
    have h1 := h 1
    have h2 := h 2
    simp only [Fin.val_zero, Fin.val_one, Fin.val_two] at h0 h1 h2
    rw [show List.range 3 = [0, 1, 2] from rfl, List.filter_cons, List.filter_cons, List.filter_cons, h0, h1, h2]
    fin_cases vl <;> rfl
  unfold Chip.slotGrant arbitrate
  rw [hreq]
  rfl

theorem lt_of_streamLane {c : Chip} {b k : Nat} (h : c.streamLane b = some k) : k < 512 := by
  have hmem : k ∈ c.streamLanes b := by
    unfold Chip.streamLane at h
    dsimp only at h
    cases hrow : (c.streamLanes b)[(c.bundle b).col]? with
    | some j =>
      rw [hrow] at h
      cases h
      exact List.mem_of_getElem? hrow
    | none =>
      rw [hrow] at h
      exact List.mem_of_head? h
  unfold Chip.streamLanes Chip.orderedLanes at hmem
  exact lt_of_mem_bundleLanes ((List.mem_insertionSort _).1 (List.mem_filter.1 hmem).1)

/-- A block goes out on the lane whose slot it is. -/
theorem putBlock_out {c : Chip} {b k : Nat} (block : Nat → Sent) (hlane : c.streamLane b = some k) (ht : c.transmits k = true) :
    ∃ out, (c.putBlock b block).out = block k :: out := by
  unfold Chip.putBlock
  rw [hlane]
  extract_lets c1 x c2
  have h1 : Stirs .blocks c c1 := by
    simp only [c1]
    split
    · exact Stirs.refl.rowEnds rfl
    · exact .refl
  have h2 : c2.transmits k = true := (transmits_of_stirs (h1.setBundle rfl) (lt_of_streamLane hlane)).trans ht
  dsimp only
  rw [if_pos h2]
  exact ⟨_, rfl⟩

/-! ### The start of a frame -/

@[simp] theorem bump_out (c : Chip) (k n : Nat) : (c.bump k n).out = c.out := by
  obtain ⟨o, h⟩ := c.bump_frame k n
  rw [h]

/-- What the start of a frame shows, from what the slots before it have left. -/
theorem startFrame_spec {c : Chip} {b vl : Nat} {f : TxFrame} (hb : b < 256) (hvl : vl < 3) (hf : c.headFrame b vl = some f) :
    let bytes := if f.raw then f.bytes else sealFrame f.bytes ((c.bundle b).seqs.getD vl 0)
    (c.startFrame b vl).out.head? = some (.frame b vl bytes) ∧
    (c.startFrame b vl).rd (bunOd b (0x17 + vl)) = wrapObj (bunOd b (0x17 + vl)) (c.rd (bunOd b (0x17 + vl)) + 1) := by
  intro bytes
  have hseqs : (((Chip.slotsBefore b vl (c.bundle b).slotsLeft c).bundle b).popHead vl).seqs = (c.bundle b).seqs := by
    have h := congrArg Bundle.seqs (Chip.Leaves.slotsBefore (c := c) (b := b) (vl := vl) (m := (c.bundle b).slotsLeft) .refl b)
    unfold Bundle.popHead
    split <;> exact h
  unfold Chip.startFrame
  rw [hf]
  dsimp -zeta only
  extract_lets d x bytes' y sof
  have hbytes : bytes' = bytes := by
    simp only [bytes', bytes]
    rw [show x.seqs = (c.bundle b).seqs from hseqs]
  have hsent : Stirs .blocks c ((((d.setBundle b y).putBlock b fun l => .block l 0x33 sof).slotWent b vl).send (.frame b vl bytes')) :=
    ((((Stirs.refl.slotsBefore rfl).setBundle rfl).putBlock rfl).slotWent rfl).send
  refine ⟨?_, ?_⟩
  · rw [← hbytes]
    exact congrArg List.head? (bump_out ..)
  · rw [showCredit_rd _ (by simp; omega), bump_rd_same, hsent.rdBundle hb _ (by omega)]

/-- With no other frame open, the frame that starts puts its SOF block out first and leaves the rest of itself open. -/
theorem startFrame_alone {c : Chip} {b vl k : Nat} {f : TxFrame} (hf : c.headFrame b vl = some f) (htx : (c.bundle b).tx = [])
    (hlane : c.streamLane b = some k) (ht : c.transmits k = true) :
    let bytes := if f.raw then f.bytes else sealFrame f.bytes ((c.bundle b).seqs.getD vl 0)
    (c.startFrame b vl).out[1]? = some (.block k 0x33 (vl % 4 * 2 ^ 54 + bytes.length % 65536 * 2 ^ 32 + beAt bytes 0 4)) ∧
    ((c.startFrame b vl).bundle b).tx = [⟨vl, bytes.drop 4⟩] ∧ ((c.startFrame b vl).bundle b).txSel = some vl := by
  intro bytes
  have hpop : ((c.bundle b).popHead vl).seqs = (c.bundle b).seqs ∧ ((c.bundle b).popHead vl).tx = [] ∧
      ((c.bundle b).popHead vl).col = (c.bundle b).col := by
    unfold Bundle.popHead
    split <;> exact ⟨rfl, htx, rfl⟩
  obtain ⟨hseqs, hopen, hcol⟩ := hpop
  unfold Chip.startFrame
  rw [hf]
  dsimp -zeta only
  extract_lets d x bytes' y sof
  have hd : d = c := slotsBefore_of_none_open vl htx
  clear_value d
  subst hd
  have hbytes : bytes' = bytes := by
    simp only [bytes', bytes]
    rw [show x.seqs = (d.bundle b).seqs from hseqs]
  have hset : (d.setBundle b y).bundle b = y := Chip.setBundle_same ..
  have hlane' : (d.setBundle b y).streamLane b = some k := by
    unfold Chip.streamLane
    rw [hset, show y.col = (d.bundle b).col from hcol]
    exact hlane
  obtain ⟨out, hout⟩ := putBlock_out (fun l => .block l 0x33 sof) hlane' ht
  have hkept := (Chip.Leaves.putBlock (c := d.setBundle b y) (b := b) (block := fun l => .block l 0x33 sof) .refl).slotWent (b := b) (vl := vl) b
  rw [hset] at hkept
  rw [← hbytes]
  refine ⟨?_, ?_, ?_⟩
  · refine (congrArg (·[1]?) (bump_out ..)).trans ?_
    exact (congrArg (·[0]?) hout :)
  · refine (congrArg Bundle.tx (bump_bundle ..)).trans ?_
    refine (congrArg Bundle.tx hkept :).trans ?_
    change _ :: List.filter _ ((d.bundle b).popHead vl).tx = _
    rw [hopen]
    rfl
  · refine (congrArg Bundle.txSel (bump_bundle ..)).trans ?_
    exact (congrArg Bundle.txSel hkept :)

/-- A bundle's totals go out on its next lane. -/
theorem sendCredit_spec {c : Chip} {b k : Nat} (hlane : c.streamLane b = some k) (ht : c.transmits k = true) :
    (c.sendCredit b).out.head? = some (.block k 0x2D (creditBody (c.bundle b).granted)) ∧
    ((c.sendCredit b).bundle b).sent = (c.bundle b).granted := by
  unfold Chip.sendCredit
  extract_lets x
  have hset : (c.setBundle b { x with sent := x.granted }).bundle b = { x with sent := x.granted } := Chip.setBundle_same ..
  have hlane' : (c.setBundle b { x with sent := x.granted }).streamLane b = some k := by
    unfold Chip.streamLane
    rw [hset]
    exact hlane
  obtain ⟨out, hout⟩ := putBlock_out (fun l => .block l 0x2D (creditBody x.granted)) hlane' ht
  have hkept := (Chip.Leaves.putBlock (c := c.setBundle b { x with sent := x.granted }) (b := b)
    (block := fun l => .block l 0x2D (creditBody x.granted)) .refl).slotWent (b := b) (vl := 3) b
  rw [hset] at hkept
  exact ⟨(congrArg List.head? hout :), (congrArg Bundle.sent hkept :)⟩

theorem sends_rd {α : Type} (c : Chip) (f : α → Sent) (l : List α) (k : Nat) : (l.foldl (fun a m => a.send (f m)) c).rd k = c.rd k := by
  induction l generalizing c with
  | nil => rfl
  | cons m l ih => exact (ih _).trans rfl

/-- A marker period puts the announced masks in force. -/
theorem execMarkerPeriodStart_masks {s : State} {b : Fin 256} (hon : s.dev.chip.bundleOn b = true) : ∃ c : Chip,
    execMarkerPeriodStart b s = ok s c ∧ c.rd (bunOd b 0x11) = (s.dev.chip.bundle b).txNext ∧ c.rd (bunOd b 0x12) = (s.dev.chip.bundle b).rxNext := by
  unfold execMarkerPeriodStart
  extract_lets b' c0 c x lanes changed c1 m next mark c2 c3
  have hx : x.still = (c0.bundle b).still := by
    simp only [x, c]
    split
    · exact Chip.Leaves.rowsOut .refl _
    · rfl
  have h3 (k : Nat) : c3.rd k = c1.rd k := (sends_rd ..).trans ((sends_rd ..).trans (sends_rd ..))
  rw [if_neg (by simp [c0, b', hon])]
  refine ⟨_, rfl, ?_, ?_⟩
  · rw [bundleSettle_rd c3 b.isLt (by decide), h3, bump_rd_ne _ _ (bunOd_ne (by decide)), Chip.wr_rd_ne _ _ _ (bunOd_ne (by decide))]
    exact (Chip.wr_rd_same ..).trans (congrArg Bundle.txNext hx :)
  · rw [bundleSettle_rd c3 b.isLt (by decide), h3, bump_rd_ne _ _ (bunOd_ne (by decide))]
    exact (Chip.wr_rd_same ..).trans (congrArg Bundle.rxNext hx :)

theorem popHead_still (x : Bundle) (vl : Nat) : x.still.popHead vl = (x.popHead vl).still := by
  unfold Bundle.popHead
  split <;> rfl

/-- A frame that waits too long for credit is discarded and counted. -/
theorem execCreditTimeout_discards {s : State} {b : Fin 256} {vl : Fin 3} {f : TxFrame} (hf : s.dev.chip.headFrame b vl = some f)
    (hcarr : s.dev.chip.carries b = true) (hcred : s.dev.chip.credited b = true) (hmay : s.dev.chip.mayStart b vl = false) : ∃ c : Chip,
    execCreditTimeout b vl s = ok s c ∧ (c.bundle b).control = ((s.dev.chip.bundle b).popHead vl).control ∧
    (c.bundle b).pegs = ((s.dev.chip.bundle b).popHead vl).pegs ∧ (c.bundle b).samples = ((s.dev.chip.bundle b).popHead vl).samples ∧
    c.rd (od 0x2C00 0x1B) = wrapObj (od 0x2C00 0x1B) (s.dev.chip.rd (od 0x2C00 0x1B) + 1) := by
  unfold execCreditTimeout
  extract_lets b' c0 c x due c1 c2
  have htime : Stirs .waiting c0 c := Stirs.refl.untilLc (by decide)
  have hlinks : Chip.Leaves Bundle.still c0 c := Chip.Leaves.refl.untilLc
  have hx : x.control = ((c0.bundle b).popHead vl).control ∧ x.pegs = ((c0.bundle b).popHead vl).pegs ∧
      x.samples = ((c0.bundle b).popHead vl).samples := by
    have h : x.still = ((c0.bundle b).popHead vl).still := by
      refine (popHead_still _ _).symm.trans ?_
      rw [hlinks b', popHead_still]
    exact ⟨(congrArg Bundle.control h :), (congrArg Bundle.pegs h :), (congrArg Bundle.samples h :)⟩
  have h1 : (c1.bundle b).control = x.control ∧ (c1.bundle b).pegs = x.pegs ∧ (c1.bundle b).samples = x.samples := by
    rw [Chip.setBundle_same]
    exact ⟨rfl, rfl, rfl⟩
  have h2 : c2.bundle b = c1.bundle b ∧ c2.rd (od 0x2C00 0x1B) = c0.rd (od 0x2C00 0x1B) := by
    have hrd : c1.rd (od 0x2C00 0x1B) = c0.rd (od 0x2C00 0x1B) := htime.rd _ (by decide)
    simp only [c2]
    split
    · refine ⟨bump_bundle .., (bump_rd_ne _ _ ?_).trans hrd⟩
      unfold peerOd od
      omega
    · exact ⟨rfl, hrd⟩
  rw [← h2.1, hx.1, hx.2.1, hx.2.2] at h1
  obtain ⟨hcontrol, hpegs, hsamples⟩ := h1
  rw [hf, hcarr, hcred, hmay, if_neg (by exact Bool.false_ne_true)]
  refine ⟨_, rfl, ?_⟩
  have hcount : (c2.bump (od 0x2C00 0x1B) 1).rd (od 0x2C00 0x1B) = wrapObj (od 0x2C00 0x1B) (c0.rd (od 0x2C00 0x1B) + 1) := by
    rw [bump_rd_same, h2.2]
  split
  · have hfault {e : Chip} {object old new detail : Nat} : Stirs .report e (e.fault .note .counted object old new detail) := Stirs.refl.fault
    unfold Chip.countFault
    rw [hfault.bundle, hfault.rd _ (by decide), bump_bundle]
    exact ⟨hcontrol, hpegs, hsamples, hcount⟩
  · rw [bump_bundle]
    exact ⟨hcontrol, hpegs, hsamples, hcount⟩

end Sys2Proof.Machine

namespace Sys2Proof
open Machine

theorem descramble_scramble (msg state : List Bool) : descramble state (scramble state msg) = msg := by
  induction msg generalizing state with
  | nil => rfl
  | cons b t ih =>
    unfold scramble
    dsimp only
    unfold descramble
    rw [ih]
    cases b <;> cases state.getD 38 false <;> cases state.getD 57 false <;> rfl

/-- Settles O42. -/
theorem framesAndMarkers : Obligations.FramesAndMarkers := by
  unfold Obligations.FramesAndMarkers
  refine ⟨fun s b vl k f => ?_, fun s b vl k f state msg => ?_⟩
  · intro c x key starts
    have hstarts {i : Instr} {v : Nat} (hv : v < 3) (hf : c.headFrame b v = some f) (h : exec i s = ok s (c.startFrame b v)) : starts i v := by
      obtain ⟨hout, hcount⟩ := startFrame_spec b.isLt hv hf
      exact runs_ok h ⟨hout, hcount, rfl, rfl⟩
    refine ⟨fun hon => ?_, fun hcred hcarr hlane ht => ?_, fun hf honly => ?_, fun hf hgrant => ?_, fun hgrant => ?_,
      fun hf hcarr hcred hmay => ?_⟩
    · obtain ⟨c', hexec, htx, hrx⟩ := execMarkerPeriodStart_masks hon
      exact runs_ok hexec ⟨htx, hrx, rfl, rfl⟩
    · obtain ⟨hout, hsent⟩ := sendCredit_spec hlane ht
      exact runs_ok (if_pos (by rw [hcred, hcarr]; rfl)) ⟨hout, hsent, rfl, rfl⟩
    · refine hstarts vl.isLt hf ?_
      change execFrameStart b s = _
      unfold execFrameStart
      dsimp only
      rw [slotGrant_of_only honly]
    · exact hstarts (by decide) hf (if_pos hgrant)
    · exact if_neg hgrant
    · obtain ⟨c', hexec, hcontrol, hpegs, hsamples, hcount⟩ := execCreditTimeout_discards hf hcarr hcred hmay
      exact runs_ok hexec ⟨hcontrol, hpegs, hsamples, hcount, rfl, rfl⟩
  · intro c x bytes
    refine ⟨fun hf honly htx hlane ht => ?_, descramble_scramble msg state⟩
    obtain ⟨hout, hopen, hsel⟩ := startFrame_alone hf htx hlane ht
    refine runs_ok (c := c.startFrame b vl) ?_ ⟨hout, hopen, hsel⟩
    change execFrameStart b s = _
    unfold execFrameStart
    dsimp only
    rw [slotGrant_of_only honly]

end Sys2Proof
end

section
/-! SUPPORT. Time views, pairs and PPS (R350-R357). -/

namespace Sys2Proof.Machine

open Chip (Stirs)

theorem toI_ofI {x : Int} (h : -(2 ^ 63) ≤ x) (h' : x < 2 ^ 63) : toI (ofI x 64) 64 = x := by
  unfold toI ofI
  dsimp only
  split_ifs <;> omega

@[simp] theorem setView_same (c : Chip) (v : Fin 4) (w : TimeView) : (c.setView v w).time.views[v] = w := by
  simp [Chip.setView]

theorem viewStatusChanged_stirs (c : Chip) (v : Fin 4) : Stirs .refClock c (c.viewStatusChanged v) := by
  unfold Chip.viewStatusChanged
  split
  · exact (Stirs.refl.settleCand (by decide)).selectRef (by decide)
  · exact .refl

/-- What the servo gives a view (R352). -/
theorem servo_view (c : Chip) (v : Fin 4) (offset : Int) (rate : BitVec 64) : ((c.servo v offset rate).time.views[v]) =
    { c.time.views[v] with offset := offset, rate := rate, written := some c.lc, estimated := false, expired := false } := by
  unfold Chip.servo
  extract_lets t w c1
  rw [(viewStatusChanged_stirs _ v).timeBlock]
  split
  · exact setView_same ..
  · exact setView_same ..

theorem servo_rd (c : Chip) (v : Fin 4) (offset : Int) (rate : BitVec 64) {k : Nat} (hk : 2 < stirLevel k) :
    (c.servo v offset rate).rd k = c.rd k := by
  unfold Chip.servo
  extract_lets t w c1
  rw [(viewStatusChanged_stirs _ v).rd k hk]
  split <;> rfl

/-- A write of a view that the servo takes, answered. -/
theorem runs_servo {i : Instr} {s : State} {sess : Fin 9} {v : Fin 4} {k : Nat} {x : Val} {act : Chip → Chip × Status} {c : Chip}
    {offset : Int} {rate : BitVec 64} (hi : exec i s = ok s (s.dev.chip.request sess k x act)) (ha : s.accepts sess k x)
    (hact : act s.dev.chip = (c.servo v offset rate, .ok)) (hlc : c.lc = s.dev.chip.lc) : Runs i s fun t =>
    (t.dev.chip.time.views[v]).offset = offset ∧ (t.dev.chip.time.views[v]).rate = rate ∧
    (t.dev.chip.time.views[v]).written = some s.dev.chip.lc ∧ t.answered sess k .ok ∧ t.coresAndMemoryOf s := by
  refine runs_request hi ha hact ?_
  dsimp only
  rw [(stirs_answer ..).timeBlock, servo_view, hlc]
  exact ⟨rfl, rfl, rfl, answer_head .., rfl, rfl⟩

/-! ### A cycle of the time clock -/

theorem step_of_idle {s : State} (h : s.pending = []) : step s = .next { s with dev := idleCycle s.dev } := by
  unfold step
  rw [h]

theorem xoEdge_lc (c : Chip) : c.xoEdge.lc = c.lc := by
  unfold Chip.xoEdge
  extract_lets c1 c2
  split
  · rfl
  · simp only [c2]
    split <;> rfl

theorem idleCycle_lc {d : Dev} (hruns : d.chip.timeRuns = true) (hxo : d.chip.xoStands = false) : (idleCycle d).chip.lc = d.chip.lc + 1 := by
  unfold idleCycle
  extract_lets c _ c1
  rw [show c.xoStands = false from hxo, show c.timeRuns = true from hruns, if_neg (by decide), if_neg (by decide)]
  have h1 : c1.lc = c.lc + 1 := rfl
  change (if c1.lc % 20 = 0 then c1.xoEdge else c1).lc = c.lc + 1
  split
  · exact (xoEdge_lc c1).trans h1
  · exact h1

theorem idleCycle_coresAndMemory (s : State) : ({ s with dev := idleCycle s.dev } : State).coresAndMemoryOf s := by
  unfold idleCycle
  extract_lets
  split
  · exact ⟨rfl, rfl⟩
  split
  · exact ⟨rfl, rfl⟩
  · exact ⟨rfl, rfl⟩

/-! ### Pairs, PPS and PTP -/

@[simp] theorem bump_rdDom (c : Chip) (k n j : Nat) : (c.bump k n).rdDom j = c.rdDom j := by
  obtain ⟨o, h⟩ := c.bump_frame k n
  rw [h]
  rfl

@[simp] theorem bump_time (c : Chip) (k n : Nat) : (c.bump k n).time = c.time := by
  obtain ⟨o, h⟩ := c.bump_frame k n
  rw [h]

/-- The entry that a pair writes, and its count (R353). -/
theorem pair_spec (c : Chip) (tick frac kind : Nat) :
    let n := c.rd (od 0x4C00 0x10)
    (c.pair tick frac kind).rdDom (od 0x4C40 (n % 64 + 1)) =
      beBytes 8 tick ++ (beBytes 8 c.lc ++ (beBytes 2 frac ++ (beBytes 1 kind ++ (beBytes 1 0 ++ beBytes 4 n)))) ∧
    (c.pair tick frac kind).rd (od 0x4C00 0x10) = wrapObj (od 0x4C00 0x10) (n + 1) ∧ (c.pair tick frac kind).time = c.time :=
  ⟨(bump_rdDom ..).trans (Chip.wrDom_rdDom_same ..), bump_rd_same _ _, bump_time ..⟩

theorem execPairEntry_armed {s : State} {u : Nat} (harm : s.dev.chip.time.armed = some u) (hu : u ≤ s.dev.chip.reached) :
    execPairEntry s = ok s (({ s.dev.chip with time := { s.dev.chip.time with armed := none } } : Chip).pair u 0 2) := by
  unfold execPairEntry
  dsimp only
  rw [harm]
  dsimp only
  rw [if_pos (by simp [hu])]

theorem armPair_later {c : Chip} {t : Nat} (hpass : c.frontPassed t = false) (ht : c.reached < t) :
    c.armPair t = ({ c with time := { c.time with armed := some t } }, .ok) := by
  unfold Chip.armPair
  rw [hpass, if_neg (by decide), if_neg (by omega)]

theorem armPair_late {c : Chip} {t : Nat} (hpass : c.frontPassed t = true) : c.armPair t = (c, .late) := by
  unfold Chip.armPair
  rw [hpass, if_pos rfl]

/-- A PTP frame taken into a ring entry that is free. -/
theorem ptpIn_free {d : Dev} {port lc frac : Nat} {frame m : List Byte}
    (hfree : bitAt (byteAt d.mem.sram (d.chip.rd (od 0x4C30 1) + d.chip.time.ptpRx % 256 * 512 + 1)).toNat 7 = false) :
    (d.ptpIn port frame m lc frac).chip.time.ptpRx = (d.chip.time.ptpRx + 1) % 2 ^ 32 ∧ (d.ptpIn port frame m lc frac).cores = d.cores ∧
      (d.ptpIn port frame m lc frac).mem.hbm = d.mem.hbm := by
  unfold Dev.ptpIn
  dsimp only
  rw [hfree, if_neg (by decide)]
  exact ⟨rfl, rfl, rfl⟩

theorem writeSram_cores (d : Dev) (a : Nat) (b : List Byte) : (d.writeSram a b).cores = d.cores := rfl

theorem writeSram_hbm (d : Dev) (a : Nat) (b : List Byte) : (d.writeSram a b).mem.hbm = d.mem.hbm := rfl

/-- A frame prepared for the port is taken. -/
theorem execPtpTransmit_prepared {s : State} {port : Fin 9} (hawake : s.dev.chip.awake = true)
    (hown : bitAt (beAt (s.dev.readSram (s.dev.chip.rd (od 0x4C30 2) + s.dev.chip.time.ptpTx % 64 * 512) 32) 1 1) 7 = true)
    (hport : beAt (s.dev.readSram (s.dev.chip.rd (od 0x4C30 2) + s.dev.chip.time.ptpTx % 64 * 512) 32) 0 1 / 16 = port.val) (lc frac : Nat) :
    ∃ d, execPtpTransmit port lc frac s = done s d ∧ d.chip.time.ptpTx = (s.dev.chip.time.ptpTx + 1) % 2 ^ 32 ∧ d.cores = s.dev.cores ∧
      d.mem.hbm = s.dev.mem.hbm := by
  have hdef := Eq.refl @execPtpTransmit
  conv at hdef => rhs; delta execPtpTransmit
  generalize hr : execPtpTransmit port lc frac s = r
  rw [hdef] at hr
  beta_reduce at hr
  extract_lets d c n a h len frame event corr d1 c1 at hr
  have hwaits : ¬ (!c.awake || !bitAt (beAt h 1 1) 7 || decide (beAt h 0 1 / 16 ≠ port.val)) = true := by
    rw [show c.awake = true from hawake, show bitAt (beAt h 1 1) 7 = true from hown, show beAt h 0 1 / 16 = port.val from hport]
    simp
  have hcores : d1.cores = s.dev.cores := writeSram_cores ..
  have hhbm : d1.mem.hbm = s.dev.mem.hbm := writeSram_hbm ..
  clear_value d1 c1 event
  rw [if_neg hwaits] at hr
  exact ⟨_, hr.symm, rfl, hcores, hhbm⟩

end Sys2Proof.Machine

namespace Sys2Proof
open Machine

/-- Settles O37. -/
theorem timeViews : Obligations.TimeViews := by
  unfold Obligations.TimeViews
  intro s sess v rate step data ns c w key written set offset
  refine ⟨fun hp hruns hxo => ?_, fun ha hrate hv => ?_, fun hlo hhi ha hbar => ?_, fun ha hlen hrate hbar => ?_, fun ha => ?_, fun hst => ?_,
    fun hserves hopen => ?_⟩
  · refine ⟨_, step_of_idle hp, hp, idleCycle_lc hruns hxo, ?_⟩
    exact idleCycle_coresAndMemory s
  · have hservo : c.viewRate v rate = (c.servo v (w.offset + ((w.rate.toNat : Int) - rate.toNat) * c.lc) rate, .ok) := by
      unfold Chip.viewRate
      rw [hrate, if_neg (by decide)]
      refine if_neg ?_
      simp only [Bool.and_eq_true, decide_eq_true_eq, beq_iff_eq]
      tauto
    obtain ⟨t, ht, hp, hoff, hrate', hwritten⟩ := runs_servo (i := .viewRateWrite sess v rate) (act := fun c => c.viewRate v rate) (c := c) rfl ha hservo rfl
    refine ⟨t, ht, hp, ⟨hoff, hrate', hwritten⟩, ?_⟩
    unfold TimeView.exact
    rw [hoff, hrate']
    ring
  · refine runs_servo (c := c) rfl ha ?_ rfl
    change c.viewStep v (toI (ofI step 64) 64) = _
    rw [toI_ofI hlo hhi]
    exact if_neg (by rw [hbar]; decide)
  · refine runs_servo (c := c) rfl ha ?_ rfl
    unfold Chip.viewSet
    rw [if_neg (by simpa using hlen)]
    dsimp only
    rw [show rateOk (BitVec.ofNat 64 (beAt data 12 8)) = true from hrate, if_neg (by decide)]
    exact if_neg (by rw [show c.stepBarred v _ = false from hbar]; decide)
  · have hservo : c.viewUncertainty v ns.toNat = ((c.wr (viewOd v 7) ns.toNat).servo v w.offset w.rate, .ok) := rfl
    have hkey : 2 < stirLevel (viewOd v 7) := by
      unfold viewOd stirLevel
      rw [keyIndex_od (by decide), keySub_od (by decide)]
      dsimp only
      split_ifs <;> omega
    refine runs_request (i := .viewUncertaintyWrite sess v ns) (act := fun c => c.viewUncertainty v ns.toNat) rfl ha hservo ⟨?_, ?_⟩
    · dsimp only [written]
      rw [(stirs_answer ..).timeBlock, servo_view]
      exact ⟨rfl, rfl, rfl, answer_head .., rfl, rfl⟩
    · dsimp only
      exact ((stirs_answer ..).rd _ (Nat.lt_trans (by decide) hkey)).trans ((servo_rd _ _ _ _ hkey).trans (Chip.wr_rd_same ..))
  · refine runs_ok (if_pos hst) ?_
    dsimp only
    refine ⟨?_, rfl, rfl⟩
    rw [(viewStatusChanged_stirs _ v).timeBlock, setView_same]
  · refine runs_ok (c := ((c.readTime v).2.answer sess (viewOd v 1) .ok).send (.value sess (viewOd v 1) (beBytes 8 (c.readTime v).1))) ?_
      ⟨rfl, ?_, rfl, rfl⟩
    · change execTimeReadLatch sess v s = _
      unfold execTimeReadLatch
      dsimp only
      rw [hserves, hopen]
      rfl
    · dsimp only
      rw [Chip.send_time, (stirs_answer ..).timeBlock]
      exact congrArg TimeView.latch (setView_same ..)

/-- Settles O38. -/
theorem pairsPpsAndPtp : Obligations.PairsPpsAndPtp := by
  unfold Obligations.PairsPpsAndPtp
  intro s sess tick frac u port frame m lc f c n entry tx
  refine ⟨fun ha hpass ht => ?_, fun ha hpass => ?_, fun harm hu => ?_, ?_, fun hview => ?_, fun hout hview => ?_, fun h => ?_,
    fun hawake hm hfree => ?_, fun hawake hown hport => ?_⟩
  · refine runs_request rfl ha (armPair_later hpass ht) ⟨?_, answer_head .., rfl, rfl⟩
    dsimp only
    rw [(stirs_answer ..).timeBlock]
  · refine runs_request rfl ha (armPair_late hpass) ⟨?_, answer_head .., rfl, rfl⟩
    dsimp only
    rw [(stirs_answer ..).timeBlock]
  · obtain ⟨hentry, hcount, htime⟩ := pair_spec { s.dev.chip with time := { s.dev.chip.time with armed := none } } u 0 2
    refine runs_ok (execPairEntry_armed harm hu) ⟨?_, hentry, hcount, rfl, rfl⟩
    dsimp only
    rw [htime]
  · obtain ⟨hentry, hcount, -⟩ := pair_spec c c.tick (frac % 65536) 3
    exact runs_ok rfl ⟨hentry, hcount, rfl, rfl⟩
  · have hwidth {d : Chip} (h : Chip.Stirs .waiting c d) : d.rd (od 0x4C00 8) = c.rd (od 0x4C00 8) := h.rd _ (by decide)
    refine runs_ok (if_neg hview) ⟨rfl, ?_, rfl, rfl⟩
    dsimp only
    refine congrArg _ (hwidth ?_)
    split
    · exact .refl
    · exact Chip.Stirs.refl.untilLc (by decide)
  · exact runs_ok (if_neg (by simpa [show s.dev.chip.time.ppsOut = true from hout] using hview)) rfl
  · refine runs_ok (if_pos ?_) rfl
    simpa using h
  · refine runs_done (d := s.dev.ptpIn port frame m lc f) ?_ (ptpIn_free hfree)
    change execPtpReceive port frame lc f s = _
    unfold execPtpReceive
    dsimp only
    rw [hm, show s.dev.chip.awake = true from hawake]
    rfl
  · obtain ⟨d, hexec, htx, hcores, hhbm⟩ := execPtpTransmit_prepared (port := port) hawake hown hport lc f
    exact runs_done hexec ⟨htx, hcores, hhbm⟩

end Sys2Proof
end

section
/-! SUPPORT. What reports and replies change, and the power domains (R415-R418). -/

namespace Sys2Proof.Machine

open Chip (Stirs)

/-! ### Reports and replies -/

/-- The chip without what reports and replies touch. -/
def Chip.mute (c : Chip) : Chip :=
  { c with
    obj := [], out := [], dict := { c.dict with ring := [], sessions := State.reset.dev.chip.dict.sessions }
    faults := ⟨[], []⟩, ipend := Vector.replicate 8 0 }

/-- From chip `c` to chip `d` nothing but reports and replies: the objects of the CAN port, of the events and of the faults, what leaves,
the sessions and the pending interrupts. -/
structure Chip.Tells (c d : Chip) : Prop where
  mute : d.mute = c.mute
  rd : ∀ k, keyIndex k ≠ 0x1100 → keyIndex k ≠ 0x1300 → keyIndex k ≠ 0x5800 → d.rd k = c.rd k

namespace Chip.Tells

variable {c d e : Chip}

theorem refl : Tells c c := ⟨rfl, fun _ _ _ _ => rfl⟩

theorem trans (h : Tells c d) (h' : Tells d e) : Tells c e :=
  ⟨h'.mute.trans h.mute, fun k h1 h2 h3 => (h'.rd k h1 h2 h3).trans (h.rd k h1 h2 h3)⟩

theorem lc (h : Tells c d) : d.lc = c.lc := (congrArg Chip.lc h.mute :)
theorem streams (h : Tells c d) : d.streams = c.streams := (congrArg Chip.streams h.mute :)
theorem power (h : Tells c d) : d.power = c.power := (congrArg Chip.power h.mute :)
theorem dom (h : Tells c d) : d.dom = c.dom := (congrArg Chip.dom h.mute :)

theorem stirLevel_pos {k : Nat} (h1 : keyIndex k ≠ 0x1100) (h2 : keyIndex k ≠ 0x1300) (h3 : keyIndex k ≠ 0x5800) : 0 < stirLevel k := by
  unfold stirLevel
  extract_lets i sub
  split_ifs with h <;> omega

/-- A change of the lowest level is no more than a report. -/
theorem of_stirs (h : Stirs .report c d) : Tells c d := by
  refine ⟨?_, fun k h1 h2 h3 => h.rd k (stirLevel_pos h1 h2 h3)⟩
  have hs := h.still
  have hc := h.clock rfl
  have hl := h.links rfl rfl
  have ht := h.time rfl
  cases c
  cases d
  simp only [Chip.still, Chip.mute, Chip.ofClock, Chip.ofLinks, Chip.ofTime, Chip.mk.injEq, Prod.mk.injEq, Dict.mk.injEq] at hs hc hl ht ⊢
  grind

theorem event (h : Tells c d) {type : Nat} {payload : List Byte} : Tells c (d.event type payload) := h.trans (of_stirs Stirs.refl.event)

theorem answer (h : Tells c d) {sess key : Nat} {st : Status} : Tells c (d.answer sess key st) := h.trans (of_stirs Stirs.refl.answer)

theorem wr (h : Tells c d) {k v : Nat} (hk : keyIndex k = 0x1100 ∨ keyIndex k = 0x1300 ∨ keyIndex k = 0x5800) : Tells c (d.wr k v) :=
  h.trans ⟨rfl, fun j h1 h2 h3 => Chip.wr_rd_ne d k v (by rintro rfl; omega)⟩

theorem bump (h : Tells c d) {k n : Nat} (hk : keyIndex k = 0x1100 ∨ keyIndex k = 0x1300 ∨ keyIndex k = 0x5800) : Tells c (d.bump k n) := by
  unfold Chip.bump
  split
  · exact h
  · exact h.wr hk

theorem send (h : Tells c d) {x : Sent} : Tells c (d.send x) := h.trans (of_stirs Stirs.refl.send)

theorem bdpOut (h : Tells c d) {op sess : Nat} {x : Bdp} {dg : List Byte} : Tells c (d.bdpOut op sess x dg) := h.send

theorem bdpReply (h : Tells c d) {op sess : Nat} {x : Bdp} {more : Bool} {st : Status} {body : List Byte} :
    Tells c (d.bdpReply op sess x more st body) := by
  unfold Chip.bdpReply
  extract_lets dg y c1
  have h1 : Tells c c1 := h.trans ⟨rfl, fun _ _ _ _ => rfl⟩
  split
  · generalize y.repeats = l, c1.bdpOut op sess x dg = c2, h1.bdpOut (op := op) (sess := sess) (x := x) (dg := dg) = h2
    induction l generalizing c2 with
    | nil => exact h2
    | cons r l ih => exact ih _ h2.bdpOut
  · exact h.bdpOut

theorem reply (h : Tells c d) {a : Asker} {st : Status} : Tells c (d.reply a st) := by
  unfold Chip.reply
  split
  · exact h
  · exact h.answer
  · exact h.bdpReply
  · extract_lets c1
    have h1 : Tells c c1 := h.wr (.inl rfl)
    split
    · exact h1.send.bump (.inl rfl)
    · exact h1.send

end Chip.Tells

theorem powerEvent_tells (c : Chip) (code dom dstate detail : Nat) (st : Status) : Chip.Tells c (c.powerEvent code dom dstate detail st) :=
  Chip.Tells.refl.event

/-- The end of a power request shows its status and replies. -/
theorem powerEnds_tells (c : Chip) (a : Asker) (st : Status) : Chip.Tells (c.wr (powOd 4) st.code) (c.powerEnds a st) :=
  Chip.Tells.refl.reply

theorem ask_act {d : Dev} {sess key : Nat} {v : Val} (h : d.chip.gate false sess key v = .act) (act : Dev → Asker → Dev × Option Status) :
    d.ask sess key v act = { (act d (.plain sess key)).1 with
      chip := (act d (.plain sess key)).1.chip.replyIf (.plain sess key) (act d (.plain sess key)).2 } := by
  unfold Dev.ask
  rw [h]

/-- A request that is carried out, with its status or none yet. -/
theorem runs_ask {i : Instr} {s : State} {sess key : Nat} {v : Val} {act : Dev → Asker → Dev × Option Status} {p : State → Prop}
    (hi : exec i s = done s (s.dev.ask sess key v act)) (ha : s.accepts sess key v) {d : Dev} {st : Option Status}
    (hact : act s.dev (.plain sess key) = (d, st)) (hp : p { s with dev := { d with chip := d.chip.replyIf (.plain sess key) st } }) :
    Runs i s p := by
  refine runs_done hi ?_
  rw [ask_act ha, hact]
  exact hp

/-! ### Power domains -/

theorem foldl_wr_frame (l : List (Nat × Nat)) (c : Chip) : ∃ o, l.foldl (fun a e => a.wr e.1 e.2) c = { c with obj := o } := by
  induction l generalizing c with
  | nil => exact ⟨c.obj, rfl⟩
  | cons e l ih => exact ih (c.wr e.1 e.2)

theorem foldl_wr_rd {l : List (Nat × Nat)} {k : Nat} (hk : ∀ e ∈ l, k ≠ e.1) (c : Chip) : (l.foldl (fun a e => a.wr e.1 e.2) c).rd k = c.rd k := by
  induction l generalizing c with
  | nil => rfl
  | cons e l ih =>
    obtain ⟨he, hl⟩ := List.forall_mem_cons.mp hk
    exact (ih hl _).trans (Chip.wr_rd_ne c e.1 e.2 he)

/-- The load envelope is shown in objects of the galley, the platens, the triggers, the HBM, the ledger, the outputs and the formes. -/
theorem showEnvelope_rd (c : Chip) {k : Nat} (hk : 0x5000 ≤ keyIndex k ∧ keyIndex k < 0x8000) : c.showEnvelope.rd k = c.rd k := by
  unfold Chip.showEnvelope
  extract_lets sets l
  refine foldl_wr_rd (fun e he => ?_) c
  have hi : keyIndex e.1 < 0x5000 ∨ 0x8000 ≤ keyIndex e.1 := by
    rcases List.mem_append.mp he with h | h
    · obtain ⟨f, -, rfl⟩ := List.mem_map.mp h
      exact .inr (by rw [formeOd, keyIndex_od (by decide)]; omega)
    · have : e.1 ∈ [od 0x3000 7, hbmOd 0x0C, hbmOd 0x0D, trigOd 0x0F, trigOd 0x10, trigOd 0x11, od 0x3400 3, od 0x4400 2, od 0x4400 3, od 0x3000 2] :=
        List.mem_map_of_mem (f := Prod.fst) h
      exact .inl ((by decide : ∀ j ∈ [od 0x3000 7, hbmOd 0x0C, hbmOd 0x0D, trigOd 0x0F, trigOd 0x10, trigOd 0x11, od 0x3400 3, od 0x4400 2, od 0x4400 3, od 0x3000 2],
        keyIndex j < 0x5000) _ this)
  rintro rfl
  omega

theorem showEnvelope_frame (c : Chip) : ∃ o, c.showEnvelope = { c with obj := o } := foldl_wr_frame _ c

theorem showEnvelope_power (c : Chip) : c.showEnvelope.power = c.power := by
  obtain ⟨o, ho⟩ := showEnvelope_frame c
  rw [ho]

theorem crossing_power (c : Chip) (items : Nat) : (c.crossing items).power = c.power := by
  obtain ⟨o, ho⟩ := c.bump_frame (od 0x5800 0x18) items
  exact (congrArg Chip.power ho :)

theorem domLost_power (d : Dev) (dom : Nat) : (d.domLost dom).chip.power = d.chip.power := by
  unfold Dev.domLost
  extract_lets
  split_ifs
  · rfl
  · rfl
  · rfl
  · rfl
  · exact crossing_power _ _

theorem domLost_mem (d : Dev) (dom : Nat) : (d.domLost dom).mem = d.mem := by
  unfold Dev.domLost
  extract_lets
  split_ifs <;> rfl

theorem keyIndex_domOd (d : Fin 96) {sub : Nat} (h : sub < 256) : keyIndex (od (0x5100 + d.val) sub) = 0x5100 + d.val := keyIndex_od h

/-- A report or a reply leaves what a domain's objects show. -/
theorem domRd_tells {c c' : Chip} (h : Chip.Tells c c') (d : Fin 96) {sub : Nat} (hs : sub < 256) :
    c'.rd (od (0x5100 + d.val) sub) = c.rd (od (0x5100 + d.val) sub) :=
  h.rd _ (by rw [keyIndex_domOd d hs]; omega) (by rw [keyIndex_domOd d hs]; omega) (by rw [keyIndex_domOd d hs]; omega)

theorem domOd_ne_powOd (d : Fin 96) {sub sub' : Nat} (hs' : sub' < 256) : od (0x5100 + d.val) sub ≠ powOd sub' := by
  unfold powOd od
  omega

/-- The end of a power request leaves what a domain's objects show. -/
theorem domRd_powerEnds (c : Chip) (a : Asker) (st : Status) (d : Fin 96) {sub : Nat} (hs : sub < 256) :
    (c.powerEnds a st).rd (od (0x5100 + d.val) sub) = c.rd (od (0x5100 + d.val) sub) :=
  (domRd_tells (powerEnds_tells c a st) d hs).trans (Chip.wr_rd_ne c (powOd 4) st.code (domOd_ne_powOd d (by decide)))

/-- The settled state of a drain that is done. -/
theorem drainComplete_spec {s : State} {d : Fin 96} {x : Drain} (hx : (s.dev.chip.power.drains.find? fun y => y.dom == d.val) = some x) :
    ∃ e : Dev, execDomainDrainComplete d s = done s e ∧ e.chip.rd (od (0x5100 + d.val) 3) = x.target ∧
      e.chip.power.drains = s.dev.chip.power.drains.filter (fun y => y.dom != d.val) ∧ e.mem = s.dev.mem := by
  unfold execDomainDrainComplete
  extract_lets c
  rw [show (c.power.drains.find? fun y => y.dom == d.val) = some x from hx]
  dsimp -zeta only
  extract_lets d2 c2
  have hp : d2.chip.power.drains = c.power.drains.filter (fun y => y.dom != d.val) := by
    unfold d2
    split
    · exact (congrArg PowerCtl.drains (domLost_power _ _) :)
    · rfl
  have hm : d2.mem = s.dev.mem := by
    unfold d2
    split
    · exact domLost_mem ..
    · rfl
  have hc2 : c2.rd (od (0x5100 + d.val) 3) = x.target := by
    have hk := keyIndex_domOd d (by decide : 3 < 256)
    exact (showEnvelope_rd _ (by omega)).trans ((domRd_tells (powerEvent_tells _ _ _ _ _ _) d (by decide)).trans (Chip.wr_rd_same _ _ _))
  have hc2p : c2.power = d2.chip.power := (showEnvelope_power _).trans (powerEvent_tells _ _ _ _ _ _).power
  clear_value c2 d2
  have ht : (c2.powerEnds x.asker .ok).power = c2.power := (powerEnds_tells c2 x.asker .ok).power
  refine ⟨_, rfl, ?_, ?_, hm⟩
  · exact (domRd_powerEnds c2 x.asker .ok d (by decide)).trans hc2
  · exact (congrArg PowerCtl.drains (ht.trans hc2p) :).trans hp

/-- A request towards a stop starts the drain of a running domain. -/
theorem domainRequest_drain {d : Dev} {dom v : Nat} (a : Asker) (hv : v ≠ 1) (hs : d.chip.domState dom = 1) (ha : domAllows dom v = true)
    (hu : d.usersStopped dom = true) :
    d.domainRequest dom v a = ({ d with chip := (d.chip.wr (domOd dom 2) v).startDrain dom v a }, none) := by
  unfold Dev.domainRequest
  extract_lets c st ends
  have hst : st = 1 := hs
  rw [if_neg hv, if_neg (by simp [ha]), if_neg (by simp [hst]), if_neg (by simp [hst, hu])]

/-- A request for RUN of a stopped domain is answered at once. -/
theorem domainRequest_run {d : Dev} {dom : Nat} (a : Asker) (hs : d.chip.domState dom = 2 ∨ d.chip.domState dom = 3) :
    d.domainRequest dom 1 a = ({ d with chip := (d.chip.wr (domOd dom 2) 1).powerStatus .ok }, some .ok) := by
  unfold Dev.domainRequest
  extract_lets c st ends
  have hst : st = 2 ∨ st = 3 := hs
  rw [if_pos rfl, if_neg (by omega), if_pos (by simpa using hst)]

theorem stirLevel_powOd (sub : Nat) (h : sub < 256) (hne : sub ≠ 0x17) : stirLevel (powOd sub) = 5 := by
  unfold stirLevel powOd
  rw [keyIndex_od h, keySub_od h]
  simp [hne]

theorem domOd_ne_sub {d : Fin 96} {sub sub' : Nat} (hs : sub ≠ sub') : od (0x5100 + d.val) sub ≠ domOd d.val sub' := by
  unfold domOd od
  omega

/-- A drain that is counted shows in the domain and in the power objects, and in no other object. -/
theorem countDrain_spec (c : Chip) (d : Fin 96) : (c.countDrain d.val).rd (od (0x5100 + d.val) 3) = c.rd (od (0x5100 + d.val) 3) ∧
    (c.countDrain d.val).rd (powOd 0x1B) = wrapObj (powOd 0x1B) (c.rd (powOd 0x1B) + 1) ∧ (c.countDrain d.val).lc = c.lc := by
  have h1 : od (0x5100 + d.val) 3 ≠ powOd 0x1B := domOd_ne_powOd d (by decide)
  have h2 : powOd 0x1B ≠ domOd d.val 4 := (domOd_ne_powOd d (by decide)).symm
  unfold Chip.countDrain
  refine ⟨?_, ?_, rfl⟩
  · rw [bump_rd_ne _ _ (domOd_ne_sub (by decide)), bump_rd_ne _ _ h1]
  · rw [bump_rd_ne _ _ h2, bump_rd_same]

/-- A drain that times out, at the chip that the time clock then left, leaves the domain running, and counts. -/
theorem drainTimeout_spec {s : State} {d : Fin 96} {x : Drain} {c0 : Chip} (h5 : s.dev.chip.domState d.val = 5)
    (hx : (s.dev.chip.power.drains.find? fun y => y.dom == d.val) = some x) (hc : s.dev.chip.untilLc (s.dev.chip.drainLimit x.since) = c0) :
    ∃ c : Chip, execDrainTimeout d s = ok s c ∧ c.rd (od (0x5100 + d.val) 3) = 1 ∧
      c.rd (powOd 0x1B) = wrapObj (powOd 0x1B) (c0.rd (powOd 0x1B) + 1) ∧ c.lc = c0.lc := by
  unfold execDrainTimeout
  extract_lets c
  rw [if_neg (not_not.mpr h5), show (c.power.drains.find? fun y => y.dom == d.val) = some x from hx]
  dsimp -zeta only
  rw [show c.untilLc (c.drainLimit x.since) = c0 from hc]
  extract_lets c1 _ c2 c3
  obtain ⟨hs3, hsn, hslc⟩ := countDrain_spec ((c2.domTo d.val 1).wr (domOd d.val 2) 1) d
  have hev : Chip.Tells _ c3 := powerEvent_tells ..
  have hlc : c3.lc = c0.lc := hev.lc.trans hslc
  have hend := powerEnds_tells c3 x.asker .drainTimeout
  have hk : keyIndex (powOd 0x1B) = 0x5000 := keyIndex_od (by decide)
  have hne (sub : Nat) : powOd 0x1B ≠ domOd d.val sub := (domOd_ne_powOd d (by decide)).symm
  refine ⟨_, rfl, ?_, ?_, hend.lc.trans hlc⟩
  · rw [domRd_powerEnds _ _ _ _ (by decide), domRd_tells hev d (by decide), hs3, Chip.wr_rd_ne _ _ _ (domOd_ne_sub (by decide))]
    exact Chip.wr_rd_same ..
  · rw [hend.rd _ (by rw [hk]; decide) (by rw [hk]; decide) (by rw [hk]; decide), Chip.wr_rd_ne _ _ _ (by decide),
      hev.rd _ (by rw [hk]; decide) (by rw [hk]; decide) (by rw [hk]; decide), hsn,
      Chip.wr_rd_ne _ _ _ (hne 2), Chip.domTo, Chip.wr_rd_ne _ _ _ (hne 3)]
    rfl

end Sys2Proof.Machine
end

section
/-! SUPPORT. The obligations about the power domains. -/

namespace Sys2Proof
open Machine

/-- Settles O33: each command goes through one branch of the domain's state machine, and reports and replies leave the domain's objects. -/
theorem powerDomains : Obligations.PowerDomains := by
  intro s sess d v x c state
  refine ⟨?_, ?_, ?_, ?_, ?_⟩
  · intro hacc hv hst hallow husers
    have hv' : v.toNat ≠ 1 := fun h => hv (BitVec.eq_of_toNat_eq h)
    refine runs_ask (i := .domainStateRequest sess d v) rfl hacc (domainRequest_drain _ hv' hst hallow husers) ?_
    exact ⟨Chip.wr_rd_same .., rfl, rfl, rfl⟩
  · intro hacc hst
    refine runs_ask (i := .domainStateRequest sess d 1) rfl hacc (domainRequest_run _ hst) ?_
    refine ⟨?_, answer_head .., rfl, rfl⟩
    exact (domRd_tells (Chip.Tells.refl.reply) d (by decide)).trans
      ((Chip.wr_rd_ne _ _ _ (domOd_ne_powOd d (by decide))).trans (Chip.wr_rd_same ..))
  · intro hx
    obtain ⟨e, he, hst, hdrains, hmem⟩ := drainComplete_spec hx
    exact runs_done he ⟨hst, hdrains, hmem⟩
  · intro h5 hx
    obtain ⟨e, he, hst, hcount, hlc⟩ := drainTimeout_spec h5 hx rfl
    exact runs_ok he ⟨hst, hcount, hlc, rfl, rfl⟩
  · intro hst hrun
    refine runs_ok (c := (c.domTo d.val 1).powerEvent 6 d.val 1 0 .ok) ?_ ⟨?_, rfl, rfl⟩
    · exact if_pos (by have := And.intro hst hrun; simpa [domOd] using this)
    · exact (domRd_tells (powerEvent_tells ..) d (by decide)).trans (Chip.wr_rd_same ..)

end Sys2Proof
end

section
/-! SUPPORT. SLEEP, operating points and regulators (R419-R428). -/

namespace Sys2Proof.Machine

open Chip (Stirs)

/-! ### Domains that move together -/

/-- Moves of domains show in the domains' own objects only. -/
theorem foldl_domTo {α : Type} (i v : α → Nat) (l : List α) (c : Chip) :
    ∃ o, l.foldl (fun a e => a.domTo (i e) (v e)) c = { c with obj := o } ∧
      ∀ sub < 256, Chip.rd { c with obj := o } (powOd sub) = c.rd (powOd sub) := by
  induction l generalizing c with
  | nil => exact ⟨c.obj, rfl, fun _ _ => rfl⟩
  | cons e l ih =>
    obtain ⟨o, ho, hrd⟩ := ih (c.domTo (i e) (v e))
    refine ⟨o, ho, fun sub hs => (hrd sub hs).trans (Chip.wr_rd_ne c _ _ ?_)⟩
    unfold powOd domOd od
    omega

/-- A report leaves what the power objects show. -/
theorem powRd_tells {c c' : Chip} (h : Chip.Tells c c') {sub : Nat} (hs : sub < 256) : c'.rd (powOd sub) = c.rd (powOd sub) := by
  have hk : keyIndex (powOd sub) = 0x5000 := keyIndex_od hs
  exact h.rd _ (by omega) (by omega) (by omega)

theorem powRd_powerEnds (c : Chip) (a : Asker) (st : Status) {sub : Nat} (hs : sub < 256) (h : sub ≠ 4) :
    (c.powerEnds a st).rd (powOd sub) = c.rd (powOd sub) := by
  have hne : powOd sub ≠ powOd 4 := by
    unfold powOd od
    omega
  exact (powRd_tells (powerEnds_tells c a st) hs).trans (Chip.wr_rd_ne c _ _ hne)

theorem powerEnds_power (c : Chip) (a : Asker) (st : Status) : (c.powerEnds a st).power = c.power := (powerEnds_tells c a st).power

theorem powOd_ne {sub sub' : Nat} (h : sub ≠ sub') : powOd sub ≠ powOd sub' := by
  unfold powOd od
  omega

/-! ### SLEEP -/

theorem latchWake_spec {c : Chip} {x : SleepCtl} {bit : Nat} (hx : c.power.sleep = some x) (hd : c.device = 1 ∨ c.device = 2)
    (hb : bitAt (c.rd (powOd 6)) bit = true) : (c.latchWake bit).power.sleep = some { x with latched := x.latched ||| 2 ^ bit } := by
  unfold Chip.latchWake
  rw [hx]
  dsimp only
  rw [if_pos (by simpa [hb] using hd)]

theorem untilXo_sleep (c : Chip) (n : Nat) : (c.untilXo n).power.sleep = c.power.sleep := by
  unfold Chip.untilXo
  split_ifs
  · rfl
  · have h : Stirs .waiting c (c.untilLc ((c.lc / 20 + (n - c.xo)) * 20)) := Stirs.refl.untilLc (by decide)
    exact (congrArg (fun d : Chip => d.power.sleep) h.still :)
  · rfl

theorem untilXo_rd (c : Chip) (n : Nat) {k : Nat} (hk : 1 < stirLevel k) : (c.untilXo n).rd k = c.rd k := by
  unfold Chip.untilXo
  split_ifs
  · rfl
  · exact (Stirs.refl.untilLc (by decide) : Stirs .waiting c (c.untilLc ((c.lc / 20 + (n - c.xo)) * 20))).rd k hk
  · rfl

/-- The wake timer latches its source in the chip that the XO count then left. -/
theorem sillWakeTimer_spec {s : State} {x : SleepCtl} (hx : s.dev.chip.power.sleep = some x) (hd : s.dev.chip.device = 2)
    (hn : s.dev.chip.rd (powOd 8) ≠ 0) : ∃ c : Chip, execSillWakeTimer s = ok s (c.latchWake 3) ∧ c.power.sleep = some x ∧
      ∀ k, 1 < stirLevel k → c.rd k = s.dev.chip.rd k := by
  unfold execSillWakeTimer
  extract_lets c
  rw [show c.power.sleep = some x from hx]
  dsimp -zeta only
  rw [if_pos (by simp [show c.device = 2 from hd, show c.rd (powOd 8) ≠ 0 from hn])]
  exact ⟨_, rfl, (untilXo_sleep _ _).trans hx, fun k hk => untilXo_rd c _ hk⟩

/-- The chip that an accepted SLEEP request leaves. -/
theorem sleepRequest_spec {d : Dev} (kind : Nat) (a : Asker) (hf : d.sleepFree = true) : ∃ c : Chip,
    d.sleepRequest kind a = ({ d with chip := c }, none) ∧ c.device = 1 ∧
    c.power.sleep = some ⟨kind == 2, a, (List.range 96).map (fun i => d.chip.domState i), 0, none, d.chip.lc, 0⟩ := by
  unfold Dev.sleepRequest
  extract_lets c prev moves c1
  rw [if_neg (by simp [hf])]
  have hdev : c1.device = 1 := Chip.wr_rd_same _ (powOd 1) 1
  exact ⟨_, rfl, hdev, rfl⟩

theorem noDeferral_rd (c : Chip) (k : Nat) : c.noDeferral.rd k = c.rd k := rfl

theorem sleepBack_spec (c : Chip) (x : SleepCtl) : (c.sleepBack x).device = 0 ∧ (c.sleepBack x).power.sleep = none := by
  unfold Chip.sleepBack
  extract_lets c1
  have h1 : c1.rd (powOd 1) = 0 := (noDeferral_rd _ _).trans (Chip.wr_rd_same _ _ _)
  exact ⟨h1, rfl⟩

/-- The entry with a wake source latched. -/
theorem sleepEntry_back {s : State} {x : SleepCtl} (hx : s.dev.chip.power.sleep = some x) (hd : s.dev.chip.device = 1) (hl : x.latched ≠ 0) :
    ∃ c : Chip, execSleepEntry s = ok s c ∧ c.device = 0 ∧ c.power.sleep = none := by
  unfold execSleepEntry
  extract_lets c
  rw [show c.power.sleep = some x from hx]
  dsimp -zeta only
  rw [if_neg (not_not.mpr hd), if_pos hl]
  extract_lets c1
  obtain ⟨hdev, hsl⟩ := sleepBack_spec c x
  have hev : Chip.Tells _ c1 := powerEvent_tells ((c.sleepBack x).bump (powOd 0x1A) 1) 2 0xFF 0xFF x.latched .sleepAbandoned
  obtain ⟨o, ho⟩ := (c.sleepBack x).bump_frame (powOd 0x1A) 1
  have hp : ((c.sleepBack x).bump (powOd 0x1A) 1).power = (c.sleepBack x).power := (congrArg Chip.power ho :)
  refine ⟨_, rfl, ?_, ?_⟩
  · exact (powRd_powerEnds c1 x.asker _ (by decide) (by decide)).trans
      ((powRd_tells hev (by decide)).trans ((bump_rd_ne _ _ (powOd_ne (by decide))).trans hdev))
  · rw [powerEnds_power, hev.power, hp, hsl]

theorem deferOne_spec (c : Chip) (k : Fin 6) :
    let t := c.hbm.training[k]
    let d := if t.pass.isSome && !t.deferred then (c.setTraining k { t with deferred := true }).bump (hbmOd 0x14) 1 else c
    d.power = c.power ∧ ∀ sub < 256, d.rd (powOd sub) = c.rd (powOd sub) := by
  intro t d
  unfold d
  split_ifs
  · refine ⟨rfl, fun sub hs => bump_rd_ne _ _ ?_⟩
    unfold powOd hbmOd od
    omega
  · exact ⟨rfl, fun _ _ => rfl⟩

theorem deferSleep_spec (c : Chip) : c.deferSleep.power = c.power ∧ ∀ sub < 256, c.deferSleep.rd (powOd sub) = c.rd (powOd sub) := by
  unfold Chip.deferSleep
  generalize ([0, 1, 2, 3, 4, 5] : List (Fin 6)) = l
  induction l generalizing c with
  | nil => exact ⟨rfl, fun _ _ => rfl⟩
  | cons k l ih =>
    rw [List.foldl_cons]
    obtain ⟨hp, hr⟩ := ih (let t := c.hbm.training[k]
      if t.pass.isSome && !t.deferred then (c.setTraining k { t with deferred := true }).bump (hbmOd 0x14) 1 else c)
    obtain ⟨hp', hr'⟩ := deferOne_spec c k
    exact ⟨hp.trans hp', fun sub hs => (hr sub hs).trans (hr' sub hs)⟩

/-- The entry while a stack is in a training step. -/
theorem sleepEntry_wait {s : State} {x : SleepCtl} (hx : s.dev.chip.power.sleep = some x) (hd : s.dev.chip.device = 1) (hl : x.latched = 0)
    (ht : (s.dev.chip.hbm.training.any fun y => y.pass.isSome) = true) :
    ∃ c : Chip, execSleepEntry s = ok s c ∧ c.device = 1 ∧ c.power.sleep = some x := by
  unfold execSleepEntry
  extract_lets c
  rw [show c.power.sleep = some x from hx]
  dsimp -zeta only
  rw [if_neg (not_not.mpr hd), if_neg (not_not.mpr hl), if_pos ht]
  obtain ⟨hpow, hrd⟩ := deferSleep_spec c
  exact ⟨_, rfl, (hrd 1 (by decide)).trans hd, (congrArg PowerCtl.sleep hpow :).trans hx⟩

/-- The entry with nothing latched and no training. -/
theorem sleepEntry_enter {s : State} {x : SleepCtl} (hx : s.dev.chip.power.sleep = some x) (hd : s.dev.chip.device = 1) (hl : x.latched = 0)
    (ht : (s.dev.chip.hbm.training.any fun y => y.pass.isSome) = false) : ∃ c : Chip, execSleepEntry s = ok s c ∧ c.device = 2 := by
  unfold execSleepEntry
  extract_lets c
  rw [show c.power.sleep = some x from hx]
  dsimp -zeta only
  rw [if_neg (not_not.mpr hd), if_neg (not_not.mpr hl), if_neg (by simpa using ht)]
  extract_lets c1 c2 y c3
  have hev : Chip.Tells (c1.wr (powOd 1) 2) _ := powerEvent_tells (c1.wr (powOd 1) 2) 1 0xFF 0xFF 0 .ok
  have h2 : c2.rd (powOd 1) = 2 := by
    obtain ⟨o, ho, hrd⟩ := foldl_domTo (fun i => i) (fun _ => 4) (((List.range 96).filter fun i => i != 0 && (i != 1 || x.parks) &&
      ((c1.wr (powOd 1) 2).powerEvent 1 0xFF 0xFF 0 .ok).domState i != 0)) ((c1.wr (powOd 1) 2).powerEvent 1 0xFF 0xFF 0 .ok)
    have hc2 : c2.rd (powOd 1) = _ := (congrArg (fun d : Chip => d.rd (powOd 1)) ho).trans (hrd 1 (by decide))
    exact hc2.trans ((powRd_tells hev (by decide)).trans (Chip.wr_rd_same _ _ _))
  have h3 : c3.device = 2 := by
    unfold c3
    split_ifs
    · exact (Chip.wr_rd_ne c2 (clkOd 1) 0 (by decide : powOd 1 ≠ clkOd 1)).trans h2
    · exact h2
  exact ⟨_, rfl, h3⟩

/-- A wake source that is acted on. -/
theorem wake_spec {s : State} {x : SleepCtl} (khz : Nat) (hx : s.dev.chip.power.sleep = some x) (hd : s.dev.chip.device = 2) (hl : x.latched ≠ 0) :
    ∃ c : Chip, execWake khz s = ok s c ∧ c.device = 3 ∧ c.rd (powOd 7) = x.latched ∧ c.rd (powOd 0x15) = 0 := by
  unfold execWake
  extract_lets c
  rw [show c.power.sleep = some x from hx]
  dsimp -zeta only
  rw [if_neg (by simp [hl, show c.device = 2 from hd])]
  extract_lets c1
  have h1 : c1.rd (powOd 1) = 3 := Chip.wr_rd_same _ _ _
  have h7 : c1.rd (powOd 7) = x.latched := (Chip.wr_rd_ne _ _ _ (powOd_ne (by decide))).trans (Chip.wr_rd_same _ _ _)
  have h15 : c1.rd (powOd 0x15) = 0 := by
    refine (foldl_wr_rd (l := [(powOd 0x21, khz % 2 ^ 32), (powOd 7, x.latched), (powOd 1, 3)]) ?_ _).trans (Chip.wr_rd_same _ _ _)
    simp [powOd_ne]
  refine ⟨_, rfl, ?_⟩
  split
  · exact ⟨h1, h7, h15⟩
  · have hev := powerEvent_tells c1 4 0xFF 0xFF x.latched .ok
    exact ⟨(powRd_tells hev (by decide)).trans h1, (powRd_tells hev (by decide)).trans h7, (powRd_tells hev (by decide)).trans h15⟩

/-- A resumption with the clock running. -/
theorem resume_spec {c : Chip} {x : SleepCtl} (hx : c.power.sleep = some x) (hd : c.device = 3) (hc : c.clockState ≠ 0) :
    ∃ d : Chip, c.resume = (d, .ok) ∧ d.device = 0 ∧ d.power.sleep = none := by
  unfold Chip.resume
  rw [hx]
  dsimp -zeta only
  rw [if_neg (by simp [hd, hc])]
  extract_lets live c1 c2 c3 _ c4
  have hev := powerEvent_tells c4 5 0xFF 0xFF x.latched .ok
  have h3 : c3.rd (powOd 1) = 0 := Chip.wr_rd_same _ _ _
  have h4 : c4.rd (powOd 1) = 0 := h3
  have h4s : c4.power.sleep = none := rfl
  clear_value c4
  refine ⟨_, rfl, ?_, ?_⟩
  · exact (Chip.wr_rd_ne _ (powOd 4) _ (powOd_ne (by decide))).trans ((powRd_tells hev (by decide)).trans h4)
  · exact (congrArg PowerCtl.sleep hev.power :).trans h4s

end Sys2Proof.Machine
end

section
/-! SUPPORT. The obligations about SLEEP and about the regulators. -/

namespace Sys2Proof
open Machine

/-- Settles O34: each command goes through one branch, and what follows the change of state reports it or shows other objects. -/
theorem sleepAndWake : Obligations.SleepAndWake := by
  intro s sess kind x ns khz c latches
  have hlatch {i : Instr} {bit : Nat} (hi : exec i s = ok s (c.latchWake bit)) : latches i bit := fun hx hd hb =>
    runs_ok hi ⟨latchWake_spec hx hd hb, rfl, rfl⟩
  refine ⟨?_, ?_, ?_, ?_, ?_, ?_, ?_, ?_, ?_, ?_, ?_⟩
  · intro hacc hrate hfree
    obtain ⟨e, he, hdev, hsleep⟩ := sleepRequest_spec kind.toNat (.plain sess (powOd 2)) hfree
    refine runs_ask (i := .sleepRequest sess kind) (if_neg (by simp [show s.dev.chip.power.rate = none from hrate])) hacc he ?_
    exact ⟨hdev, hsleep, rfl, rfl⟩
  · intro hx hd hl ht
    obtain ⟨e, he, hdev⟩ := sleepEntry_enter hx hd hl ht
    exact runs_ok he ⟨hdev, rfl, rfl⟩
  · intro hx hd hl ht
    obtain ⟨e, he, hdev, hsleep⟩ := sleepEntry_wait hx hd hl ht
    exact runs_ok he ⟨hdev, hsleep, rfl, rfl⟩
  · intro hx hd hl
    obtain ⟨e, he, hdev, hsleep⟩ := sleepEntry_back hx hd hl
    exact runs_ok he ⟨hdev, hsleep, rfl, rfl⟩
  · intro hns
    exact hlatch (congrArg (ok s) (if_pos hns))
  · exact hlatch rfl
  · exact hlatch rfl
  · intro hd hn hx hor hb
    obtain ⟨e, he, hsleep, hrd⟩ := sillWakeTimer_spec hx hd hn
    have hdev : e.device = 1 ∨ e.device = 2 := .inr ((hrd _ (by decide)).trans hd)
    exact runs_ok he ⟨latchWake_spec hsleep hdev (by rw [hrd _ (by decide)]; exact hb), rfl, rfl⟩
  · exact fun hx hd hb => runs_done rfl ⟨latchWake_spec hx hd hb, rfl, rfl⟩
  · intro hx hd hl
    obtain ⟨e, he, hdev, h7, h15⟩ := wake_spec khz hx hd hl
    exact runs_ok he ⟨hdev, h7, h15, rfl, rfl⟩
  · intro hacc hx hd hc
    obtain ⟨e, he, hdev, hsleep⟩ := resume_spec hx hd hc
    have ht := Chip.Tells.of_stirs (stirs_answer e sess (powOd 3) .ok)
    refine runs_request (i := .resume sess) rfl hacc he ⟨(powRd_tells ht (by decide)).trans hdev, ?_, answer_head .., rfl, rfl⟩
    exact (congrArg PowerCtl.sleep ht.power).trans hsleep

end Sys2Proof
end

section
/-! SUPPORT. Operating points, the HBM rate and the regulators (R419-R422). -/

namespace Sys2Proof.Machine

open Chip (Stirs)

/-- Voltages that are sent show in no object of the power controller and leave it. -/
theorem setCore_stirs (c : Chip) (mv : Nat) : Stirs .refClock c (c.setCore mv) := by
  refine Stirs.refl.foldl (fun e i => ?_) c.coreRegs
  unfold Chip.sendVout
  split
  · exact Stirs.refl.send
  · exact Stirs.send ⟨rfl, fun _ _ => rfl, nofun, fun _ _ => rfl, fun _ _ => rfl, fun _ => rfl⟩

theorem powRd_stirs {a : Scope} {c d : Chip} (h : Stirs a c d) {sub : Nat} (ha : a.objects < 5 := by decide) (hs : sub < 256 := by decide)
    (hne : sub ≠ 0x17 := by decide) : d.rd (powOd sub) = c.rd (powOd sub) := h.rd _ (by rw [stirLevel_powOd sub hs hne]; exact ha)

theorem showEnvelope_pow (c : Chip) {sub : Nat} (hs : sub < 256 := by decide) : c.showEnvelope.rd (powOd sub) = c.rd (powOd sub) :=
  showEnvelope_rd c (by rw [powOd, keyIndex_od hs]; omega)

/-- What waits is not there, so nothing is taken up again. -/
theorem replay_of_empty {d : Dev} (h : d.chip.dict.held = []) : d.replay = d := by
  unfold Dev.replay
  split
  · rfl
  · rw [h, List.foldl_nil, ← h]

/-- An accepted operating point with room for the load is asked of the regulators. -/
theorem operatingPoint_spec {c : Chip} {v : Nat} (a : Asker) (hb : c.power.badMode = false) (hv : v ≠ c.rd (powOd 0x11))
    (hload : v < c.rd (powOd 0x11) → c.overloaded (400 * (1 + v)) = false) : ∃ d : Chip, c.operatingPoint v a = (d, none) ∧
      d.power.op = some ⟨v, c.rd (powOd 0x11), c.lc, a⟩ ∧ d.rd (powOd 0x10) = v := by
  unfold Chip.operatingPoint
  extract_lets now ends c1 c2 c3
  rw [if_neg (by simp [hb]), if_neg hv, if_neg (by simpa using hload)]
  have h2 : c2.rd (powOd 0x10) = v := by
    unfold c2
    split_ifs
    · rw [showEnvelope_pow, Chip.wr_rd_ne _ _ _ (powOd_ne (by decide))]
      exact Chip.wr_rd_same ..
    · exact Chip.wr_rd_same ..
  have h3 : c3.rd (powOd 0x10) = v := (powRd_stirs (setCore_stirs c2 _)).trans h2
  exact ⟨_, rfl, rfl, h3⟩

theorem showEnvelope_dict (c : Chip) : c.showEnvelope.dict = c.dict := by
  obtain ⟨o, ho⟩ := showEnvelope_frame c
  rw [ho]

theorem bump_dict (c : Chip) (k n : Nat) : (c.bump k n).dict = c.dict := by
  obtain ⟨o, ho⟩ := c.bump_frame k n
  rw [ho]

/-- A report and the end of a request leave the power controller, its objects but the status, and what waits. -/
theorem reported_spec (c : Chip) {d : Chip} (h : Chip.Tells c d) (a : Asker) (st : Status) : (d.powerEnds a st).power = c.power ∧
    (∀ sub < 256, sub ≠ 4 → (d.powerEnds a st).rd (powOd sub) = c.rd (powOd sub)) ∧ (d.powerEnds a st).dict.held = c.dict.held := by
  have hend := powerEnds_tells d a st
  refine ⟨hend.power.trans h.power, fun sub hs hne => (powRd_powerEnds d a st hs hne).trans (powRd_tells h hs), ?_⟩
  exact (congrArg (fun d : Chip => d.dict.held) hend.mute :).trans (congrArg (fun d : Chip => d.dict.held) h.mute :)

/-- A poll within 10 mV of the target completes the change. -/
theorem voutPolled_spec {c : Chip} {x : OpChange} {mv : Nat} (hx : c.power.op = some x) (hlo : pointMv x.target ≤ mv + 10)
    (hhi : mv ≤ pointMv x.target + 10) : (c.voutPolled mv).1.power.op = none ∧ (c.voutPolled mv).1.rd (powOd 0x11) = x.target ∧
      (c.voutPolled mv).1.dict.held = c.dict.held := by
  unfold Chip.voutPolled
  extract_lets c1
  rw [hx]
  dsimp -zeta only
  extract_lets t c1' c2 c3
  rw [if_pos (by simpa using And.intro hlo hhi)]
  have h1 : Stirs .waiting c1 c1' := by
    unfold c1'
    split_ifs
    · exact Stirs.refl.untilLc (by decide)
    · exact .refl
  have hheld : c1'.dict.held = c.dict.held := (congrArg (fun d : Chip => d.dict.held) h1.still :)
  have h2 : c2.rd (powOd 0x11) = x.target :=
    (showEnvelope_pow _).trans ((bump_rd_ne _ _ (powOd_ne (by decide))).trans (Chip.wr_rd_same _ _ _))
  have h2h : c2.dict.held = c.dict.held := by
    unfold c2
    rw [showEnvelope_dict, bump_dict]
    exact hheld
  clear_value c2
  obtain ⟨hpow, hrd, hh⟩ := reported_spec { c2 with power := { c2.power with op := none } } (powerEvent_tells _ 7 0xFF 0xFF x.target .ok) x.asker .ok
  exact ⟨(congrArg PowerCtl.op hpow :), (hrd 0x11 (by decide) (by decide)).trans h2, hh.trans h2h⟩

theorem execVoutPoll_eq (mv : Nat) (s : State) :
    exec (.voutPoll mv) s = done s ({ s.dev with chip := (s.dev.chip.voutPolled mv).1 } : Dev).replay := by
  show execVoutPoll mv s = _
  unfold execVoutPoll
  generalize s.dev.chip.voutPolled mv = p
  rfl

/-- The timeout abandons the change. -/
theorem opTimeout_spec {c : Chip} {x : OpChange} (hx : c.power.op = some x) (t : Nat) : (c.untilLc t).opAbandoned.power.op = none ∧
    (c.untilLc t).opAbandoned.rd (powOd 0x11) = c.rd (powOd 0x11) ∧ (c.untilLc t).opAbandoned.dict.held = c.dict.held := by
  have h1 : Stirs .waiting c (c.untilLc t) := Stirs.refl.untilLc (by decide)
  generalize c.untilLc t = c1 at h1
  have hop : c1.power.op = some x := (congrArg (fun d : Chip => d.power.op) h1.still :).trans hx
  unfold Chip.opAbandoned
  rw [hop]
  dsimp -zeta only
  extract_lets _ c2 c3
  have h3 : Stirs .refClock c2 c3 := by
    unfold c3
    split_ifs
    · exact setCore_stirs ..
    · exact .refl
  obtain ⟨hpow, hrd, hh⟩ := reported_spec c3 (Chip.Tells.of_stirs Stirs.refl.fault) x.asker .state
  refine ⟨(congrArg PowerCtl.op hpow :).trans (congrArg (fun d : Chip => d.power.op) h3.still :), ?_, ?_⟩
  · exact (hrd 0x11 (by decide) (by decide)).trans ((powRd_stirs h3).trans (powRd_stirs h1))
  · exact hh.trans ((congrArg (fun d : Chip => d.dict.held) h3.still :).trans (congrArg (fun d : Chip => d.dict.held) h1.still :))

/-- The next stack of a rate change shows in no power object but the rate in force. -/
theorem rateNext_rd (c : Chip) (rate k : Nat) : (c.rateNext rate k).rd (powOd 0x12) = c.rd (powOd 0x12) := by
  unfold Chip.rateNext
  split
  · exact Chip.wr_rd_ne _ _ _ (powOd_ne (by decide))
  · extract_lets
    split_ifs
    · exact bump_rd_ne _ _ (by decide)
    · rfl

theorem hbmRate_spec {c : Chip} (v : Nat) (hf : c.partitionFree [] = true) (hr : c.power.rate = none) :
    ∃ d : Chip, c.hbmRate v = (d, .ok) ∧ d.rd (powOd 0x12) = v := by
  unfold Chip.hbmRate
  rw [if_neg (by simp [hf, hr])]
  extract_lets c1
  have h1 : c1.rd (powOd 0x12) = v := (Chip.wr_rd_ne _ _ _ (powOd_ne (by decide))).trans (Chip.wr_rd_same _ _ _)
  refine ⟨_, rfl, ?_⟩
  split_ifs
  · exact h1
  · exact (rateNext_rd ..).trans h1

/-- A command that ends the change of the operating point, and has nothing to take up again. -/
theorem runs_opEnds {i : Instr} {s : State} {e : Chip} {v : Nat} (he : exec i s = done s ({ s.dev with chip := e } : Dev).replay)
    (hheld : e.dict.held = []) (hop : e.power.op = none) (hrd : e.rd (powOd 0x11) = v) :
    Runs i s fun t => t.dev.chip.power.op = none ∧ t.dev.chip.rd (powOd 0x11) = v ∧ t.coresAndMemoryOf s :=
  runs_done (he.trans (congrArg (done s) (replay_of_empty (d := { s.dev with chip := e }) hheld))) ⟨hop, hrd, rfl, rfl⟩

theorem runs_voutPoll {s : State} {x : OpChange} {mv : Nat} (hx : s.dev.chip.power.op = some x) (hlo : pointMv x.target ≤ mv + 10)
    (hhi : mv ≤ pointMv x.target + 10) (hheld : s.dev.chip.dict.held = []) : Runs (.voutPoll mv) s fun t =>
      t.dev.chip.power.op = none ∧ t.dev.chip.rd (powOd 0x11) = x.target ∧ t.coresAndMemoryOf s := by
  obtain ⟨hop, hrd, hh⟩ := voutPolled_spec hx hlo hhi
  exact runs_opEnds (execVoutPoll_eq mv s) (hh.trans hheld) hop hrd

theorem execOperatingPointTimeout_eq {s : State} {x : OpChange} (hx : s.dev.chip.power.op = some x) : exec .operatingPointTimeout s =
    done s ({ s.dev with chip := (s.dev.chip.untilLc (x.since + 2000000)).opAbandoned } : Dev).replay := by
  show execOperatingPointTimeout s = _
  unfold execOperatingPointTimeout
  extract_lets c
  rw [show c.power.op = some x from hx]

theorem runs_opTimeout {s : State} {x : OpChange} (hx : s.dev.chip.power.op = some x) (hheld : s.dev.chip.dict.held = []) :
    Runs .operatingPointTimeout s fun t => t.dev.chip.power.op = none ∧ t.dev.chip.rd (powOd 0x11) = s.dev.chip.rd (powOd 0x11) ∧
      t.coresAndMemoryOf s := by
  obtain ⟨hop, hrd, hh⟩ := opTimeout_spec hx (x.since + 2000000)
  exact runs_opEnds (execOperatingPointTimeout_eq hx) (hh.trans hheld) hop hrd

theorem regOd_ne {i sub sub' : Nat} (h : sub ≠ sub') : regOd i sub ≠ regOd i sub' := by
  unfold regOd od
  omega

/-- Four values written one after the other into a regulator's objects. -/
theorem regShown_rd (c : Chip) (i p q u v : Nat) {d : Chip}
    (hd : d = (((c.wr (regOd i 3) p).wr (regOd i 4) q).wr (regOd i 5) u).wr (regOd i 6) v) :
    d.rd (regOd i 3) = p ∧ d.rd (regOd i 4) = q ∧ d.rd (regOd i 5) = u ∧ d.rd (regOd i 6) = v := by
  subst hd
  refine ⟨?_, ?_, ?_, ?_⟩
  · rw [Chip.wr_rd_ne _ _ _ (regOd_ne (by decide)), Chip.wr_rd_ne _ _ _ (regOd_ne (by decide)), Chip.wr_rd_ne _ _ _ (regOd_ne (by decide)),
      Chip.wr_rd_same]
  · rw [Chip.wr_rd_ne _ _ _ (regOd_ne (by decide)), Chip.wr_rd_ne _ _ _ (regOd_ne (by decide)), Chip.wr_rd_same]
  · rw [Chip.wr_rd_ne _ _ _ (regOd_ne (by decide)), Chip.wr_rd_same]
  · rw [Chip.wr_rd_same]

/-- What a poll of a regulator shows. -/
theorem regRead_spec {c : Chip} {r : RegReading} (h : c.regOn r.reg = true) :
    (c.regRead r).rd (regOd r.reg.val 3) = ofLinear r.voutMode.toNat r.vout.toNat % 65536 ∧ (c.regRead r).rd (regOd r.reg.val 4) = r.iout.toNat ∧
    (c.regRead r).rd (regOd r.reg.val 5) = r.statusWord.toNat ∧ (c.regRead r).rd (regOd r.reg.val 6) = r.temperature.toNat := by
  unfold Chip.regRead
  extract_lets i mv c1 c2
  rw [if_neg (by simp [show c.regOn i = true from h])]
  have hc2 : c2 = (((c1.wr (regOd i 3) mv).wr (regOd i 4) r.iout.toNat).wr (regOd i 5) r.statusWord.toNat).wr (regOd i 6) r.temperature.toNat := by
    unfold c2
    rw [List.foldl_cons, List.foldl_cons, List.foldl_cons, List.foldl_cons, List.foldl_nil]
  obtain ⟨h3, h4, h5, h6⟩ := regShown_rd c1 i mv r.iout.toNat r.statusWord.toNat r.temperature.toNat hc2
  have hne (sub : Nat) (hs : sub < 256) : regOd i sub ≠ powOd 0x14 := by
    unfold regOd powOd od
    omega
  split_ifs
  · exact ⟨(Chip.wr_rd_ne _ _ _ (hne 3 (by decide))).trans h3, (Chip.wr_rd_ne _ _ _ (hne 4 (by decide))).trans h4,
      (Chip.wr_rd_ne _ _ _ (hne 5 (by decide))).trans h5, (Chip.wr_rd_ne _ _ _ (hne 6 (by decide))).trans h6⟩
  · exact ⟨h3, h4, h5, h6⟩

end Sys2Proof.Machine
end

section
/-! SUPPORT. The obligation about operating points, the HBM rate and the regulators. -/

namespace Sys2Proof
open Machine

/-- Settles O35: the branch that each command takes writes what the statement names, and reports and answers leave it. -/
theorem pointsAndRegulators : Obligations.PointsAndRegulators := by
  intro s sess v x mv r i c now
  refine ⟨?_, ?_, ?_, ?_, ?_, ?_⟩
  · intro hacc hb hv hload
    obtain ⟨e, he, hop, hrd⟩ := operatingPoint_spec (.plain sess (powOd 0x10)) hb hv hload
    have hact : (let (c, st) := s.dev.chip.operatingPoint v.toNat (.plain sess (powOd 0x10)); (({ s.dev with chip := c } : Dev), st)) =
        ({ s.dev with chip := e }, none) := by rw [he]
    exact runs_ask (i := .operatingPointRequest sess v) rfl hacc hact ⟨hop, hrd, rfl, rfl⟩
  · exact fun hx hlo hhi hheld => runs_voutPoll hx hlo hhi hheld
  · exact fun hx hheld => runs_opTimeout hx hheld
  · intro hacc hf hr
    obtain ⟨e, he, hrd⟩ := hbmRate_spec v.toNat hf hr
    refine runs_request (i := .hbmRateChange sess v) rfl hacc he ⟨?_, answer_head .., rfl, rfl⟩
    exact (powRd_stirs (stirs_answer ..)).trans hrd
  · intro hon
    obtain ⟨h3, h4, h5, h6⟩ := regRead_spec hon
    exact runs_ok rfl ⟨h3, h4, h5, h6, rfl, rfl⟩
  · intro hacc hne
    have hclear : c.clearReg i.val 1 = c.send (.pmbus (c.rd (regOd i.val 2)) 0x03 0) := if_pos (by simpa [regOd] using hne)
    refine runs_request (i := .clearFaults sess i) (act := fun c => (c.clearReg i.val 1, .ok)) rfl hacc (Prod.ext hclear rfl)
      ⟨?_, answer_head .., rfl, rfl⟩
    dsimp only
    rw [answer_out]
    exact List.mem_cons_of_mem _ List.mem_cons_self

end Sys2Proof
end

section
/-! SUPPORT. The reference candidates and the DPLL (R398-R411). -/

namespace Sys2Proof.Machine

open Chip (Stirs)

/-- From chip `c` to chip `d` the enable and the offset of candidate `k` are as they were and so are its edges; under `p` its
disqualification too, and a dwell that does not run stays so. -/
structure Chip.Settles (p : Prop) (k : Fin 7) (c d : Chip) : Prop where
  rd : ∀ sub, sub = 1 ∨ sub = 0x11 → d.rd (candOd k sub) = c.rd (candOd k sub)
  edges : (d.cand k).edges = (c.cand k).edges
  disq : p → (d.cand k).disq = (c.cand k).disq
  dwell : p → (c.cand k).dwell = none → (d.cand k).dwell = none

namespace Chip.Settles

variable {p : Prop} {k : Fin 7} {c d : Chip}

theorem refl : Settles p k c c := ⟨fun _ _ => rfl, rfl, fun _ => rfl, fun _ h => h⟩

theorem trans {e : Chip} (h : Settles p k c d) (h' : Settles p k d e) : Settles p k c e :=
  ⟨fun sub hs => (h'.rd sub hs).trans (h.rd sub hs), h'.edges.trans h.edges, fun hp => (h'.disq hp).trans (h.disq hp),
   fun hp hn => h'.dwell hp (h.dwell hp hn)⟩

theorem on (h : Settles p k c d) : d.on (candOd k 1) = c.on (candOd k 1) := by
  unfold Chip.on
  rw [h.rd 1 (.inl rfl)]

/-- Reports leave the candidates. -/
theorem told (h : Settles p k c d) {e : Chip} (he : Stirs .report d e) : Settles p k c e := by
  have hc : e.clock = d.clock := congrArg Prod.fst (he.clock rfl)
  have hk : e.cand k = d.cand k := by
    unfold Chip.cand
    rw [hc]
  have hlevel (sub : Nat) (hs : sub = 1 ∨ sub = 0x11) : 0 < stirLevel (candOd k sub) := by
    have hk : keyIndex (candOd k sub) = 0x4810 + k := keyIndex_od (by omega)
    exact Chip.Tells.stirLevel_pos (by omega) (by omega) (by omega)
  exact h.trans ⟨fun sub hs => he.rd _ (hlevel sub hs), by rw [hk], fun _ => by rw [hk], fun _ => by rw [hk]; exact id⟩

/-- What is set beside the candidates. -/
theorem wr {j v : Nat} (h : Settles p k c d) (hj : ∀ sub, sub = 1 ∨ sub = 0x11 → candOd k sub ≠ j) : Settles p k c (d.wr j v) :=
  h.trans ⟨fun sub hs => Chip.wr_rd_ne d j v (hj sub hs), rfl, fun _ => rfl, fun _ h => h⟩

theorem bump {j v : Nat} (h : Settles p k c d) (hj : ∀ sub, sub = 1 ∨ sub = 0x11 → candOd k sub ≠ j) : Settles p k c (d.bump j v) := by
  unfold Chip.bump
  split
  · exact h
  · exact h.wr hj

theorem wrClk {sub v : Nat} (h : Settles p k c d) (hs : sub < 256 := by decide) : Settles p k c (d.wr (clkOd sub) v) :=
  h.wr fun sub' hs' => by unfold candOd clkOd od; omega

theorem bumpClk {sub v : Nat} (h : Settles p k c d) (hs : sub < 256 := by decide) : Settles p k c (d.bump (clkOd sub) v) :=
  h.bump fun sub' hs' => by unfold candOd clkOd od; omega

theorem wrCand {sub v : Nat} (h : Settles p k c d) (hs : sub ≠ 1 ∧ sub ≠ 0x11 := by decide) : Settles p k c (d.wr (candOd k sub) v) :=
  h.wr fun sub' hs' => by unfold candOd od; omega

theorem bumpCand {sub v : Nat} (h : Settles p k c d) (hs : sub ≠ 1 ∧ sub ≠ 0x11 := by decide) : Settles p k c (d.bump (candOd k sub) v) :=
  h.bump fun sub' hs' => by unfold candOd od; omega

theorem setCand {x : Candidate} (h : Settles p k c d) (he : x.edges = (d.cand k).edges) (hd : p → x.disq = (d.cand k).disq)
    (hw : p → (d.cand k).dwell = none → x.dwell = none) : Settles p k c (d.setCand k x) :=
  h.trans ⟨fun _ _ => rfl, by rw [Chip.setCand_same, he], fun hp => by rw [Chip.setCand_same, hd hp],
    fun hp hn => by rw [Chip.setCand_same, hw hp hn]⟩

theorem clockEvent {code : Nat} {i prev : Option (Fin 7)} {phase : Int} (h : Settles p k c d) : Settles p k c (d.clockEvent code i prev phase) := by
  unfold Chip.clockEvent Chip.showQl
  exact h.wrClk.told Stirs.refl.irq.event

theorem steer {y : Int} (h : Settles p k c d) : Settles p k c (d.steer y) := h.wrClk

theorem setClock {st : Nat} (h : Settles p k c d) : Settles p k c (d.setClock st) := by
  have hsince : Settles p k c { d with clock := { d.clock with since := d.lc } } := h.trans ⟨fun _ _ => rfl, rfl, fun _ => rfl, fun _ h => h⟩
  unfold Chip.setClock
  split
  · exact h
  · exact hsince.wrClk.clockEvent

theorem acquire {i : Fin 7} (h : Settles p k c d) : Settles p k c (d.acquire i) := by
  have hfree : Settles p k c (d.freeBits 64).2 := h.trans ⟨fun _ _ => rfl, rfl, fun _ => rfl, fun _ h => h⟩
  have hsamples {a : Chip} : Settles p k a { a with clock := { a.clock with samples := [] } } := ⟨fun _ _ => rfl, rfl, fun _ => rfl, fun _ h => h⟩
  unfold Chip.acquire Chip.wrI32
  exact (hfree.wrClk.steer.wrClk.wrClk.wrClk.bumpClk.trans hsamples).setClock.clockEvent

theorem closeHistory (h : Settles p k c d) : Settles p k c d.closeHistory := h.trans ⟨fun _ _ => rfl, rfl, fun _ => rfl, fun _ h => h⟩

theorem withoutReference (h : Settles p k c d) : Settles p k c d.withoutReference := by
  have hcomputed {a : Chip} {lc : Nat} : Settles p k a { a with clock := { a.clock with computed := lc } } :=
    ⟨fun _ _ => rfl, rfl, fun _ => rfl, fun _ h => h⟩
  unfold Chip.withoutReference Chip.enterHoldover Chip.enterFreeRun Chip.wrI32
  split
  · exact (h.wrClk.bumpClk.wrClk.trans hcomputed).wrClk.steer.setClock
  · exact h.wrClk.steer.setClock

theorem chosen {best : Option (Fin 7)} (h : Settles p k c d) : Settles p k c (match best with | some i => d.acquire i | none => d) := by
  cases best with
  | some i => exact h.acquire
  | none => exact h

/-- The selector changes no candidate. -/
theorem selectRef (h : Settles p k c d) : Settles p k c d.selectRef := by
  unfold Chip.selectRef Chip.showQl
  extract_lets best chosen keeps
  clear_value best
  refine wrClk ?_
  split
  · exact h.chosen
  · exact h.chosen
  · exact h.chosen
  · split
    · exact h
    · exact h.closeHistory.withoutReference.chosen
  · split
    · split
      · exact h
      · exact h.closeHistory.acquire
    · exact h.closeHistory.withoutReference.told Stirs.refl.fault
  · exact h

theorem candTo {st code : Nat} (h : Settles p k c d) : Settles p k c (d.candTo k st code) := by
  unfold Chip.candTo
  exact (h.wrCand (sub := 0x10)).clockEvent

theorem startRestore (h : Settles p k c d) : Settles p k c (d.startRestore k) := h.setCand rfl (fun _ => rfl) (fun _ h => h)

theorem candRequalified (h : Settles p k c d) : Settles p k c (d.candRequalified k) := by
  have hknown : Settles p k c (d.setCand k { d.cand k with known := true }) := h.setCand rfl (fun _ => rfl) (fun _ h => h)
  unfold Chip.candRequalified
  extract_lets
  split_ifs
  · exact hknown.candTo
  · exact hknown.startRestore.candTo.candTo
  · exact hknown.startRestore.candTo

theorem candLost (h : Settles p k c d) : Settles p k c (d.candLost k) := by
  have hout : Settles p k c (d.setCand k { d.cand k with gated := false, dwell := none }) := h.setCand rfl (fun _ => rfl) (fun _ _ => rfl)
  exact (hout.bumpCand (sub := 0x16)).candTo

theorem candDisqualified (h : Settles p k c d) : Settles p k c (d.candDisqualified k) := (h.bumpCand (sub := 0x17)).candTo

/-- An enabled candidate settles with its disqualification and its dwell as they stand. -/
theorem settleCand (h : Settles p k c d) (hon : p → d.on (candOd k 1) = true) : Settles p k c (d.settleCand k) := by
  unfold Chip.settleCand
  extract_lets st c1 off x fresh c2 q
  have h1 : Settles p k d c1 := by
    unfold c1
    split
    · exact refl.wrCand.clockEvent
    · exact refl
  have hf : Settles p k d fresh := h1.setCand rfl (fun _ => rfl) (fun _ _ => rfl)
  have h2 : Settles p k d c2 := by
    unfold c2
    split_ifs
    · exact hf.wrCand
    · exact hf.candTo
    · exact h1
  refine h.trans ?_
  by_cases hoff : c1.on (candOd k 1) = true
  · rw [if_neg (by simp [hoff])]
    split_ifs
    · exact h1
    · exact h1.wrCand
    · exact h1.candLost
    · exact h2.candRequalified
    · exact h2
    · exact h2
    · exact h2.candDisqualified
  · have hp : ¬ p := fun hp => hoff (h1.on.trans (hon hp))
    rw [if_pos (by simpa using hoff)]
    split_ifs
    · exact h1
    · exact Chip.Settles.wrCand (sub := 0x10) (h1.setCand rfl (fun h => (hp h).elim) (fun h => (hp h).elim))

end Chip.Settles
/-! ### The end of a gate, of a dwell and of a wait -/

/-- The offset that a gate measured stays shown. -/
theorem gateEnd_offset (c : Chip) (k : Fin 7) (raw : Int) : (c.gateEnd k raw).rd (candOd k 0x11) =
    ofI (sat 32 (if k = 6 then c.ptpOffset else raw + c.xoError)) 32 := by
  unfold Chip.gateEnd
  extract_lets y c1 a soft hard alarm c2 x dwell disq c3 out c4 w s' src c5
  have h1 : c1.rd (candOd k 0x11) = ofI (sat 32 y) 32 := Chip.wr_rd_same _ _ _
  have h2 : Chip.Settles False k c1 c2 := by
    unfold c2
    split_ifs
    · exact ((Chip.Settles.refl.wrCand (sub := 0x14)).bumpCand (sub := 0x18)).clockEvent.told Stirs.refl.fault
    · exact (Chip.Settles.refl.wrCand (sub := 0x14)).clockEvent
    · exact .refl
  have h3 : Chip.Settles False k c1 c3 := h2.setCand rfl False.elim False.elim
  have h5 : Chip.Settles False k c1 c5 := by
    unfold c5
    split_ifs
    · exact h3.steer.trans ⟨fun _ _ => rfl, rfl, False.elim, False.elim⟩
    · exact h3.steer
    · exact h3
  exact ((h5.settleCand False.elim).selectRef.rd 0x11 (.inr rfl)).trans h1

/-- A candidate that settles with its edges as they were set. -/
theorem settled_edges (c : Chip) (k : Fin 7) (x : Candidate) : ((((c.setCand k x).settleCand k).selectRef).cand k).edges = x.edges := by
  have h : Chip.Settles False k (c.setCand k x) ((c.setCand k x).settleCand k).selectRef := (Chip.Settles.refl.settleCand False.elim).selectRef
  rw [h.edges, Chip.setCand_same]

/-- An enabled candidate that settles with its disqualification and its dwell as they were set. -/
theorem settled_disq {c : Chip} {k : Fin 7} {x : Candidate} (hon : c.on (candOd k 1) = true) (hx : x.dwell = none) :
    ((((c.setCand k x).settleCand k).selectRef).cand k).disq = x.disq ∧ ((((c.setCand k x).settleCand k).selectRef).cand k).dwell = none := by
  have h : Chip.Settles True k (c.setCand k x) ((c.setCand k x).settleCand k).selectRef :=
    (Chip.Settles.settleCand .refl fun _ => show (c.setCand k x).on _ = true from hon).selectRef
  refine ⟨by rw [h.disq trivial, Chip.setCand_same], h.dwell trivial ?_⟩
  rw [Chip.setCand_same, hx]

/-! ### The clock's state -/

/-- A record of the clock leaves its objects, but the output's quality level. -/
theorem clockEvent_rd (c : Chip) (code : Nat) (i prev : Option (Fin 7)) (phase : Int) {sub : Nat} (hs : sub < 256) (h : sub ≠ 3) :
    (c.clockEvent code i prev phase).rd (clkOd sub) = c.rd (clkOd sub) := by
  have hk : keyIndex (clkOd sub) = 0x4800 := keyIndex_od hs
  have hne : clkOd sub ≠ clkOd 3 := by
    unfold clkOd od
    omega
  unfold Chip.clockEvent
  have hst : Stirs .report c.showQl (c.showQl.irq 11) := Stirs.refl.irq
  exact ((Chip.Tells.of_stirs hst.event).rd _ (by omega) (by omega) (by omega)).trans (Chip.wr_rd_ne c _ _ hne)

theorem setClock_state (c : Chip) (st : Nat) : (c.setClock st).clockState = st := by
  unfold Chip.setClock
  split_ifs with h
  · exact h
  · exact (clockEvent_rd _ _ _ _ _ (by decide) (by decide)).trans (Chip.wr_rd_same _ _ _)

theorem setClock_rd (c : Chip) (st : Nat) {sub : Nat} (hs : sub < 256) (h : sub ≠ 3) (h1 : sub ≠ 1) :
    (c.setClock st).rd (clkOd sub) = c.rd (clkOd sub) := by
  have hne : clkOd sub ≠ clkOd 1 := by
    unfold clkOd od
    omega
  unfold Chip.setClock
  split_ifs
  · rfl
  · exact (clockEvent_rd _ _ _ _ _ hs h).trans (Chip.wr_rd_ne _ _ _ hne)

/-- The best candidate follows from the candidates' objects. -/
theorem bestCand_congr {c d : Chip} (h : ∀ i sub, sub ∈ [0x02, 0x05, 0x10, 0x12] → d.rd (candOd i sub) = c.rd (candOd i sub)) :
    d.bestCand = c.bestCand := by
  have hst (i : Fin 7) : d.candState i = c.candState i := h i 0x10 (by decide)
  have hql (i : Fin 7) : d.effectiveQl i = c.effectiveQl i := by
    unfold Chip.effectiveQl
    rw [h i 0x12 (by decide), h i 0x05 (by decide)]
  have hbetter (i j : Fin 7) : d.betterCand i j = c.betterCand i j := by
    unfold Chip.betterCand
    rw [hql, hql, h i 0x02 (by decide), h j 0x02 (by decide)]
  unfold Chip.bestCand
  simp only [hst, hbetter]

/-- The selector keeps a selected candidate that is the best one. -/
theorem selectRef_kept {c : Chip} {k : Fin 7} (hc : c.clockState = 3) (hs : c.selected = some k) (hst : c.candState k = 4)
    (hb : c.bestCand = some k) : c.selectRef = c.showQl := by
  unfold Chip.selectRef
  rw [hc, hs, hb]
  simp [hst]

theorem candOd_ne_clkOd (i : Fin 7) {sub sub' : Nat} (h : sub' < 256 := by decide) : candOd i sub ≠ clkOd sub' := by
  unfold candOd clkOd od
  omega

/-- The waits of the candidates start beside every object. -/
theorem foldl_startRestore_rd (l : List (Fin 7)) (c : Chip) (j : Nat) :
    (l.foldl (fun a k => if a.candState k = 3 then a.startRestore k else a) c).rd j = c.rd j := by
  induction l generalizing c with
  | nil => rfl
  | cons k l ih =>
    refine (ih _).trans ?_
    dsimp only
    split_ifs
    · rfl
    · rfl

/-- Within the limits of phase and frequency the selected best candidate is locked to. -/
theorem locked_spec {c : Chip} {k : Fin 7} (phase : Int) (hs : c.selected = some k) (hst : c.candState k = 4) (hb : c.bestCand = some k) :
    let d := (allCands.foldl (fun a k => if a.candState k = 3 then a.startRestore k else a) ((c.wrI32 (clkOd 0x10) phase).setClock 3)).selectRef
    d.clockState = 3 ∧ d.rd (clkOd 0x10) = ofI (sat 32 phase) 32 := by
  intro d
  unfold d
  have hrd := foldl_startRestore_rd allCands ((c.wrI32 (clkOd 0x10) phase).setClock 3)
  generalize allCands.foldl (fun a k => if a.candState k = 3 then a.startRestore k else a) ((c.wrI32 (clkOd 0x10) phase).setClock 3) = e at hrd
  have hcand (i : Fin 7) (sub : Nat) (hi : sub ∈ [0x02, 0x05, 0x10, 0x12]) : e.rd (candOd i sub) = c.rd (candOd i sub) := by
    have hkeep : KeepsCandidate [0x02, 0x05, 0x10, 0x12] i c ((c.wrI32 (clkOd 0x10) phase).setClock 3) := KeepsCandidate.refl.wrClk.setClock
    have hlt : sub < 256 := (by decide : ∀ x ∈ [0x02, 0x05, 0x10, 0x12], x < 256) sub hi
    exact (hrd _).trans (hkeep.rd _ (candKey_candOd hlt hi))
  have h3 : e.clockState = 3 := (hrd _).trans (setClock_state _ 3)
  have hsel : e.selected = some k := by
    have h2 : e.rd (clkOd 2) = c.rd (clkOd 2) :=
      (hrd _).trans ((setClock_rd _ _ (by decide) (by decide) (by decide)).trans (Chip.wr_rd_ne _ _ _ (by decide)))
    unfold Chip.selected at hs ⊢
    rw [h2, hs]
  rw [selectRef_kept h3 hsel ((hcand k 0x10 (by decide)).trans hst) ((bestCand_congr hcand).trans hb)]
  refine ⟨(Chip.wr_rd_ne _ _ _ (by decide)).trans h3, (Chip.wr_rd_ne _ _ _ (by decide)).trans ((hrd _).trans ?_)⟩
  exact (setClock_rd _ _ (by decide) (by decide) (by decide)).trans (Chip.wr_rd_same _ _ _)

/-- The selector leaves a candidate's state. -/
theorem selectRef_candState (c : Chip) (k : Fin 7) : c.selectRef.candState k = c.candState k :=
  (KeepsCandidate.refl (subs := gateSubs)).selectRef.candState

theorem candState_wr (c : Chip) (k : Fin 7) (st : Nat) : (c.wr (candOd k 0x10) st).candState k = st := Chip.wr_rd_same ..

theorem candTo_state (c : Chip) (k : Fin 7) (st code : Nat) : (c.candTo k st code).candState k = st := by
  have hkeep : KeepsCandidate gateSubs k (c.wr (candOd k 0x10) st) (c.candTo k st code) := by
    unfold Chip.candTo
    exact KeepsCandidate.refl.clockEvent
  exact hkeep.candState.trans (candState_wr ..)

theorem steer_rd (c : Chip) (y : Int) : (c.steer y).rd (clkOd 0x0F) = ofI (sat 32 (withinPpm y)) 32 := by
  unfold Chip.steer Chip.wrI32
  exact Chip.wr_rd_same ..

theorem steer_rd_ne (c : Chip) (y : Int) {j : Nat} (h : j ≠ clkOd 0x0F) : (c.steer y).rd j = c.rd j := by
  unfold Chip.steer Chip.wrI32
  exact Chip.wr_rd_ne _ _ _ h

/-- The offset in holdover does not depend on when it was computed last. -/
theorem holdoverOffset_computed (c : Chip) (n : Nat) :
    ({ c with clock := { c.clock with computed := n } } : Chip).holdoverOffset = c.holdoverOffset := by
  have htable (k : Nat) : ({ c with clock := { c.clock with computed := n } } : Chip).table k = c.table k := rfl
  have htheta : ({ c with clock := { c.clock with computed := n } } : Chip).theta = c.theta := rfl
  have hage : ({ c with clock := { c.clock with computed := n } } : Chip).age = c.age := rfl
  have hrd (k : Nat) : ({ c with clock := { c.clock with computed := n } } : Chip).rdI32 k = c.rdI32 k := rfl
  unfold Chip.holdoverOffset Chip.curveT Chip.curveA
  rw [htheta, hage, hrd]
  simp only [htable]

theorem computed_obj (c : Chip) (n : Nat) : ({ c with clock := { c.clock with computed := n } } : Chip).obj = c.obj := rfl

/-- A recomputation sets the output to the offset that the history gives, and counts. -/
theorem recomputed_spec (c d : Chip) (hd : d.obj = c.obj) (y : Int) :
    (((d.wrI32 (clkOd 0x0E) y).steer y).bump (clkOd 0x14) 1).rd (clkOd 0x14) = wrapObj (clkOd 0x14) (c.rd (clkOd 0x14) + 1) ∧
    (((d.wrI32 (clkOd 0x0E) y).steer y).bump (clkOd 0x14) 1).rd (clkOd 0x0F) = ofI (sat 32 (withinPpm y)) 32 := by
  have h0 : d.rd (clkOd 0x14) = c.rd (clkOd 0x14) := by
    unfold Chip.rd
    rw [hd]
  have h : ((d.wrI32 (clkOd 0x0E) y).steer y).rd (clkOd 0x14) = c.rd (clkOd 0x14) :=
    (steer_rd_ne _ _ (by decide)).trans ((Chip.wr_rd_ne _ _ _ (by decide)).trans h0)
  exact ⟨by rw [bump_rd_same, h], (bump_rd_ne _ _ (by decide)).trans (steer_rd _ _)⟩

theorem execHoldoverRecompute_spec {s : State} (h : s.dev.chip.clockState = 4 ∨ s.dev.chip.clockState = 5) {d : Chip}
    (hd : s.dev.chip.untilLc (s.dev.chip.clock.computed + second) = d) : ∃ c : Chip, execHoldoverRecompute s = ok s c ∧
      c.rd (clkOd 0x14) = wrapObj (clkOd 0x14) (d.rd (clkOd 0x14) + 1) ∧ c.rd (clkOd 0x0F) = ofI (sat 32 (withinPpm d.holdoverOffset)) 32 := by
  have hdef := Eq.refl (execHoldoverRecompute s)
  conv at hdef => rhs; delta execHoldoverRecompute
  generalize hr : execHoldoverRecompute s = r
  rw [hr] at hdef
  extract_lets c c1 _ c2 y at hdef
  have hc1 : c1 = d := hd
  have hobj : c2.obj = c1.obj := computed_obj c1 c1.lc
  have hy : y = c1.holdoverOffset := holdoverOffset_computed c1 c1.lc
  rw [if_pos (by simpa using h)] at hdef
  clear_value y c2 c1
  subst hc1 hy
  exact ⟨_, hdef, recomputed_spec c1 c2 hobj _⟩

/-- A dwell that expires disqualifies its candidate. -/
theorem dwellExpiry_spec {s : State} {k : Fin 7} (hd : ((s.dev.chip.cand k).dwell).isSome = true) (hst : 2 ≤ s.dev.chip.candState k)
    (hon : s.dev.chip.on (candOd k 1) = true) : ∃ c : Chip, execDwellExpiry k s = ok s c ∧ (c.cand k).disq = true ∧ (c.cand k).dwell = none := by
  obtain ⟨t, ht⟩ := Option.isSome_iff_exists.mp hd
  unfold execDwellExpiry
  extract_lets c
  rw [show (c.cand k).dwell = some t from ht]
  dsimp -zeta only
  rw [if_pos hst]
  extract_lets c0 c1
  have hpass : KeepsCandidate gateSubs k c c0 := KeepsCandidate.refl.untilLc
  exact ⟨_, rfl, settled_disq (hpass.qual.on.trans hon) rfl⟩

/-- A filled window makes the history valid. -/
theorem historyWindow_spec {s : State} (h : s.dev.chip.clockState = 3) : ∃ c : Chip, execHistoryWindowFilled s = ok s c ∧
    c.rd (clkOd 0x13) = 1 ∧ c.clock.history.isSome = true :=
  ⟨_, if_pos h, Chip.wr_rd_same _ _ _, rfl⟩

end Sys2Proof.Machine
end

section
/-! SUPPORT. The obligation about the selection of a reference. -/

namespace Sys2Proof
open Machine

/-- Settles O36: time passes and then one branch of the reference clock is taken; the selector changes no candidate. -/
theorem referenceSelection : Obligations.ReferenceSelection := by
  intro s k raw phase freq c cand gated y restored held next
  refine ⟨?_, ?_, ?_, ?_, ?_, ?_, ?_, ?_, ?_⟩
  · intro hon hact hst
    obtain ⟨e, he, hrd⟩ : ∃ e : Chip, execFrequencyGateEnd k raw s = ok s e ∧ e.rd (candOd k 0x11) = ofI (sat 32 y) 32 :=
      ⟨_, if_pos (by simp [show s.dev.chip.on (candOd k 1) = true from hon, show s.dev.chip.candActive k = true from hact,
        show 2 ≤ s.dev.chip.candState k from hst]), gateEnd_offset gated k raw⟩
    exact runs_ok he ⟨hrd, rfl, rfl⟩
  · intro hdwell hst hon
    obtain ⟨e, he, hdisq, hnone⟩ := dwellExpiry_spec hdwell hst hon
    exact runs_ok he ⟨hdisq, hnone, rfl, rfl⟩
  · intro hk
    obtain ⟨e, he, hedges⟩ : ∃ e : Chip, execRefEdgeTimeout k s = ok s e ∧ (e.cand k).edges = false :=
      ⟨_, if_pos hk, settled_edges c k { c.cand k with edges := false }⟩
    exact runs_ok he ⟨hedges, rfl, rfl⟩
  · intro hk
    obtain ⟨e, he, hedges⟩ : ∃ e : Chip, execRefEdgeReturn k s = ok s e ∧ (e.cand k).edges = true :=
      ⟨_, if_pos hk, settled_edges c k { c.cand k with edges := true }⟩
    exact runs_ok he ⟨hedges, rfl, rfl⟩
  · intro hst hq
    obtain ⟨e, he, h4⟩ : ∃ e : Chip, execWaitToRestoreExpiry k s = ok s e ∧ e.candState k = 4 :=
      ⟨_, (if_pos hst).trans (if_pos hq), (selectRef_candState _ k).trans (candTo_state _ k 4 7)⟩
    exact runs_ok he ⟨h4, rfl, rfl⟩
  · intro h2 hp hf hsel hst hbest
    obtain ⟨e, he, h3, hrd⟩ : ∃ e : Chip, execAcquireLock phase freq s = ok s e ∧ e.clockState = 3 ∧ e.rd (clkOd 0x10) = ofI (sat 32 phase) 32 :=
      ⟨_, if_pos (by simp [c, h2, hp, hf]), locked_spec phase hsel hst hbest⟩
    exact runs_ok he ⟨h3, hrd, rfl, rfl⟩
  · intro h4
    obtain ⟨e, he, h5⟩ : ∃ e : Chip, execHoldoverLimitExpiry s = ok s e ∧ e.clockState = 5 :=
      ⟨_, if_pos h4, (Chip.wr_rd_ne _ _ _ (by decide)).trans (setClock_state _ 5)⟩
    exact runs_ok he ⟨h5, rfl, rfl⟩
  · intro h45
    obtain ⟨e, he, hcount, hout⟩ := execHoldoverRecompute_spec h45 rfl
    exact runs_ok he ⟨hcount, hout, rfl, rfl⟩
  · intro h3
    obtain ⟨e, he, hvalid, hhist⟩ := historyWindow_spec h3
    exact runs_ok he ⟨hvalid, hhist, rfl, rfl⟩

end Sys2Proof
end

section
/-! SUPPORT. The ingest streams (R86-R106). -/

namespace Sys2Proof.Machine

open Chip (Stirs)

/-! ### What leaves the streams alone -/

theorem bump_lc (c : Chip) (k n : Nat) : (c.bump k n).lc = c.lc := by
  obtain ⟨o, ho⟩ := c.bump_frame k n
  rw [ho]

@[simp] theorem bump_streams (c : Chip) (k n : Nat) : (c.bump k n).streams = c.streams := by
  obtain ⟨o, ho⟩ := c.bump_frame k n
  rw [ho]

theorem foldl_streams {α : Type} {f : Chip → α → Chip} (hf : ∀ c x, (f c x).streams = c.streams) (l : List α) (c : Chip) :
    (l.foldl f c).streams = c.streams := by
  induction l generalizing c with
  | nil => rfl
  | cons x l ih => exact (ih _).trans (hf c x)

theorem toGroups_streams (c : Chip) (p : Peg) : (c.toGroups p).streams = c.streams := by
  unfold Chip.toGroups
  extract_lets hits late c1
  have h1 : c1.streams = c.streams := by
    unfold c1
    exact foldl_streams (f := fun a g => a.setGroup g { a.group g with waiting := pegInsert p (a.group g).waiting }) (fun _ _ => rfl) _ c
  split_ifs
  · rfl
  · exact h1
  · rw [bump_streams, h1]

theorem spreadPeg_streams (c : Chip) (p : Peg) : (c.spreadPeg p).streams = c.streams := by
  unfold Chip.spreadPeg
  extract_lets c1 c2
  have h1 : c1.streams = c.streams := by
    unfold c1
    split
    · rfl
    · exact toGroups_streams c p
  have h2 : c2.streams = c.streams := by
    unfold c2 Chip.logPeg
    extract_lets
    exact (bump_streams ..).trans h1
  split_ifs
  · refine (foldl_streams (fun a b => ?_) _ c2).trans h2
    dsimp only
    split_ifs
    · exact bump_streams ..
    · rfl
  · exact h2

theorem queueControl_streams (c : Chip) (b type n : Nat) (body : List Byte) : (c.queueControl b type n body).streams = c.streams := rfl

theorem mirror_streams (c : Chip) (type : Nat) (body : List Byte) : (c.mirror type body).streams = c.streams := by
  unfold Chip.mirror
  split
  · rfl
  · rw [bump_streams, queueControl_streams]

theorem numberPeg_streams (c : Chip) (tick kind flags detail amp : Nat) : (c.numberPeg tick kind flags detail amp).streams = c.streams := by
  unfold Chip.numberPeg
  extract_lets
  split
  · exact (mirror_streams ..).trans ((spreadPeg_streams ..).trans (bump_streams ..))
  · exact (spreadPeg_streams ..).trans (bump_streams ..)

/-- A peg that is made changes no stream. -/
theorem makePeg_streams (c : Chip) (tick kind flags detail amp : Nat) : (c.makePeg tick kind flags detail amp).streams = c.streams := by
  unfold Chip.makePeg
  split_ifs
  · exact numberPeg_streams ..
  · rfl
  · rfl

/-! ### The release point of a stream -/

theorem stream_of_streams {c d : Chip} (h : d.streams = c.streams) (s : Nat) : d.stream s = c.stream s := by
  unfold Chip.stream
  rw [h]

/-- The release point of stream `s` stays where it is. -/
def Chip.Holds (s : Nat) (c d : Chip) : Prop := (d.stream s).release = (c.stream s).release

namespace Chip.Holds

variable {s : Nat} {c d : Chip}

theorem refl : Holds s c c := rfl

theorem trans {e : Chip} (h : Holds s c d) (h' : Holds s d e) : Holds s c e := Eq.trans h' h

theorem same {e : Chip} (h : Holds s c d) (he : e.streams = d.streams) : Holds s c e := by
  refine h.trans ?_
  unfold Holds Chip.stream
  rw [he]

theorem setStream {x : Stream} (h : Holds s c d) (hx : x.release = (d.stream s).release) : Holds s c (d.setStream s x) :=
  h.trans (by unfold Holds; rw [Chip.setStream_same, hx])

theorem putStream {x : Stream} (h : Holds s c d) (hx : x.release = (d.stream s).release) : Holds s c (d.putStream s x) := by
  unfold Chip.putStream
  extract_lets c1
  have h1 : Holds s c c1 := h.setStream hx
  split
  · exact h1
  · exact h1

theorem foldl {α : Type} {f : Chip → α → Chip} (hf : ∀ c x, Holds s c (f c x)) (l : List α) (h : Holds s c d) : Holds s c (l.foldl f d) := by
  induction l generalizing d with
  | nil => exact h
  | cons x l ih => exact ih (h.trans (hf d x))

theorem flagGranule {k bits : Nat} (h : Holds s c d) : Holds s c (d.flagGranule s k bits) := by
  unfold Chip.flagGranule
  extract_lets
  split_ifs
  · exact h
  · exact h

theorem bump {k n : Nat} (h : Holds s c d) : Holds s c (d.bump k n) := h.same (bump_streams ..)

theorem peg {tick kind flags detail amp : Nat} (h : Holds s c d) : Holds s c (d.makePeg tick kind flags detail amp) :=
  h.same (makePeg_streams ..)

theorem unsettle {n : Nat} (h : Holds s c d) : Holds s c (d.unsettle s n) := h.setStream rfl

theorem straddleAt {n : Nat} (h : Holds s c d) : Holds s c (d.straddleAt s n) := h.setStream rfl

theorem showL0 (h : Holds s c d) : Holds s c (d.showL0 s) := h

theorem l0Warm (h : Holds s c d) : Holds s c (d.l0Warm s) := by
  unfold Chip.l0Warm
  extract_lets x
  split
  · exact h.setStream rfl
  · exact h

theorem takeDelayed {ch : RouteChange} (h : Holds s c d) : Holds s c (d.takeDelayed s ch) := by
  unfold Chip.takeDelayed
  extract_lets x y z sp
  have hz : z.release = x.release := by
    unfold z
    split <;> rfl
  exact (h.putStream hz).unsettle.straddleAt.flagGranule

theorem dueDelayed {k : Nat} (h : Holds s c d) : Holds s c (d.dueDelayed s k) := by
  refine h.foldl (fun a _ => ?_) _
  split
  · exact refl.takeDelayed
  · exact refl

theorem takeMark {k dl : Nat} {started : Bool} {m : EntryMark} (h : Holds s c d) : Holds s c (d.takeMark s k dl started m) := by
  unfold Chip.takeMark
  extract_lets at_ sp x c1 c2
  have h1 : Holds s c c1 := by
    unfold c1
    exact Holds.unsettle (h.setStream rfl)
  have h2 : Holds s c c2 := by
    unfold c2
    split
    · exact h1.straddleAt
    · exact h1
  split
  · exact h2.l0Warm
  · exact h2

theorem endPulse {k : Nat} {p : Pulse} (h : Holds s c d) : Holds s c (d.endPulse s k p) := by
  unfold Chip.endPulse
  extract_lets
  split
  · exact Holds.peg (Holds.bump (h.setStream rfl))
  · exact Holds.bump (h.setStream rfl)

theorem l0Sample {k : Nat} {smp : Smp} (h : Holds s c d) : Holds s c (d.l0Sample s k smp) := by
  unfold Chip.l0Sample
  extract_lets cfg x ctl l frozen marked y prof hist re im cplx v band at_ q0 clips centre kc q p mu th meets kn warm armed learnt c1 f c2
  have h1 : Holds s c c1 := h.bump
  have h2 : Holds s c c2 := by
    unfold c2
    split
    · exact h1
    · exact h1
  have hx (e : Chip) (he : Holds s c e) : x.release = (e.stream s).release :=
    (show (d.stream s).release = (c.stream s).release from h).trans (Eq.symm he)
  clear_value c1 c2 x
  split
  · split
    · exact Holds.showL0 (h.setStream (by exact hx d h))
    · exact h
  · split
    · split
      · exact Holds.showL0 (h1.setStream (by exact hx c1 h1))
      · exact Holds.showL0 (h2.setStream (by exact hx c2 h2))
    · extract_lets fl better w c3
      have h3 : Holds s c c3 := by
        unfold c3
        exact h1.setStream (by exact hx c1 h1)
      split
      · exact h3.endPulse.showL0
      · exact h3.showL0

theorem pauseWriter {k flags : Nat} (h : Holds s c d) : Holds s c (d.pauseWriter s k flags) := by
  unfold Chip.pauseWriter Chip.notWritten
  extract_lets row _ _ c1
  have h1 : Holds s c c1 := by
    unfold c1
    split
    · exact h
    · exact h.bump
  exact h1.bump.flagGranule

theorem notWritten {k flags : Nat} (h : Holds s c d) : Holds s c (d.notWritten s k flags) := h.bump.flagGranule

end Chip.Holds

/-- The setters stay as they are, and so does the release point of stream `s`. -/
structure Dev.Holds (s : Nat) (d e : Dev) : Prop where
  cores : e.cores = d.cores
  chip : Chip.Holds s d.chip e.chip

namespace Dev.Holds

variable {s : Nat} {d e : Dev}

theorem refl : Holds s d d := ⟨rfl, rfl⟩

theorem trans {f : Dev} (h : Holds s d e) (h' : Holds s e f) : Holds s d f := ⟨h'.cores.trans h.cores, h.chip.trans h'.chip⟩

theorem foldl {α : Type} {f : Dev → α → Dev} (hf : ∀ d x, Holds s d (f d x)) (l : List α) (h : Holds s d e) : Holds s d (l.foldl f e) := by
  induction l generalizing e with
  | nil => exact h
  | cons x l ih => exact ih (h.trans (hf e x))

theorem withChip {c : Chip} (h : Holds s d e) (hc : Chip.Holds s e.chip c) : Holds s d { e with chip := c } := ⟨h.cores, h.chip.trans hc⟩

theorem withMem {m : Mem} (h : Holds s d e) : Holds s d { e with mem := m } := ⟨h.cores, h.chip⟩

theorem settle {cls p : Nat} (h : Holds s d e) : Holds s d (e.settle cls p) := by
  unfold Dev.settle
  extract_lets
  split
  · exact h
  · exact ⟨h.cores, h.chip⟩

theorem writePiece {u : HbmUser} {a : Nat} {b : List Byte} {poison : Bool} (h : Holds s d e) : Holds s d (e.writePiece u a b poison) := by
  have hdef := Eq.refl @Dev.writePiece
  conv at hdef => rhs; delta Dev.writePiece
  generalize hr : e.writePiece u a b poison = r
  rw [hdef] at hr
  beta_reduce at hr
  split at hr
  · exact hr ▸ h
  next ro _ =>
    extract_lets p d1 m at hr
    have hs : Holds s d d1 := h.settle
    clear_value m d1
    subst hr
    exact ⟨hs.cores, hs.chip⟩

theorem storeSample {k : Nat} {b : List Byte} (h : Holds s d e) : Holds s d (e.storeSample s k b) := by
  unfold Dev.storeSample Dev.writeHbm
  extract_lets d1 w hi
  have h1 : Holds s d d1 := h.foldl (fun _ _ => refl.writePiece) _
  exact ⟨h1.cores, h1.chip⟩

theorem drainStaged {l : List (Nat × List Byte)} (h : Holds s d e) : Holds s d (Dev.drainStaged s l e) := by
  induction l generalizing e with
  | nil => exact h.withChip (Chip.Holds.refl.setStream rfl)
  | cons x t ih =>
    rw [Dev.drainStaged]
    split_ifs
    · exact ih h
    · exact ih (h.withChip Chip.Holds.refl.pauseWriter)
    · exact ih h.storeSample
    · exact h.withChip (Chip.Holds.refl.setStream rfl)

theorem writeSample {k : Nat} {x : Smp} (h : Holds s d e) : Holds s d (e.writeSample s k x) := by
  unfold Dev.writeSample
  extract_lets d1 c r
  have h1 : Holds s d d1 := h.drainStaged
  split
  · exact h1
  · extract_lets
    split_ifs
    · exact h1
    · exact h1.withChip Chip.Holds.refl.pauseWriter
    · exact Holds.withChip h1.storeSample Chip.Holds.refl.flagGranule
    · exact h1.withChip (Chip.Holds.flagGranule (Chip.Holds.refl.setStream rfl))
    · exact h1.withChip Chip.Holds.refl.notWritten

theorem delayed {k : Nat} {x : Smp} (h : Holds s d e) : Holds s d (e.delayed s k x) := by
  unfold Dev.delayed
  extract_lets c y c1
  have hc : Chip.Holds s e.chip c := Chip.Holds.refl.dueDelayed
  have h1 : Chip.Holds s e.chip c1 := by
    unfold c1
    split
    · exact hc.setStream rfl
    · exact hc
  exact Holds.writeSample (h.withChip h1.l0Sample)

theorem unified {k : Nat} {x : Smp} (h : Holds s d e) : Holds s d (e.unified s k x) := by
  unfold Dev.unified
  extract_lets c y span line dl out hit c1
  have h1 : Chip.Holds s e.chip c1 := Chip.Holds.refl.setStream rfl
  exact Holds.delayed (h.withChip (h1.foldl (fun _ _ => Chip.Holds.refl.takeMark) hit))

theorem formTicks {row : List Byte} {uni : SMap Smp} {lo hi : Nat} (h : Holds s d e) : Holds s d (e.formTicks s row uni lo hi) := by
  refine h.foldl (fun a k => ?_) _
  exact Holds.unified (refl.withChip Chip.Holds.refl.bump)

/-- The unifier and all that follows it move no release point. -/
theorem unify {q : Nat} {x : Smp} (h : Holds s d e) : Holds s d (e.unify s q x) := by
  unfold Dev.unify
  extract_lets x uni mine next change last d1
  have h1 : Holds s d d1 := h.withChip (Chip.Holds.refl.setStream rfl)
  exact h1.formTicks.formTicks

end Dev.Holds

/-! ### What the commands do with a stream -/

theorem putStream_stream (c : Chip) (s : Nat) (x : Stream) : (c.putStream s x).stream s = x := by
  unfold Chip.putStream
  extract_lets c1
  have h1 : c1.stream s = x := Chip.setStream_same ..
  split
  · exact h1
  · exact h1

theorem takeDc_release (l : List DcChange) (x : Stream) : (l.foldl Stream.takeDc x).release = x.release := by
  induction l generalizing x with
  | nil => rfl
  | cons e l ih =>
    refine (ih _).trans ?_
    unfold Stream.takeDc
    split <;> rfl

theorem Chip.Holds.dcSample {s : Nat} {c d : Chip} {t : Int} {smp : Smp} (h : Holds s c d) : Holds s c (d.dcSample s t smp).2 := by
  unfold Chip.dcSample
  extract_lets x0 due _ x c1 k run cplx
  have h1 : Holds s c c1 := h.setStream (takeDc_release due x0)
  split
  · exact h1
  · exact h1.bump

/-- The sample that leaves moves the release point by one. -/
theorem leave_spec (d : Dev) {s q : Nat} (h : d.chip.dueEntry s (ownToTick (d.chip.stream s).rowIn q) = d.chip) :
    (d.leave s q).cores = d.cores ∧ ((d.leave s q).chip.stream s).release = some (q + 1) := by
  unfold Dev.leave
  extract_lets c0 c x smp c1 c2
  have hc : c = d.chip := h
  have h1 : (c1.stream s).release = some (q + 1) := by
    unfold c1
    rw [putStream_stream]
  have h2 : Chip.Holds s c1 c2 := by
    unfold c2
    split
    · exact Chip.Holds.refl.bump
    · exact .refl
  have h3 : Chip.Holds s c2 (c2.dcSample s (ownToTick x.rowIn q) smp).2 := Chip.Holds.refl.dcSample
  generalize c2.dcSample s (ownToTick x.rowIn q) smp = r at h3
  obtain ⟨y, c3⟩ := r
  have hu : Dev.Holds s { d with chip := c3 } (({ d with chip := c3 } : Dev).unify s q y) := Dev.Holds.refl.unify
  exact ⟨hu.cores, Eq.trans hu.chip (Eq.trans h3 (Eq.trans h2 h1))⟩

/-! ### A frame on the SAMPLE lane -/

/-- A frame that is taken shows in the bundles only. -/
theorem takeFrame_stirs {c d : Chip} {b vl : Nat} {bytes : List Byte} (hb : b < 256) (hvl : vl < 8) (h : c.takeFrame b vl bytes = some d) :
    Stirs .bundles c d := by
  have hgrant (e : Chip) (n : Nat) : Stirs .bundles e (e.grant b vl n) := by
    unfold Chip.grant
    split
    · exact .refl
    · extract_lets x g c1
      have h1 : Stirs .bundles e c1 := Stirs.refl.setBundle (by decide)
      split
      · exact h1.sendCredit (by decide)
      · exact h1
  unfold Chip.takeFrame at h
  extract_lets x at h
  split_ifs at h
  · exact Option.some.inj h ▸ (Stirs.refl.setBundle (by decide)).trans (hgrant _ _)
  · exact Option.some.inj h ▸ (Stirs.refl.bump (Stirs.stirLevel_bunOd (by decide) hb (by omega))).trans (hgrant _ _)

/-- The row of a tick follows from the streams' map, the values replaced, and the schedule. -/
theorem rowFor_stirs {a : Scope} {c d : Chip} (h : Stirs a c d) (s q : Nat) : d.rowFor s q = c.rowFor s q := by
  have hdom := h.dom
  have hpast := h.past
  have hsched : d.dict.schedule = c.dict.schedule := (congrArg (fun x : Chip => x.dict.schedule) h.still :)
  have hrow : d.row s = c.row s := by
    unfold Chip.row Chip.table Chip.rdDom
    rw [hdom]
  unfold Chip.rowFor Chip.rowTaken
  rw [hrow, hpast, hsched]

theorem stream_stirs {a : Scope} {c d : Chip} (h : Stirs a c d) (s : Nat) : d.stream s = c.stream s := by
  unfold Chip.stream
  rw [h.streams]

/-- A frame that is too short is counted, and nothing else. -/
theorem ingestFrame_short (d : Dev) (b : Nat) {frame : List Byte} (h : frame.length < 100) :
    d.ingestFrame b frame = { d with chip := d.chip.bump (od 0x2400 0x10) 1 } := by
  unfold Dev.ingestFrame
  extract_lets c count n fmt lenOk
  have hlen : lenOk = false := by
    unfold lenOk
    simp [show ¬ 100 ≤ frame.length by omega]
  rw [if_pos (by rw [hlen]; rfl)]

/-- The conditions under which a frame is the first good one of its stream. -/
structure FirstFrame (c : Chip) (b : Nat) (frame : List Byte) : Prop where
  long : 100 ≤ frame.length
  whole : beAt frame 18 2 % 64 = 0
  least : 64 ≤ beAt frame 18 2
  most : beAt frame 18 2 ≤ 16384
  payload : payloadBytes (beAt frame 1 1 / 16) (beAt frame 18 2) = some (frame.length - 36)
  crc : beAt frame (frame.length - 4) 4 = crc32 (frame.take (frame.length - 4))
  version : beAt frame 0 1 / 16 = 1
  on : rowOn (c.rowFor (beAt frame 2 2 % 1024) (beAt frame 4 8)).2 = true
  primary : rowPrimary (c.rowFor (beAt frame 2 2 % 1024) (beAt frame 4 8)).2 = b
  format : rowFormat (c.rowFor (beAt frame 2 2 % 1024) (beAt frame 4 8)).2 = beAt frame 1 1 / 16
  dup : (c.stream (beAt frame 2 2 % 1024)).dup = none
  release : (c.stream (beAt frame 2 2 % 1024)).release = none
  wait : (c.stream (beAt frame 2 2 % 1024)).st = .wait
  enabled : ((c.stream (beAt frame 2 2 % 1024)).uniTick : Int) ≤
    ownToTick (c.stream (beAt frame 2 2 % 1024)).rowIn (beAt frame 4 8 + beAt frame 18 2 - 1)

/-- The stream takes the number of its first frame, and then the frame itself. -/
theorem ingestFrame_first {d : Dev} {b : Nat} {frame : List Byte} (h : FirstFrame d.chip b frame) : d.ingestFrame b frame =
    (let s := beAt frame 2 2 % 1024
     let x := { d.chip.stream s with dup := some (beAt frame 12 6, 1, beAt frame 4 8) }
     ({ d with chip := d.chip.putStream s x } : Dev).placeFrame b s frame none) := by
  obtain ⟨hlong, hwhole, hleast, hmost, hpay, hcrc, hver, hon, hprim, hfmt, hdup, hrel, hwait, htick⟩ := h
  unfold Dev.ingestFrame
  extract_lets c count n fmt lenOk s x tick row restart h q
  have hlen : lenOk = true := by
    unfold lenOk n fmt
    rw [hpay]
    simp [hlong, hwhole, hleast, hmost]
    omega
  have hh : h = none := by
    unfold h
    split
    · rfl
    · exact hdup
  rw [if_neg (by rw [hlen]; decide), if_neg (not_not.mpr hcrc), if_neg (not_not.mpr hver), if_neg (by simp [show rowOn row = true from hon]),
    if_neg (by simp [show rowPrimary row = b from hprim]), if_neg (not_not.mpr hfmt.symm), hh]
  rfl

theorem putStream_rd (c : Chip) (s : Nat) (x : Stream) {k : Nat} (h1 : k ≠ strOd s 1) (h2 : k ≠ strOd s 2) (h3 : k ≠ strOd s 3) :
    (c.putStream s x).rd k = c.rd k := by
  have hw : (((c.setStream s x).wr (strOd s 1) x.st.code).wr (strOd s 3) (x.release.getD 0)).rd k = c.rd k :=
    (Chip.wr_rd_ne _ _ _ h3).trans (Chip.wr_rd_ne _ _ _ h1)
  unfold Chip.putStream
  extract_lets c1
  split
  · exact (Chip.wr_rd_ne _ _ _ h2).trans hw
  · exact hw

theorem putStream_lc (c : Chip) (s : Nat) (x : Stream) : (c.putStream s x).lc = c.lc := by
  unfold Chip.putStream
  extract_lets c1
  split
  · rfl
  · rfl

theorem strOd_ne {s sub sub' : Nat} (h : sub ≠ sub') : strOd s sub ≠ strOd s sub' := by
  unfold strOd od
  omega

/-- A stream in WAIT without a release point takes one at its first frame. -/
theorem firstFrame_of_none {d : Dev} {s tick : Nat} (h : (d.chip.stream s).release = none) : ∃ f : Nat,
    d.firstFrame s tick = { d with chip := d.chip.putStream s { d.chip.stream s with release := some f } } := by
  unfold Dev.firstFrame
  extract_lets c x f
  rw [show x.release = none from h]
  exact ⟨f, rfl⟩

/-- The first frame of a stream in WAIT, not before the tick that enabled it. -/
theorem placeFrame_first {d : Dev} {b s : Nat} {frame : List Byte} (hst : (d.chip.stream s).st = .wait)
    (hrel : (d.chip.stream s).release = none)
    (hon : ((d.chip.stream s).uniTick : Int) ≤ ownToTick (d.chip.stream s).rowIn (beAt frame 4 8 + beAt frame 18 2 - 1)) :
    ∃ e : Chip, d.placeFrame b s frame none = { d with chip := e } ∧ (e.stream s).st = .run ∧ (e.stream s).heard = d.chip.lc ∧
      e.rd (strOd s 0x10) = wrapObj (strOd s 0x10) (d.chip.rd (strOd s 0x10) + 1) := by
  unfold Dev.placeFrame
  extract_lets tick c x q n df late diff mismatch due c1 c2 c3 st d1 d2 cc y c4 first restart c5 c6
  have hc : c = d.chip := by
    unfold c Chip.rowAhead
    extract_lets r
    rw [if_neg (by simp [hst])]
  have hlate : late = false := by
    unfold late x
    rw [hc, hrel]
    simpa [hst] using hon
  have hc1 : c1 = d.chip := hc
  have hx : x.st = .wait := by
    unfold x
    rw [hc, hst]
  rw [if_neg (by rw [hlate]; decide)]
  have h2 : c2.rd (strOd s 0x10) = wrapObj (strOd s 0x10) (d.chip.rd (strOd s 0x10) + 1) := by
    unfold c2
    rw [bump_rd_ne _ _ (strOd_ne (by decide)), bump_rd_ne _ _ (strOd_ne (by decide)), bump_rd_same, hc1]
  have h2s : c2.streams = d.chip.streams := (bump_streams ..).trans ((bump_streams ..).trans ((bump_streams ..).trans (congrArg Chip.streams hc1)))
  have h2l : c2.lc = d.chip.lc := by
    unfold c2
    rw [bump_lc, bump_lc, bump_lc, hc1]
  have h3 : c3.obj = c2.obj ∧ c3.streams = c2.streams ∧ c3.lc = c2.lc := by
    unfold c3
    split
    · split
      · exact ⟨rfl, rfl, rfl⟩
      · exact ⟨rfl, rfl, rfl⟩
    · exact ⟨rfl, rfl, rfl⟩
  obtain ⟨h3o, h3s, h3l⟩ := h3
  have h3st : c3.stream s = d.chip.stream s := stream_of_streams (h3s.trans h2s) s
  clear_value c3
  have hd2 : d2 = d1.firstFrame s tick := if_pos (by simp [st, hx])
  obtain ⟨f, hf⟩ := firstFrame_of_none (d := d1) (s := s) (tick := tick) ((congrArg Stream.release h3st).trans hrel)
  have hccl : cc.lc = d.chip.lc := by
    unfold cc
    rw [hd2, hf]
    exact (putStream_lc ..).trans (h3l.trans h2l)
  have hccr : cc.rd (strOd s 0x10) = c2.rd (strOd s 0x10) := by
    unfold cc
    rw [hd2, hf]
    exact (putStream_rd _ _ _ (strOd_ne (by decide)) (strOd_ne (by decide)) (strOd_ne (by decide))).trans (congrArg (fun o => sget objDefault o _) h3o)
  have hdev : ({ d2 with chip := c6 } : Dev) = { d with chip := c6 } := by rw [hd2, hf]
  clear_value y cc
  have h4s : c4.stream s = { y with st := .run, heard := cc.lc } := putStream_stream ..
  have h4r : c4.rd (strOd s 0x10) = cc.rd (strOd s 0x10) :=
    putStream_rd _ _ _ (strOd_ne (by decide)) (strOd_ne (by decide)) (strOd_ne (by decide))
  clear_value c4
  obtain ⟨h5st, h5heard, h5r⟩ : (c5.stream s).st = .run ∧ (c5.stream s).heard = cc.lc ∧ c5.rd (strOd s 0x10) = c4.rd (strOd s 0x10) := by
    unfold c5
    split
    · unfold Chip.streamStarts
      extract_lets z
      rw [Chip.setStream_same]
      exact ⟨congrArg Stream.st h4s, congrArg Stream.heard h4s, rfl⟩
    · exact ⟨congrArg Stream.st h4s, congrArg Stream.heard h4s, rfl⟩
  have hc6 : c6 = c5 := if_neg (by simp [st, hx])
  refine ⟨c6, hdev, ?_⟩
  rw [hc6]
  exact ⟨h5st, h5heard.trans hccl, h5r.trans (h4r.trans (hccr.trans h2))⟩

/-- A frame that an INGEST bundle takes goes to the streams. -/
theorem execIngestFrame_of_take {s : State} {b : Fin 256} {frame : List Byte} {c : Chip} (hr : s.dev.chip.bundleRole b = 1)
    (ht : s.dev.chip.takeFrame b 2 frame = some c) : execIngestFrame b frame s = done s (({ s.dev with chip := c } : Dev).ingestFrame b frame) := by
  unfold execIngestFrame
  extract_lets c0 r
  have h1 : r = 1 := hr
  rw [if_neg (by simp [h1]), show c0.takeFrame b.val 2 frame = some c from ht]

/-- A first good frame, carried out. -/
theorem ingestFrame_spec {d : Dev} {b : Nat} {frame : List Byte} (h : FirstFrame d.chip b frame) :
    let i := beAt frame 2 2 % 1024
    ∃ e : Chip, d.ingestFrame b frame = { d with chip := e } ∧ (e.stream i).st = .run ∧ (e.stream i).heard = d.chip.lc ∧
      e.rd (strOd i 0x10) = wrapObj (strOd i 0x10) (d.chip.rd (strOd i 0x10) + 1) := by
  intro i
  rw [ingestFrame_first h]
  have hs : (d.chip.putStream i { d.chip.stream i with dup := some (beAt frame 12 6, 1, beAt frame 4 8) }).stream i = _ := putStream_stream ..
  obtain ⟨e, he, hst, hheard, hcount⟩ := placeFrame_first (b := b) (frame := frame)
    (d := { d with chip := d.chip.putStream i { d.chip.stream i with dup := some (beAt frame 12 6, 1, beAt frame 4 8) } })
    ((congrArg Stream.st hs).trans h.wait) ((congrArg Stream.release hs).trans h.release) (by rw [hs]; exact h.enabled)
  refine ⟨e, he, hst, hheard.trans (putStream_lc ..), ?_⟩
  rw [hcount]
  dsimp only
  rw [putStream_rd _ _ _ (strOd_ne (by decide)) (strOd_ne (by decide)) (strOd_ne (by decide))]

theorem stirLevel_strOd {i sub : Nat} (hi : i < 1024) (hs : sub < 256) : stirLevel (strOd i sub) = 5 := by
  unfold stirLevel strOd
  rw [keyIndex_od hs, keySub_od hs]
  extract_lets k x
  split_ifs <;> omega

/-- A stream in WAIT takes its first release point. -/
theorem sampleRelease_first {s : State} {n : Fin 1024} {q : Nat} (hl : s.dev.chip.leaving n = none) (hf : s.dev.chip.firstPoint n = some q) :
    ∃ c : Chip, execSampleRelease n s = ok s c ∧ (c.stream n).release = some q := by
  unfold execSampleRelease
  extract_lets c
  rw [show c.leaving n.val = none from hl, show c.firstPoint n.val = some q from hf]
  exact ⟨_, rfl, by rw [putStream_stream]⟩

/-- The sample that may leave leaves. -/
theorem sampleRelease_leave {s : State} {n : Fin 1024} {q : Nat} {p : Option Nat} (hl : s.dev.chip.leaving n = some q)
    (hc : (s.dev.leave n q).cores = s.dev.cores) (hr : ((s.dev.leave n q).chip.stream n).release = p) :
    ∃ d : Dev, execSampleRelease n s = done s d ∧ d.cores = s.dev.cores ∧ (d.chip.stream n).release = p := by
  unfold execSampleRelease
  extract_lets c
  rw [show c.leaving n.val = some q from hl]
  exact ⟨_, rfl, hc, hr⟩

/-- A stall empties the buffer, and counts. -/
theorem stallTimeout_spec {s : State} {n : Fin 1024} (hst : (s.dev.chip.stream n).st = .run) : ∃ c : Chip, execStallTimeout n s = ok s c ∧
    (c.stream n).st = .stall ∧ (c.stream n).buf = [] ∧
    c.rd (strOd n 0x1A) = wrapObj (strOd n 0x1A) (s.dev.chip.rd (strOd n 0x1A) + 1) := by
  unfold execStallTimeout
  extract_lets c x
  rw [if_pos hst]
  have h1 : Stirs .waiting c (c.untilLc (x.heard + c.rd (od 0x2400 2) * 1000)) := Stirs.refl.untilLc (by decide)
  have hrd := h1.rd (strOd n 0x1A) (by rw [stirLevel_strOd n.isLt (by decide)]; decide)
  generalize c.untilLc (x.heard + c.rd (od 0x2400 2) * 1000) = c1 at hrd
  have hs := putStream_stream c1 n { x with st := .stall, dup := none, buf := [] }
  have hr := putStream_rd c1 n { x with st := .stall, dup := none, buf := [] } (k := strOd n 0x1A) (strOd_ne (by decide)) (strOd_ne (by decide))
    (strOd_ne (by decide))
  generalize c1.putStream n { x with st := .stall, dup := none, buf := [] } = c2 at hs hr
  have hf : Stirs .report (c2.bump (strOd n 0x1A) 1) _ := Stirs.refl.fault (sev := .degrade) (kind := .change) (object := strOd n 1) (old := 2) (new := 3) (detail := 0)
  have hfs : _ = c2.stream n := (stream_stirs hf n).trans (stream_of_streams (bump_streams ..) n)
  refine ⟨_, rfl, ?_, ?_, ?_⟩
  · exact (congrArg Stream.st (hfs.trans hs) :)
  · exact (congrArg Stream.buf (hfs.trans hs) :)
  · rw [hf.rd _ (by rw [stirLevel_strOd n.isLt (by decide)]; decide), bump_rd_same, hr, hrd]

end Sys2Proof.Machine
end

section
/-! SUPPORT. The obligation about ingest frames, the release of samples and stalls. -/

namespace Sys2Proof
open Machine

/-- Settles O43: a frame that is taken changes bundles only before its stream takes it, and what a sample that leaves goes through moves no
release point. -/
theorem streamFrames : Obligations.StreamFrames := by
  intro s b frame n q c i x row key
  refine ⟨?_, ?_, ?_, ?_, ?_⟩
  · intro hr ht hshort
    obtain ⟨e, he⟩ := Option.isSome_iff_exists.mp ht
    have hstirs := takeFrame_stirs b.isLt (by decide) he
    refine runs_done ((execIngestFrame_of_take hr he).trans (congrArg (done s) (ingestFrame_short _ _ hshort))) ⟨?_, rfl, rfl⟩
    exact (bump_rd_same ..).trans (congrArg (fun v => wrapObj (od 0x2400 0x10) (v + 1)) (hstirs.rd _ (by decide)))
  · intro hr ht hlong hwhole hleast hmost hpay hcrc hver hon hprim hfmt hdup hrel hwait htick
    obtain ⟨e, he⟩ := Option.isSome_iff_exists.mp ht
    have hstirs := takeFrame_stirs b.isLt (by decide) he
    have hrow := rowFor_stirs hstirs i (beAt frame 4 8)
    have hstream := stream_stirs hstirs i
    have hfirst : FirstFrame e b.val frame := ⟨hlong, hwhole, hleast, hmost, hpay, hcrc, hver, by rw [hrow]; exact hon, by rw [hrow]; exact hprim,
      by rw [hrow]; exact hfmt, by rw [hstream]; exact hdup, by rw [hstream]; exact hrel, by rw [hstream]; exact hwait, by rw [hstream]; exact htick⟩
    obtain ⟨e', he', hst, hheard, hcount⟩ := ingestFrame_spec (d := { s.dev with chip := e }) hfirst
    refine runs_done ((execIngestFrame_of_take hr he).trans (congrArg (done s) he')) ⟨hst, hheard.trans hstirs.lc, ?_, rfl, rfl⟩
    exact hcount.trans (congrArg (fun v => wrapObj (strOd i 0x10) (v + 1)) (hstirs.rd _ (by rw [stirLevel_strOd (Nat.mod_lt _ (by decide)) (by decide)]; decide)))
  · intro hl hf
    obtain ⟨e, he, hrel⟩ := sampleRelease_first hl hf
    exact runs_ok he ⟨hrel, rfl, rfl⟩
  · intro hl hdue
    obtain ⟨hcores, hrel⟩ := leave_spec s.dev hdue
    obtain ⟨e, he, hec, her⟩ := sampleRelease_leave hl hcores hrel
    exact runs_done he ⟨her, hec⟩
  · intro hst
    obtain ⟨e, he, hstall, hbuf, hcount⟩ := stallTimeout_spec hst
    exact runs_ok he ⟨hstall, hbuf, hcount, rfl, rfl⟩

end Sys2Proof
end

section
/-! SUPPORT. A write of an object: the dictionary's rows, the mirror, and the answer (R359-R366, R441). -/

namespace Sys2Proof.Machine

open Chip (Stirs)

/-! ### The rows of the dictionary -/

set_option maxRecDepth 8000 in
theorem objTable_disjoint : objTable.Pairwise fun a b => a.first + a.count ≤ b.first ∨ b.first + b.count ≤ a.first := by decide

/-- An index lies in the one group that has it. -/
theorem objGroup_of_mem {g : ObjGroup} {idx : Nat} (hg : g ∈ objTable) (hlo : g.first ≤ idx) (hhi : idx < g.first + g.count) :
    objGroup idx = some g := by
  have hp : (decide (g.first ≤ idx) && decide (idx < g.first + g.count)) = true := by simp [hlo, hhi]
  obtain ⟨g', hg'⟩ : ∃ g', objGroup idx = some g' :=
    Option.isSome_iff_exists.mp (List.find?_isSome.mpr ⟨g, hg, hp⟩)
  have hmem := List.mem_of_find?_eq_some hg'
  have hin := List.find?_some hg'
  by_cases he : g = g'
  · exact he ▸ hg'
  · have hsymm : Std.Symm fun a b : ObjGroup => a.first + a.count ≤ b.first ∨ b.first + b.count ≤ a.first := ⟨fun _ _ h => h.symm⟩
    have hd := objTable_disjoint.forall hg hmem he
    simp only [Bool.and_eq_true, decide_eq_true_eq] at hin
    omega

theorem objRow_of_mem {g : ObjGroup} {idx : Nat} (sub : Nat) (hg : g ∈ objTable) (hlo : g.first ≤ idx) (hhi : idx < g.first + g.count) :
    objRow idx sub = g.rows.find? fun r => r.sub ≤ sub && sub < r.sub + r.n := by
  unfold objRow
  rw [objGroup_of_mem hg hlo hhi]

/-! ### The mirror -/

/-- What is mirrored to the partner shows in the bundles, the twin's numbers and the count of it. -/
structure Chip.Mirrors (c d : Chip) : Prop where
  frame : ∃ b t o, d = { c with bundles := b, twin := t, obj := o }
  rd : ∀ k, k ≠ od 0x5400 0x22 → d.rd k = c.rd k
  twin : { d.twin with ids := [] } = { c.twin with ids := [] }

namespace Chip.Mirrors

variable {c d : Chip}

theorem refl : Mirrors c c := ⟨⟨_, _, _, rfl⟩, fun _ _ => rfl, rfl⟩

theorem trans {e : Chip} (h : Mirrors c d) (h' : Mirrors d e) : Mirrors c e := by
  obtain ⟨b, t, o, ho⟩ := h.frame
  obtain ⟨b', t', o', ho'⟩ := h'.frame
  exact ⟨⟨b', t', o', by rw [ho', ho]⟩, fun k hk => (h'.rd k hk).trans (h.rd k hk), h'.twin.trans h.twin⟩

theorem mirror (h : Mirrors c d) (type : Nat) (body : List Byte) : Mirrors c (d.mirror type body) := by
  refine h.trans ?_
  unfold Chip.mirror
  split
  · exact refl
  · extract_lets n
    refine ⟨⟨_, _, _, rfl⟩, fun k hk => (bump_rd_ne _ _ hk).trans rfl, rfl⟩

theorem mirrorWrite (h : Mirrors c d) {k seq : Nat} {b : List Byte} {staged : Bool} : Mirrors c (d.mirrorWrite k b staged seq) := by
  unfold Chip.mirrorWrite
  extract_lets n
  generalize List.range n = l
  induction l generalizing d with
  | nil => exact h
  | cons i l ih => exact ih (h.mirror _ _)

theorem mirrorAccepted (h : Mirrors c d) {sess k : Nat} {v : Val} : Mirrors c (d.mirrorAccepted sess k v) := by
  unfold Chip.mirrorAccepted
  split
  · exact h.mirrorWrite
  · exact h

/-- What an object shows after the mirror and the answer. -/
theorem answered_rd (h : Mirrors c d) {sess key : Nat} {st : Status} {k : Nat} (h1 : keyIndex k ≠ 0x1100) (h2 : keyIndex k ≠ 0x1300)
    (h3 : keyIndex k ≠ 0x5800) (h4 : keyIndex k ≠ 0x5400) : (d.answer sess key st).rd k = c.rd k := by
  refine (Chip.Tells.refl.answer.rd k h1 h2 h3).trans (h.rd k ?_)
  rintro rfl
  exact h4 rfl

end Chip.Mirrors

/-! ### A write that is carried out -/

theorem put_act {d : Dev} {sess k : Nat} {v : Val} (a : Asker) (held : Held) (hk : k ≠ powOd 2 ∨ d.chip.power.rate = none)
    (hg : d.chip.gate false sess k v = .act) : d.put sess k v a held =
      { (d.accept sess k v a).1 with chip := (d.accept sess k v a).1.chip.replyIf a (d.accept sess k v a).2 } := by
  unfold Dev.put
  extract_lets c
  have hn : (c.serves && k == powOd 2 && c.power.rate.isSome) = false := by
    rcases hk with h | h
    · simp [h]
    · simp [show c.power.rate = none from h]
  rw [if_neg (by rw [hn]; decide), show c.gate false sess k v = .act from hg]

theorem accept_ok {d d1 : Dev} {sess k : Nat} {v : Val} {a : Asker} (h : d.writeNow sess k v a = (d1, some .ok)) :
    d.accept sess k v a = ({ d1 with chip := d1.chip.mirrorAccepted sess k v }, some .ok) := by
  unfold Dev.accept
  rw [h]
  rfl

/-- A write that is carried out: what it does, its mirror, its answer. -/
theorem runs_write {i : Instr} {s : State} {sess k : Nat} {v : Val} {d1 : Dev} {p : State → Prop}
    (hi : exec i s = done s (s.dev.write sess k v)) (ha : s.accepts sess k v) (hk : k ≠ powOd 2 ∨ s.dev.chip.power.rate = none)
    (hw : s.dev.writeNow sess k v (.plain sess k) = (d1, some .ok))
    (hp : ∀ c : Chip, Chip.Mirrors d1.chip c → p { s with dev := { d1 with chip := c.answer sess k .ok } }) : Runs i s p := by
  refine runs_done hi ?_
  unfold Dev.write
  rw [put_act _ _ hk ha, accept_ok hw]
  exact hp _ Chip.Mirrors.refl.mirrorAccepted

/-- The part of `writeNum` that a row without counters to clear reaches, at an index from 6000 on: outside the formes, or at one of a beam forme. -/
theorem writeNum_high {d : Dev} {sess k n : Nat} (a : Asker) {r : ObjRow} (hr : objRow (keyIndex k) (keySub k) = some r) (hc : r.clears = [])
    (hi : 0x6000 ≤ keyIndex k) (hf : ¬ (0x8000 ≤ keyIndex k ∧ keyIndex k < 0x9000 ∧ d.chip.formeKind (keyIndex k - 0x8000) ≠ 2)) :
    d.writeNum sess k n a = ({ d with chip := (d.chip.writeHigh k n).1 }, some (d.chip.writeHigh k n).2) := by
  have hpow (sub : Nat) (hs : sub < 256) : k ≠ powOd sub := by
    rintro rfl
    rw [powOd, keyIndex_od hs] at hi
    omega
  unfold Dev.writeNum
  extract_lets i b c up upd upo
  have h6 : 0x6000 ≤ i := hi
  rw [hr]
  dsimp -zeta only
  have hforme : ¬ (decide (0x8000 ≤ i) && decide (i < 0x9000) && decide (0x20 ≤ b) && decide (c.formeKind (i - 0x8000) ≠ 2)) = true := by
    simp only [Bool.and_eq_true, decide_eq_true_eq]
    exact fun h => hf ⟨h.1.1.1, h.1.1.2, h.2⟩
  rw [if_neg hforme, if_neg (by simp [hc]), if_neg (by simp; omega), if_neg (by simp; omega), if_neg (by simp; omega),
    if_neg (by simp; omega), if_neg (by simp; omega), if_neg (by simp; omega), if_neg (by simp; omega), if_neg (by simp; omega),
    if_neg (hpow 2 (by decide)), if_neg (hpow 0x10 (by decide)), if_neg (by simp; omega), if_neg (by omega)]

end Sys2Proof.Machine
end

section
/-! SUPPORT. Changes of a stream's row, of its mean, of the ring and of its detector (R93, R100-R111, R218). -/

namespace Sys2Proof.Machine

open Chip (Stirs)

theorem flagGranule_streams (c : Chip) (s k bits : Nat) : (c.flagGranule s k bits).streams = c.streams := by
  unfold Chip.flagGranule
  extract_lets
  split_ifs
  · rfl
  · rfl

theorem takeEntry_rowIn (c : Chip) (s : Nat) (e : RouteChange) : ((c.takeEntry s e).stream s).rowIn = e.row := by
  unfold Chip.takeEntry
  extract_lets x anew y z
  have hz : z.rowIn = e.row := by
    unfold z
    split <;> rfl
  rw [stream_of_streams (flagGranule_streams ..), putStream_stream, hz]

theorem takeDelayed_rowOut (c : Chip) (s : Nat) (e : RouteChange) : ((c.takeDelayed s e).stream s).rowOut = e.row := by
  unfold Chip.takeDelayed
  extract_lets x y z sp
  have hz : z.rowOut = e.row := by
    unfold z
    split <;> rfl
  rw [stream_of_streams (flagGranule_streams ..)]
  unfold Chip.straddleAt Chip.unsettle
  extract_lets x1 x2
  rw [Chip.setStream_same]
  unfold x2
  rw [Chip.setStream_same]
  unfold x1
  rw [putStream_stream, hz]

theorem l0Warm_stream (c : Chip) (s : Nat) : ((c.l0Warm s).stream s).st = (c.stream s).st ∧ ((c.l0Warm s).stream s).buf = (c.stream s).buf := by
  unfold Chip.l0Warm
  extract_lets x
  split
  · have h : ∀ y : Stream, ((c.setStream s y).showL0 s).stream s = y := fun y => Chip.setStream_same ..
    rw [h]
    exact ⟨rfl, rfl⟩
  · exact ⟨rfl, rfl⟩

/-- A stream that goes OFF keeps nothing in its buffer. -/
theorem streamOff_spec (c : Chip) (s : Nat) : ((c.streamOff s).stream s).st = .off ∧ ((c.streamOff s).stream s).buf = [] := by
  unfold Chip.streamOff
  extract_lets x first rest y c1
  have h1 : (c1.stream s).st = .off ∧ (c1.stream s).buf = [] := by
    unfold c1
    obtain ⟨hst, hbuf⟩ := l0Warm_stream (c.putStream s { y with
      st := .off, dup := none, release := none, buf := [], highest := 0, rowIn := [], changes := rest, dcChanges := [], dcFrozen := false,
      uni := [], line := [], next := none, entryMarks := [] }) s
    rw [hst, hbuf, putStream_stream]
    exact ⟨rfl, rfl⟩
  split
  · rw [stream_stirs (a := .report) Stirs.refl.fault]
    exact h1
  · exact h1

/-- A disabling entry that is reached and that no later one takes back. -/
theorem streamDisable_off {s : State} {n : Fin 1024} {e : RouteChange}
    (he : ((s.dev.chip.stream n).changes.find? fun f => f.entry && !rowOn f.row) = some e) (hst : (s.dev.chip.stream n).st ≠ .off)
    (hrun : (s.dev.chip.stream n).st = .run → ∃ q, (s.dev.chip.stream n).release = some q ∧ (e.tick : Int) ≤ ownToTick (s.dev.chip.stream n).rowIn q)
    (hlast : ∀ f ∈ (s.dev.chip.stream n).changes, f.entry = true → rowOn f.row = true → f.tick ≤ e.tick) :
    execStreamDisable n s = ok s (s.dev.chip.streamOff n) := by
  unfold execStreamDisable
  extract_lets c x
  rw [show (x.changes.find? fun e => e.entry && !rowOn e.row) = some e from he]
  dsimp -zeta only
  have hon : (x.changes.find? fun f => f.entry && rowOn f.row && decide (e.tick < f.tick)) = none := by
    refine List.find?_eq_none.mpr fun f hf => ?_
    have := hlast f hf
    simp only [Bool.and_eq_true, decide_eq_true_eq]
    rintro ⟨⟨h1, h2⟩, h3⟩
    exact absurd (this h1 h2) (by omega)
  rw [hon]
  extract_lets reached
  have hr : reached = true := by
    unfold reached
    have hst' : x.st ≠ .off := hst
    have hrun' : x.st = .run → ∃ q, x.release = some q ∧ (e.tick : Int) ≤ ownToTick x.rowIn q := hrun
    split
    · contradiction
    · next q h1 h2 =>
      obtain ⟨q', hq', hle⟩ := hrun' h1
      obtain rfl : q = q' := Option.some.inj (h2.symm.trans hq')
      exact decide_eq_true hle
    · rfl
  rw [if_neg (by rw [hr]; decide)]

/-- The mean of a live stream takes what is written. -/
theorem dcMean_ok {c : Chip} {s : Nat} (n : Nat) (hst : (c.stream s).st ≠ .off) (h : (c.stream s).dcMode = 1 → (c.stream s).dcFrozen = true) :
    c.dcMean s false n = (c.wr (strOd s 6) n, .ok) := by
  unfold Chip.dcMean
  extract_lets x frozen
  have hf : frozen = x.dcFrozen := if_neg hst
  rw [if_neg (by rw [hf]; simpa using h)]
  rfl

/-- A write of an object of a stream. -/
theorem writeHigh_strOd (c : Chip) (n : Fin 1024) {sub : Nat} (hsub : sub < 256) (v : Nat) : c.writeHigh (strOd n sub) v =
    if sub = 6 then c.dcMean n false v
    else if sub = 7 then c.dcMean n true v
    else if sub = 0x44 then if c.fft / 2 < v then (c, .range) else c.setting (strOd n sub) v
    else if sub = 0x47 then c.onOne v fun x => x.segmentsClear n
    else if sub = 0x65 then c.noiseSetting n v
    else c.setting (strOd n sub) v := by
  have hi : keyIndex (strOd n sub) = 0x9000 + n := keyIndex_od hsub
  have hs : keySub (strOd n sub) = sub := keySub_od hsub
  have hlt := n.isLt
  have hne (i j : Nat) (hj : j < 256) (h : i < 0x9000) : strOd n sub ≠ od i j := by
    unfold strOd od
    omega
  unfold Chip.writeHigh
  extract_lets i b v' f s'
  have hi9 : i = 0x9000 + n := hi
  have hs' : s' = n := by
    unfold s'
    omega
  have hpair : strOd n sub ≠ od 0x4C00 0x11 := hne _ _ (by decide) (by decide)
  have hpow (j : Nat) (h : j < 256) : strOd n sub ≠ powOd j := hne _ _ h (by decide)
  have htwin (j : Nat) (h : j < 256) : strOd n sub ≠ twinOd j := hne _ _ h (by decide)
  have hrst (j : Nat) (h : j < 256) : strOd n sub ≠ rstOd j := hne _ _ h (by decide)
  rw [if_neg (by simp; omega), if_neg (by simp; omega), if_neg (by omega), if_neg (by simp; omega), if_neg hpair,
    if_neg (by simp; omega), if_neg (hpow 3 (by decide)), if_neg (hpow 0x12 (by decide)), if_neg (by simp; omega),
    if_neg (htwin 6 (by decide)), if_neg (htwin 0x14 (by decide)), if_neg (hrst 3 (by decide)),
    if_neg (hrst 0x13 (by decide)), if_neg (by simp; omega), if_pos (by simp; omega), hs', show b = sub from hs]

/-- The row of an object of a stream. -/
theorem objRow_strOd (n : Fin 1024) {sub : Nat} (hsub : sub < 256) : objRow (keyIndex (strOd n sub)) (keySub (strOd n sub)) =
    objs9000.rows.find? fun r => r.sub ≤ sub && sub < r.sub + r.n := by
  rw [show keyIndex (strOd n sub) = 0x9000 + n from keyIndex_od hsub, show keySub (strOd n sub) = sub from keySub_od hsub]
  exact objRow_of_mem (g := objs9000) sub (by decide) (Nat.le_add_right _ _) (Nat.add_lt_add_left n.isLt _)

/-- A write of a scalar object of a stream without counters to clear. -/
theorem writeNum_strOd {d : Dev} {n : Fin 1024} {sub : Nat} {r : ObjRow} (hsub : sub < 256)
    (hr : objs9000.rows.find? (fun r => r.sub ≤ sub && sub < r.sub + r.n) = some r) (hc : r.clears = []) (sess v : Nat) (a : Asker) :
    d.writeNow sess (strOd n sub) (.num v) a =
      ({ d with chip := (d.chip.writeHigh (strOd n sub) v).1 }, some (d.chip.writeHigh (strOd n sub) v).2) := by
  have hi : keyIndex (strOd n sub) = 0x9000 + n := keyIndex_od hsub
  exact writeNum_high a ((objRow_strOd n hsub).trans hr) hc (by omega) (by omega)

/-- An index of a stream is far from those that reports, answers and the mirror show. -/
theorem keyIndex_strOd_ne (n : Fin 1024) {sub j : Nat} (hsub : sub < 256) (hj : j < 0x9000) : keyIndex (strOd n sub) ≠ j := by
  have hi : keyIndex (strOd n sub) = 0x9000 + n := keyIndex_od hsub
  omega

theorem strOd_ne_powOd (n : Fin 1024) {sub : Nat} (hsub : sub < 256) : strOd n sub ≠ powOd 2 := fun h =>
  keyIndex_strOd_ne n hsub (by decide : 0x5000 < 0x9000) (congrArg keyIndex h)

theorem l0WarmupEnd_spec {s : State} {n : Fin 1024} (hon : (s.dev.chip.stream n).l0.on = true)
    (hw : 4 * 2 ^ s.dev.chip.rd (strOd n 0x62) ≤ (s.dev.chip.stream n).l0.warm) : ∃ c : Chip, execL0WarmupEnd n s = ok s c ∧
      (c.stream n).l0.armed = true := by
  refine ⟨_, if_pos (by simp [hon, hw]), ?_⟩
  have h : ∀ y : Stream, ((s.dev.chip.setStream n y).showL0 n).stream n = y := fun y => Chip.setStream_same ..
  rw [h]

theorem ringRestarted_spec {c : Chip} {r : Ring} {rs : List Ring} (h : c.writer.next = r :: rs) :
    c.ringRestarted.writer.cur = r ∧ c.ringRestarted.writer.next = rs ∧ c.ringRestarted.rd (od 0x2400 4) = r.rows := by
  unfold Chip.ringRestarted
  rw [h]
  extract_lets w
  exact ⟨rfl, rfl, (Chip.wr_rd_ne _ _ _ (by decide)).trans ((Chip.wr_rd_ne _ _ _ (by decide)).trans (Chip.wr_rd_same ..))⟩

end Sys2Proof.Machine
end

section
/-! SUPPORT. The obligation about changes of a stream. -/

namespace Sys2Proof
open Machine

/-- Settles O44: each command takes the first change that waits; what follows it in the same step keeps the field that it set. -/
theorem streamChanges : Obligations.StreamChanges := by
  intro s sess n e d rest v r rs c x key
  refine ⟨?_, ?_, ?_, ?_, ?_, ?_, ?_⟩
  · intro he
    obtain ⟨c1, hc1, hrow⟩ : ∃ c1 : Chip, execRouteChangeEffect n s = ok s c1 ∧ (c1.stream n).rowIn = e.row :=
      ⟨_, by unfold execRouteChangeEffect; extract_lets; rw [show (x.changes.find? fun e => e.entry && rowOn e.row) = some e from he],
        takeEntry_rowIn ..⟩
    exact runs_ok hc1 ⟨hrow, rfl, rfl⟩
  · intro hnone he
    obtain ⟨c1, hc1, hrow⟩ : ∃ c1 : Chip, execRouteChangeEffect n s = ok s c1 ∧ (c1.stream n).rowOut = e.row :=
      ⟨_, by unfold execRouteChangeEffect; extract_lets; rw [show (x.changes.find? fun e => e.entry && rowOn e.row) = none from hnone, he],
        takeDelayed_rowOut ..⟩
    exact runs_ok hc1 ⟨hrow, rfl, rfl⟩
  · intro he hst hrun hlast
    obtain ⟨hoff, hbuf⟩ := streamOff_spec c n
    have hx := streamDisable_off he hst hrun hlast
    generalize s.dev.chip.streamOff n = c1 at hx hoff hbuf
    exact runs_ok hx ⟨hoff, hbuf, rfl, rfl⟩
  · intro hd
    have hx : execDcFreeze n s = ok s (c.setStream n { x.takeDc d with dcChanges := rest }) := by
      unfold execDcFreeze
      extract_lets
      rw [show x.dcChanges = d :: rest from hd]
    exact runs_ok hx ⟨Chip.setStream_same .., rfl, rfl⟩
  · intro hacc hst hfrozen
    have hw : s.dev.writeNow sess (strOd n 6) (.num (ofI v 32)) (.plain sess (strOd n 6)) =
        ({ s.dev with chip := c.wr (strOd n 6) (ofI v 32) }, some .ok) := by
      rw [writeNum_strOd (by decide) rfl rfl, writeHigh_strOd _ _ (by decide), if_pos rfl, dcMean_ok _ hst hfrozen]
    refine runs_write (i := .dcMeanWrite sess n false v) rfl hacc (.inl (strOd_ne_powOd n (by decide))) hw fun c1 hc1 =>
      ⟨?_, answer_head .., rfl, rfl⟩
    exact (hc1.answered_rd (keyIndex_strOd_ne n (by decide) (by decide)) (keyIndex_strOd_ne n (by decide) (by decide))
      (keyIndex_strOd_ne n (by decide) (by decide)) (keyIndex_strOd_ne n (by decide) (by decide))).trans (Chip.wr_rd_same ..)
  · intro hnext
    obtain ⟨hcur, hrest, hrows⟩ := ringRestarted_spec hnext
    exact runs_ok rfl ⟨hcur, hrest, hrows, rfl, rfl⟩
  · intro hon hw
    obtain ⟨c1, hc1, harmed⟩ := l0WarmupEnd_spec hon hw
    exact runs_ok hc1 ⟨harmed, rfl, rfl⟩

end Sys2Proof
end

section
/-! SUPPORT. The channelizer: spectra, sticks, delay segments and the truss frames (R118-R146). -/

namespace Sys2Proof.Machine

open Chip (Stirs)

theorem bump_fe (c : Chip) (k n : Nat) : (c.bump k n).fe = c.fe := by
  obtain ⟨o, ho⟩ := c.bump_frame k n
  rw [ho]

theorem foldl_keeps {α β : Type} (g : Chip → β) {f : Chip → α → Chip} (hf : ∀ c x, g (f c x) = g c) (l : List α) (c : Chip) :
    g (l.foldl f c) = g c := by
  induction l generalizing c with
  | nil => rfl
  | cons x l ih => exact (ih _).trans (hf c x)

/-- What is discarded waits in the bundles. -/
theorem discardOld_keeps (c : Chip) (stick : Nat) : (c.discardOld stick).streams = c.streams ∧ (c.discardOld stick).fe = c.fe := by
  have h (g : Chip → SMap Stream × FEngine) (hg : g = fun c => (c.streams, c.fe)) : g (c.discardOld stick) = g c := by
    refine foldl_keeps g (fun a b => ?_) _ c
    subst hg
    dsimp only
    split
    · rfl
    · split
      · rw [bump_streams, bump_fe, bump_streams, bump_fe]
        rfl
      · rw [bump_streams, bump_fe]
        rfl
  exact ⟨congrArg Prod.fst (h _ rfl), congrArg Prod.snd (h _ rfl)⟩

theorem acc_setAcc (c : Chip) (s : Nat) (a : Option StickAcc) : (c.setAcc s a).acc s = a := sget_sset_same ..

/-- The stick in the making takes a spectrum at its place. -/
theorem spectrum_spec {s : State} {n : Fin 1024} {a : StickAcc} (ha : s.dev.chip.acc n = some a) (hc : a.count = (s.dev.chip.stream n).spec % 256)
    (hl : s.dev.chip.live n (s.dev.chip.stream n).spec = true → (s.dev.chip.stream n).st ≠ .off →
      ((s.dev.chip.stream n).spec + 1) * s.dev.chip.fft ≤ (s.dev.chip.stream n).next.getD 0) :
    ∃ c : Chip, execSpectrum n s = ok s c ∧ (c.stream n).spec = (s.dev.chip.stream n).spec + 1 ∧
      (s.dev.chip.live n (s.dev.chip.stream n).spec = false → a.count ≠ 0 →
        c.acc n = some { a with count := a.count + 1, flags := a.flags ||| 128 }) := by
  unfold execSpectrum
  extract_lets s' c x sp f here live keep first
  have hhere : here = some a := by
    unfold here
    rw [show c.acc s' = some a from ha]
    exact if_pos (by rw [hc]; exact Nat.mod_lt _ (by decide))
  rw [hhere]
  dsimp -zeta only
  extract_lets a' c1 y c2
  have ha' : a' = a := if_neg (not_not.mpr hc.symm)
  have hgo : ¬ (live && x.st != StreamSt.off && decide (x.next.getD 0 < (sp + 1) * f)) = true := by
    simp only [Bool.and_eq_true, bne_iff_ne, decide_eq_true_eq, not_and, not_lt]
    exact fun ⟨h1, h2⟩ => hl h1 h2
  rw [if_neg hgo]
  have hspec : (c2.stream n).spec = sp + 1 := by
    unfold c2
    rw [Chip.setStream_same]
  have hacc : c2.acc n = c1.acc n := rfl
  have hfill (h0 : live = false) : c1.acc n = some { a with count := a.count + 1, flags := a.flags ||| 128 } := by
    unfold c1
    rw [if_neg (by rw [h0]; decide), ha']
    exact acc_setAcc ..
  clear_value c2 c1
  by_cases hf : first = true
  · rw [if_pos hf]
    obtain ⟨hstr, -⟩ := discardOld_keeps { c2 with fe := { c2.fe with top := some (sp / 256) } } (sp / 256)
    refine ⟨_, rfl, ?_, fun _ h0 => ?_⟩
    · exact (congrArg Stream.spec (stream_of_streams hstr n) :).trans hspec
    · have : sp % 256 = 0 := by
        unfold first at hf
        obtain ⟨hmod, -⟩ := Bool.and_eq_true_iff.mp hf
        exact of_decide_eq_true hmod
      exact absurd (hc.trans this) h0
  · rw [if_neg hf]
    exact ⟨_, rfl, hspec, fun h0 _ => hacc.trans (hfill h0)⟩

/-- Reports that are written leave the sticks and what is armed. -/
theorem flushReports_keeps (c : Chip) (stick : Nat) : (c.flushReports stick).fe.accs = c.fe.accs ∧ (c.flushReports stick).fe.armed = c.fe.armed := by
  have h (l : List StickReport) (d : Chip) : (l.foldl Chip.writeReport d).fe = d.fe := by
    refine foldl_keeps Chip.fe (fun e r => ?_) l d
    unfold Chip.writeReport
    exact bump_fe ..
  unfold Chip.flushReports
  split
  · exact ⟨rfl, rfl⟩
  · extract_lets mine _ c1
    have h1 : c1.fe = { c.fe with reports := c.fe.reports.filter fun r => stick < r.stick } := h ..
    have haccs : c1.fe.accs = c.fe.accs := by rw [h1]
    have harmed : c1.fe.armed = c.fe.armed := by rw [h1]
    clear_value c1
    split
    · exact ⟨haccs, harmed⟩
    · exact ⟨haccs, harmed⟩

theorem showRunning_fe (c : Chip) : c.showRunning.fe = c.fe := by
  unfold Chip.showRunning
  split <;> rfl

/-- A full stick ends. -/
theorem stickEnd_spec {s : State} {n : Fin 1024} {a : StickAcc} (ha : s.dev.chip.acc n = some a) (hc : 256 ≤ a.count) : ∃ c : Chip,
    execStickEnd n s = ok s c ∧ c.acc n = none ∧ (s.dev.chip.fe.armed = some n.val → c.fe.armed = none) := by
  unfold execStickEnd
  extract_lets s' c x take_
  rw [show c.acc s' = some a from ha]
  dsimp -zeta only
  rw [if_neg (by omega)]
  extract_lets last cfg str base sums sk frisket high low causes c1 fr _ c2 c3 c4
  have h1 : c1.fe = (c.setAcc s' none).fe := (bump_fe ..).trans (bump_fe ..)
  have hacc1 : sget (fun _ => none) c1.fe.accs s' = (none : Option StickAcc) := by
    rw [h1]
    exact acc_setAcc c s' none
  clear_value c1 fr
  have hacc4 : sget (fun _ => none) c4.fe.accs s' = (none : Option StickAcc) := by
    unfold c4 c3
    split
    · exact hacc1
    · exact hacc1
  have harmed : c.fe.armed = some s' → c4.fe.armed = none := by
    intro hs
    have ht : take_ = true := beq_iff_eq.mpr hs
    unfold c4 c3 c2
    rw [if_pos ht, if_pos ht]
    rfl
  clear_value c4
  obtain ⟨hfa, hfr⟩ := flushReports_keeps c4 a.stick
  refine ⟨_, rfl, ?_, fun hs => ?_⟩
  · unfold Chip.acc
    rw [showRunning_fe, hfa]
    exact hacc4
  · rw [showRunning_fe, hfr]
    exact harmed hs

/-- The first delay segment of a stream is queued. -/
theorem segmentEnter_first {c : Chip} {s : Nat} {b : List Byte} (hb : b.length = 48) (hs : (c.stream s).segments = []) : ∃ d : Chip,
    c.segmentEnter s b = (d, .ok) ∧ (d.stream s).segments = [readSegment b c.fft] ∧ d.rd (strOd s 0x46) = 1 := by
  unfold Chip.segmentEnter
  rw [if_neg (not_not.mpr hb)]
  extract_lets x g same q c1 c2
  have hsame : same = false := by
    unfold same
    rw [show x.segments = [] from hs]
    rfl
  have hq : q = [g] := by
    unfold q
    rw [hsame, show x.segments = [] from hs]
    rfl
  rw [if_neg (by rw [show x.segments = [] from hs]; simp)]
  refine ⟨_, rfl, ?_, ?_⟩
  · have h (v : Nat) : ((c2.setStream s { x with segments := q }).wr (strOd s 0x46) v).stream s = { x with segments := q } := Chip.setStream_same ..
    rw [h, hq]
  · rw [hq]
    exact Chip.wr_rd_same ..

theorem segmentsClear_spec (c : Chip) (s : Nat) : ((c.segmentsClear s).stream s).segments = [] ∧ ((c.segmentsClear s).stream s).segment = none := by
  have h : (c.segmentsClear s).stream s = { c.stream s with segments := [], segment := none } := Chip.setStream_same ..
  rw [h]
  exact ⟨rfl, rfl⟩

/-- Truss frames that are ready let their sticks go. -/
theorem trussFramesReady_quiet {s : State} {k : Nat} (hk : s.dev.chip.fe.ready = some k)
    (hp : ((List.range 1024).any fun m => s.dev.chip.producing m k) = false) (hr : (k + 1) * 256 * s.dev.chip.fft ≤ s.dev.chip.reached)
    (hq : s.dev.chip.quietIn (256 * k / s.dev.chip.chaseT) = true) : ∃ c : Chip, execTrussFramesReady s = done s { s.dev with chip := c } ∧
      c.fe.friskets = (s.dev.chip.fe.friskets.filter fun e => k < e.1 / 16384) ∧
      c.fe.pack = (s.dev.chip.fe.pack.filter fun e => (k + 1) * 256 ≤ e.1 / 16384) := by
  unfold execTrussFramesReady
  extract_lets d c
  rw [show c.fe.ready = some k from hk]
  dsimp -zeta only
  extract_lets made passed tooLate quiet d1 c1 on
  have hpass : passed = true := decide_eq_true hr
  have hd1 : d1 = d := if_pos hq
  rw [if_neg (by rw [hpass, hp]; simp)]
  have hc1 : c1 = c := congrArg Dev.chip hd1
  clear_value c1 d1 on
  subst hc1 hd1
  exact ⟨_, rfl, rfl, rfl⟩

/-! ### Writes of a stream's objects -/

theorem Chip.Mirrors.streams {c d : Chip} (h : Chip.Mirrors c d) : d.streams = c.streams := by
  obtain ⟨b, t, o, ho⟩ := h.frame
  rw [ho]

/-- A stream after the mirror and the answer. -/
theorem Chip.Mirrors.answered_stream {c d : Chip} (h : Chip.Mirrors c d) (s : Nat) {sess key : Nat} {st : Status} :
    (d.answer sess key st).stream s = c.stream s :=
  (stream_stirs (stirs_answer ..) s).trans (stream_of_streams h.streams s)

/-- What an object of a stream shows after the mirror and the answer. -/
theorem Chip.Mirrors.answered_strOd {c d : Chip} (h : Chip.Mirrors c d) (n : Fin 1024) {sub sess key : Nat} {st : Status} (hsub : sub < 256) :
    (d.answer sess key st).rd (strOd n sub) = c.rd (strOd n sub) :=
  h.answered_rd (keyIndex_strOd_ne n hsub (by decide)) (keyIndex_strOd_ne n hsub (by decide)) (keyIndex_strOd_ne n hsub (by decide))
    (keyIndex_strOd_ne n hsub (by decide))

/-- A write of a DOMAIN object of a stream is a delay segment. -/
theorem writeBytes_strOd {d : Dev} {n : Fin 1024} {sub : Nat} (hsub : sub < 256) (b : List Byte) (sess : Nat) (a : Asker) :
    d.writeNow sess (strOd n sub) (.bytes b) a =
      ({ d with chip := (d.chip.segmentEnter n b).1 }, some (d.chip.segmentEnter n b).2) := by
  have hi : keyIndex (strOd n sub) = 0x9000 + n := keyIndex_od hsub
  have hlt := n.isLt
  have hne (i j : Nat) (hj : j < 256) (h : i < 0x9000) : strOd n sub ≠ od i j := by
    unfold strOd od
    omega
  show d.writeBytes sess (strOd n sub) b a = _
  unfold Dev.writeBytes
  extract_lets i s c up
  have hi9 : i = 0x9000 + n := hi
  rw [if_neg (hne _ _ (by decide) (by decide)), if_neg (hne _ _ (by decide) (by decide)), if_neg (hne _ _ (by decide) (by decide)),
    if_neg (hne _ _ (by decide) (by decide)), if_neg (by simp; omega), if_neg (by simp; omega), if_pos (by simp; omega), hi9,
    Nat.add_sub_cancel_left]

end Sys2Proof.Machine
end

section
/-! SUPPORT. The obligation about the channelizer. -/

namespace Sys2Proof
open Machine

/-- Settles O45: each command takes the branch that its hypotheses choose; what waits in the bundles, and the reports, leave the stream and
the sticks. -/
theorem channelizing : Obligations.Channelizing := by
  intro s sess n a rec_ k c x key
  refine ⟨?_, ?_, ?_, ?_, ?_, ?_, ?_⟩
  · intro ha hc hl
    obtain ⟨e, he, hspec, -⟩ := spectrum_spec ha hc hl
    exact runs_ok he ⟨hspec, rfl, rfl⟩
  · intro ha hc h0 hl
    obtain ⟨e, he, -, hfill⟩ := spectrum_spec ha hc fun h => absurd (h.symm.trans hl) (by decide)
    exact runs_ok he ⟨hfill hl h0, rfl, rfl⟩
  · intro ha hc
    obtain ⟨e, he, hacc, harmed⟩ := stickEnd_spec ha hc
    exact runs_ok he ⟨hacc, harmed, rfl, rfl⟩
  · intro hacc hlen hseg
    obtain ⟨e, he, hsegs, hcount⟩ := segmentEnter_first hlen hseg
    have hw : s.dev.writeNow sess (strOd n 0x40) (.bytes rec_) (.plain sess (strOd n 0x40)) = ({ s.dev with chip := e }, some .ok) := by
      rw [writeBytes_strOd (by decide), he]
    refine runs_write (i := .delaySegmentWrite sess n rec_) rfl hacc (.inl (strOd_ne_powOd n (by decide))) hw fun c1 hc1 =>
      ⟨?_, ?_, answer_head .., rfl, rfl⟩
    · exact (congrArg Stream.segments (hc1.answered_stream n)).trans hsegs
    · exact (hc1.answered_strOd n (by decide)).trans hcount
  · intro hacc
    obtain ⟨hsegs, hseg⟩ := segmentsClear_spec c n
    have hw : s.dev.writeNow sess (strOd n 0x47) (.num 1) (.plain sess (strOd n 0x47)) = ({ s.dev with chip := c.segmentsClear n }, some .ok) := by
      rw [writeNum_strOd (by decide) rfl rfl, writeHigh_strOd _ _ (by decide)]
      rfl
    refine runs_write (i := .clearSegments sess n) rfl hacc (.inl (strOd_ne_powOd n (by decide))) hw fun c1 hc1 => ⟨?_, ?_, answer_head .., rfl, rfl⟩
    · exact (congrArg Stream.segments (hc1.answered_stream n)).trans hsegs
    · exact (congrArg Stream.segment (hc1.answered_stream n)).trans hseg
  · intro hacc
    refine runs_request (i := .skCaptureArm sess) (act := fun c => (c.skArm, .ok)) rfl hacc rfl ⟨?_, answer_head .., rfl, rfl⟩
    exact (congrArg FEngine.armed (stirs_answer c.skArm sess (chanOd 0x1B) .ok).fe :)
  · intro hk hp hr hq
    obtain ⟨e, he, hf, hpack⟩ := trussFramesReady_quiet hk hp hr hq
    exact runs_done he ⟨hf, hpack, rfl, rfl⟩

end Sys2Proof
end

section
/-! SUPPORT. The X-engine: periods, slabs and impressions (R167-R187). -/

namespace Sys2Proof.Machine

open Chip (Stirs)

/-! ### The setters while data move -/

theorem foldl_cores {α : Type} {f : Dev → α → Dev} (hf : ∀ d x, (f d x).cores = d.cores) (l : List α) (d : Dev) :
    (l.foldl f d).cores = d.cores := by
  induction l generalizing d with
  | nil => rfl
  | cons x l ih => exact (ih _).trans (hf d x)

theorem writeHbm_cores (d : Dev) (u : HbmUser) (a : Nat) (b : List Byte) (poison : Bool) : (d.writeHbm u a b poison).cores = d.cores :=
  (Dev.Holds.foldl (s := 0) (fun _ _ => Dev.Holds.refl.writePiece) _ .refl).cores

theorem writeFresh_cores (d : Dev) (u : HbmUser) (a : Nat) (b : List Byte) : (d.writeFresh u a b).cores = d.cores := by
  unfold Dev.writeFresh
  extract_lets d1 units
  exact writeHbm_cores ..

theorem stageStick_cores (d : Dev) (src dst prec mark : Nat) : (d.stageStick src dst prec mark).1.cores = d.cores := by
  have hread := d.readPieces_cores (openUser 0) (unitPieces src (256 * sampleBytes prec))
  unfold Dev.stageStick
  extract_lets len m
  split
  · exact writeSram_cores ..
  · generalize d.readPieces (openUser 0) (unitPieces src len) = r at hread
    exact hread

theorem withChip_cores (d : Dev) (c : Chip) : ({ d with chip := c } : Dev).cores = d.cores := rfl

theorem stageSlab_cores (d : Dev) (n j : Nat) (h : Fin 2) : (d.stageSlab n j h).cores = d.cores := by
  have hfold {f : Dev × SMap Nat → Nat × Nat → Dev × SMap Nat} (hf : ∀ a e, (f a e).1.cores = a.1.cores) (l : List (Nat × Nat))
      (a : Dev × SMap Nat) : (l.foldl f a).1.cores = a.1.cores := by
    induction l generalizing a with
    | nil => rfl
    | cons e l ih => exact (ih _).trans (hf a e)
  unfold Dev.stageSlab
  exact (withChip_cores ..).trans (hfold (fun _ _ => stageStick_cores ..) _ _)

theorem accumulate_cores (d : Dev) (f base nf m : Nat) (first early : Bool) (e : Nat × Addition) :
    (d.accumulate f base nf m first early e).cores = d.cores := by
  have hread := fun a n => d.readHbm_cores (openUser 1) a n
  have hwrite := fun (e : Dev) a b => writeHbm_cores e (openUser 1) a b false
  have hdef := Eq.refl @Dev.accumulate
  conv at hdef => rhs; delta Dev.accumulate
  obtain ⟨read, hr⟩ : ∃ p, p = @Dev.readHbm := ⟨_, rfl⟩
  obtain ⟨write, hw⟩ : ∃ p, p = @Dev.writeHbm := ⟨_, rfl⟩
  rw [← hr] at hread hdef
  rw [← hw] at hwrite hdef
  rw [hdef]
  exact (hwrite _ _ _).trans (hread _ _)

theorem toVisibility_cores (d : Dev) (i : Impression) (r : ImpResult) : (d.toVisibility i r).cores = d.cores := by
  have hstep := accumulate_cores
  have hdef := Eq.refl @Dev.toVisibility
  conv at hdef => rhs; delta Dev.toVisibility
  obtain ⟨step, hs⟩ : ∃ p, p = @Dev.accumulate := ⟨_, rfl⟩
  rw [← hs] at hstep hdef
  rw [hdef]
  beta_reduce
  extract_lets c cfg n nf base
  exact foldl_cores (fun _ _ => hstep _ _ _ _ _ _ _ _) _ d

theorem toProof_cores (d : Dev) (g : Nat) (i : Impression) (r : ImpResult) : (d.toProof g i r).cores = d.cores := by
  have hwrite := writeFresh_cores
  have hdef := Eq.refl @Dev.toProof
  conv at hdef => rhs; delta Dev.toProof
  generalize @Dev.writeFresh = write at hwrite hdef
  rw [hdef]
  beta_reduce
  extract_lets c cfg n nf base
  clear_value c cfg n nf base
  split
  · rfl
  · refine foldl_cores (fun a e => ?_) _ d
    generalize addRecord _ _ _ _ _ = x
    obtain ⟨rec, sat⟩ := x
    exact (withChip_cores ..).trans (hwrite _ _ _ _)

theorem drain_cores (d : Dev) (i : Impression) (r : ImpResult) : (d.drain i r).cores = d.cores := by
  unfold Dev.drain
  extract_lets c d1
  have h1 : d1.cores = d.cores := by
    unfold d1
    split
    · rfl
    · exact (foldl_cores (fun _ _ => toProof_cores ..) _ _).trans (toVisibility_cores ..)
  exact h1

theorem impress_cores (d : Dev) (i : Impression) : (d.impress i).2.cores = d.cores := by
  unfold Dev.impress
  extract_lets
  split
  · rfl
  · extract_lets
    split
    split
    · rfl
    · rfl

/-! ### Periods -/

theorem bump_xe (c : Chip) (k n : Nat) : (c.bump k n).xe = c.xe := by
  obtain ⟨o, ho⟩ := Chip.bump_frame c k n
  rw [ho]

/-- A side whose role of R430 changes: the state of the role before starts over. -/
def Chip.roleTaken (c : Chip) (r : Nat) : Chip :=
  let c1 := c.wr (twinOd 0x10) r
  { c1 with twin := { c1.twin with
      leadSince := if r = 2 then c1.tick else 0, seekSince := if r = 1 then c1.lc else c1.twin.seekSince,
      shadowFrom := none, swapAt := none, waiting := false } }

theorem setRole_stirs {c : Chip} {r : Nat} (sev : Severity) (h : c.role ≠ r) : Stirs .report (c.roleTaken r) (c.setRole r sev) := by
  unfold Chip.setRole
  rw [if_neg h]
  exact Stirs.refl.fault

theorem roleTaken_rd (c : Chip) {r k : Nat} (h : k ≠ twinOd 0x10) : (c.roleTaken r).rd k = c.rd k := Chip.wr_rd_ne _ _ _ h

theorem setRole_keeps (c : Chip) (r : Nat) (sev : Severity) : (c.setRole r sev).xe = c.xe ∧ (c.setRole r sev).rd (od 0x3000 5) = c.rd (od 0x3000 5) := by
  by_cases h : c.role = r
  · unfold Chip.setRole
    rw [if_pos h]
    exact ⟨rfl, rfl⟩
  · have hs := setRole_stirs sev h
    exact ⟨hs.xe, (hs.rd _ (by decide)).trans (roleTaken_rd c (by decide))⟩

theorem joinSettle_keeps (c : Chip) : c.joinSettle.xe = c.xe ∧ c.joinSettle.rd (od 0x3000 5) = c.rd (od 0x3000 5) := by
  unfold Chip.joinSettle
  split
  · exact setRole_keeps ..
  · exact ⟨rfl, rfl⟩

theorem reclaim_keeps (c : Chip) (n : Nat) : (c.reclaim n).xe = c.xe ∧ (c.reclaim n).rd (od 0x3000 5) = c.rd (od 0x3000 5) := by
  unfold Chip.reclaim Chip.handOver
  split
  · extract_lets h c1
    have hm : Chip.Mirrors c c1 := Chip.Mirrors.refl.mirror ..
    obtain ⟨b, t, o, ho⟩ := hm.frame
    exact ⟨(congrArg Chip.xe ho :), hm.rd _ (by decide)⟩
  · exact ⟨rfl, rfl⟩

theorem showBeams_wr (c : Chip) : ∃ v, c.showBeams = c.wr (od 0x3400 0x05) v := ⟨_, rfl⟩

theorem periodBegins_shows (c : Chip) (n : Nat) : (c.periodBegins n).xe.newest = some n ∧ (c.periodBegins n).rd (od 0x3000 5) = n := by
  unfold Chip.periodBegins
  extract_lets l proofs order c1 run c2 _ c3
  have h3 : c3.xe.newest = some n := rfl
  clear_value c3
  have h5 : ((c3.wr (xOd 4) 2).wr (xOd 5) n).rd (od 0x3000 5) = n := Chip.wr_rd_same _ _ _
  have hx : ((c3.wr (xOd 4) 2).wr (xOd 5) n).xe = c3.xe := rfl
  generalize (c3.wr (xOd 4) 2).wr (xOd 5) n = c4 at h5 hx ⊢
  obtain ⟨v, hv⟩ := showBeams_wr (c4.wr (xOd 6) 0)
  rw [hv]
  exact ⟨(congrArg XEngine.newest hx).trans h3,
    (Chip.wr_rd_ne (c4.wr (xOd 6) 0) _ v (by decide)).trans ((Chip.wr_rd_ne c4 _ 0 (by decide)).trans h5)⟩

/-- The period that begins is the newest and is shown, whatever the twin pair then does (R167, R174). -/
theorem periodBegin_spec {s : State} {n : Nat} (h : s.dev.chip.nextPeriod = some n) : ∃ c : Chip,
    execPeriodBegin s = ok s c ∧ c.xe.newest = some n ∧ c.rd (od 0x3000 5) = n := by
  obtain ⟨hx, hr⟩ := periodBegins_shows s.dev.chip n
  unfold execPeriodBegin
  dsimp only
  rw [h]
  dsimp only
  generalize s.dev.chip.periodBegins n = c at hx hr ⊢
  obtain ⟨hx1, hr1⟩ := joinSettle_keeps c
  obtain ⟨hx2, hr2⟩ := reclaim_keeps c.joinSettle n
  refine ⟨_, rfl, ?_, hr2.trans (hr1.trans hr)⟩
  rw [hx2, hx1]
  exact hx

/-- What a slab's staging leaves: the slab in its chase half, and the other half next (R170). -/
theorem stageSlab_xe (d : Dev) (n j : Nat) (h : Fin 2) :
    (∃ b, (d.stageSlab n j h).chip.xe.chase[h] = some ⟨n, j, b⟩) ∧ (d.stageSlab n j h).chip.xe.nextHalf = if h = 0 then 1 else 0 := by
  unfold Dev.stageSlab
  extract_lets c map table ch prec t b sticks g src recv keys
  split
  extract_lets
  exact ⟨⟨_, Vector.getElem_set_self ..⟩, rfl⟩

theorem slabStaged_spec {s : State} {p : OpenPeriod}
    (hp : (s.dev.chip.xe.periods.find? fun e => decide (e.staged < (localChannels (s.dev.chip.trussMap e.number) s.dev.chip.node).length)) = some p)
    (h : s.dev.chip.slabDone s.dev.chip.xe.nextHalf = true) :
    execSlabStaged s = done s (s.dev.stageSlab p.number p.staged s.dev.chip.xe.nextHalf) := by
  unfold execSlabStaged
  dsimp only
  rw [hp]
  exact if_pos h

theorem setPlaten_same (c : Chip) (p : Nat) (x : Platen) : (c.setPlaten p x).platen p = x := sget_sset_same ..

theorem advance_platens (c : Chip) (f : Nat) : (c.advance f).xe.platens = c.xe.platens := by
  unfold Chip.advance Chip.setForme
  extract_lets x
  split
  · rfl
  · split
    · rfl
    · split
      · rfl
      · split
        · rfl
        · rfl

theorem platen_of_xe {c d : Chip} (h : d.xe.platens = c.xe.platens) (p : Nat) : d.platen p = c.platen p := by
  unfold Chip.platen
  rw [h]

/-- The one impression that is ready joins the queue of its platen (R168, R176). -/
theorem impressionDispatch_spec {s : State} {f n : Nat} {i : Impression}
    (h : (s.dev.chip.xe.formes.filterMap fun e => (s.dev.chip.nextEntry e.1).map fun y => ((e.1, y) : Nat × Impression × Nat × Bool)) =
      [(f, i, n, false)]) : ∃ c : Chip, execImpressionDispatch s = ok s c ∧ (c.platen n).queue = (s.dev.chip.platen n).queue ++ [i] := by
  have hn : s.dev.chip.nextEntry f = some (i, n, false) := by
    have hm : (f, i, n, false) ∈ s.dev.chip.xe.formes.filterMap fun e => (s.dev.chip.nextEntry e.1).map fun y => ((e.1, y) : Nat × Impression × Nat × Bool) := by
      rw [h]
      exact List.mem_singleton_self _
    obtain ⟨e, -, he⟩ := List.mem_filterMap.mp hm
    obtain ⟨y, hy, hey⟩ := Option.map_eq_some_iff.mp he
    obtain ⟨rfl, rfl⟩ := Prod.mk.inj hey
    exact hy
  unfold execImpressionDispatch
  dsimp only
  rw [h]
  simp only [List.filter_cons, List.filter_nil, Bool.false_and, Bool.not_false, Bool.false_eq_true, if_false, if_true, List.map_cons, List.map_nil,
    List.foldl_nil, arbitrate, List.foldl_cons, hn]
  refine ⟨_, rfl, ?_⟩
  rw [platen_of_xe (advance_platens ..) n, setPlaten_same]
  rfl

theorem impressionEnd_spec {s : State} {q : Fin 64} {i : Impression} {l : List Impression} (hq : (s.dev.chip.platen q).queue = i :: l)
    (hs : (s.dev.chip.platen q).stalled = none) (hb : (s.dev.chip.platen q).buffer = none) : ∃ d : Dev,
    execImpressionEnd q s = done s d ∧ (d.chip.platen q).queue = l ∧ (∃ y, (d.chip.platen q).buffer = some (i, y)) ∧ d.cores = s.dev.cores := by
  have hc := impress_cores s.dev i
  unfold execImpressionEnd
  dsimp only
  rw [hq, hs]
  dsimp only
  generalize s.dev.impress i = r at hc ⊢
  obtain ⟨r, d1⟩ := r
  dsimp only
  rw [hb]
  refine ⟨_, rfl, ?_, ⟨r, ?_⟩, (withChip_cores ..).trans hc⟩
  · exact (congrArg Platen.queue (setPlaten_same ..) :)
  · exact (congrArg Platen.buffer (setPlaten_same ..) :)

theorem impressionComplete_spec {s : State} {q : Fin 64} {i : Impression} {r : ImpResult} (hb : (s.dev.chip.platen q).buffer = some (i, r))
    (hs : (s.dev.chip.platen q).stalled = none) : ∃ d : Dev, execImpressionComplete q s = done s d ∧
    (d.chip.platen q).buffer = none ∧ (d.chip.platen q).queue = (s.dev.chip.platen q).queue ∧ d.cores = s.dev.cores := by
  have hc := drain_cores s.dev i r
  unfold execImpressionComplete
  dsimp only
  rw [hb]
  dsimp only
  rw [hs]
  dsimp only
  generalize s.dev.drain i r = d1 at hc ⊢
  refine ⟨_, rfl, ?_, ?_, (withChip_cores ..).trans hc⟩
  · exact (congrArg Platen.buffer (setPlaten_same ..) :)
  · exact (congrArg Platen.queue (setPlaten_same ..) :)

theorem releaseHalf_xe (c : Chip) (h : Fin 2) : (c.releaseHalf h).xe = c.xe := by
  unfold Chip.releaseHalf
  split <;> rfl

theorem formeTo_xe (c : Chip) (f st : Nat) : (c.formeTo f st).xe = c.xe := by
  unfold Chip.formeTo
  extract_lets proofs
  exact foldl_keeps (f := fun (a : Chip) g => a.wr (formeOd g 0x10) st) Chip.xe (fun _ _ => rfl) _ _

theorem stopBreak_xe (c : Chip) : c.stopBreak.xe = c.xe := by
  unfold Chip.stopBreak
  extract_lets run c1 c2
  have h1 : c1.xe = c.xe := foldl_keeps Chip.xe (fun _ _ => bump_xe ..) _ _
  clear_value c1 run
  have h2 : c2.xe = c1.xe := foldl_keeps (f := fun (a : Chip) f => a.formeTo f (b2n (a.formeOn f))) Chip.xe (fun _ _ => formeTo_xe ..) _ _
  clear_value c2
  obtain ⟨v, hv⟩ := showBeams_wr (c2.wr (xOd 4) (b2n (c.on (xOd 1) && c.xe.halt.isNone)))
  rw [hv]
  exact h2.trans h1

theorem periodComplete_spec {s : State} {p : OpenPeriod} {rest : List OpenPeriod} (hp : s.dev.chip.xe.periods = p :: rest)
    (hd : s.dev.chip.periodDone p = true) : ∃ c : Chip, execPeriodComplete s = ok s c ∧ c.xe.periods = rest := by
  unfold execPeriodComplete
  extract_lets c
  rw [show c.xe.periods = p :: rest from hp]
  dsimp -zeta only
  rw [if_neg (by simp [show c.periodDone p = true from hd])]
  extract_lets n late c1 c2 _ c3 c4 stops
  have h4 : c4.xe.periods = rest := congrArg XEngine.periods (releaseHalf_xe c3 (halfOf n))
  clear_value c4
  refine ⟨_, rfl, ?_⟩
  split
  · exact (congrArg XEngine.periods (stopBreak_xe c4)).trans h4
  · exact h4

end Sys2Proof.Machine
end

section
/-! PROOFS. The X-engine. -/

namespace Sys2Proof
open Machine

/-- Settles O47: each clause is what its command does to the X-engine; the twin pair's changes at a period start and the drain of an
impression keep it. -/
theorem xEnginePeriods : Obligations.XEnginePeriods := by
  intro s n p rest q f i l r c
  refine ⟨fun h => ?_, fun h h' => ?_, fun h => ?_, fun h h' h'' => ?_, fun h h' => ?_, fun h h' => ?_⟩
  · obtain ⟨e, he, hn, hr⟩ := periodBegin_spec h
    exact runs_ok he ⟨hn, hr, rfl, rfl⟩
  · obtain ⟨hs, hh⟩ := stageSlab_xe s.dev p.number p.staged c.xe.nextHalf
    refine runs_done (slabStaged_spec h h') ⟨hs, ?_, stageSlab_cores ..⟩
    rw [hh]
    split
    · next h0 => exact fun h1 => absurd (h1.trans h0) (by decide)
    · next h0 => exact Ne.symm h0
  · obtain ⟨e, he, hq⟩ := impressionDispatch_spec h
    exact runs_ok he ⟨hq, rfl, rfl⟩
  · obtain ⟨e, he, hq, hb, hk⟩ := impressionEnd_spec h h' h''
    exact runs_done he ⟨hq, hb, hk⟩
  · obtain ⟨e, he, hq, hb, hk⟩ := impressionComplete_spec h h'
    exact runs_done he ⟨hq, hb, hk⟩
  · obtain ⟨e, he, hp⟩ := periodComplete_spec h h'
    exact runs_ok he ⟨hp, rfl, rfl⟩

end Sys2Proof
end

section
/-! SUPPORT. DMA channels and completion queues (R326-R332). -/

namespace Sys2Proof.Machine

open Chip (Stirs)

/-! ### Objects of channels and queues -/

theorem dmaOd_ne {f sub sub' : Nat} (h : sub ≠ sub') : dmaOd f sub ≠ dmaOd f sub' := by
  unfold dmaOd od
  omega

theorem cqOd_ne {q sub sub' : Nat} (h : sub ≠ sub') : cqOd q sub ≠ cqOd q sub' := by
  unfold cqOd od
  omega

theorem stirLevel_dmaOd {f sub : Nat} (hf : f < 32) (hs : sub < 256) : stirLevel (dmaOd f sub) = 5 := by
  unfold stirLevel dmaOd
  rw [keyIndex_od hs, keySub_od hs]
  extract_lets k x
  split_ifs <;> omega

theorem stirLevel_cqOd {q sub : Nat} (hq : q < 16) (hs : sub < 256) : stirLevel (cqOd q sub) = 5 := by
  unfold stirLevel cqOd
  rw [keyIndex_od hs, keySub_od hs]
  extract_lets k x
  split_ifs <;> omega

/-- An object of a channel is none of a queue, whatever number a descriptor names. -/
theorem dmaOd_ne_cqOd {f q sub sub' : Nat} (hf : f < 32) (hs : sub < 256) : dmaOd f sub ≠ cqOd q sub' := by
  unfold dmaOd cqOd od
  omega

/-! ### The end of a channel -/

theorem setDma_dma (c : Chip) (f : Nat) (x : DmaChannel) : (c.setDma f x).dma f = x := sget_sset_same ..

theorem dma_of_matrix {c d : Chip} (h : d.matrix = c.matrix) (f : Nat) : d.dma f = c.dma f := by
  unfold Chip.dma
  rw [h]

theorem ownerIrq_rd (c : Chip) (f k : Nat) : (c.ownerIrq f).rd k = c.rd k := by
  unfold Chip.ownerIrq
  extract_lets o
  split <;> rfl

theorem foldl_irqTo_rd (p : Nat → Bool) (l : List Nat) (c : Chip) (n k : Nat) :
    (l.foldl (fun a i => if p i then a.irqTo (Fin.ofNat 8 i) n else a) c).rd k = c.rd k :=
  foldl_keeps (fun c => c.rd k) (fun a i => by split <;> rfl) l c

/-- A completion record changes its queue's objects and the event log alone (R330). -/
theorem appendRecord_keeps (d : Dev) (q ch status : Nat) (poison chainEnd : Bool) (tag residue desc : Nat) :
    (d.appendRecord q ch status poison chainEnd tag residue desc).cores = d.cores ∧
    ∀ f sub : Nat, f < 32 → sub < 256 →
      (d.appendRecord q ch status poison chainEnd tag residue desc).chip.rd (dmaOd f sub) = d.chip.rd (dmaOd f sub) := by
  have hb (c : Chip) (f sub sub' : Nat) (hf : f < 32) (hs : sub < 256) : (c.bump (cqOd q sub') 1).rd (dmaOd f sub) = c.rd (dmaOd f sub) :=
    bump_rd_ne _ _ (dmaOd_ne_cqOd hf hs)
  unfold Dev.appendRecord
  extract_lets c seq c1 head used entries marked c7 _ ovf rec_ d1 c2 c3 targets c4 c5
  split
  · refine ⟨withChip_cores .., fun f sub hf hs => ?_⟩
    have h7 : c7.rd (dmaOd f sub) = c.rd (dmaOd f sub) := (hb c1 f sub 7 hf hs).trans (hb c f sub 6 hf hs)
    clear_value c7
    exact h7
  · have hw : d1.cores = d.cores := writeSram_cores ..
    clear_value rec_ d1
    refine ⟨(withChip_cores ..).trans hw, fun f sub hf hs => ?_⟩
    have h4 : c4.rd (dmaOd f sub) = c.rd (dmaOd f sub) :=
      (foldl_irqTo_rd ..).trans ((hb c2 f sub 3 hf hs).trans (hb c f sub 6 hf hs))
    have h5 : c5.rd (dmaOd f sub) = c4.rd (dmaOd f sub) := by
      unfold c5
      split
      · exact (Stirs.refl (a := .report)).event.rd _ (by rw [stirLevel_dmaOd hf hs]; decide)
      · rfl
    exact h5.trans h4

/-- A channel that ends with a fault, or without a chain, is idle and shows its status (R329). -/
theorem dmaEnd_spec {d : Dev} {f status : Nat} (hf : f < 32) (h : status ≠ 0) :
    (d.dmaEnd f status).chip.dmaState f = 0 ∧ (d.dmaEnd f status).chip.rd (dmaOd f 8) = status ∧ (d.dmaEnd f status).cores = d.cores := by
  unfold Dev.dmaEnd
  extract_lets c x residue goes c1 _ c2 c3 d1
  have hg : goes = false := by simp [goes, h]
  have h2 : c2.rd (dmaOd f 6) = 0 ∧ c2.rd (dmaOd f 8) = status := by
    simp only [c2, c1, hg, Bool.false_eq_true, if_false]
    exact ⟨(Chip.wr_rd_ne _ _ _ (dmaOd_ne (by decide))).trans (Chip.wr_rd_same _ _ _), Chip.wr_rd_same _ _ _⟩
  have h3 (k : Nat) : c3.rd k = c2.rd k := by
    unfold c3
    rw [if_neg h]
    exact ownerIrq_rd ..
  have h1 : d1.chip.rd (dmaOd f 6) = 0 ∧ d1.chip.rd (dmaOd f 8) = status := ⟨(h3 _).trans h2.1, (h3 _).trans h2.2⟩
  have hk : d1.cores = d.cores := rfl
  clear_value d1
  split
  · obtain ⟨hc, hr⟩ := appendRecord_keeps d1 x.desc.cq f status x.poison (!goes) x.desc.tag residue x.descAddr
    exact ⟨(hr f 6 hf (by decide)).trans h1.1, (hr f 8 hf (by decide)).trans h1.2, hc.trans hk⟩
  · exact ⟨h1.1, h1.2, hk⟩

/-! ### START and ABORT -/

theorem dmaStart_ok {c : Chip} {f : Fin 32} (hon : c.on (od 0x4000 1) = true) (h0 : c.dmaState f = 0) (hp : c.partitionPending = false) :
    c.dmaStart f = ((c.setDma f { DmaChannel.atReset with descAddr := c.rd (dmaOd f 1) }).wr (dmaOd f 6) 1, .ok) := by
  unfold Chip.dmaStart
  simp only [hon, h0, hp, Bool.not_true, bne_self_eq_false, Bool.or_self, Bool.false_eq_true, if_false]

theorem dmaStart_state (c : Chip) (f : Fin 32) (x : DmaChannel) : ((c.setDma f x).wr (dmaOd f 6) 1).dmaState f = 1 ∧
    ((c.setDma f x).wr (dmaOd f 6) 1).dma f = x := ⟨Chip.wr_rd_same _ _ _, setDma_dma ..⟩

/-- An answer leaves a channel's state and registers. -/
theorem answer_dma (c : Chip) (f : Fin 32) {sess key : Nat} {st : Status} : (c.answer sess key st).dmaState f = c.dmaState f ∧
    (c.answer sess key st).dma f = c.dma f :=
  ⟨(stirs_answer ..).rd _ (by rw [stirLevel_dmaOd f.isLt (by decide)]; decide), dma_of_matrix (stirs_answer ..).matrix f⟩

theorem dmaAbort_of_state {d : Dev} {f : Fin 32} :
    (d.chip.dmaState f = 1 → d.dmaAbort f = { d with chip := d.chip.setDma f { d.chip.dma f with ending := some 1 } }) ∧
    (d.chip.dmaState f = 2 → d.dmaAbort f =
      { d with chip := (d.chip.setDma f { d.chip.dma f with ending := some ((d.chip.dma f).ending.getD 1) }).wr (dmaOd f 6) 4 }) ∧
    (d.chip.dmaState f = 3 → d.dmaAbort f = d.dmaEnd f 1) := by
  unfold Dev.dmaAbort
  refine ⟨fun h => ?_, fun h => ?_, fun h => ?_⟩
  all_goals
    extract_lets c x
    rw [show c.dmaState f = _ from h]
    rfl

theorem devRequest_act {d : Dev} {sess key : Nat} {v : Val} (h : d.chip.gate false sess key v = .act) (act : Dev → Dev × Status) :
    d.request sess key v act = { (act d).1 with chip := (act d).1.chip.answer sess key (act d).2 } := by
  unfold Dev.request
  rw [h]

theorem runs_devRequest {i : Instr} {s : State} {sess key : Nat} {v : Val} {act : Dev → Dev × Status} {p : State → Prop}
    (hi : exec i s = done s (s.dev.request sess key v act)) (ha : s.accepts sess key v) {d : Dev} {st : Status}
    (hact : act s.dev = (d, st)) (hp : p { s with dev := { d with chip := d.chip.answer sess key st } }) : Runs i s p := by
  refine runs_done hi ?_
  rw [devRequest_act ha, hact]
  exact hp

/-! ### Descriptors -/

theorem ready_shows (c : Chip) (f : Nat) (x : DmaChannel) (n : Nat) :
    (((c.setDma f x).wr (dmaOd f 6) 3).wr (dmaOd f 7) n).dmaState f = 3 ∧
    (((c.setDma f x).wr (dmaOd f 6) 3).wr (dmaOd f 7) n).rd (dmaOd f 7) = n ∧ (((c.setDma f x).wr (dmaOd f 6) 3).wr (dmaOd f 7) n).dma f = x :=
  ⟨(Chip.wr_rd_ne _ _ _ (dmaOd_ne (by decide))).trans (Chip.wr_rd_same _ _ _), Chip.wr_rd_same _ _ _, setDma_dma ..⟩

theorem descriptorLoaded_spec {s : State} {f : Fin 32} {d : Descriptor} (h1 : s.dev.chip.dmaState f = 1)
    (he : (s.dev.chip.dma f).ending = none) (ha : (s.dev.chip.dma f).descAddr % 32 = 0) (hb : (s.dev.chip.dma f).descAddr < 2 ^ 28)
    (hd : readDescriptor (s.dev.readSram (s.dev.chip.dma f).descAddr 32) = d) {e : Dev}
    (hdev : e = { s.dev with chip := s.dev.chip.setDma f { s.dev.chip.dma f with desc := d } }) :
    (descriptorOk s.dev.chip d = true → execDescriptorLoaded f s =
      done s { e with chip := (e.chip.wr (dmaOd f 6) 3).wr (dmaOd f 7) d.length }) ∧
    (descriptorOk s.dev.chip d = false → execDescriptorLoaded f s = done s (e.dmaEnd f 2)) := by
  unfold execDescriptorLoaded
  extract_lets d0 ch x ds y d1
  have hds : ds = d := by
    unfold ds
    rw [Nat.mod_eq_of_lt (show x.descAddr < 2 ^ 28 from hb)]
    exact hd
  have hy : d1 = e := by
    unfold d1 y
    rw [hds, hdev]
  rw [if_neg (not_not_intro (show d0.chip.dmaState ch = 1 from h1)), show x.ending = none from he, hds, hy]
  dsimp -zeta only
  refine ⟨fun h => (if_neg ?_).trans rfl, fun h => (if_pos ?_).trans rfl⟩
  · simp only [show x.descAddr % 32 = 0 from ha, show descriptorOk d0.chip d = true from h, decide_eq_true_eq,
      ne_eq, not_true, decide_false, Bool.false_or, Bool.not_true, Bool.or_false]
    exact Nat.not_le.mpr hb
  · simp only [show descriptorOk d0.chip d = false from h, Bool.not_false, Bool.or_true]

theorem descriptorLoaded_ready {s : State} {f : Fin 32} {d : Descriptor} (h1 : s.dev.chip.dmaState f = 1)
    (he : (s.dev.chip.dma f).ending = none) (ha : (s.dev.chip.dma f).descAddr % 32 = 0) (hb : (s.dev.chip.dma f).descAddr < 2 ^ 28)
    (hd : readDescriptor (s.dev.readSram (s.dev.chip.dma f).descAddr 32) = d) (hok : descriptorOk s.dev.chip d = true) :
    ∃ c : Chip, execDescriptorLoaded f s = ok s c ∧ c.dmaState f = 3 ∧ c.rd (dmaOd f 7) = d.length ∧ (c.dma f).desc = d := by
  obtain ⟨h3, h7, hx⟩ := ready_shows s.dev.chip f { s.dev.chip.dma f with desc := d } d.length
  exact ⟨_, (descriptorLoaded_spec h1 he ha hb hd rfl).1 hok, h3, h7, congrArg DmaChannel.desc hx⟩

theorem descriptorLoaded_range {s : State} {f : Fin 32} {d : Descriptor} (h1 : s.dev.chip.dmaState f = 1)
    (he : (s.dev.chip.dma f).ending = none) (ha : (s.dev.chip.dma f).descAddr % 32 = 0) (hb : (s.dev.chip.dma f).descAddr < 2 ^ 28)
    (hd : readDescriptor (s.dev.readSram (s.dev.chip.dma f).descAddr 32) = d) (hok : descriptorOk s.dev.chip d = false) :
    ∃ e : Dev, execDescriptorLoaded f s = done s e ∧ e.chip.dmaState f = 0 ∧ e.chip.rd (dmaOd f 8) = 2 ∧ e.cores = s.dev.cores := by
  obtain ⟨h3, h7, hx⟩ := dmaEnd_spec (d := { s.dev with chip := s.dev.chip.setDma f { s.dev.chip.dma f with desc := d } }) (status := 2) f.isLt
    (by decide)
  exact ⟨_, (descriptorLoaded_spec h1 he ha hb hd rfl).2 hok, h3, h7, hx⟩

/-! ### The beat of the one channel that is ready -/

theorem rankOf_congr {c d : Chip} (hr : ∀ r, d.rd (od (0x3C10 + r) 2) = c.rd (od (0x3C10 + r) 2)) : d.rankOf = c.rankOf := by
  funext l
  unfold Chip.rankOf
  simp only [hr]

theorem logicalRanks_congr {c d : Chip} (ht : d.dom = c.dom) : d.logicalRanks = c.logicalRanks := by
  unfold Chip.logicalRanks Chip.hbmTable Chip.table Chip.rdDom
  rw [ht]

theorem unbacked_congr {c d : Chip} (ht : d.dom = c.dom) (hr : ∀ r, d.rd (od (0x3C10 + r) 2) = c.rd (od (0x3C10 + r) 2)) :
    d.unbacked = c.unbacked := by
  unfold Chip.unbacked
  rw [rankOf_congr hr, logicalRanks_congr ht]

theorem hbmTop_congr {c d : Chip} (ht : d.dom = c.dom) (hr : ∀ r, d.rd (od (0x3C10 + r) 2) = c.rd (od (0x3C10 + r) 2)) :
    d.hbmTop = c.hbmTop := by
  unfold Chip.hbmTop
  rw [unbacked_congr ht hr, logicalRanks_congr ht]

/-- The address that HBM gives a byte rests on the partition table, the rank map and a migration under way alone. -/
theorem translate_congr {c d : Chip} (ht : d.dom = c.dom) (hr : ∀ r, d.rd (od (0x3C10 + r) 2) = c.rd (od (0x3C10 + r) 2))
    (hm : d.hbm.migration = c.hbm.migration) (a : Nat) : d.translate a = c.translate a := by
  unfold Chip.translate
  rw [rankOf_congr hr, logicalRanks_congr ht, unbacked_congr ht hr, hbmTop_congr ht hr, hm]

theorem sramPart_congr {c d : Chip} (ht : d.dom = c.dom) : d.sramPart = c.sramPart := by
  funext i
  unfold Chip.sramPart Chip.table Chip.rdDom
  rw [ht]

theorem pegLogBase_congr {c d : Chip} (ht : d.dom = c.dom) : d.pegLogBase = c.pegLogBase := by
  unfold Chip.pegLogBase
  rw [sramPart_congr ht]

theorem flagBase_congr {c d : Chip} (ht : d.dom = c.dom) : d.flagBase = c.flagBase := by
  unfold Chip.flagBase
  rw [sramPart_congr ht, pegLogBase_congr ht]

theorem pegLogAt_congr {c d : Chip} (ht : d.dom = c.dom) : d.pegLogAt = c.pegLogAt := by
  funext a
  unfold Chip.pegLogAt
  rw [pegLogBase_congr ht]

theorem flagAt_congr {c d : Chip} (ht : d.dom = c.dom) (hw : d.writer = c.writer) : d.flagAt = c.flagAt := by
  funext a
  unfold Chip.flagAt
  rw [flagBase_congr ht, hw]

/-- What main SRAM reads rests on the SRAM, its partition table, the peg log and the flag ring alone (R235, R250). -/
theorem ringByte_congr {c d : Chip} (ht : d.dom = c.dom) (hl : d.trigger = c.trigger) (hw : d.writer = c.writer) :
    d.ringByte = c.ringByte := by
  have hp := pegLogAt_congr ht
  have hf := flagAt_congr ht hw
  have hdef := Eq.refl @Chip.ringByte
  conv at hdef => rhs; delta Chip.ringByte
  obtain ⟨peg, h1⟩ : ∃ p, p = @Chip.pegLogAt := ⟨_, rfl⟩
  obtain ⟨flag, h2⟩ : ∃ p, p = @Chip.flagAt := ⟨_, rfl⟩
  rw [← h1] at hp hdef
  rw [← h2] at hf hdef
  rw [hdef]
  beta_reduce
  rw [hp, hf, hl, hw]

theorem readSram_congr {d e : Dev} (hm : e.mem.sram = d.mem.sram) (hr : e.chip.ringByte = d.chip.ringByte) (a n : Nat) :
    e.readSram a n = d.readSram a n := by
  unfold Dev.readSram
  rw [hr, hm]

theorem grantPort_keeps (c : Chip) (f : Nat) (p : Fin 2) :
    (∃ b, (c.grantPort f (some p)).dma f = { c.dma f with port := some p, waited := 0, beat := b }) ∧ (c.grantPort f (some p)).dom = c.dom ∧
    (c.grantPort f (some p)).hbm = c.hbm ∧ (c.grantPort f (some p)).trigger = c.trigger ∧ (c.grantPort f (some p)).writer = c.writer ∧ ∀ k, k ≠ dmaOd f 6 → (c.grantPort f (some p)).rd k = c.rd k := by
  unfold Chip.grantPort
  extract_lets x
  dsimp -zeta only
  extract_lets c1
  have h1 : c1.dma f = { c.dma f with port := some p, waited := 0, beat := if c.dmaState f = 3 then c.lc else x.beat } := setDma_dma ..
  split
  · exact ⟨⟨_, h1⟩, rfl, rfl, rfl, rfl, fun k hk => Chip.wr_rd_ne c1 _ 2 hk⟩
  · exact ⟨⟨_, h1⟩, rfl, rfl, rfl, rfl, fun k hk => rfl⟩

/-- The domain that an address lies in, and whether it is open, do not rest on a channel's state. -/
theorem domOpen_grantPort (c : Chip) (f : Nat) (p : Fin 2) (a : Nat) :
    (c.grantPort f (some p)).domOpen (dmaDomain (c.grantPort f (some p)) a) = c.domOpen (dmaDomain c a) := by
  obtain ⟨-, hd, hh, -, -, hr⟩ := grantPort_keeps c f p
  have ht : (c.grantPort f (some p)).translate = c.translate :=
    funext (translate_congr hd (fun r => hr _ (by unfold dmaOd od; omega)) (congrArg HbmCtl.migration hh))
  have ha : dmaDomain (c.grantPort f (some p)) a = dmaDomain c a := by
    unfold dmaDomain
    rw [ht]
  rw [ha]
  unfold Chip.domOpen Chip.domState
  rw [hr _ (by unfold dmaOd od; omega)]

/-- A fresh channel's first read from main SRAM: up to 32 bytes, not poisoned (R326). -/
theorem beatRead_first {d : Dev} {f : Nat} {x : DmaChannel} (hx : d.chip.dma f = x) (hstop : x.stop = false) (hread : x.read = 0)
    (he : x.ending = none) (hl : 0 < x.desc.length) (hb : x.buffer = []) (hs : dmaSpace x.desc.src = 0)
    (h1 : d.chip.domOpen (dmaDomain d.chip x.desc.src) = true) (h2 : d.chip.domOpen (dmaDomain d.chip x.desc.dst) = true) :
    d.beatRead f = { d with chip := d.chip.setDma f { x with
      buffer := [(d.readSram (dmaOffset x.desc.src) (min 32 x.desc.length), false)], read := min 32 x.desc.length, poison := x.poison || false } } := by
  unfold Dev.beatRead
  simp only [hx, hstop, hread, he, hb, h1, h2, Bool.false_or, Nat.le_zero, Nat.ne_of_gt hl, decide_false, Bool.false_eq_true, if_false,
    Option.isSome_none, Bool.and_false, Nat.add_zero, ite_self, Bool.and_self, Bool.not_true, Nat.sub_zero, Dev.dmaRead, hs, List.nil_append,
    Nat.zero_add]

/-- A channel that has read and not written goes on. -/
theorem beatEnd_going {d : Dev} {f : Nat} {x : DmaChannel} (hx : d.chip.dma f = x) (hw : x.written = 0) (hl : 0 < x.desc.length)
    (hstop : x.stop = false) : d.beatEnd f = { d with chip := d.chip.wr (dmaOd f 7) x.desc.length } := by
  unfold Dev.beatEnd
  simp only [hx, hw, hstop, Nat.ne_of_lt hl, if_false, Bool.false_and, Bool.false_eq_true, Nat.sub_zero]

theorem channelBeat_first {d : Dev} {f : Nat} {x : DmaChannel} (hx : d.chip.dma f = x) (hstop : x.stop = false) (hread : x.read = 0)
    (hw : x.written = 0) (he : x.ending = none) (hl : 0 < x.desc.length) (hb : x.buffer = []) (hs : dmaSpace x.desc.src = 0)
    (h1 : d.chip.domOpen (dmaDomain d.chip x.desc.src) = true) (h2 : d.chip.domOpen (dmaDomain d.chip x.desc.dst) = true) :
    ∃ c : Chip, d.channelBeat f = { d with chip := c } ∧ (c.dma f).read = min 32 x.desc.length ∧
      (c.dma f).buffer = [(d.readSram (dmaOffset x.desc.src) (min 32 x.desc.length), false)] := by
  have h0 : d.beatWrite f = d := by
    unfold Dev.beatWrite
    extract_lets z
    rw [show z.buffer = [] from (congrArg DmaChannel.buffer hx).trans hb]
  have hm : min 32 x.desc.length ≠ 0 := by omega
  unfold Dev.channelBeat
  rw [h0, beatRead_first hx hstop hread he hl hb hs h1 h2]
  generalize d.readSram (dmaOffset x.desc.src) (min 32 x.desc.length) = v
  extract_lets z d1 y d2
  have hy : y = { x with buffer := [(v, false)], read := min 32 x.desc.length, poison := x.poison || false } := setDma_dma ..
  have hz : z = x := hx
  have h2 : d2 = { d1 with chip := d1.chip.setDma f { y with beat := d1.chip.lc } } := if_neg (by rw [hy, hz, hread]; simp [hm.symm])
  have hd2 : d2.chip.dma f = { y with beat := d1.chip.lc } := h2 ▸ setDma_dma ..
  have hg := beatEnd_going hd2 (show y.written = 0 from hy ▸ hw) (show 0 < y.desc.length from hy ▸ hl) (show y.stop = false from hy ▸ hstop)
  clear_value d2 y
  subst h2 hy
  exact ⟨_, hg, congrArg DmaChannel.read hd2, congrArg DmaChannel.buffer hd2⟩

theorem dmaBeat_none {s : State} (h : s.dev.chip.dmaReady = []) : execDmaBeat s = done s s.dev := by
  unfold execDmaBeat
  dsimp only
  rw [h]
  rfl

theorem dmaBeat_alone {s : State} {f : Fin 32} {x : DmaChannel} (hx : s.dev.chip.dma f = x) (hr : s.dev.chip.dmaReady = [f.val])
    (hp : x.port = none) (hb : x.buffer = []) (hstop : x.stop = false) (hread : x.read = 0) (hw : x.written = 0) (he : x.ending = none)
    (hl : 0 < x.desc.length) (hs : dmaSpace x.desc.src = 0) (h1 : s.dev.chip.domOpen (dmaDomain s.dev.chip x.desc.src) = true)
    (h2 : s.dev.chip.domOpen (dmaDomain s.dev.chip x.desc.dst) = true) : ∃ c : Chip, execDmaBeat s = ok s c ∧
    (c.dma f).read = min 32 x.desc.length ∧
    (c.dma f).buffer = [(s.dev.readSram (dmaOffset x.desc.src) (min 32 x.desc.length), false)] := by
  have hexec : execDmaBeat s = done s (({ s.dev with chip := s.dev.chip.grantPort f (some 0) } : Dev).channelBeat f) := by
    unfold execDmaBeat
    simp [hr, bestChannel, hx, hp]
  obtain ⟨⟨b, hg⟩, hdom, -, hlog, hring, -⟩ := grantPort_keeps s.dev.chip f 0
  rw [hx] at hg
  rw [← domOpen_grantPort s.dev.chip f 0] at h1 h2
  generalize s.dev.chip.grantPort f (some 0) = c1 at hg h1 h2 hexec hdom hlog hring
  have hd : ({ s.dev with chip := c1 } : Dev).chip.dma f = _ := hg
  obtain ⟨c, hc, hr, hb⟩ := channelBeat_first hd hstop hread hw he hl hb hs h1 h2
  have hv := readSram_congr (d := s.dev) (e := { s.dev with chip := c1 }) rfl (ringByte_congr hdom hlog hring) (dmaOffset x.desc.src) (min 32 x.desc.length)
  rw [hc] at hexec
  exact ⟨c, hexec, hr, hb.trans (congrArg (fun v => [(v, false)]) hv)⟩

/-! ### The watchdog and the queues -/

theorem dmaWatchdog_spec {s : State} {f : Fin 32} (h : s.dev.chip.dmaState f = 2) (hl : s.dev.chip.rd (od 0x4000 4) ≠ 0)
    (hw : (s.dev.chip.dma f).written ≠ (s.dev.chip.dma f).desc.length) : ∃ d : Dev, execDmaWatchdog f s = done s d ∧
    d.chip.dmaState f = 0 ∧ d.chip.rd (dmaOd f 8) = 5 ∧ d.cores = s.dev.cores := by
  unfold execDmaWatchdog
  extract_lets d ch limit x d1
  have hd : d1.cores = s.dev.cores := withChip_cores ..
  clear_value d1
  rw [if_pos (by simp [show d.chip.dmaState ch = 2 from h, show limit ≠ 0 from hl]), if_neg (show x.written ≠ x.desc.length from hw)]
  obtain ⟨h1, h2, h3⟩ := dmaEnd_spec (d := d1) (status := 5) f.isLt (by decide)
  exact ⟨_, rfl, h1, h2, h3.trans hd⟩

theorem queueConfigure_base {c : Chip} {q v : Nat} (h : c.queueBusy q = false) : ∃ d : Chip, c.queueConfigure q 1 v = (d, .ok) ∧
    d.rd (cqOd q 1) = v ∧ d.rd (cqOd q 3) = 0 ∧ d.rd (cqOd q 4) = 0 ∧ d.rd (cqOd q 6) = 0 := by
  have hne {a b : Nat} (hab : a ≠ b) : cqOd q a ≠ cqOd q b := cqOd_ne hab
  unfold Chip.queueConfigure
  rw [if_neg (by simp [h])]
  rw [if_neg (by simp)]
  extract_lets c1
  have h1 : c1.rd (cqOd q 1) = v := (Chip.wr_rd_ne _ _ _ (hne (by decide))).trans ((Chip.wr_rd_ne _ _ _ (hne (by decide))).trans
    ((Chip.wr_rd_ne _ _ _ (hne (by decide))).trans (Chip.wr_rd_same _ _ _)))
  have h3 : c1.rd (cqOd q 3) = 0 := (Chip.wr_rd_ne _ _ _ (hne (by decide))).trans ((Chip.wr_rd_ne _ _ _ (hne (by decide))).trans
    (Chip.wr_rd_same _ _ _))
  have h4 : c1.rd (cqOd q 4) = 0 := (Chip.wr_rd_ne _ _ _ (hne (by decide))).trans (Chip.wr_rd_same _ _ _)
  have h6 : c1.rd (cqOd q 6) = 0 := Chip.wr_rd_same _ _ _
  clear_value c1
  exact ⟨_, rfl, h1, h3, h4, h6⟩

theorem answer_cq (c : Chip) (q : Fin 16) {sub sess key : Nat} {st : Status} (hs : sub < 256) :
    (c.answer sess key st).rd (cqOd q sub) = c.rd (cqOd q sub) :=
  (stirs_answer ..).rd _ (by rw [stirLevel_cqOd q.isLt hs]; decide)

end Sys2Proof.Machine
end

section
/-! PROOFS. DMA channels and completion queues. -/

namespace Sys2Proof
open Machine

/-- Settles O52: each clause is what its command does to its channel or queue; a record that a channel's end appends leaves the channels. -/
theorem dmaAndQueues : Obligations.DmaAndQueues := by
  intro s sess f n q v c x d started startable loaded alone
  have hstart (h : startable) : c.dmaStart f = ((c.setDma f { DmaChannel.atReset with descAddr := c.rd (dmaOd f 1) }).wr (dmaOd f 6) 1, .ok) :=
    dmaStart_ok h.1 h.2.1 h.2.2
  have hstate := dmaStart_state c f { DmaChannel.atReset with descAddr := c.rd (dmaOd f 1) }
  refine ⟨fun ha h => ?_, fun h => ⟨?_, ?_⟩, fun ha h => ?_, fun h => ?_, fun h => ?_, fun h hd => ?_, fun h hd => ?_, fun h => ?_, fun h => ?_,
    fun h hl hw => ?_, fun ha h => ?_, fun ha h => ?_, fun ha => ?_, ?_⟩
  · refine runs_request rfl ha (hstart h) ⟨⟨?_, ?_, rfl, rfl⟩, answer_head ..⟩
    · exact (answer_dma ..).1.trans hstate.1
    · exact congrArg DmaChannel.descAddr ((answer_dma ..).2.trans hstate.2)
  · refine runs_ok (c := (c.setDma f { DmaChannel.atReset with descAddr := c.rd (dmaOd f 1) }).wr (dmaOd f 6) 1) ?_
      ⟨hstate.1, congrArg DmaChannel.descAddr hstate.2, rfl, rfl⟩
    change execDmaStart (.setter n) f s = _
    unfold execDmaStart
    dsimp only
    rw [show s.dev.chip.dmaStart f = _ from hstart h]
  · refine runs_ok (c := (c.setDma f { DmaChannel.atReset with descAddr := c.rd (dmaOd f 1) }).wr (dmaOd f 6) 1) ?_
      ⟨hstate.1, congrArg DmaChannel.descAddr hstate.2, rfl, rfl⟩
    exact congrArg (fun r => ok s r.1) (hstart h)
  · refine runs_devRequest (d := s.dev.dmaAbort f) (st := .ok) rfl ha rfl ?_
    rw [dmaAbort_of_state.1 h]
    refine ⟨?_, answer_head .., rfl, rfl⟩
    exact congrArg DmaChannel.ending ((answer_dma ..).2.trans (setDma_dma ..))
  · exact runs_done (d := s.dev.dmaAbort f) rfl (by rw [dmaAbort_of_state.2.1 h]; exact ⟨Chip.wr_rd_same _ _ _, rfl, rfl⟩)
  · refine runs_done (d := s.dev.dmaAbort f) rfl ?_
    rw [dmaAbort_of_state.2.2 h]
    obtain ⟨h1, h2, h3⟩ := dmaEnd_spec (d := s.dev) (status := 1) f.isLt (by decide)
    exact ⟨h1, h2, h3⟩
  · obtain ⟨h1, h2, h3, h4⟩ := h
    obtain ⟨e, he, h5, h6, h7⟩ := descriptorLoaded_ready h1 h2 h3 h4 rfl hd
    exact runs_ok he ⟨h5, h6, h7, rfl, rfl⟩
  · obtain ⟨h1, h2, h3, h4⟩ := h
    obtain ⟨e, he, h5, h6, h7⟩ := descriptorLoaded_range h1 h2 h3 h4 rfl hd
    exact runs_done he ⟨h5, h6, h7⟩
  · exact runs_done (d := s.dev) (dmaBeat_none h) rfl
  · obtain ⟨hr, hp, hb, hstop, hread, hw, he, hl, hsp, h1, h2⟩ := h
    obtain ⟨e, hx, hr, hb⟩ := dmaBeat_alone rfl hr hp hb hstop hread hw he hl hsp h1 h2
    exact runs_ok hx ⟨hr, hb, rfl, rfl⟩
  · obtain ⟨e, hx, h1, h2, h3⟩ := dmaWatchdog_spec h hl hw
    exact runs_done hx ⟨h1, h2, h3⟩
  · obtain ⟨e, he, h1, h3, h4, h6⟩ := queueConfigure_base (v := v.toNat) h
    exact runs_request rfl ha he ⟨(answer_cq _ q (by decide)).trans h1, (answer_cq _ q (by decide)).trans h3, (answer_cq _ q (by decide)).trans h4,
      (answer_cq _ q (by decide)).trans h6, answer_head .., rfl, rfl⟩
  · exact runs_request rfl ha (if_pos h) ⟨answer_head .., rfl, rfl⟩
  · exact runs_request rfl ha rfl ⟨(answer_cq _ q (by decide)).trans (Chip.wr_rd_same _ _ _), answer_head .., rfl, rfl⟩
  · exact runs_ok rfl ⟨Chip.wr_rd_same _ _ _, rfl, rfl⟩

end Sys2Proof
end

section
/-! SUPPORT. The host's side of the setters, and the bus matrix (R320-R325). -/

namespace Sys2Proof.Machine

open Chip (Stirs)

/-! ### Run control -/

theorem answer_ipend (c : Chip) (sess key : Nat) (st : Status) : (c.answer sess key st).ipend = c.ipend := by
  unfold Chip.answer
  extract_lets
  split <;> rfl

theorem stirLevel_setterOd (n : Fin 8) {sub : Nat} (hs : sub < 256) : stirLevel (setterOd n sub) = 5 := by
  unfold stirLevel setterOd
  rw [keyIndex_od hs, keySub_od hs]
  extract_lets k x
  split_ifs <;> omega

theorem answer_setterOd (c : Chip) (n : Fin 8) {sub sess key : Nat} {st : Status} (hs : sub < 256) :
    (c.answer sess key st).rd (setterOd n sub) = c.rd (setterOd n sub) :=
  (stirs_answer ..).rd _ (by rw [stirLevel_setterOd n hs]; decide)

theorem ring_spec (d : Dev) (n : Fin 8) (v : BitVec 32) : (d.ring n v).cores = d.cores.set n { d.cores[n] with inMail := v } ∧
    (d.ring n v).mem = d.mem ∧ ((d.ring n v).chip.ipend[n]).getLsbD 0 = true := by
  refine ⟨rfl, rfl, ?_⟩
  have h : (d.ring n v).chip.ipend[n] = d.chip.ipend[n] ||| BitVec.ofNat 16 (2 ^ 0) := Vector.getElem_set_self ..
  rw [h]
  simp

theorem runControl_start {d : Dev} {n : Fin 8} (hr : d.chip.rd (setterOd n 1) ≠ 1) (ho : d.chip.domOpen (setterDomain n) = true)
    (hi : d.chip.imageHeld n = false) : d.runControl n 1 = (({ d with chip := d.chip.wr (setterOd n 1) 1 } : Dev).boot n, .ok) := by
  unfold Dev.runControl
  extract_lets c was
  rw [if_pos rfl, if_neg (show was ≠ 1 from hr), if_neg (by simp [show c.domOpen (setterDomain n) = true from ho, show c.imageHeld n = false from hi])]

/-- A sound image starts at its entry, in the state of R284. -/
theorem boot_sound {d : Dev} {n : Fin 8} (h : (bootVerdict d.cores[n]).1 = 1) : ∃ z : Setter,
    (d.boot n).cores = d.cores.set n z ∧ z.mode = .running ∧ z.pc = BitVec.ofNat 16 (bootVerdict d.cores[n]).2 ∧ z.mr = 1 ∧
    z.ivec = 0x9F80 ∧ z.bootStatus = 1 := by
  unfold Dev.boot
  extract_lets x y
  change (bootVerdict x).1 = 1 at h
  change ∃ z : Setter, _ ∧ _ ∧ z.pc = BitVec.ofNat 16 (bootVerdict x).2 ∧ _
  generalize bootVerdict x = v at h ⊢
  obtain ⟨st, entry⟩ := v
  dsimp -zeta only at h ⊢
  rw [if_pos h]
  exact ⟨_, rfl, rfl, rfl, rfl, rfl, rfl⟩

theorem boot_failed {d : Dev} {n : Fin 8} (h : (bootVerdict d.cores[n]).1 ≠ 1) : ∃ z : Setter,
    (d.boot n).cores = d.cores.set n z ∧ z.mode = .bootFailed ∧ z.bootStatus = BitVec.ofNat 8 (bootVerdict d.cores[n]).1 := by
  unfold Dev.boot
  extract_lets x y
  change (bootVerdict x).1 ≠ 1 at h
  change ∃ z : Setter, _ ∧ _ ∧ z.bootStatus = BitVec.ofNat 8 (bootVerdict x).1
  generalize bootVerdict x = v at h ⊢
  obtain ⟨st, entry⟩ := v
  dsimp -zeta only at h ⊢
  rw [if_neg h]
  exact ⟨_, rfl, rfl, rfl⟩

theorem boot_frame (d : Dev) (n : Fin 8) : (d.boot n).mem = d.mem ∧ ∀ k, (d.boot n).chip.rd k = d.chip.rd k := by
  unfold Dev.boot
  exact ⟨rfl, fun _ => rfl⟩

theorem runControl_sound {d : Dev} {n : Fin 8} (hr : d.chip.rd (setterOd n 1) ≠ 1) (ho : d.chip.domOpen (setterDomain n) = true)
    (hi : d.chip.imageHeld n = false) (hb : (bootVerdict d.cores[n]).1 = 1) : ∃ e : Dev, d.runControl n 1 = (e, .ok) ∧
    (e.cores[n]).mode = .running ∧ (e.cores[n]).pc = BitVec.ofNat 16 (bootVerdict d.cores[n]).2 ∧ (e.cores[n]).mr = 1 ∧
    (e.cores[n]).ivec = 0x9F80 ∧ (e.cores[n]).bootStatus = 1 ∧ e.chip.rd (setterOd n 1) = 1 ∧ e.mem = d.mem := by
  obtain ⟨hm, hc⟩ := boot_frame { d with chip := d.chip.wr (setterOd n 1) 1 } n
  obtain ⟨z, hz, hz'⟩ := boot_sound (d := { d with chip := d.chip.wr (setterOd n 1) 1 }) hb
  have hn : (({ d with chip := d.chip.wr (setterOd n 1) 1 } : Dev).boot n).cores[n] = z := by
    simp only [hz]
    exact Vector.getElem_set_self ..
  obtain ⟨h1, h2, h3, h4, h5⟩ := hn ▸ hz'
  exact ⟨_, runControl_start hr ho hi, h1, h2, h3, h4, h5, (hc _).trans (Chip.wr_rd_same _ _ _), hm⟩

theorem runControl_failed {d : Dev} {n : Fin 8} (hr : d.chip.rd (setterOd n 1) ≠ 1) (ho : d.chip.domOpen (setterDomain n) = true)
    (hi : d.chip.imageHeld n = false) (hb : (bootVerdict d.cores[n]).1 ≠ 1) : ∃ e : Dev, d.runControl n 1 = (e, .ok) ∧
    (e.cores[n]).mode = .bootFailed ∧ (e.cores[n]).bootStatus = BitVec.ofNat 8 (bootVerdict d.cores[n]).1 ∧ e.mem = d.mem := by
  obtain ⟨hm, -⟩ := boot_frame { d with chip := d.chip.wr (setterOd n 1) 1 } n
  obtain ⟨z, hz, hz'⟩ := boot_failed (d := { d with chip := d.chip.wr (setterOd n 1) 1 }) hb
  have hn : (({ d with chip := d.chip.wr (setterOd n 1) 1 } : Dev).boot n).cores[n] = z := by
    simp only [hz]
    exact Vector.getElem_set_self ..
  obtain ⟨h1, h2⟩ := hn ▸ hz'
  exact ⟨_, runControl_start hr ho hi, h1, h2, hm⟩

/-- A setter without a posted store to drain is reset with its memories kept (R281). -/
theorem resetSetter_drained {d : Dev} {n : Fin 8} (hf : d.cores[n].farStores = []) :
    d.resetSetter n = { d with chip := (Chip.crossing { d.chip with ipend := d.chip.ipend.set n 0 } (d.hung n)), cores := d.cores.set n (Setter.resetKeep d.cores[n].xram d.cores[n].yram d.cores[n].pram) } := by
  unfold Dev.resetSetter
  rw [hf]
  rfl

theorem crossing_ipend (c : Chip) (items : Nat) : (c.crossing items).ipend = c.ipend := by
  obtain ⟨o, ho⟩ := Chip.bump_frame c (od 0x5800 0x18) items
  exact (congrArg Chip.ipend ho :)

theorem runControl_stop {d : Dev} {n : Fin 8} {v : Nat} (hv : v ≠ 1) (hf : d.cores[n].farStores = []) : ∃ c : Chip,
    d.runControl n v = ({ d with chip := c, cores := d.cores.set n (Setter.resetKeep d.cores[n].xram d.cores[n].yram d.cores[n].pram) }, .ok) ∧
    c.ipend[n] = 0 ∧ c.rd (setterOd n 1) = 0 := by
  have hne : setterOd n 1 ≠ od 0x5800 0x18 := by
    unfold setterOd od
    omega
  unfold Dev.runControl
  extract_lets c was
  have hreset := resetSetter_drained (d := { d with chip := c.wr (setterOd n 1) 0 }) (n := n) hf
  rw [if_neg hv, hreset]
  generalize ({ d with chip := c.wr (setterOd n 1) 0 } : Dev).hung n = items
  refine ⟨_, rfl, ?_, ?_⟩
  · rw [crossing_ipend]
    exact Vector.getElem_set_self ..
  · exact (bump_rd_ne _ _ hne).trans (Chip.wr_rd_same _ _ _)

theorem firmware_sound {d : Dev} {sess : Nat} {n : Fin 8} {b : List Byte} (hr : d.chip.rd (setterOd n 1) ≠ 1) (ht : tableCheck 0x12 b = none)
    (hl : (tableBody b).length ≤ 262144) (h8 : (tableBody b).length % 8 = 0) : ∃ c : Chip,
    d.firmware sess n b = ({ d with chip := c, cores := d.cores.set n (d.cores[n].putMem 0 0 (tableBody b)) }, .ok) := by
  unfold Dev.firmware
  extract_lets body
  rw [if_neg hr, ht]
  dsimp -zeta only
  rw [if_neg (by simp [show body.length % 8 = 0 from h8]; exact hl)]
  exact ⟨_, rfl⟩

theorem firmware_crc {d : Dev} {sess : Nat} {n : Fin 8} {b : List Byte} (hr : d.chip.rd (setterOd n 1) ≠ 1) (ht : tableCheck 0x12 b = some .crc) :
    d.firmware sess n b = (d, .tableCrc) := by
  unfold Dev.firmware
  extract_lets body
  rw [if_neg hr, ht]

/-! ### The control space and the bus matrix -/

theorem ctlRead32_lc (d : Dev) : d.ctlRead32 0x103000 = some (d.chip.lc % 2 ^ 32, { d with chip := { d.chip with
      time := { d.chip.time with latchLc := BitVec.ofNat 32 (d.chip.lc / 2 ^ 32) } } }) := rfl

theorem ctlRead32_latch (d : Dev) : d.ctlRead32 0x103004 = some (d.chip.time.latchLc.toNat, d) := rfl

theorem controlCounterRead_spec {s : State} {a : BitVec 24} {v : Nat} {d : Dev} (h1 : 0x103000 ≤ a.toNat) (h2 : a.toNat < 0x103010)
    (h : s.dev.ctlRead32 a.toNat = some (v, d)) :
    execControlCounterRead a s = done s { d with chip := d.chip.send (.matrix 5 true (beBytes 4 v)) } := by
  unfold execControlCounterRead
  rw [if_pos (by simp [h1, h2]), h]

/-- The device whose masters have waited so long. -/
def Dev.withWaits (d : Dev) (w : SMap Nat) : Dev := { d with chip := { d.chip with matrix := { d.chip.matrix with waits := w } } }

/-- An access that R322 refuses is counted and answered with an error. -/
def Dev.refuses (d : Dev) (port : Nat) : Dev := { d with chip := (d.chip.bump (od 0x4000 0x10) 1).send (.matrix port false []) }

theorem matrixAccess_one {s : State} {q : Fin 15} {r : MatrixReq} (h : s.dev.chip.domClock (portDomain s.dev.chip q r.addr) = true) :
    ∃ w : SMap Nat, execMatrixAccess q [r] s =
      if !portAllows s.dev.chip q r then done s ((s.dev.withWaits w).refuses q)
      else if !s.dev.chip.domOpen (portDomain s.dev.chip q r.addr) then
        done s { s.dev.withWaits w with chip := (s.dev.withWaits w).chip.send (.matrix q false []) }
      else match (s.dev.withWaits w).portAccess q r with
        | (none, d2) => done s (if q.val = 4 then { d2 with chip := d2.chip.send (.matrix q false []) } else d2.refuses q)
        | (some b, d2) => done s { d2 with chip := d2.chip.send (.matrix q true b) } := by
  have hheads : ((List.range 12).filterMap fun m => [r].find? fun r => r.master.val == m) = [r] := by
    obtain ⟨m, w, a, l, b⟩ := r
    fin_cases m <;> rfl
  unfold execMatrixAccess
  extract_lets d c port key wait heads hangs req won waits _ d1 refuse
  have hh : heads = [r] := hheads
  have hreq : req = [r.master.val] := by
    unfold req
    rw [hh]
    simp [hangs, show c.domClock (portDomain c port r.addr) = true from h]
  have hwon : won = some r.master.val := by
    unfold won
    rw [hreq]
    rfl
  have hfind : (heads.find? fun e => e.master.val == r.master.val) = some r := by
    rw [hh]
    simp
  clear_value won heads
  subst hwon
  dsimp -zeta only
  rw [hfind]
  exact ⟨waits, rfl⟩

theorem withWaits_readSram (d : Dev) (w : SMap Nat) (a n : Nat) : (d.withWaits w).readSram a n = d.readSram a n := by
  have hm : (d.withWaits w).mem.sram = d.mem.sram := rfl
  have h1 : (d.withWaits w).chip.dom = d.chip.dom := rfl
  have h2 : (d.withWaits w).chip.trigger = d.chip.trigger := rfl
  have h3 : (d.withWaits w).chip.writer = d.chip.writer := rfl
  exact readSram_congr hm (ringByte_congr h1 h2 h3) a n

theorem writeSram_mem {d e : Dev} (h : e.mem = d.mem) (a : Nat) (b : List Byte) : (e.writeSram a b).mem = (d.writeSram a b).mem :=
  congrArg (fun m : Mem => { m with sram := putBytes m.sram a b }) h

theorem refuses_spec (d : Dev) (port : Nat) : (d.refuses port).chip.out.head? = some (.matrix port false []) ∧
    (d.refuses port).chip.rd (od 0x4000 0x10) = wrapObj (od 0x4000 0x10) (d.chip.rd (od 0x4000 0x10) + 1) ∧
    (d.refuses port).cores = d.cores ∧ (d.refuses port).mem = d.mem :=
  ⟨rfl, bump_rd_same .., rfl, rfl⟩

/-- A port refuses and counts an access that it does not allow (R322). -/
theorem matrixAccess_refused {s : State} {q : Fin 15} {r : MatrixReq} (h : s.dev.chip.domClock (portDomain s.dev.chip q r.addr) = true)
    (hp : portAllows s.dev.chip q r = false) : ∃ w : SMap Nat, execMatrixAccess q [r] s = done s ((s.dev.withWaits w).refuses q) := by
  obtain ⟨w, hw⟩ := matrixAccess_one h
  exact ⟨w, hw.trans (if_pos (by rw [hp]; rfl))⟩

/-- An access into a domain that drains is answered with an error and not counted (R325, R417). -/
theorem matrixAccess_closed {s : State} {q : Fin 15} {r : MatrixReq} (h : s.dev.chip.domClock (portDomain s.dev.chip q r.addr) = true)
    (hp : portAllows s.dev.chip q r = true) (ho : s.dev.chip.domOpen (portDomain s.dev.chip q r.addr) = false) :
    ∃ c : Chip, execMatrixAccess q [r] s = ok s (c.send (.matrix q false [])) := by
  obtain ⟨w, hw⟩ := matrixAccess_one h
  exact ⟨_, hw.trans ((if_neg (by rw [hp]; decide)).trans (if_pos (by rw [ho]; rfl)))⟩

/-- What a main SRAM port does with the one access that it allows (R320, R323). -/
theorem matrixAccess_sram {s : State} {q : Fin 15} {r : MatrixReq} (h : s.dev.chip.domClock (portDomain s.dev.chip q r.addr) = true)
    (ho : s.dev.chip.domOpen (portDomain s.dev.chip q r.addr) = true) (hq : q.val < 4) (hp : portAllows s.dev.chip q r = true) : ∃ w : SMap Nat,
    (r.write = false → execMatrixAccess q [r] s =
      done s { s.dev.withWaits w with chip := (s.dev.withWaits w).chip.send (.matrix q true (s.dev.readSram r.addr r.len)) }) ∧
    (r.write = true → execMatrixAccess q [r] s =
      done s { (s.dev.withWaits w).writeSram r.addr r.data with
        chip := ((s.dev.withWaits w).writeSram r.addr r.data).chip.send (.matrix q true []) }) := by
  obtain ⟨w, hw⟩ := matrixAccess_one h
  rw [if_neg (by rw [hp]; decide), if_neg (by rw [ho]; decide)] at hw
  have hread := withWaits_readSram s.dev w r.addr r.len
  refine ⟨w, fun hr => ?_, fun hr => ?_⟩
  · have ha : (s.dev.withWaits w).portAccess q r = (some (s.dev.readSram r.addr r.len), s.dev.withWaits w) := by
      unfold Dev.portAccess
      extract_lets
      rw [if_pos hq, if_neg (by rw [hr]; decide), hread]
    rw [ha] at hw
    exact hw
  · have ha : (s.dev.withWaits w).portAccess q r = (some [], (s.dev.withWaits w).writeSram r.addr r.data) := by
      unfold Dev.portAccess
      extract_lets
      rw [if_pos hq, if_pos hr]
    rw [ha] at hw
    exact hw

end Sys2Proof.Machine
end

section
/-! PROOFS. The host's side of the setters. -/

namespace Sys2Proof
open Machine

/-- Settles O51: each clause is what its command does to the setter, the counters or the port that it names. -/
theorem setterHost : Obligations.SetterHost := by
  intro s sess n by_ v w table q r c x key rung started loads body reached
  refine ⟨fun h => ?_, fun ha => ?_, fun h hb => ?_, fun h hb => ?_, fun ha hw hf => ?_, fun h ht hl h8 => ?_, fun h ht => ?_, ?_, ?_,
    fun h hq hp hr => ?_, fun h hq hp hr => ?_, fun h ho hp => ?_, fun h hp => ?_⟩
  · refine runs_done (d := s.dev.ring n v) ?_ (ring_spec ..)
    cases by_ with
    | session k => exact absurd rfl (h k)
    | setter k => rfl
    | debug => rfl
  · obtain ⟨h1, h2, h3⟩ := ring_spec s.dev n v
    refine runs_devRequest (d := s.dev.ring n v) (st := .ok) rfl ha rfl ⟨⟨h1, h2, ?_⟩, answer_head ..⟩
    rw [answer_ipend]
    exact h3
  · obtain ⟨ha, hr, ho, hi⟩ := h
    obtain ⟨d, hd, h1, h2, h3, h4, h5, h6, h7⟩ := runControl_sound hr ho hi hb
    exact runs_devRequest rfl ha hd ⟨h1, h2, h3, h4, h5, (answer_setterOd _ n (by decide)).trans h6, answer_head .., h7⟩
  · obtain ⟨ha, hr, ho, hi⟩ := h
    obtain ⟨d, hd, h1, h2, h3⟩ := runControl_failed hr ho hi hb
    exact runs_devRequest rfl ha hd ⟨h1, h2, h3⟩
  · obtain ⟨e, he, h1, h2⟩ := runControl_stop (d := s.dev) (n := n) (v := w.toNat) (fun h => hw (BitVec.eq_of_toNat_eq h)) hf
    refine runs_devRequest rfl ha he ⟨rfl, ?_, (answer_setterOd _ n (by decide)).trans h2, answer_head .., rfl⟩
    rw [answer_ipend]
    exact h1
  · obtain ⟨ha, hr⟩ := h
    obtain ⟨e, he⟩ := firmware_sound (d := s.dev) (sess := sess) hr ht hl h8
    exact runs_devRequest rfl ha he ⟨rfl, answer_head .., rfl⟩
  · obtain ⟨ha, hr⟩ := h
    exact runs_devRequest rfl ha (firmware_crc (d := s.dev) hr ht) ⟨answer_head .., rfl, rfl⟩
  · exact runs_done (controlCounterRead_spec (by decide) (by decide) (ctlRead32_lc s.dev)) ⟨rfl, rfl, rfl, rfl⟩
  · exact runs_done (controlCounterRead_spec (by decide) (by decide) (ctlRead32_latch s.dev)) ⟨rfl, rfl, rfl⟩
  · obtain ⟨v, hv, -⟩ := matrixAccess_sram h.1 h.2 hq hp
    exact runs_done (hv hr) ⟨rfl, rfl, rfl⟩
  · obtain ⟨v, -, hv⟩ := matrixAccess_sram h.1 h.2 hq hp
    exact runs_done (hv hr) ⟨rfl, writeSram_mem rfl .., writeSram_cores (s.dev.withWaits v) r.addr r.data⟩
  · obtain ⟨e, he⟩ := matrixAccess_closed h hp ho
    exact runs_ok he ⟨rfl, rfl, rfl⟩
  · obtain ⟨v, hv⟩ := matrixAccess_refused h.1 hp
    obtain ⟨h1, h2, h3, h4⟩ := refuses_spec (s.dev.withWaits v) q
    exact runs_done hv ⟨h1, h2, h3, h4⟩

end Sys2Proof
end

section
/-! SUPPORT. Pegs, and what writes to HBM leave of the chip. -/

namespace Sys2Proof.Machine

open Chip (Stirs)

/-! ### Pegs -/

/-- A peg that is made shows in the trigger engine, its objects, the bundles, the twin's numbers and an interrupt (R232-R245). -/
structure Chip.Pegs (c d : Chip) : Prop where
  frame : ∃ b t o g p, d = { c with bundles := b, twin := t, obj := o, trigger := g, ipend := p }
  rd : ∀ k, keyIndex k ≠ 0x3800 → k ≠ od 0x5400 0x22 → d.rd k = c.rd k

namespace Chip.Pegs

variable {c d : Chip}

theorem refl : Pegs c c := ⟨⟨_, _, _, _, _, rfl⟩, fun _ _ _ => rfl⟩

theorem trans {e : Chip} (h : Pegs c d) (h' : Pegs d e) : Pegs c e := by
  obtain ⟨b, t, o, g, p, ho⟩ := h.frame
  obtain ⟨b', t', o', g', p', ho'⟩ := h'.frame
  exact ⟨⟨b', t', o', g', p', by rw [ho', ho]⟩, fun k hk hk' => (h'.rd k hk hk').trans (h.rd k hk hk')⟩

theorem foldl {α : Type} {f : Chip → α → Chip} (hf : ∀ e x, Pegs e (f e x)) (l : List α) (h : Pegs c d) : Pegs c (l.foldl f d) := by
  induction l generalizing d with
  | nil => exact h
  | cons x l ih => exact ih (h.trans (hf d x))

theorem bump (h : Pegs c d) {k n : Nat} (hk : keyIndex k = 0x3800 ∨ k = od 0x5400 0x22) : Pegs c (d.bump k n) := by
  obtain ⟨o, ho⟩ := Chip.bump_frame d k n
  refine h.trans ⟨⟨_, _, o, _, _, ho⟩, fun j h1 h2 => bump_rd_ne _ _ ?_⟩
  rintro rfl
  exact hk.elim h1 h2

theorem wr (h : Pegs c d) {k n : Nat} (hk : keyIndex k = 0x3800) : Pegs c (d.wr k n) :=
  h.trans ⟨⟨_, _, _, _, _, rfl⟩, fun j h1 _ => Chip.wr_rd_ne _ _ _ (by rintro rfl; exact h1 hk)⟩

theorem withTrigger (h : Pegs c d) (g : Trigger) : Pegs c { d with trigger := g } := h.trans ⟨⟨_, _, _, _, _, rfl⟩, fun _ _ _ => rfl⟩

theorem irq (h : Pegs c d) {n : Nat} : Pegs c (d.irq n) := h.trans ⟨⟨_, _, _, _, _, rfl⟩, fun _ _ _ => rfl⟩

theorem setBundle (h : Pegs c d) (b : Nat) (x : Bundle) : Pegs c (d.setBundle b x) := h.trans ⟨⟨_, _, _, _, _, rfl⟩, fun _ _ _ => rfl⟩

theorem toGroups (h : Pegs c d) (p : Peg) : Pegs c (d.toGroups p) := by
  have hgroups (l : List Nat) : Pegs c (l.foldl (fun a g => a.setGroup g { a.group g with waiting := pegInsert p (a.group g).waiting }) d) :=
    h.foldl (fun _ _ => refl.withTrigger _) l
  unfold Chip.toGroups
  extract_lets hits late c1
  split
  · exact h
  · split
    · exact hgroups _
    · exact (hgroups _).bump (.inl (by decide))

theorem logPeg (h : Pegs c d) (p : Peg) (side : Nat) (own : Bool) : Pegs c (d.logPeg p side own) := by
  unfold Chip.logPeg
  extract_lets n e c1
  exact ((h.withTrigger _).bump (.inl (by decide))).irq

theorem sendPeg (h : Pegs c d) (b : List Byte) : Pegs c (d.sendPeg b) := by
  unfold Chip.sendPeg
  refine h.foldl (fun a i => ?_) _
  extract_lets x
  split
  · exact refl.bump (.inl (by decide))
  · exact refl.setBundle _ _

theorem spreadPeg (h : Pegs c d) (p : Peg) : Pegs c (d.spreadPeg p) := by
  unfold Chip.spreadPeg
  extract_lets c1 c2
  have h1 : Pegs c c1 := by
    unfold c1
    split
    · exact h
    · exact h.toGroups p
  have h2 : Pegs c c2 := h1.logPeg ..
  split
  · exact h2.sendPeg _
  · exact h2

theorem mirror (h : Pegs c d) (type : Nat) (body : List Byte) : Pegs c (d.mirror type body) := by
  have hm : Chip.Mirrors d (d.mirror type body) := Chip.Mirrors.refl.mirror ..
  obtain ⟨b, t, o, ho⟩ := hm.frame
  exact h.trans ⟨⟨b, t, o, _, _, ho⟩, fun k _ hk => hm.rd k hk⟩

theorem numberPeg (h : Pegs c d) (tick kind flags detail amp : Nat) : Pegs c (d.numberPeg tick kind flags detail amp) := by
  unfold Chip.numberPeg
  extract_lets n b _ c1
  have h1 : Pegs c c1 := ((h.withTrigger _).bump (.inl (by decide))).spreadPeg _
  split
  · exact h1.mirror _ _
  · exact h1

theorem makePeg (h : Pegs c d) (tick kind flags detail amp : Nat) : Pegs c (d.makePeg tick kind flags detail amp) := by
  unfold Chip.makePeg
  split
  · exact h.numberPeg ..
  · split
    · exact h
    · exact h.withTrigger _

theorem xe (h : Pegs c d) : d.xe = c.xe := by
  obtain ⟨b, t, o, g, p, ho⟩ := h.frame
  exact (congrArg Chip.xe ho :)

end Chip.Pegs

/-! ### Writes to HBM -/

/-- A write to HBM changes the memory and the controller's pages and queues alone. -/
structure Dev.Fills (d e : Dev) : Prop where
  cores : e.cores = d.cores
  frame : ∃ h, e.chip = { d.chip with hbm := h }

namespace Dev.Fills

variable {d e : Dev}

theorem refl : Fills d d := ⟨rfl, _, rfl⟩

theorem trans {f : Dev} (h : Fills d e) (h' : Fills e f) : Fills d f := by
  obtain ⟨x, hx⟩ := h.frame
  obtain ⟨y, hy⟩ := h'.frame
  exact ⟨h'.cores.trans h.cores, y, by rw [hy, hx]⟩

theorem foldl {α : Type} {f : Dev → α → Dev} (hf : ∀ d x, Fills d (f d x)) (l : List α) (h : Fills d e) : Fills d (l.foldl f e) := by
  induction l generalizing e with
  | nil => exact h
  | cons x l ih => exact ih (h.trans (hf e x))

theorem settle (cls p : Nat) (h : Fills d e) : Fills d (e.settle cls p) := by
  unfold Dev.settle
  extract_lets k q hit
  split
  · exact h
  · exact h.trans ⟨rfl, _, rfl⟩

theorem writePiece (h : Fills d e) (u : HbmUser) (a : Nat) (b : List Byte) (poison : Bool) : Fills d (e.writePiece u a b poison) := by
  have hdef := Eq.refl @Dev.writePiece
  conv at hdef => rhs; delta Dev.writePiece
  generalize hr : e.writePiece u a b poison = r
  rw [hdef] at hr
  beta_reduce at hr
  split at hr
  · exact hr ▸ h
  next ro _ =>
    extract_lets p d1 m at hr
    have hs : Fills d d1 := h.settle ..
    clear_value m d1
    subst hr
    exact hs.trans ⟨rfl, _, rfl⟩

theorem writeHbm (h : Fills d e) (u : HbmUser) (a : Nat) (b : List Byte) (poison : Bool) : Fills d (e.writeHbm u a b poison) :=
  h.foldl (fun _ _ => refl.writePiece ..) _

theorem writeFresh (h : Fills d e) (u : HbmUser) (a : Nat) (b : List Byte) : Fills d (e.writeFresh u a b) := by
  unfold Dev.writeFresh
  extract_lets d1 units
  have h1 : Fills d d1 := h.writeHbm ..
  exact h1.trans ⟨rfl, _, rfl⟩

theorem xe (h : Fills d e) : e.chip.xe = d.chip.xe := by
  obtain ⟨x, hx⟩ := h.frame
  exact (congrArg Chip.xe hx :)

end Dev.Fills

/-! ### The objects of a forme -/

theorem formeOd_ne {f sub sub' : Nat} (h : sub ≠ sub') : formeOd f sub ≠ formeOd f sub' := by
  unfold formeOd od
  omega

theorem keyIndex_formeOd (f : Fin 4096) {sub : Nat} (hs : sub < 256) : keyIndex (formeOd f sub) = 0x8000 + f := keyIndex_od hs

theorem stirLevel_formeOd (f : Fin 4096) {sub : Nat} (hs : sub < 256) : stirLevel (formeOd f sub) = 5 := by
  unfold stirLevel formeOd
  rw [keyIndex_od hs, keySub_od hs]
  extract_lets k x
  split_ifs <;> omega

theorem objRow_formeOd (f : Fin 4096) {sub : Nat} (hs : sub < 256) : objRow (keyIndex (formeOd f sub)) (keySub (formeOd f sub)) =
    objs8000.rows.find? fun r => r.sub ≤ sub && sub < r.sub + r.n := by
  rw [keyIndex_formeOd f hs, show keySub (formeOd f sub) = sub from keySub_od hs]
  exact objRow_of_mem (g := objs8000) sub (by decide) (Nat.le_add_right _ _) (Nat.add_lt_add_left f.isLt _)

theorem formeOd_ne_powOd (f : Fin 4096) {sub : Nat} (hs : sub < 256) : formeOd f sub ≠ powOd 2 := fun h => by
  have hi := congrArg keyIndex h
  rw [keyIndex_formeOd f hs, show keyIndex (powOd 2) = 0x5000 from by decide] at hi
  omega

theorem forme_of_xe {c d : Chip} (h : d.xe = c.xe) (f : Nat) : d.forme f = c.forme f := by
  unfold Chip.forme
  rw [h]

theorem Chip.Mirrors.xe {c d : Chip} (h : Chip.Mirrors c d) : d.xe = c.xe := by
  obtain ⟨b, t, o, ho⟩ := h.frame
  exact (congrArg Chip.xe ho :)

theorem Chip.Mirrors.dom {c d : Chip} (h : Chip.Mirrors c d) : d.dom = c.dom := by
  obtain ⟨b, t, o, ho⟩ := h.frame
  exact (congrArg Chip.dom ho :)

/-! ### Weight banks and swaps -/

theorem writeBytes_forme {d : Dev} (f : Fin 4096) {sub : Nat} (hs : sub < 256) (sess : Nat) (b : List Byte) (a : Asker) :
    d.writeBytes sess (formeOd f sub) b a =
      ({ d with chip := (d.chip.bankWrite sess f (sub - 0x21) b).1 }, some (d.chip.bankWrite sess f (sub - 0x21) b).2) := by
  have hne {k : Nat} (hk : keyIndex k < 0x8000) : formeOd f sub ≠ k := by
    rintro rfl
    rw [keyIndex_formeOd f hs] at hk
    omega
  unfold Dev.writeBytes
  extract_lets i b c up
  have hi : i = 0x8000 + f := keyIndex_formeOd f hs
  have hb : b = sub := keySub_od hs
  rw [if_neg (hne (by decide)), if_neg (hne (by decide)), if_neg (hne (by decide)), if_neg (hne (by decide)), if_neg (by simp; omega),
    if_pos (by simp; omega), hi, hb, Nat.add_sub_cancel_left]

theorem bankWrite_ok {c : Chip} {sess f bank : Nat} {b : List Byte} (hk : c.kindFor sess f = .num 2) (hz : c.resizes sess f = false)
    (hb : c.rd (formeOd f 0x30) ≠ bank) (hf : (c.forme f).fading = false)
    (hc : bankCheck (c.rd (formeOd f 0x20)) (c.formeInputs f (mapN (c.table (od 0x6004 0)))) b = .ok) :
    ∃ d : Chip, c.bankWrite sess f bank b = (d, .ok) ∧ d.rdDom (bankOd f bank) = b := by
  unfold Chip.bankWrite
  extract_lets x
  rw [if_neg (not_not_intro hk), if_neg (by rw [hz]; decide), if_neg (by simp [hb, show x.fading = false from hf]), hc]
  exact ⟨_, rfl, Chip.wrDom_rdDom_same ..⟩

/-- A spectrum past the present front is the one that a tick in it names. -/
theorem effectSpectrum_le {f t n : Nat} (h : t < n * f) : effectSpectrum f t ≤ n := by
  unfold effectSpectrum
  have hf : 0 < f := Nat.pos_of_ne_zero (by rintro rfl; simp at h)
  have hlt : t + (f - 1) < (n + 1) * f := by
    rw [Nat.add_mul]
    omega
  exact Nat.le_of_lt_succ ((Nat.div_lt_iff_lt_mul hf).mpr hlt)

theorem wr_forme (c : Chip) (k v f : Nat) : (c.wr k v).forme f = c.forme f := rfl

theorem setForme_forme (c : Chip) (f : Nat) (x : FormeX) : (c.setForme f x).forme f = x := sget_sset_same ..

theorem showScarf_xe (c : Chip) (f : Nat) : (c.showScarf f).xe = c.xe := rfl

theorem swapWrite_ok {c : Chip} {f t : Nat} (hk : c.formeKind f = 2) (hb : c.bankHeld f (c.swapTarget f) = false)
    (hr : c.reached < effectSpectrum c.fft t * c.fft) :
    ∃ d : Chip, c.swapWrite f t = (d, .ok) ∧ (d.forme f).waiting = some (effectSpectrum c.fft t) := by
  have hmax : Nat.max (effectSpectrum c.fft t) (effectSpectrum c.fft c.reached) = effectSpectrum c.fft t :=
    Nat.max_eq_left (effectSpectrum_le hr)
  unfold Chip.swapWrite Chip.swapEnter
  rw [if_neg (by simp [hk, hb])]
  extract_lets x sp at_ j
  have hat : at_ = effectSpectrum c.fft t := hmax
  refine ⟨_, rfl, ?_⟩
  rw [forme_of_xe (showScarf_xe ..), ← hat]
  exact congrArg FormeX.waiting (sget_sset_same ..)

theorem writeHigh_swap (c : Chip) (f : Fin 4096) (n : Nat) : c.writeHigh (formeOd f 0x23) n = c.swapWrite f n := by
  have hne {k : Nat} (hk : keyIndex k < 0x8000) : formeOd f 0x23 ≠ k := by
    rintro rfl
    rw [keyIndex_formeOd f (by decide)] at hk
    omega
  unfold Chip.writeHigh
  extract_lets i b
  have hi : i = 0x8000 + f := keyIndex_formeOd f (by decide)
  have hb : b = 0x23 := keySub_od (by decide)
  rw [if_neg (by simp; omega), if_neg (by simp; omega), if_neg (by omega), if_neg (by simp; omega), if_neg (hne (by decide)),
    if_neg (by simp; omega), if_neg (hne (by decide)), if_neg (hne (by decide)), if_neg (by simp; omega), if_neg (hne (by decide)),
    if_neg (hne (by decide)), if_neg (hne (by decide)), if_neg (hne (by decide)), if_pos (by simp; omega), if_pos hb]
  exact congrArg (fun j => c.swapWrite j n) (show i - 0x8000 = f by omega)

/-! ### Scarfs -/

theorem untilFront_stirs (c : Chip) (t : Nat) : Stirs .waiting c (c.untilFront t) := by
  have htick : Stirs .waiting c (if c.runFronts.isEmpty then c.untilTick t else c) := by
    unfold Chip.untilTick
    extract_lets there
    split
    · split
      · exact Stirs.refl
      · split
        · exact Stirs.refl.untilLc (by decide)
        · exact Stirs.refl
    · exact Stirs.refl
  unfold Chip.untilFront
  split
  · exact Stirs.refl
  · extract_lets c1
    have h1 : Stirs .waiting c c1 := htick
    split
    · exact h1
    · refine Stirs.beaconsDue (by decide) (h1.trans ?_)
      exact ⟨rfl, fun _ _ => rfl, fun _ => rfl, fun _ _ => rfl, fun _ _ => rfl, fun h0 => absurd h0 (by decide)⟩

theorem scarfStart_spec {s : State} {f : Fin 4096} {w : Nat} (hw : (s.dev.chip.forme f).waiting = some w)
    (hf : (s.dev.chip.forme f).fading = false) (hb : s.dev.chip.bankHeld f (s.dev.chip.swapTarget f) = false) : ∃ c : Chip,
    execScarfStart f s = ok s c ∧ (c.forme f).waiting = none ∧ (c.forme f).fading = true ∧
    (c.forme f).scarfs = ⟨match (s.dev.chip.forme f).scarfs with | [] => w | e :: _ => max w (e.last + 1),
      s.dev.chip.rd (formeOd f 0x24), 1 - s.dev.chip.rd (formeOd f 0x30)⟩ :: (s.dev.chip.forme f).scarfs := by
  unfold execScarfStart
  extract_lets c n x
  rw [show x.waiting = some w from hw]
  dsimp -zeta only
  extract_lets a k c1
  have h1 : c1.forme n = { x with waiting := none, scarfs := k :: x.scarfs, fading := true } := sget_sset_same ..
  clear_value c1
  rw [if_neg (by simp [show x.fading = false from hf, show c.bankHeld n (c.swapTarget n) = false from hb])]
  refine ⟨_, rfl, ?_, ?_, ?_⟩
  · exact congrArg FormeX.waiting h1
  · exact congrArg FormeX.fading h1
  · exact congrArg FormeX.scarfs h1

theorem scarfEnd_spec {s : State} {f : Fin 4096} {k : Scarf} {l : List Scarf} (hf : (s.dev.chip.forme f).fading = true)
    (hl : (s.dev.chip.forme f).scarfs = k :: l) : ∃ c : Chip, execScarfEnd f s = ok s c ∧ (c.forme f).fading = false ∧
    c.rd (formeOd f 0x30) = k.target := by
  unfold execScarfEnd
  extract_lets c n x
  rw [show x.fading = true from hf, show x.scarfs = k :: l from hl]
  dsimp -zeta only
  generalize c.untilFront ((k.last + 1) * c.fft) = c1
  refine ⟨_, rfl, ?_, ?_⟩
  · rw [forme_of_xe (showScarf_xe ..), forme_of_xe (bump_xe ..), wr_forme, setForme_forme]
  · exact (Chip.wr_rd_ne _ _ _ (formeOd_ne (by decide))).trans ((bump_rd_ne _ _ (formeOd_ne (by decide))).trans (Chip.wr_rd_same _ _ _))

/-! ### The ledger -/

theorem releaseSlot_mem {c : Chip} {f : Nat} {x : LedgerSlot} (h : c.releaseSlot f = some x) : x ∈ c.xe.slots := by
  unfold Chip.releaseSlot at h
  split at h
  · cases h
  · exact List.mem_of_find?_eq_some h

theorem putSlot_mem {c : Chip} {x y : LedgerSlot} (hx : x ∈ c.xe.slots) (h1 : y.forme = x.forme) (h2 : y.period = x.period)
    (h3 : y.channel = x.channel) (h4 : y.block = x.block) : y ∈ (c.putSlot y).xe.slots := by
  unfold Chip.putSlot
  refine List.mem_map.mpr ⟨x, hx, ?_⟩
  exact if_pos (by simp [h1, h2, h3, h4])

theorem proofBeamsOut_fills (d : Dev) (g : Nat) (x : LedgerSlot) (l : List ScaledBeam) : Dev.Fills d (d.proofBeamsOut g x l) := by
  unfold Dev.proofBeamsOut
  extract_lets c cfg np first base m
  split
  · exact .refl
  · refine Dev.Fills.refl.foldl (fun a e => ?_) _
    extract_lets b
    split
    · exact Dev.Fills.refl.writeFresh ..
    · exact .refl

theorem slotDrain_spec {s : State} {f : Fin 4096} {x : LedgerSlot} (hx : s.dev.chip.releaseSlot f = some x) (hs : x.scaled = none)
    (ho : 256 ≤ (s.dev.chip.periodCfg x.period).rd (formeOd f 0x0A)) : ∃ d : Dev, execSlotDrain f s = done s d ∧
    (∃ b, { x with scaled := some b } ∈ d.chip.xe.slots) ∧ d.cores = s.dev.cores := by
  unfold execSlotDrain
  extract_lets c n
  rw [show c.releaseSlot n = some x from hx]
  dsimp -zeta only
  extract_lets cfg st form live need used c1 c2
  have hst : 256 ≤ st := ho
  rw [if_neg (by simp [hs]), if_neg (by simp [Nat.not_lt.mpr hst])]
  have h2 : { x with scaled := some (c.scaleBlock x).1 } ∈ c2.xe.slots := by
    have hput : { x with scaled := some (c.scaleBlock x).1 } ∈ (c.putSlot { x with scaled := some (c.scaleBlock x).1 }).xe.slots :=
      putSlot_mem (releaseSlot_mem hx) rfl rfl rfl rfl
    rw [show c2.xe = _ from (bump_xe ..).trans ((bump_xe ..).trans ((bump_xe ..).trans (bump_xe ..)))]
    exact hput
  generalize (c.scaleBlock x).1 = beams at h2
  clear_value c2
  have hf : Dev.Fills { s.dev with chip := c2 } (x.proofs.foldl (fun a g => a.proofBeamsOut g x beams) { s.dev with chip := c2 }) :=
    Dev.Fills.refl.foldl (fun _ _ => proofBeamsOut_fills ..) _
  refine ⟨_, rfl, ⟨beams, ?_⟩, hf.cores⟩
  rw [hf.xe]
  exact h2

/-! ### The release of a block, and the trigger beams -/

theorem setL1_l1 (c : Chip) (k : Nat) (x : L1Beam) : (c.setL1 k x).l1 k = x := sget_sset_same ..

/-- Every change of the beams' trigger leaves the ledger. -/
theorem setL1_slots (c : Chip) (k : Nat) (x : L1Beam) : (c.setL1 k x).xe.slots = c.xe.slots := rfl

theorem burstPeg_slots (c : Chip) (tb dt f : Nat) (u : Burst) : (c.burstPeg tb dt f u).xe.slots = c.xe.slots := by
  have h : Chip.Pegs c (c.burstPeg tb dt f u) := (Chip.Pegs.refl.bump (.inl (by decide))).makePeg ..
  rw [h.xe]

theorem l1Sample_slots (c : Chip) (key tb q : Nat) : (c.l1Sample key tb q).xe.slots = c.xe.slots := by
  unfold Chip.l1Sample
  extract_lets
  split
  · rfl
  · exact burstPeg_slots ..
  · extract_lets
    split
    · exact burstPeg_slots ..
    · rfl

theorem testL1_slots (c : Chip) (f n : Nat) : (c.testL1 f n).xe.slots = c.xe.slots := by
  unfold Chip.testL1
  extract_lets cfg
  split
  · rfl
  · refine foldl_keeps (fun c => c.xe.slots) (fun a b => ?_) _ c
    extract_lets key tb a1 x
    refine (setL1_slots ..).trans ?_
    unfold a1
    refine foldl_keeps (fun c => c.xe.slots) (fun y s => ?_) _ a
    extract_lets x z
    exact foldl_keeps (fun c => c.xe.slots) (fun _ _ => l1Sample_slots ..) _ _

theorem beamBlockRelease_spec {s : State} {f : Fin 4096} {x : LedgerSlot} (hx : s.dev.chip.releaseSlot f = some x) (hs : x.scaled.isSome = true) :
    ∃ c : Chip, execBeamBlockRelease f s = ok s c ∧
      ∀ e ∈ c.xe.slots, ¬ (e.forme = f ∧ e.period = x.period ∧ e.channel = x.channel ∧ e.block = x.block) := by
  obtain ⟨beams, hb⟩ := Option.isSome_iff_exists.mp hs
  unfold execBeamBlockRelease
  extract_lets c n
  rw [show c.releaseSlot n = some x from hx]
  dsimp -zeta only
  rw [hb]
  dsimp -zeta only
  extract_lets rows c1 keep _ c2 c3 y c4
  have h3 : ∀ e ∈ c3.xe.slots, ¬ (e.forme = f ∧ e.period = x.period ∧ e.channel = x.channel ∧ e.block = x.block) := by
    intro e he
    have hk : keep e = true := (List.mem_filter.mp he).2
    simp only [keep, Bool.not_eq_true', Bool.and_eq_false_imp, Bool.and_eq_true, beq_iff_eq, and_imp] at hk
    rintro ⟨h1, h2, h3, h4⟩
    exact absurd (hk h1 h2 h3) (by simp [h4])
  clear_value c3
  have h4 : c4.xe.slots = c3.xe.slots := by
    unfold c4
    split <;> rfl
  clear_value c4
  split
  · exact ⟨_, rfl, h3⟩
  · split
    · exact ⟨_, rfl, h3⟩
    · refine ⟨_, rfl, ?_⟩
      rw [testL1_slots, h4]
      exact h3

theorem l1WarmupEnd_spec {s : State} {tb : Fin 4096} {j : Nat} (h : s.dev.chip.triggerBeam tb = some j)
    (hw : 4 * 2 ^ (s.dev.chip.asOf ((s.dev.chip.l1 j).next * (s.dev.chip.l1 j).dt * s.dev.chip.fft)).rd (od 0x3800 0x0B) ≤ (s.dev.chip.l1 j).warm) :
    execL1WarmupEnd tb s = ok s (s.dev.chip.setL1 j { s.dev.chip.l1 j with armed := true }) := by
  unfold execL1WarmupEnd
  extract_lets c
  rw [show c.triggerBeam tb = some j from h]
  exact congrArg (ok s) (if_pos hw)

end Sys2Proof.Machine
end

section
/-! PROOFS. Weight banks, scarfs, the ledger and the trigger beams. -/

namespace Sys2Proof
open Machine

/-- Settles O48: each clause is what its command does to the forme, the ledger or the trigger beam; a peg that a burst makes leaves the ledger. -/
theorem beamFormes : Obligations.BeamFormes := by
  intro s sess f bank table tick w k l x tb j c y key sp start
  refine ⟨fun ha hk hz hb hf hc => ?_, fun ha hk hb hr => ?_, fun hw hf hb => ?_, fun hf hl => ?_, fun hx hs ho => ?_, fun hx hs => ?_,
    fun h hw => ?_⟩
  · have hsub : 0x21 + bank.val < 256 := by omega
    obtain ⟨e, he, hd⟩ := bankWrite_ok hk hz hb hf hc
    have hw : s.dev.writeNow sess (formeOd f (0x21 + bank)) (.bytes table) (.plain sess (formeOd f (0x21 + bank))) = ({ s.dev with chip := e }, some .ok) := by
      refine (writeBytes_forme f hsub ..).trans ?_
      rw [Nat.add_sub_cancel_left, he]
    refine runs_write rfl ha (.inl (formeOd_ne_powOd f hsub)) hw fun c1 h1 => ⟨?_, answer_head .., rfl, rfl⟩
    have hdom : (c1.answer sess (formeOd f (0x21 + bank)) .ok).dom = e.dom := (stirs_answer ..).dom.trans h1.dom
    exact (congrArg (fun m => sget (fun _ => []) m (bankOd f bank)) hdom :).trans hd
  · obtain ⟨e, he, hd⟩ := swapWrite_ok (t := tick.toNat) hk hb hr
    have hw : s.dev.writeNow sess (formeOd f 0x23) (.num tick.toNat) (.plain sess (formeOd f 0x23)) = ({ s.dev with chip := e }, some .ok) := by
      have hrow := (objRow_formeOd f (sub := 0x23) (by decide)).trans (by rfl : _ = some _)
      have hi := keyIndex_formeOd f (sub := 0x23) (by decide)
      refine (writeNum_high _ hrow rfl (by omega) ?_).trans ?_
      · rw [hi, Nat.add_sub_cancel_left]
        exact fun h => h.2.2 hk
      · exact congrArg (fun r : Chip × Status => (({ s.dev with chip := r.1 } : Dev), some r.2)) ((writeHigh_swap ..).trans he)
    refine runs_write rfl ha (.inl (formeOd_ne_powOd f (by decide))) hw fun c1 h1 => ⟨?_, answer_head .., rfl, rfl⟩
    exact (congrArg FormeX.waiting (forme_of_xe ((stirs_answer ..).xe.trans h1.xe) f)).trans hd
  · obtain ⟨e, he, h1, h2, h3⟩ := scarfStart_spec hw hf hb
    exact runs_ok he ⟨h1, h2, h3, rfl, rfl⟩
  · obtain ⟨e, he, h1, h2⟩ := scarfEnd_spec hf hl
    exact runs_ok he ⟨h1, h2, rfl, rfl⟩
  · obtain ⟨e, he, h1, h2⟩ := slotDrain_spec hx hs ho
    exact runs_done he ⟨h1, h2⟩
  · obtain ⟨e, he, h1⟩ := beamBlockRelease_spec hx hs
    exact runs_ok he ⟨h1, rfl, rfl⟩
  · have he := l1WarmupEnd_spec (s := s) h hw
    exact runs_ok he ⟨setL1_l1 .., rfl, rfl⟩

end Sys2Proof
end

section
/-! SUPPORT. Decisions, groups, machines and capture slots (R232-R246). -/

namespace Sys2Proof.Machine

open Chip (Stirs)

theorem trigOd_ne {sub sub' : Nat} (h : sub ≠ sub') : od 0x3800 sub ≠ od 0x3800 sub' := by
  unfold od
  omega

theorem stirLevel_trigOd {sub : Nat} (hs : sub < 256) : stirLevel (od 0x3800 sub) = 5 := by
  unfold stirLevel
  rw [keyIndex_od hs, keySub_od hs]
  rfl

theorem answer_trigOd (c : Chip) {sub sess key : Nat} {st : Status} (hs : sub < 256) :
    (c.answer sess key st).rd (od 0x3800 sub) = c.rd (od 0x3800 sub) :=
  (stirs_answer ..).rd _ (by rw [stirLevel_trigOd hs]; decide)

theorem bump_trigger (c : Chip) (k n : Nat) : (c.bump k n).trigger = c.trigger := by
  obtain ⟨o, ho⟩ := Chip.bump_frame c k n
  exact (congrArg Chip.trigger ho :)

theorem countFault_stirs (c : Chip) (sev : Severity) (k detail : Nat) : Stirs .report (c.bump k 1) (c.countFault sev k detail) := by
  unfold Chip.countFault
  exact Stirs.refl.fault

/-! ### Decisions -/

theorem softPeg_ok {c : Chip} {b : List Byte} (h : b.length = 16) : ∃ d : Chip, c.softPeg b = (d, .ok) := by
  unfold Chip.softPeg
  rw [if_neg (not_not_intro h)]
  split
  · exact ⟨_, rfl⟩
  · exact ⟨_, rfl⟩

/-- A decision that is applied takes a slot or is counted; it leaves the numbering of decisions (R241, R243). -/
theorem applyDecision_keeps (c : Chip) (d : Decision) (source n : Nat) : (c.applyDecision d source n).trigger.msgId = c.trigger.msgId ∧
    (c.applyDecision d source n).rd (od 0x3800 0x17) = c.rd (od 0x3800 0x17) := by
  unfold Chip.applyDecision
  extract_lets c0 a b merged r lo hi slot first _
  have h0 : c0.trigger.msgId = c.trigger.msgId ∧ c0.rd (od 0x3800 0x17) = c.rd (od 0x3800 0x17) := ⟨rfl, rfl⟩
  clear_value c0
  split
  · exact ⟨(congrArg Trigger.msgId (bump_trigger ..)).trans h0.1, (bump_rd_ne _ _ (trigOd_ne (by decide))).trans h0.2⟩
  · split
    · next k _ =>
      extract_lets _ c1 c2 c3
      have h1 : c1.trigger.msgId = c.trigger.msgId ∧ c1.rd (od 0x3800 0x17) = c.rd (od 0x3800 0x17) :=
        ⟨h0.1, (Chip.wr_rd_ne _ _ _ (trigOd_ne (by omega))).trans h0.2⟩
      clear_value c1
      have h2 : c2.trigger.msgId = c.trigger.msgId ∧ c2.rd (od 0x3800 0x17) = c.rd (od 0x3800 0x17) :=
        ⟨(congrArg Trigger.msgId (bump_trigger ..)).trans h1.1, (bump_rd_ne _ _ (trigOd_ne (by decide))).trans h1.2⟩
      clear_value c2
      have h3 : c3.trigger.msgId = c.trigger.msgId ∧ c3.rd (od 0x3800 0x17) = c.rd (od 0x3800 0x17) := by
        unfold c3
        split
        · exact ⟨(congrArg Trigger.msgId (bump_trigger ..)).trans h2.1, (bump_rd_ne _ _ (trigOd_ne (by decide))).trans h2.2⟩
        · exact h2
      clear_value c3
      split
      · exact h3
      · exact h3
    · have hs := countFault_stirs c0 .note (od 0x3800 0x1B) 0
      exact ⟨(congrArg Trigger.msgId (hs.trigger.trans (bump_trigger ..))).trans h0.1,
        (hs.rd _ (by decide)).trans ((bump_rd_ne _ _ (trigOd_ne (by decide))).trans h0.2)⟩

theorem sendDecision_keeps (c : Chip) (d : Decision) (n : Nat) (twin : Bool) : (c.sendDecision d n twin).trigger = c.trigger ∧
    (c.sendDecision d n twin).rd (od 0x3800 0x17) = c.rd (od 0x3800 0x17) := by
  unfold Chip.sendDecision
  extract_lets c1
  have h1 : c1.trigger = c.trigger := foldl_keeps (f := fun a b => a.queueControl b 0x02 n d.bytes) Chip.trigger (fun _ _ => rfl) _ c
  have h2 : c1.rd (od 0x3800 0x17) = c.rd (od 0x3800 0x17) :=
    foldl_keeps (f := fun a b => a.queueControl b 0x02 n d.bytes) (fun c => c.rd (od 0x3800 0x17)) (fun _ _ => rfl) _ c
  clear_value c1
  split
  · split
    · exact ⟨(bump_trigger ..).trans h1, (bump_rd_ne _ _ (by decide)).trans h2⟩
    · exact ⟨h1, h2⟩
  · exact ⟨h1, h2⟩

/-- A decision that is issued takes the next number and is counted (R241). -/
theorem issue_spec (c : Chip) (d : Decision) : (c.issue d).trigger.msgId = (c.trigger.msgId + 1) % 2 ^ 48 ∧
    (c.issue d).rd (od 0x3800 0x17) = wrapObj (od 0x3800 0x17) (c.rd (od 0x3800 0x17) + 1) := by
  unfold Chip.issue
  extract_lets n _ c1
  obtain ⟨h1, h2⟩ := sendDecision_keeps c1 d n true
  obtain ⟨h3, h4⟩ := applyDecision_keeps (({ c with trigger := { c.trigger with msgId := (n + 1) % 2 ^ 48 } } : Chip).bump (od 0x3800 0x17) 1)
    d c.node n
  refine ⟨?_, h2.trans (h4.trans (bump_rd_same ..))⟩
  rw [h1]
  exact h3.trans (congrArg Trigger.msgId (bump_trigger ..))

theorem softDecision_ok {c : Chip} {b : List Byte} (h : b.length = 24) (hr : c.role ≠ 3) :
    c.softDecision b = (c.issue { readDecision b with soft := true }, .ok) := by
  unfold Chip.softDecision
  rw [if_neg (not_not_intro h), if_neg hr]

/-! ### Groups -/

theorem setMachine_groups (c : Chip) (m : Nat) (x : TrigMachine) : (c.setMachine m x).trigger.groups = c.trigger.groups := rfl

theorem groupEvent_groups (c : Chip) (g t amp : Nat) : (c.groupEvent g t amp).trigger.groups = c.trigger.groups := by
  unfold Chip.groupEvent
  refine foldl_keeps (fun c => c.trigger.groups) (fun a m => ?_) _ c
  extract_lets b x
  split
  · exact setMachine_groups ..
  · rfl

theorem group_of_groups {c d : Chip} (h : d.trigger.groups = c.trigger.groups) (g : Nat) : d.group g = c.group g := by
  unfold Chip.group
  rw [h]

theorem setGroup_group (c : Chip) (g : Nat) (x : Group) : (c.setGroup g x).group g = x := sget_sset_same ..

/-- A group takes the first of its pegs (R238). -/
theorem groupTakePeg_spec {s : State} {g : Fin 256} {p : Peg} {ps : List Peg} (hw : (s.dev.chip.group g).waiting = p :: ps)
    (hon : s.dev.chip.on (od 0x3800 1) = true) : ∃ c : Chip, execGroupTakePeg g s = ok s c ∧ (c.group g).waiting = ps ∧ (c.group g).taken = p.tick := by
  unfold execGroupTakePeg
  extract_lets c x
  rw [show x.waiting = p :: ps from hw]
  dsimp -zeta only
  rw [if_neg (by simp [show c.on (od 0x3800 1) = true from hon])]
  extract_lets t r old clears kept full held c0 c1 amp
  clear_value c1
  split
  · refine ⟨_, rfl, ?_, ?_⟩
    · rw [group_of_groups (groupEvent_groups ..), setGroup_group]
    · rw [group_of_groups (groupEvent_groups ..), setGroup_group]
  · refine ⟨_, rfl, ?_, ?_⟩
    · rw [setGroup_group]
    · rw [setGroup_group]

/-! ### Machines -/

theorem setMachine_machine (c : Chip) (m : Nat) (x : TrigMachine) : (c.setMachine m x).machine m = x := sget_sset_same ..

theorem nextEvent_of_idle {x : TrigMachine} {e : MachineEv} (he : firstEv x.events = some e) (ht : ∀ i : Nat, x.timers.getD i none = none) :
    x.nextEvent = some e := by
  unfold TrigMachine.nextEvent
  rw [he]
  simp only [ht, List.filterMap_none, List.nil_append]
  rfl

theorem transit_state (c : Chip) (m : Nat) (body r : List Byte) (e : MachineEv) : ((c.transit m body r e).machine m).state = beAt r 3 1 / 8 := by
  unfold Chip.transit
  extract_lets act tm code to_ x0 x1 x2 x3 c1 c2 decider c3
  rw [setMachine_machine]

theorem machineEvent_spec {s : State} {m : Fin 64} {e : MachineEv} (he : firstEv (s.dev.chip.machine m).events = some e)
    (hr : (s.dev.chip.machine m).restarts = []) (ht : ∀ i : Nat, (s.dev.chip.machine m).timers.getD i none = none)
    (hon : s.dev.chip.on (od 0x3800 1) = true) (hg : s.dev.chip.groupsBehind (s.dev.chip.machineBody e.tick m) e.tick = false)
    {fits : Option (List Byte)} (hfits : ((transitions (s.dev.chip.machineBody e.tick m)).find? fun r =>
      beAt r 0 1 / 8 == (s.dev.chip.machine m).state && beAt r 1 1 / 64 == b2n e.timer && beAt r 2 1 == e.number) = fits) : ∃ c : Chip,
    execMachineEvent m s = ok s c ∧ (fits = none → (c.machine m).events = (s.dev.chip.machine m).events.erase e ∧
      (c.machine m).state = (s.dev.chip.machine m).state) ∧
    ∀ row, fits = some row → (c.machine m).state = beAt row 3 1 / 8 := by
  have hn := nextEvent_of_idle he ht
  have hdue : s.dev.chip.restartDue m = none := by
    unfold Chip.restartDue
    extract_lets x
    rw [show x.nextEvent = some e from hn, show x.restarts = [] from hr]
    rfl
  unfold execMachineEvent
  rw [hdue]
  extract_lets c x
  rw [show x.nextEvent = some e from hn]
  dsimp -zeta only
  extract_lets body y c1
  rw [if_neg (by simp [show c.on (od 0x3800 1) = true from hon, show c.groupsBehind body e.tick = false from hg])]
  have hy : y.events = x.events.erase e ∧ y.state = x.state := by
    unfold y
    split
    · exact ⟨rfl, rfl⟩
    · exact ⟨rfl, rfl⟩
  have h1 : c1.machine m = y := setMachine_machine ..
  clear_value c1
  rw [hy.2, show (transitions body).find? _ = fits from hfits]
  cases fits with
  | none => exact ⟨c1, rfl, fun _ => h1 ▸ hy, fun _ h => absurd h (by simp)⟩
  | some row =>
    refine ⟨_, rfl, fun h => absurd h (by simp), fun r hr => ?_⟩
    obtain rfl := Option.some.inj hr
    exact transit_state ..

theorem machineTimerExpiry_spec {s : State} {m : Fin 64} {tm : Fin 4} {u : Nat} (h : (s.dev.chip.machine m).timers.getD tm.val none = some u) :
    ∃ c : Chip, execMachineTimerExpiry m tm s = ok s c ∧ (c.machine m).timers = (s.dev.chip.machine m).timers.set tm none ∧
      (c.machine m).events = (s.dev.chip.machine m).events ++ [⟨u, true, tm, 0⟩] := by
  unfold execMachineTimerExpiry
  extract_lets c x
  rw [show x.timers.getD tm.val none = some u from h]
  refine ⟨_, rfl, ?_, ?_⟩
  · rw [setMachine_machine]
  · rw [setMachine_machine]

/-! ### Captures -/

theorem captureFreeze_spec {s : State} {u : Nat} {fs : List (Nat × Bool)} (h : s.dev.chip.trigger.freezeNext = (u, true) :: fs) : ∃ c : Chip,
    execCaptureFreeze s = ok s c ∧ c.trigger.freezeNext = fs ∧
    c.trigger.freezes = ⟨u, none, s.dev.chip.rd (od 0x3800 2) % 8⟩ :: s.dev.chip.trigger.freezes := by
  unfold execCaptureFreeze
  extract_lets c
  rw [show c.trigger.freezeNext = (u, true) :: fs from h]
  dsimp -zeta only
  extract_lets c1
  refine ⟨_, rfl, ?_⟩
  split
  · exact ⟨rfl, rfl⟩
  · exact ⟨rfl, rfl⟩

theorem scheduleFreeze_obj (c : Chip) (f : Bool) : (c.scheduleFreeze f).obj = c.obj ∧ (c.scheduleFreeze f).dom = c.dom := ⟨rfl, rfl⟩

theorem captureReady_spec {s : State} {k : Fin 8} {x : Slot} {w : Nat} (hx : s.dev.chip.trigger.slots[k] = some x) (h1' : s.dev.chip.slotState k = 1)
    (hw : s.dev.chip.writer.high = some w) (hle : x.hi ≤ w)
    (hs : (s.dev.chip.streams.any fun e => e.2.staged.any fun z => decide (z.1 ≤ x.hi)) = false) : ∃ c : Chip,
    execCaptureReady k s = ok s c ∧ c.slotState k = 2 ∧ c.rdDom (od 0x3800 (0x41 + k)) = s.dev.chip.captureRecord x := by
  unfold execCaptureReady
  extract_lets c _ c0
  rw [show c.trigger.slots[k] = some x from hx]
  dsimp -zeta only
  extract_lets staged rec_ c1 c2
  have h1 : c1.slotState k = 2 ∧ c1.rdDom (od 0x3800 (0x41 + k)) = c.captureRecord x :=
    ⟨Chip.wr_rd_same _ _ _, Chip.wrDom_rdDom_same (c0.slotTo k 2) (od 0x3800 (0x41 + k)) rec_⟩
  clear_value c1
  have h2 : c2.slotState k = 2 ∧ c2.rdDom (od 0x3800 (0x41 + k)) = c.captureRecord x := by
    unfold c2
    split
    · exact h1
    · exact h1
  clear_value c2
  rw [if_pos (by simp [show c.slotState k = 1 from h1', show c.writer.high = some w from hw, hle, show staged = false from hs])]
  have he : Stirs .report c2 (c2.event 0x0002 (beBytes 1 k.val ++ (beBytes 7 0 ++ rec_))) := Stirs.refl.event
  refine ⟨_, rfl, (he.rd _ (by rw [stirLevel_trigOd (by omega)]; decide)).trans h2.1, ?_⟩
  exact (congrArg (fun m => sget (fun _ => []) m (od 0x3800 (0x41 + k))) he.dom :).trans h2.2

theorem stopReadout_keeps (c : Chip) (unit set_ : Nat) : (c.stopReadout unit set_).trigger = c.trigger ∧
    ∀ sub, sub < 256 → (c.stopReadout unit set_).rd (od 0x3800 sub) = c.rd (od 0x3800 sub) := by
  have hne (i sub : Nat) (h : sub < 256) : od 0x3800 sub ≠ od (0x4500 + i) 0x12 := by
    unfold od
    omega
  unfold Chip.stopReadout
  constructor
  · refine foldl_keeps Chip.trigger (fun a i => ?_) _ c
    extract_lets x
    split
    · rfl
    · split
      · exact bump_trigger ..
      · rfl
  · intro sub hsub
    refine foldl_keeps (fun c => c.rd (od 0x3800 sub)) (fun a i => ?_) _ c
    extract_lets x
    split
    · rfl
    · split
      · exact bump_rd_ne _ _ (hne i sub hsub)
      · rfl

/-- A slot that is freed holds nothing (R246). -/
theorem freeSlot_spec (c : Chip) (k : Fin 8) : (c.freeSlot k).slotState k = 0 ∧ (c.freeSlot k).trigger.slots[k] = none ∧
    (c.freeSlot k).rd (od 0x3800 0x1D) = c.rd (od 0x3800 0x1D) := by
  obtain ⟨-, hr⟩ := stopReadout_keeps c k 2
  unfold Chip.freeSlot
  extract_lets was c0 _ _ c1
  have h1 : c1.slotState k = 0 ∧ c1.trigger.slots[k] = none ∧ c1.rd (od 0x3800 0x1D) = c.rd (od 0x3800 0x1D) :=
    ⟨Chip.wr_rd_same _ _ _, Vector.getElem_set_self .., (Chip.wr_rd_ne _ _ _ (trigOd_ne (by omega))).trans (hr _ (by decide))⟩
  clear_value c1
  split
  · exact h1
  · exact h1

theorem holdLimitExpiry_spec {s : State} {k : Fin 8} (h : s.dev.chip.slotState k ≠ 0) : ∃ c : Chip, execHoldLimitExpiry k s = ok s c ∧
    c.slotState k = 0 ∧ c.trigger.slots[k] = none ∧ c.rd (od 0x3800 0x1D) = wrapObj (od 0x3800 0x1D) (s.dev.chip.rd (od 0x3800 0x1D) + 1) := by
  unfold execHoldLimitExpiry
  extract_lets c c1
  have hc : c1.rd (od 0x3800 0x1D) = c.rd (od 0x3800 0x1D) := by
    unfold c1
    split
    · exact (Stirs.refl.untilLc (by decide) : Stirs .waiting c _).rd _ (by decide)
    · rfl
  clear_value c1
  rw [if_neg h]
  obtain ⟨h1, h2, h3⟩ := freeSlot_spec c1 k
  have hs := countFault_stirs (c1.freeSlot k) .note (od 0x3800 0x1D) 0
  refine ⟨_, rfl, ?_, ?_, ?_⟩
  · exact (hs.rd _ (by rw [stirLevel_trigOd (by omega)]; decide)).trans ((bump_rd_ne _ _ (trigOd_ne (by omega))).trans h1)
  · rw [hs.trigger, bump_trigger]
    exact h2
  · rw [hs.rd _ (by decide), bump_rd_same, h3, hc]

end Sys2Proof.Machine
end

section
/-! PROOFS. Pegs, machines and captures. -/

namespace Sys2Proof
open Machine

/-- Settles O49: each clause is what its command does to the decisions, the group, the machine or the slot that it names. -/
theorem pegsMachinesAndCaptures : Obligations.PegsMachinesAndCaptures := by
  intro s sess b g m tm k p ps e row u w fs x c y key body fits ready
  refine ⟨fun ha hb => ?_, fun ha hb hr => ?_, fun hw hon => ?_, fun h hf => ?_, fun h hf => ?_, fun h => ?_, fun h => ?_,
    fun hx h1 hw hle hs => ?_, fun ha h => ?_, fun h => ?_⟩
  · obtain ⟨e, he⟩ := softPeg_ok (c := c) hb
    exact runs_request rfl ha he ⟨answer_head .., rfl, rfl⟩
  · obtain ⟨h1, h2⟩ := issue_spec c { readDecision b with soft := true }
    refine runs_request rfl ha (softDecision_ok hb hr) ⟨?_, (answer_trigOd _ (by decide)).trans h2, answer_head .., rfl, rfl⟩
    rw [(stirs_answer ..).trigger]
    exact h1
  · obtain ⟨e, he, h1, h2⟩ := groupTakePeg_spec hw hon
    exact runs_ok he ⟨h1, h2, rfl, rfl⟩
  · obtain ⟨h1, h2, h3, h4, h5⟩ := h
    obtain ⟨e, he, hn, -⟩ := machineEvent_spec h1 h2 h3 h4 h5 rfl
    exact runs_ok he ⟨(hn hf).1, (hn hf).2, rfl, rfl⟩
  · obtain ⟨h1, h2, h3, h4, h5⟩ := h
    obtain ⟨e, he, -, hn⟩ := machineEvent_spec h1 h2 h3 h4 h5 rfl
    exact runs_ok he ⟨hn row hf, rfl, rfl⟩
  · obtain ⟨e, he, h1, h2⟩ := machineTimerExpiry_spec h
    exact runs_ok he ⟨h1, h2, rfl, rfl⟩
  · obtain ⟨e, he, h1, h2⟩ := captureFreeze_spec h
    exact runs_ok he ⟨h1, h2, rfl, rfl⟩
  · obtain ⟨e, he, h1, h2⟩ := captureReady_spec hx h1 hw hle hs
    exact runs_ok he ⟨h1, h2, rfl, rfl⟩
  · obtain ⟨h1, h2, -⟩ := freeSlot_spec c k
    have he : (if c.slotState k = 0 then c else c.freeSlot k, Status.ok) = (c.freeSlot k, .ok) := by rw [if_neg h]
    refine runs_request rfl ha he ⟨(answer_trigOd _ (by omega)).trans h1, ?_, answer_head .., rfl, rfl⟩
    rw [(stirs_answer ..).trigger]
    exact h2
  · obtain ⟨e, he, h1, h2, h3⟩ := holdLimitExpiry_spec h
    exact runs_ok he ⟨h1, h2, h3, rfl, rfl⟩

end Sys2Proof
end

section
/-! SUPPORT. The HBM controller, its training and scrub, and the retirement of ranks (R254-R275). -/

namespace Sys2Proof.Machine

open Chip (Stirs)

theorem setPc_pc (c : Chip) (k : Nat) (q : PseudoChannel) : (c.setPc k q).hbm.pc k = q := sget_sset_same ..

theorem bump_hbm (c : Chip) (k n : Nat) : (c.bump k n).hbm = c.hbm := by
  obtain ⟨o, ho⟩ := Chip.bump_frame c k n
  exact (congrArg Chip.hbm ho :)

theorem hbmOd_ne {sub sub' : Nat} (h : sub ≠ sub') : hbmOd sub ≠ hbmOd sub' := by
  unfold hbmOd od
  omega

/-! ### Requests of a pseudo-channel -/

/-- The place of a unit does not rest on what the pseudo-channels hold. -/
theorem unitPlace_setPc (c : Chip) (k : Nat) (q : PseudoChannel) (cls a : Nat) : (c.setPc k q).unitPlace cls a = c.unitPlace cls a := by
  have hd : (c.setPc k q).dom = c.dom := rfl
  have hr (r : Nat) : (c.setPc k q).rd r = c.rd r := rfl
  have hm : (c.setPc k q).hbm.migration = c.hbm.migration := rfl
  have ht : (c.setPc k q).translate = c.translate := funext (translate_congr hd (fun _ => hr _) hm)
  have hp : (c.setPc k q).packMoved = c.packMoved := by
    unfold Chip.packMoved
    simp only [hr]
  unfold Chip.unitPlace
  rw [ht, hp, hbmTop_congr hd fun _ => hr _, hr]

/-- A request within a unit is one piece (R259). -/
theorem unitPieces_one {a n : Nat} (h0 : 0 < n) (h : a % 32 + n ≤ 32) : unitPieces a n = [(a, n)] := by
  obtain ⟨m, rfl⟩ := Nat.exists_eq_succ_of_ne_zero (Nat.ne_of_gt h0)
  unfold unitPieces
  have hmin : Nat.min (32 - a % 32) (m + 1) = m + 1 := Nat.min_eq_right (by omega)
  simp [hmin]

theorem pcBusy_setPc (c : Chip) (k j : Nat) (q : PseudoChannel) : (c.setPc k q).pcBusy j = c.pcBusy j := rfl

/-- A pseudo-channel's training is the same after a unit waits in it. -/
theorem enqueue_pcBusy (c : Chip) (u : HbmUnit) (j : Nat) : (c.enqueue u).pcBusy j = c.pcBusy j := by
  unfold Chip.enqueue
  refine foldl_keeps (fun c => c.pcBusy j) (fun a e => ?_) _ c
  split
  · rfl
  · exact pcBusy_setPc ..

/-- A single unit that is offered waits in its class. -/
theorem enqueue_one {c : Chip} {u : HbmUnit} {p k n : Nat} (hn : (if u.write then u.data.length else u.len) = n) (h0 : 0 < n)
    (h : u.addr % 32 + n ≤ 32) (hp : c.unitPlace u.cls u.addr = some p) (hk : pcOf p = k) :
    c.enqueue u = c.setPc k ((c.hbm.pc k).setClass u.cls ((c.hbm.pc k).classQueue u.cls ++ [{ u with len := n, data := slice u.data 0 n }])) := by
  unfold Chip.enqueue
  rw [hn, unitPieces_one h0 h, List.foldl_cons, List.foldl_nil, hp]
  dsimp only
  rw [hk, Nat.sub_self]

/-- The pseudo-channel whose one waiting unit has been taken, after the arbitration that leaves the given waits. -/
def PseudoChannel.took (q : PseudoChannel) (w : List Nat) : PseudoChannel := { q with waits := w, classes := [] }

/-- The only class that waits wins the arbitration, and its unit is accepted (R260). -/
theorem arbitrateUnit_one {d : Dev} {k p : Nat} {q : PseudoChannel} {cls : Fin 11} {x : HbmUnit} (hq : d.chip.hbm.pc k = q)
    (hc : q.classes = [(cls.val, [x])]) (hr : q.reads = []) (hw : q.writes = []) (hp : d.chip.unitPlace x.cls x.addr = some p) :
    ∃ w : List Nat, d.arbitrateUnit k =
      ({ d with chip := d.chip.setPc k (q.took w) } : Dev).acceptUnit k x (p / 32 * 32) := by
  have hqueue (i : Nat) : q.classQueue i = if i = cls.val then [x] else [] := by
    unfold PseudoChannel.classQueue
    rw [hc]
    rfl
  have hasked : ((List.range 11).filter fun i => ((if i = cls.val then [x] else []).head?).isSome) = [cls.val] := by
    fin_cases cls <;> rfl
  unfold Dev.arbitrateUnit
  extract_lets c q' room head asked req win waits d1
  obtain rfl : q' = q := hq
  have ha : asked = [cls.val] := by
    unfold asked head
    simp only [hqueue]
    exact hasked
  have hreq : req = [cls.val] := by
    unfold req head
    rw [ha]
    simp [hqueue, room, hr, hw]
  have hwin : win = some cls.val := by
    unfold win
    rw [hreq]
    rfl
  clear_value win
  subst hwin
  dsimp -zeta only
  rw [hqueue, if_pos rfl]
  dsimp -zeta only
  rw [hp]
  refine ⟨waits, ?_⟩
  have hset : ({ q' with waits := waits } : PseudoChannel).setClass cls [] = q'.took waits := by
    unfold PseudoChannel.setClass PseudoChannel.took
    dsimp only
    rw [hc]
    simp [sset, sdel]
  rw [hset]

theorem drainWriter_settled {d : Dev} (h : ∀ e ∈ d.chip.streams, e.2.staged = []) : d.drainWriter = d := by
  have hn : (d.chip.streams.filter fun e => !e.2.staged.isEmpty) = [] := by
    refine List.filter_eq_nil_iff.mpr fun e he => ?_
    simp [h e he]
  unfold Dev.drainWriter
  rw [hn]
  rfl

/-- A read with no write before it takes what the memory holds. -/
theorem acceptUnit_read {d : Dev} {k p : Nat} {q : PseudoChannel} {x : HbmUnit} (hq : d.chip.hbm.pc k = q) (hr : q.reads = [])
    (hw : q.writes = []) (hx : x.write = false) : d.acceptUnit k x p = { d with chip := d.chip.setPc k { q with
      reads := [⟨x.cls.val, p, closes x, getBytes d.mem.hbm p 32, d.mem.poisoned (p / 32), false⟩] } } := by
  have hnone : q.queuedFor d.chip.compare x.cls p = none := by
    unfold PseudoChannel.queuedFor
    rw [hw]
    rfl
  unfold Dev.acceptUnit
  extract_lets c q' read
  obtain rfl : q' = q := hq
  rw [if_neg (by rw [hx]; decide), show q'.queuedFor c.compare x.cls p = none from hnone]
  unfold read
  rw [hr]
  rfl

/-- A whole unit that is written waits as it is. -/
theorem acceptUnit_write {d : Dev} {k p : Nat} {q : PseudoChannel} {x : HbmUnit} (hq : d.chip.hbm.pc k = q) (hw : q.writes = [])
    (hx : x.write = true) (ha : x.addr % 32 = 0) (hl : x.data.length = 32) : d.acceptUnit k x p = { d with chip := d.chip.setPc k { q with
      writes := [⟨x.cls.val, p, x.data, x.poison, closes x⟩] } } := by
  have hmerge : d.mergedWrite q x x.addr p = ⟨x.cls.val, p, x.data, x.poison, closes x⟩ := by
    unfold Dev.mergedWrite
    extract_lets off
    exact if_pos (by simp [show off = 0 from ha, hl])
  unfold Dev.acceptUnit
  extract_lets c q'
  obtain rfl : q' = q := hq
  rw [if_pos hx, hmerge]
  unfold PseudoChannel.push
  rw [hw]
  rfl

theorem issueWrite_reading {d : Dev} {k : Nat} {q : PseudoChannel} {r : ReadUnit} {l : List ReadUnit} (hq : d.chip.hbm.pc k = q)
    (hr : q.reads = r :: l) (hw : q.writes = []) (hm : q.writing = false) : d.issueWrite k = { d with chip := d.chip.setPc k q } := by
  have ht : q.turn = q := by
    unfold PseudoChannel.turn
    rw [if_neg (by simp [hw, hr]), if_neg (by simp [hm])]
  unfold Dev.issueWrite
  extract_lets q'
  have hq' : q' = q := by
    unfold q'
    rw [hq, ht]
  rw [hq', hm]

/-- Without a read that waits, the oldest write goes to the memory (R262). -/
theorem issueWrite_writing {d : Dev} {k : Nat} {q : PseudoChannel} {w : WriteUnit} (hq : d.chip.hbm.pc k = q)
    (hr : q.reads = []) (hw : q.writes = [w]) (hm : q.writing = false) : ∃ x : PseudoChannel,
    d.issueWrite k = { d with mem := d.mem.store w, chip := d.chip.setPc k x } ∧ x.reads = [] ∧ x.writes = [] := by
  have ht : q.turn = { q with writing := true } := by
    unfold PseudoChannel.turn
    rw [if_pos (by simp [hr, hm])]
  unfold Dev.issueWrite
  extract_lets q'
  have hq' : q' = { q with writing := true } := by
    unfold q'
    rw [hq, ht]
  clear_value q'
  subst hq'
  dsimp only
  rw [hw]
  exact ⟨_, rfl, hr, rfl⟩

theorem hbmRequest_busy {s : State} {k : Fin 6} {pc : Fin 32} {u : HbmUnit} (h : s.dev.chip.pcBusy (pcKey k pc) = true) :
    execHbmRequest k pc [u] s = ok s (s.dev.chip.enqueue u) := by
  unfold execHbmRequest
  extract_lets n c _ d
  rw [if_pos (show c.pcBusy n = true from (enqueue_pcBusy s.dev.chip u n).trans h)]
  rfl

/-- What a single unit that an idle pseudo-channel is offered comes to. -/
theorem hbmRequest_idle {s : State} {k : Fin 6} {pc : Fin 32} {u : HbmUnit} {p n : Nat} (hb : s.dev.chip.pcBusy (pcKey k pc) = false)
    (hc : (s.dev.chip.hbm.pc (pcKey k pc)).classes = []) (hw : (s.dev.chip.hbm.pc (pcKey k pc)).writes = [])
    (hr : (s.dev.chip.hbm.pc (pcKey k pc)).reads = []) (hp : s.dev.chip.unitPlace u.cls u.addr = some p) (hk : pcOf p = pcKey k pc)
    (hn : (if u.write then u.data.length else u.len) = n) (h0 : 0 < n) (h : u.addr % 32 + n ≤ 32) : ∃ w : List Nat,
    execHbmRequest k pc [u] s = done s (((Dev.acceptUnit
      { s.dev with chip := (s.dev.chip.enqueue u).setPc (pcKey k pc) ((s.dev.chip.hbm.pc (pcKey k pc)).took w) }
      (pcKey k pc) { u with len := n, data := slice u.data 0 n } (p / 32 * 32)).issueWrite (pcKey k pc)).drainWriter) := by
  have henq := enqueue_one hn h0 h hp hk
  have hqueue : (s.dev.chip.hbm.pc (pcKey k pc)).classQueue u.cls = [] := by
    unfold PseudoChannel.classQueue
    rw [hc]
    rfl
  have hset : (s.dev.chip.enqueue u).hbm.pc (pcKey k pc) =
      { s.dev.chip.hbm.pc (pcKey k pc) with classes := [(u.cls.val, [{ u with len := n, data := slice u.data 0 n }])] } := by
    rw [henq, setPc_pc, hqueue]
    unfold PseudoChannel.setClass
    rw [hc]
    simp [sset, sins]
  have hplace : (s.dev.chip.enqueue u).unitPlace u.cls u.addr = some p := by
    rw [henq, unitPlace_setPc]
    exact hp
  obtain ⟨w, hw'⟩ := arbitrateUnit_one (d := { s.dev with chip := s.dev.chip.enqueue u }) (cls := u.cls)
    (x := { u with len := n, data := slice u.data 0 n }) hset rfl hr hw hplace
  refine ⟨w, Eq.trans ?_ (congrArg (fun d : Dev => done s (d.issueWrite (pcKey k pc)).drainWriter) hw')⟩
  unfold execHbmRequest
  extract_lets m c _ d
  have hbusy : ¬ c.pcBusy m = true := by
    rw [show c.pcBusy m = false from (enqueue_pcBusy s.dev.chip u m).trans hb]
    decide
  exact congrArg (done s) (if_neg hbusy)

theorem enqueue_streams (c : Chip) (u : HbmUnit) : (c.enqueue u).streams = c.streams := by
  unfold Chip.enqueue
  refine foldl_keeps Chip.streams (fun a e => ?_) _ c
  split <;> rfl

/-- A read unit is queued with the unit's bytes and tag as they stand (R266). -/
theorem hbmRequest_read {s : State} {k : Fin 6} {pc : Fin 32} {u : HbmUnit} {p : Nat} (hb : s.dev.chip.pcBusy (pcKey k pc) = false)
    (hc : (s.dev.chip.hbm.pc (pcKey k pc)).classes = []) (hw : (s.dev.chip.hbm.pc (pcKey k pc)).writes = [])
    (hr : (s.dev.chip.hbm.pc (pcKey k pc)).reads = []) (hm : (s.dev.chip.hbm.pc (pcKey k pc)).writing = false)
    (hs : ∀ e ∈ s.dev.chip.streams, e.2.staged = []) (hp : s.dev.chip.unitPlace u.cls u.addr = some p) (hk : pcOf p = pcKey k pc)
    (hu : u.write = false) (h0 : 0 < u.len) (h : u.addr % 32 + u.len ≤ 32) : ∃ c : Chip, execHbmRequest k pc [u] s = ok s c ∧
    (c.hbm.pc (pcKey k pc)).reads = [⟨u.cls.val, p / 32 * 32, closes u, getBytes s.dev.mem.hbm (p / 32 * 32) 32,
      s.dev.mem.poisoned (p / 32 * 32 / 32), false⟩] ∧ (c.hbm.pc (pcKey k pc)).classes = [] ∧ (c.hbm.pc (pcKey k pc)).writes = [] := by
  obtain ⟨w, he⟩ := hbmRequest_idle hb hc hw hr hp hk (by rw [hu]; rfl) h0 h
  have hstreams := enqueue_streams s.dev.chip u
  generalize s.dev.chip.enqueue u = c0 at he hstreams
  generalize s.dev.chip.hbm.pc (pcKey k pc) = q at hc hw hr hm he
  generalize pcKey k pc = n at he ⊢
  rw [acceptUnit_read (q := q.took w) (x := { u with len := u.len, data := slice u.data 0 u.len }) (setPc_pc ..) hr hw hu] at he
  have hx := issueWrite_reading (k := n) (d := Dev.mk ((c0.setPc n (q.took w)).setPc n { q.took w with reads :=
      [⟨u.cls.val, p / 32 * 32, closes u, getBytes s.dev.mem.hbm (p / 32 * 32) 32, s.dev.mem.poisoned (p / 32 * 32 / 32), false⟩] })
    s.dev.cores s.dev.mem) (setPc_pc ..) rfl hw hm
  refine ⟨_, he.trans (congrArg (done s) ((congrArg Dev.drainWriter hx).trans (drainWriter_settled fun e he => hs e (hstreams ▸ he)))), ?_⟩
  rw [setPc_pc]
  exact ⟨rfl, rfl, hw⟩

/-- A whole unit that is written reaches the memory at once (R262, R266). -/
theorem hbmRequest_write {s : State} {k : Fin 6} {pc : Fin 32} {u : HbmUnit} {p : Nat} (hb : s.dev.chip.pcBusy (pcKey k pc) = false)
    (hc : (s.dev.chip.hbm.pc (pcKey k pc)).classes = []) (hw : (s.dev.chip.hbm.pc (pcKey k pc)).writes = [])
    (hr : (s.dev.chip.hbm.pc (pcKey k pc)).reads = []) (hm : (s.dev.chip.hbm.pc (pcKey k pc)).writing = false)
    (hs : ∀ e ∈ s.dev.chip.streams, e.2.staged = []) (hp : s.dev.chip.unitPlace u.cls u.addr = some p) (hk : pcOf p = pcKey k pc)
    (hu : u.write = true) (ha : u.addr % 32 = 0) (hl : u.data.length = 32) : ∃ c : Chip,
    execHbmRequest k pc [u] s =
      done s { s.dev with mem := s.dev.mem.store ⟨u.cls.val, p / 32 * 32, u.data, u.poison, closes u⟩, chip := c } ∧
    (c.hbm.pc (pcKey k pc)).writes = [] ∧ (c.hbm.pc (pcKey k pc)).reads = [] := by
  have hdata : slice u.data 0 32 = u.data := by
    unfold slice
    rw [List.drop_zero, ← hl, List.take_length]
  obtain ⟨w, he⟩ := hbmRequest_idle (n := 32) hb hc hw hr hp hk (by rw [hu, hl]; rfl) (by decide) (by omega)
  have hstreams := enqueue_streams s.dev.chip u
  generalize s.dev.chip.enqueue u = c0 at he hstreams
  generalize s.dev.chip.hbm.pc (pcKey k pc) = q at hc hw hr hm he
  generalize pcKey k pc = n at he ⊢
  rw [hdata, acceptUnit_write (q := q.took w) (x := { u with len := 32, data := u.data }) (setPc_pc ..) hw hu ha hl] at he
  obtain ⟨x, hx, h1, h2⟩ := issueWrite_writing (k := n)
    (d := Dev.mk ((c0.setPc n (q.took w)).setPc n { q.took w with writes := [⟨u.cls.val, p / 32 * 32, u.data, u.poison, closes u⟩] })
      s.dev.cores s.dev.mem) (setPc_pc ..) hr rfl hm
  refine ⟨_, he.trans (congrArg (done s) ((congrArg Dev.drainWriter hx).trans (drainWriter_settled fun e he => hs e (hstreams ▸ he)))), ?_⟩
  rw [setPc_pc]
  exact ⟨h2, h1⟩

theorem hbmReadComplete_busy {s : State} {k : Fin 6} {pc : Fin 32} {v : ReadUnit} {l : List ReadUnit}
    (hq : (s.dev.chip.hbm.pc (pcKey k pc)).reads = v :: l) (hb : s.dev.chip.pcBusy (pcKey k pc) = true) :
    execHbmReadComplete k pc .clean s = done s s.dev := by
  unfold execHbmReadComplete
  extract_lets d n q
  rw [show q.reads = v :: l from hq]
  exact if_pos hb

theorem readOutcome_clean (d : Dev) (p : Nat) : d.readOutcome p .clean = (d.chip.rankLost (p / rankBytes) || d.mem.poisoned (p / 32), d) := by
  unfold Dev.readOutcome
  extract_lets tagged
  split
  · next h => rw [h]; rfl
  · next h => rw [Bool.not_eq_true] at h; rw [h]; rfl

theorem packPoison_keeps (c : Chip) (off : Nat) : (c.packPoison off).hbm = c.hbm ∧ (c.packPoison off).out = c.out := by
  unfold Chip.packPoison
  constructor
  · refine foldl_keeps Chip.hbm (fun a i => ?_) _ c
    rfl
  · refine foldl_keeps Chip.out (fun a i => ?_) _ c
    rfl

/-- What the return of a read leaves in the controller and sends, whatever counts it (R266, R268). -/
theorem readCounts_keeps (c : Chip) (n : Nat) (b : Bool) (v : ReadUnit) :
    (if b then (c.bump (hbmOd 0x12) n).packPoison ((c.bump (hbmOd 0x12) n).packOffset v.addr) else c.bump (hbmOd 0x12) n).hbm = c.hbm ∧
    (if b then (c.bump (hbmOd 0x12) n).packPoison ((c.bump (hbmOd 0x12) n).packOffset v.addr) else c.bump (hbmOd 0x12) n).out = c.out := by
  have hbump : (c.bump (hbmOd 0x12) n).hbm = c.hbm ∧ (c.bump (hbmOd 0x12) n).out = c.out := by
    obtain ⟨o, ho⟩ := Chip.bump_frame c (hbmOd 0x12) n
    exact ⟨(congrArg Chip.hbm ho :), (congrArg Chip.out ho :)⟩
  generalize c.bump (hbmOd 0x12) n = c1 at hbump ⊢
  split
  · obtain ⟨h1, h2⟩ := packPoison_keeps c1 (c1.packOffset v.addr)
    exact ⟨h1.trans hbump.1, h2.trans hbump.2⟩
  · exact hbump

theorem hbmReadComplete_returns {s : State} {k : Fin 6} {pc : Fin 32} {v : ReadUnit} {l : List ReadUnit}
    (hq : (s.dev.chip.hbm.pc (pcKey k pc)).reads = v :: l) (hb : s.dev.chip.pcBusy (pcKey k pc) = false) : ∃ c : Chip,
    execHbmReadComplete k pc .clean s = ok s c ∧
    (c.hbm.pc (pcKey k pc)).reads = l ∧ (c.hbm.pc (pcKey k pc)).writes = (s.dev.chip.hbm.pc (pcKey k pc)).writes ∧
    c.out.head? = some (.hbm v.cls v.addr v.data (if v.forwarded then v.poison
      else s.dev.chip.rankLost (v.addr / rankBytes) || s.dev.mem.poisoned (v.addr / 32) || v.poison)) := by
  unfold execHbmReadComplete
  extract_lets d n q
  rw [show q.reads = v :: l from hq]
  dsimp -zeta only
  rw [if_neg (by rw [show d.chip.pcBusy n = false from hb]; decide)]
  have hclean (q2 : PseudoChannel) := readOutcome_clean { d with chip := d.chip.setPc n q2 } v.addr
  cases hv : v.forwarded with
  | true =>
    simp -zeta only [if_true]
    extract_lets q1 c1 counts c2
    obtain ⟨h1, h2⟩ := readCounts_keeps c1 (b2n counts) (v.poison && v.cls == 3) v
    have hp : (c1.hbm.pc n).reads = l ∧ (c1.hbm.pc n).writes = q.writes := by
      rw [show c1.hbm.pc n = q1 from setPc_pc ..]
      exact ⟨rfl, rfl⟩
    have ho : c1.out.head? = some (.hbm v.cls v.addr v.data (v.poison)) := rfl
    clear_value c1
    exact ⟨_, rfl, (congrArg (fun h : HbmCtl => (h.pc n).reads) h1).trans hp.1,
      (congrArg (fun h : HbmCtl => (h.pc n).writes) h1).trans hp.2, (congrArg List.head? h2).trans ho⟩
  | false =>
    simp -zeta only [hclean, Bool.false_eq_true, if_false]
    extract_lets q1 c1 counts c2
    obtain ⟨h1, h2⟩ := readCounts_keeps c1 (b2n counts)
      (((d.chip.setPc n (q1.access d.chip.lc v.addr v.close)).rankLost (v.addr / rankBytes) || d.mem.poisoned (v.addr / 32) || v.poison) && v.cls == 3) v
    have hp : (c1.hbm.pc n).reads = l ∧ (c1.hbm.pc n).writes = q.writes := by
      rw [show c1.hbm.pc n = q1.access d.chip.lc v.addr v.close from setPc_pc ..]
      exact ⟨rfl, rfl⟩
    have ho : c1.out.head? = some (.hbm v.cls v.addr v.data (d.chip.rankLost (v.addr / rankBytes) || d.mem.poisoned (v.addr / 32) || v.poison)) := rfl
    clear_value c1
    exact ⟨_, rfl, (congrArg (fun h : HbmCtl => (h.pc n).reads) h1).trans hp.1,
      (congrArg (fun h : HbmCtl => (h.pc n).writes) h1).trans hp.2, (congrArg List.head? h2).trans ho⟩

/-! ### Refresh and the page timeout -/

theorem bank_setBank (q : PseudoChannel) (b : Nat) (x : Bank) : (q.setBank b x).bank b = x := sget_sset_same ..

theorem setBank_bank (c : Chip) (k b : Nat) (q : PseudoChannel) (x : Bank) : ((c.setPc k (q.setBank b x)).hbm.pc k).bank b = x := by
  rw [setPc_pc, bank_setBank]

/-- A refresh is postponed at most eight times while its bank is wanted (R263). -/
theorem refresh_spec (s : State) (k : Fin 6) (pc : Fin 32) (bank : Fin 64) : ∃ c : Chip, execRefresh k pc bank s = ok s c ∧
    ((c.hbm.pc (pcKey k pc)).bank bank).postponed = if (s.dev.chip.hbm.pc (pcKey k pc)).bankWaits bank
      then min (((s.dev.chip.hbm.pc (pcKey k pc)).bank bank).postponed + 1) 8 else 0 := by
  refine ⟨_, rfl, ?_⟩
  rw [setBank_bank]
  dsimp only
  split
  · split <;> omega
  · rfl

theorem openPageTimeout_spec (s : State) (k : Fin 6) (pc : Fin 32) (bank : Fin 64) : ∃ c : Chip, execOpenPageTimeout k pc bank s = ok s c ∧
    ((c.hbm.pc (pcKey k pc)).bank bank).row = none := by
  unfold execOpenPageTimeout
  extract_lets n b c q
  split
  · next h => exact ⟨_, rfl, Option.isNone_iff_eq_none.mp h⟩
  · refine ⟨_, rfl, ?_⟩
    rw [setPc_pc, bank_setBank]

/-! ### Training -/

theorem setTraining_training (c : Chip) (k : Fin 6) (t : StackTraining) : (c.setTraining k t).hbm.training[k] = t := Vector.getElem_set_self ..

theorem stackTemp_keeps (c : Chip) (k : Fin 6) (t : Int) : (c.stackTemp k t).hbm = c.hbm ∧ (c.stackTemp k t).device = c.device :=
  ⟨rfl, foldl_keeps (f := fun (a : Chip) i => a.wr (rankOd (3 * k.val + i) 6) (ofI (sat 8 t) 8)) (fun c => c.rd (od 0x5000 1))
    (fun a i => Chip.wr_rd_ne _ _ _ (by unfold rankOd od; omega)) _ c⟩

theorem retrainStart_spec {s : State} {k : Fin 6} {tmp : Int} (hf : (s.dev.chip.hbm.training[k]).failed = false)
    (hc : (s.dev.chip.hbm.training[k]).changing = false) (hp : (s.dev.chip.hbm.training[k]).pass = none) (hd : s.dev.chip.device = 0) :
    ∃ c : Chip, execRetrainStart k tmp s = ok s c ∧ (c.hbm.training[k]).pass = some (0, 0) := by
  obtain ⟨hh, hdev⟩ := stackTemp_keeps s.dev.chip k tmp
  unfold execRetrainStart
  extract_lets c t moved
  have ht : t = s.dev.chip.hbm.training[k] := congrArg (fun h : HbmCtl => h.training[k]) hh
  have h1 : t.failed = false := ht ▸ hf
  have h2 : t.changing = false := ht ▸ hc
  have h3 : t.pass = none := ht ▸ hp
  rw [if_neg (by simp [h1, h2, h3, show c.device = 0 from hdev.trans hd])]
  refine ⟨_, rfl, ?_⟩
  rw [setTraining_training]

theorem trainingStepEnd_spec {s : State} {k : Fin 6} {good : Bool} {p a : Nat} (hp : (s.dev.chip.hbm.training[k]).pass = some (p, a)) (ha : a < 3)
    (hd : (s.dev.chip.hbm.training[k]).deferred = false) (hs : ∀ e ∈ s.dev.chip.streams, e.2.staged = []) : ∃ c : Chip,
    execTrainingStepEnd k good s = ok s c ∧ (c.hbm.training[k]).pass = some (p, a + 1) := by
  have hstep : s.dev.trainStep k good =
      { s.dev with chip := s.dev.chip.setTraining k { s.dev.chip.hbm.training[k] with pass := some (p, a + 1) } } := by
    unfold Dev.trainStep
    extract_lets c t
    rw [show t.pass = some (p, a) from hp]
    dsimp -zeta only
    rw [if_neg (by simp; omega), if_neg (by simp [show t.deferred = false from hd]), if_neg (by simp [show t.deferred = false from hd]), if_pos ha]
  refine ⟨s.dev.chip.setTraining k { s.dev.chip.hbm.training[k] with pass := some (p, a + 1) }, ?_, ?_⟩
  · unfold execTrainingStepEnd
    rw [hstep]
    extract_lets _ _ d
    have hpow : d.chip.power = s.dev.chip.power := rfl
    have hrate : ¬ (s.dev.chip.power.rate.isSome && d.chip.power.rate.isNone) = true := by
      rw [hpow]
      cases s.dev.chip.power.rate <;> simp
    rw [if_neg hrate, drainWriter_settled (show ∀ e ∈ d.chip.streams, _ from hs)]
    rfl
  · rw [setTraining_training]

/-! ### The scrubber and the rank changes -/

/-- A scrub takes the next unit in service (R268). -/
theorem scrubRead_spec {s : State} {r1 : Nat} (h : s.dev.chip.serviceFrom (s.dev.chip.hbm.scrub / rankBytes % 18) = some r1) : ∃ c : Chip,
    execScrubRead .clean s = ok s c ∧ c.hbm.scrub =
      ((if r1 = s.dev.chip.hbm.scrub / rankBytes % 18 then s.dev.chip.hbm.scrub % (18 * rankBytes) else r1 * rankBytes) + 32) % (18 * rankBytes) := by
  unfold execScrubRead
  extract_lets d c r _
  rw [show c.serviceFrom r = some r1 from h]
  dsimp -zeta only
  extract_lets p d1
  have h1 : d1.chip.hbm.scrub = (p + 32) % (18 * rankBytes) := rfl
  obtain ⟨c1, hc1⟩ : ∃ c1, d1 = { d with chip := c1 } := ⟨_, rfl⟩
  clear_value d1
  subst hc1
  split
  · refine ⟨_, rfl, ?_⟩
    rw [bump_hbm, bump_hbm]
    exact h1
  · rw [readOutcome_clean]
    refine ⟨_, rfl, ?_⟩
    rw [bump_hbm]
    exact h1

/-- An uncorrectable word of main SRAM is counted, and one of the chase marks its word (R253). -/
theorem sramMainWord_spec {s : State} {a : Nat} (h : a < 134217728) : ∃ c : Chip, execSramUncorrectable (.mainWord a) s = ok s c ∧
    a / 8 ∈ c.xe.bad ∧ c.rd (hbmOd 0x19) = wrapObj (hbmOd 0x19) (s.dev.chip.rd (hbmOd 0x19) + 1) := by
  unfold execSramUncorrectable
  extract_lets c chase
  have hs := countFault_stirs s.dev.chip .degrade (hbmOd 0x19) (sramAddr (.mainWord a))
  have hr : c.rd (hbmOd 0x19) = wrapObj (hbmOd 0x19) (s.dev.chip.rd (hbmOd 0x19) + 1) :=
    (hs.rd _ (by decide)).trans (bump_rd_same ..)
  clear_value c
  refine ⟨_, congrArg (ok s) (if_pos h), ?_, hr⟩
  show a / 8 ∈ (if c.xe.bad.contains (a / 8) then c.xe.bad else (a / 8) :: c.xe.bad)
  split
  · next hm => exact List.contains_iff_mem.mp hm
  · exact List.mem_cons_self

theorem startMigrations_running {d : Dev} (h : d.chip.hbm.migration.isSome = true) (n : Nat) : d.startMigrations n = d := by
  cases n with
  | zero => rfl
  | succ n =>
    unfold Dev.startMigrations
    extract_lets c
    exact if_pos (by simp [show c.hbm.migration.isSome = true from h])

theorem mem_rankInsert (r : Nat) (l : List Nat) : r ∈ rankInsert r l := by
  induction l with
  | nil => exact List.mem_singleton_self r
  | cons a t ih =>
    unfold rankInsert
    split_ifs with h1 h2
    · exact List.mem_cons_self
    · exact h2 ▸ List.mem_cons_self
    · exact List.mem_cons_of_mem a ih

theorem rankOd_ne {r q sub sub' : Nat} (hs : sub < 256) (hs' : sub' < 256) (h : sub ≠ sub') : rankOd r sub ≠ rankOd q sub' := by
  unfold rankOd od
  omega

/-- A rank's state is none of the objects that reports show, whatever number the rank has. -/
theorem stirLevel_rankState (r : Nat) : Scope.report.objects < stirLevel (rankOd r 1) := by
  unfold stirLevel rankOd
  rw [keyIndex_od (by decide), keySub_od (by decide)]
  show 0 < _
  dsimp only
  split_ifs <;> omega

/-- A rank that is retired while another migration runs waits for its own (R273, R274). -/
theorem retire_waiting {d : Dev} {r detail : Nat} (h : d.chip.rankState r = 1) (hm : d.chip.hbm.migration.isSome = true) : ∃ c : Chip,
    d.retire r detail = { d with chip := c } ∧ c.rankState r = (if d.chip.rankLost r || !d.chip.targetLeft then 4 else 2) ∧ r ∈ c.hbm.waiting := by
  unfold Dev.retire
  extract_lets c new c1
  rw [if_neg (not_not_intro h)]
  have hs : Stirs .report (c.wr (rankOd r 1) new) c1 := Stirs.refl.fault
  have hr : c1.rankState r = new := (hs.rd _ (stirLevel_rankState r)).trans (Chip.wr_rd_same _ _ _)
  have hmig : c1.hbm.migration.isSome = true := (congrArg (fun h : HbmCtl => h.migration.isSome) hs.hbm).trans hm
  clear_value c1
  rw [startMigrations_running (by exact hmig)]
  exact ⟨_, rfl, hr, mem_rankInsert ..⟩

theorem flushRange_cores (d : Dev) (lo hi : Nat) : (d.flushRange lo hi).cores = d.cores := by
  unfold Dev.flushRange
  refine foldl_cores (fun a k => ?_) _ d
  extract_lets q hit
  split
  · rfl
  · rfl

theorem migrationBlock_spec {s : State} {m : Migration} (hm : s.dev.chip.hbm.migration = some m) (hc : m.copied < rankBytes) : ∃ d : Dev,
    execMigrationBlock s = done s d ∧ d.chip.hbm.migration = some { m with copied := m.copied + blockBytes } ∧
    d.chip.rd (od 0x3C01 6) = (m.copied + blockBytes) / 1048576 ∧ d.cores = s.dev.cores := by
  have hflush := flushRange_cores s.dev
  have hdef := Eq.refl @execMigrationBlock
  conv at hdef => rhs; delta execMigrationBlock
  rw [hdef]
  beta_reduce
  extract_lets d
  rw [show d.chip.hbm.migration = some m from hm]
  dsimp -zeta only
  rw [if_neg (Nat.not_le.mpr hc)]
  extract_lets src dst d1 mem to_ poisoned c _ c1
  have hk : d1.cores = s.dev.cores := hflush ..
  clear_value mem poisoned d1
  exact ⟨_, rfl, rfl, Chip.wr_rd_same _ _ _, hk⟩

theorem startMigrations_idle {d : Dev} (hw : d.chip.hbm.waiting = []) (n : Nat) : d.startMigrations n = d := by
  cases n with
  | zero => rfl
  | succ n =>
    unfold Dev.startMigrations
    extract_lets c
    split
    · rfl
    · rw [show c.hbm.waiting = [] from hw]

theorem showRanks_wr (c : Chip) : ∃ n v, c.showRanks = (c.wr (od 0x3C00 0x02) n).wr (od 0x3C00 0x03) v := by
  unfold Chip.showRanks
  extract_lets n
  exact ⟨n, _, rfl⟩

theorem showRanks_keeps (c : Chip) : c.showRanks.hbm = c.hbm ∧ ∀ r, c.showRanks.rankState r = c.rankState r := by
  obtain ⟨n, v, h⟩ := showRanks_wr c
  rw [h]
  refine ⟨rfl, fun r => ?_⟩
  have hne (sub : Nat) (hs : sub < 256) : od (0x3C10 + r) 1 ≠ od 0x3C00 sub := by
    unfold od
    omega
  exact (Chip.wr_rd_ne _ _ _ (hne 3 (by decide))).trans (Chip.wr_rd_ne _ _ _ (hne 2 (by decide)))

theorem migrationEnds_spec {d : Dev} {m : Migration} (hm : d.chip.hbm.migration = some m) (hw : d.chip.hbm.waiting = []) (hne : m.src ≠ m.dst) :
    ∃ c : Chip, d.migrationEnds = { d with chip := c } ∧ c.hbm.migration = none ∧ c.rankState m.src = 4 ∧ c.rankState m.dst = 1 := by
  unfold Dev.migrationEnds
  extract_lets c
  rw [show c.hbm.migration = some m from hm]
  dsimp -zeta only
  extract_lets l old c1 _ c2
  have h1 : c1.rankState m.src = 4 ∧ c1.rankState m.dst = 1 := by
    have hd : rankOd m.dst 1 ≠ rankOd m.src 1 := by
      unfold rankOd od
      omega
    exact ⟨Chip.wr_rd_same _ _ _, (Chip.wr_rd_ne _ _ _ hd).trans ((Chip.wr_rd_ne _ _ _ (rankOd_ne (by decide) (by decide) (by decide))).trans
      (Chip.wr_rd_same _ _ _))⟩
  have hw1 : c1.hbm.waiting = [] := hw
  clear_value c1
  have h2 : c2.hbm.migration = none ∧ c2.hbm.waiting = [] ∧ c2.rankState m.src = 4 ∧ c2.rankState m.dst = 1 := by
    obtain ⟨hh, hr⟩ := showRanks_keeps (({ c1 with hbm := { c1.hbm with migration := none } } : Chip).bump (hbmOd 0x16) 1)
    have hb (r : Nat) : (({ c1 with hbm := { c1.hbm with migration := none } } : Chip).bump (hbmOd 0x16) 1).rankState r = c1.rankState r :=
      bump_rd_ne _ _ (by unfold hbmOd od; omega)
    have hh2 : c2.hbm = { c1.hbm with migration := none } := hh.trans (bump_hbm ..)
    rw [hh2]
    exact ⟨rfl, hw1, (hr _).trans ((hb _).trans h1.1), (hr _).trans ((hb _).trans h1.2)⟩
  clear_value c2
  have hs : Stirs .report c2 (c2.fault .note .change (rankOd m.src 1) old 4 0) := Stirs.refl.fault
  generalize c2.fault .note .change (rankOd m.src 1) old 4 0 = c3 at hs ⊢
  rw [startMigrations_idle (show ({ d with chip := c3 } : Dev).chip.hbm.waiting = [] from (congrArg HbmCtl.waiting hs.hbm).trans h2.2.1)]
  exact ⟨_, rfl, (congrArg HbmCtl.migration hs.hbm).trans h2.1, (hs.rd _ (stirLevel_rankState _)).trans h2.2.2.1,
    (hs.rd _ (stirLevel_rankState _)).trans h2.2.2.2⟩

theorem migrationComplete_spec {s : State} {m : Migration} (hm : s.dev.chip.hbm.migration = some m) (hc : rankBytes ≤ m.copied)
    (hw : s.dev.chip.hbm.waiting = []) (hne : m.src ≠ m.dst) : ∃ c : Chip, execMigrationComplete s = ok s c ∧
    c.hbm.migration = none ∧ c.rankState m.src = 4 ∧ c.rankState m.dst = 1 := by
  obtain ⟨c, he, h1, h2, h3⟩ := migrationEnds_spec hm hw hne
  refine ⟨c, ?_, h1, h2, h3⟩
  unfold execMigrationComplete
  extract_lets d
  rw [show d.chip.hbm.migration = some m from hm]
  dsimp -zeta only
  rw [if_neg (Nat.not_lt.mpr hc), he]
  rfl

end Sys2Proof.Machine
end

section
/-! PROOFS. HBM and retirement. -/

namespace Sys2Proof
open Machine

/-- Settles O50: each clause is what its command does to the pseudo-channel, the stack, the scrubber or the rank that it names. -/
theorem hbmAndRetire : Obligations.HbmAndRetire := by
  intro s sess k pc u p v l bank tmp good r1 a r m c q after w settled idle bad place
  refine ⟨fun h => ?_, fun h hu h0 hl => ?_, fun h hu ha hl => ?_, fun hq hb => ?_, fun hq hb => ?_, ?_, ?_, fun hf hc hp hd => ?_,
    fun hp ha hd hs => ?_, fun h => ?_, fun h => ?_, fun ha h hm => ?_, fun ha h => ?_, fun hm hc => ?_, fun hm hc hw hne => ?_⟩
  · exact runs_ok (hbmRequest_busy h) rfl
  · obtain ⟨hb, hc, hw, hr, hm, hs, hp, hk⟩ := h
    obtain ⟨e, he, h1, h2, h3⟩ := hbmRequest_read hb hc hw hr hm hs hp hk hu h0 hl
    exact runs_ok he ⟨h1, h2, h3, rfl, rfl⟩
  · obtain ⟨hb, hc, hw, hr, hm, hs, hp, hk⟩ := h
    obtain ⟨e, he, h1, h2⟩ := hbmRequest_write hb hc hw hr hm hs hp hk hu ha hl
    exact runs_done he ⟨rfl, h1, h2, rfl⟩
  · exact runs_done (hbmReadComplete_busy hq hb) rfl
  · obtain ⟨e, he, h1, h2, h3⟩ := hbmReadComplete_returns hq hb
    exact runs_ok he ⟨h1, h2, h3, rfl, rfl⟩
  · obtain ⟨e, he, h1⟩ := refresh_spec s k pc bank
    exact runs_ok he ⟨⟨rfl, rfl⟩, h1⟩
  · obtain ⟨e, he, h1⟩ := openPageTimeout_spec s k pc bank
    exact runs_ok he ⟨h1, rfl, rfl⟩
  · obtain ⟨e, he, h1⟩ := retrainStart_spec hf hc hp hd
    exact runs_ok he ⟨h1, rfl, rfl⟩
  · obtain ⟨e, he, h1⟩ := trainingStepEnd_spec (good := good) hp ha hd hs
    exact runs_ok he ⟨h1, rfl, rfl⟩
  · obtain ⟨e, he, h1⟩ := scrubRead_spec h
    exact runs_ok he ⟨h1, rfl⟩
  · obtain ⟨e, he, h1, h2⟩ := sramMainWord_spec (s := s) h
    exact runs_ok he ⟨h1, h2, rfl, rfl⟩
  · obtain ⟨e, he, h1, h2⟩ := retire_waiting (d := s.dev) (r := r) (detail := 0) h hm
    have hact : (if s.dev.chip.rankState r ≠ 1 then (s.dev, Status.state) else (s.dev.retire r 0, .ok)) = ({ s.dev with chip := e }, .ok) := by
      rw [if_neg (not_not_intro h), he]
    refine runs_devRequest rfl ha hact ⟨answer_head .., ?_, ?_, rfl, rfl⟩
    · exact ((stirs_answer ..).rd _ (stirLevel_rankState _)).trans h1
    · rw [(stirs_answer ..).hbm]
      exact h2
  · exact runs_devRequest rfl ha (if_pos h) ⟨answer_head .., rfl, rfl⟩
  · obtain ⟨e, he, h1, h2, h3⟩ := migrationBlock_spec hm hc
    exact runs_done he ⟨h1, h2, h3⟩
  · obtain ⟨e, he, h1, h2, h3⟩ := migrationComplete_spec hm hc hw hne
    exact runs_ok he ⟨h1, h2, h3, rfl, rfl⟩

end Sys2Proof
end

section
/-! SUPPORT. Output ports, readouts and frame slots (R335-R347). -/

namespace Sys2Proof.Machine

open Chip (Stirs)

theorem portOd_ne {p sub sub' : Nat} (h : sub ≠ sub') : portOd p sub ≠ portOd p sub' := by
  unfold portOd od
  omega

theorem stirLevel_portOd (p : Fin 8) {sub : Nat} (hs : sub < 256) : stirLevel (portOd p sub) = 5 := by
  unfold stirLevel portOd
  rw [keyIndex_od hs, keySub_od hs]
  extract_lets k x
  split_ifs <;> omega

theorem setPort_port (c : Chip) (p : Nat) (x : OutPort) : (c.setPort p x).port p = x := sget_sset_same ..

theorem setOutStream_outStream (c : Chip) (n : Nat) (x : OutStream) : (c.setOutStream n x).outStream n = x := sget_sset_same ..

/-! ### The state of a port -/

theorem portLost_spec {c : Chip} {p : Fin 8} (h : c.rd (portOd p 0x10) = 2) : (c.portLost p).rd (portOd p 0x10) = 1 ∧
    (c.portLost p).rd (portOd p 0x13) = wrapObj (portOd p 0x13) (c.rd (portOd p 0x13) + 1) := by
  unfold Chip.portLost
  extract_lets k
  rw [if_pos (show c.rd k = 2 from h)]
  have hs : Stirs .report ((c.wr k 1).bump (portOd p 0x13) 1) (((c.wr k 1).bump (portOd p 0x13) 1).fault .degrade .change k 2 1 0) := Stirs.refl.fault
  have hl {sub : Nat} (hsub : sub < 256) : Scope.report.objects < stirLevel (portOd p sub) := by
    rw [stirLevel_portOd p hsub]
    decide
  constructor
  · exact (hs.rd _ (hl (by decide))).trans ((bump_rd_ne _ _ (portOd_ne (by decide))).trans (Chip.wr_rd_same _ _ _))
  · rw [hs.rd _ (hl (by decide)), bump_rd_same, Chip.wr_rd_ne _ _ _ (portOd_ne (by decide))]

/-! ### Readouts -/

theorem beginReadout_spec (c : Chip) (n : Nat) (r : Readout) : (c.beginReadout n r).obj = c.obj ∧ (c.beginReadout n r).trigger = c.trigger ∧
    ((c.beginReadout n r).outStream n).reading = some r := by
  unfold Chip.beginReadout
  exact ⟨rfl, rfl, congrArg OutStream.reading (setOutStream_outStream ..)⟩

theorem readoutStart_set {s : State} {n : Fin 256} {kind f k : Nat} (hon : s.dev.chip.on (outOd n 1) = true)
    (hr : (s.dev.chip.outStream n).reading = none) (hs : s.dev.chip.source n = some (kind, f)) (hk : kind < 4)
    (hn : s.dev.chip.nextSet f = some k) : ∃ c : Chip, execReadoutStart n s = ok s c ∧ c.rd (setOd f k) = 3 ∧
      ∃ e, (c.outStream n).reading = some e ∧ e.unit = f ∧ e.set_ = k ∧ e.frame = 0 := by
  unfold execReadoutStart
  extract_lets c st
  rw [if_neg (by simp [show c.on (outOd st 1) = true from hon, show (c.outStream st).reading = none from hr]),
    show c.source st = some (kind, f) from hs]
  obtain ⟨ho, -, hread⟩ := beginReadout_spec (c.wr (setOd f k) 3) st
    { (⟨f, k, c.dumpOf f (c.firstOf f k), c.firstOf f k, c.front, 0, 0⟩ : Readout) with
      left := (c.setShape c st ⟨f, k, c.dumpOf f (c.firstOf f k), c.firstOf f k, c.front, 0, 0⟩).items *
        (c.setShape c st ⟨f, k, c.dumpOf f (c.firstOf f k), c.firstOf f k, c.front, 0, 0⟩).channels }
  refine ⟨_, ?_, (congrArg (fun o => sget objDefault o (setOd f k)) ho).trans (Chip.wr_rd_same c (setOd f k) 3), _, hread, rfl, rfl, rfl⟩
  have hn' : c.nextSet f = some k := hn
  have hkind : kind ≠ 9 := by omega
  have h4 : ¬ 4 ≤ kind := by omega
  simp [h4, hn']

theorem readoutStart_slot {s : State} {n : Fin 256} {f : Nat} {j : Fin 8} {js : List (Fin 8)} {z : Slot}
    (hon : s.dev.chip.on (outOd n 1) = true) (hr : (s.dev.chip.outStream n).reading = none) (hs : s.dev.chip.source n = some (9, f))
    (hj : s.dev.chip.trigger.ready = j :: js) (hz : s.dev.chip.trigger.slots[j] = some z) : ∃ c : Chip, execReadoutStart n s = ok s c ∧
      c.slotState j = 3 ∧ c.trigger.ready = js ∧ ∃ e, (c.outStream n).reading = some e ∧ e.unit = j.val ∧ e.set_ = 2 := by
  unfold execReadoutStart
  extract_lets c st
  have hj' : c.trigger.ready = j :: js := hj
  have hz' : c.trigger.slots[j] = some z := hz
  rw [if_neg (by simp [show c.on (outOd st 1) = true from hon, show (c.outStream st).reading = none from hr]),
    show c.source st = some (9, f) from hs]
  dsimp -zeta only
  rw [hj']
  dsimp -zeta only
  rw [hz']
  obtain ⟨ho, ht, hread⟩ := beginReadout_spec { c.slotTo j 3 with trigger := { c.trigger with ready := js } } st
    ⟨j.val, 2, z.source * 2 ^ 58 + z.msgId, 0, c.front, 0, (c.slotShape z).1 * (c.slotShape z).2.length⟩
  exact ⟨_, rfl, (congrArg (fun o => sget objDefault o _) ho).trans (Chip.wr_rd_same c _ 3), congrArg Trigger.ready ht, _, hread, rfl, rfl⟩

theorem settleForme_keeps (c : Chip) (f k : Nat) (set_ : Nat) : (c.settleForme f).outs = c.outs ∧
    (c.settleForme f).rd (setOd k set_) = c.rd (setOd k set_) := by
  have hne (g : Nat) : setOd k set_ ≠ formeOd g 0x10 := by
    unfold setOd formeOd od
    omega
  unfold Chip.settleForme Chip.formeTo
  split
  · extract_lets proofs
    exact ⟨foldl_keeps (f := fun (a : Chip) g => a.wr (formeOd g 0x10) _) Chip.outs (fun _ _ => rfl) _ _,
      (foldl_keeps (f := fun (a : Chip) g => a.wr (formeOd g 0x10) _) (fun c => c.rd (setOd k set_))
        (fun a g => Chip.wr_rd_ne _ _ _ (hne g)) _ _).trans (Chip.wr_rd_ne _ _ _ (hne f))⟩
  · exact ⟨rfl, rfl⟩

theorem readoutEnd_spec {s : State} {n : Fin 256} {r : Readout} (hr : (s.dev.chip.outStream n).reading = some r) (hl : r.left = 0) :
    ∃ c : Chip, execReadoutEnd n s = ok s c ∧
      (r.set_ ≠ 2 → (c.outStream n).reading = none ∧ c.rd (setOd r.unit r.set_) = 0) ∧ (r.set_ = 2 → c.slotState (Fin.ofNat 8 r.unit) = 0) := by
  unfold execReadoutEnd
  extract_lets c x c1
  rw [show x.reading = some r from hr]
  dsimp -zeta only
  rw [if_neg (not_not_intro hl)]
  have h1 : (c1.outStream n).reading = none := congrArg OutStream.reading (setOutStream_outStream ..)
  clear_value c1
  refine ⟨_, rfl, fun h => ?_, fun h => ?_⟩
  · rw [if_neg h]
    obtain ⟨ho, hd⟩ := settleForme_keeps (c1.wr (setOd r.unit r.set_) 0) r.unit r.unit r.set_
    refine ⟨?_, hd.trans (Chip.wr_rd_same _ _ _)⟩
    unfold Chip.outStream at h1 ⊢
    rw [ho]
    exact h1
  · rw [if_pos h]
    exact (freeSlot_spec ..).1

/-! ### Frame slots -/

theorem filterMap_range_of_unique {α : Type} {f : Nat → Option α} {n : Nat} {b : α} (hn : f n = some b) (hne : ∀ i, i ≠ n → f i = none) (m : Nat) :
    (List.range m).filterMap f = if n < m then [b] else [] := by
  induction m with
  | zero => rfl
  | succ m ih =>
    rw [List.range_succ, List.filterMap_append, ih]
    by_cases h : m = n
    · subst h
      simp [hn]
    · have hm : [m].filterMap f = [] := by simp [hne m h]
      rw [hm, List.append_nil]
      have hiff : n < m + 1 ↔ n < m := by omega
      simp only [hiff]

/-- No output stream is the peg log's one, so no entry of the log is skipped (R344). -/
theorem skipPegs_none {c : Chip} (h : 256 ≤ c.rd (od 0x3800 6)) :
    (List.range 256).foldl (fun a n => if a.rd (od 0x3800 6) = n then a.skipPegs n else a) c = c := by
  have hgen (l : List Nat) : (∀ n ∈ l, n < 256) → l.foldl (fun a n => if a.rd (od 0x3800 6) = n then a.skipPegs n else a) c = c := by
    induction l with
    | nil => exact fun _ => rfl
    | cons n l ih =>
      intro hl
      have hn := hl n (List.mem_cons_self ..)
      rw [List.foldl_cons, if_neg (by omega), ih fun m hm => hl m (List.mem_cons_of_mem _ hm)]
  exact hgen _ fun n => List.mem_range.mp

theorem grant_built {d : Dev} {n : Nat} {o : OutFrame} {k : Nat} {l : List (OutFrame × Nat)} (hr : (d.chip.outStream n).reading = none)
    (hb : (d.chip.outStream n).built = (o, k) :: l) (p : Nat) (g : Chip) (bytes credit : Nat) : d.grant n p g bytes credit =
    { d with chip := (d.chip.setOutStream n { d.chip.outStream n with built := l }).toPort p o } := by
  unfold Dev.grant
  extract_lets c x finish
  rw [show x.reading = none from hr]
  dsimp -zeta only
  rw [show x.built = _ from hb]

theorem toPort_untimed {o : OutFrame} (ho : o.launch = none) (c : Chip) (p : Nat) :
    ((c.toPort p o).port p).next = some o ∧ (c.toPort p o).outs = c.outs := by
  unfold Chip.toPort
  rw [ho]
  exact ⟨congrArg OutPort.next (setPort_port ..), rfl⟩

theorem frameSlot_spec {s : State} {p : Fin 8} {n : Fin 256} {o : OutFrame} {k : Nat} {l : List (OutFrame × Nat)}
    (hpeg : 256 ≤ s.dev.chip.rd (od 0x3800 6)) (hrole : s.dev.chip.role ≠ 1) (hoff : ∀ i : Nat, i ≠ n.val → s.dev.chip.offer i = none)
    (hr : (s.dev.chip.outStream n).reading = none) (hb : (s.dev.chip.outStream n).built = (o, k) :: l) (ho : o.launch = none)
    (hp : s.dev.chip.rd (outOd n 2) = p) (hn : (s.dev.chip.port p).next = none) : ∃ c : Chip, execFrameSlot p s = ok s c ∧
      (c.port p).next = some o ∧ (c.outStream n).built = l := by
  unfold execFrameSlot
  rw [skipPegs_none hpeg]
  extract_lets d0 d c x offers req prio wait
  have hoffer : c.offer n = some (c, k, 0) := by
    unfold Chip.offer
    dsimp only
    rw [show (c.outStream n).reading = none from hr]
    dsimp only
    rw [show (c.outStream n).built = (o, k) :: l from hb]
  have hport : c.offerPort n c = (p.val, false) := by
    unfold Chip.offerPort
    rw [show (c.outStream n).reading = none from hr, show (c.outStream n).built = (o, k) :: l from hb]
    dsimp only
    rw [show c.rd (outOd n 2) = p.val from hp, ho]
    rfl
  have hx : x.next = none := hn
  have hlist : offers = [(c.rd (outOd n 4) * 256 + n, c, k, 0)] := by
    refine (filterMap_range_of_unique (n := n) ?_ (fun i hi => ?_) 256).trans (if_pos n.isLt)
    · rw [hoffer]
      dsimp only
      rw [hport]
      simp [hx]
    · rw [show c.offer i = none from hoff i hi]
  have hreq : req = [c.rd (outOd n 4) * 256 + n] := (if_neg hrole).trans (congrArg (List.map _) hlist)
  rw [hreq, hlist]
  dsimp -zeta only [arbitrate, List.foldl_cons, List.foldl_nil]
  rw [List.find?_cons_of_pos (by simp)]
  dsimp -zeta only
  rw [show (c.rd (outOd n 4) * 256 + n) % 256 = n.val by omega]
  extract_lets waits
  rw [grant_built (by exact hr) (by exact hb)]
  obtain ⟨h1, h2⟩ := toPort_untimed ho _ p.val
  exact ⟨_, rfl, h1, (congrArg (fun m => (sget (fun _ => OutStream.atReset) m n).built) h2).trans (congrArg OutStream.built (setOutStream_outStream ..))⟩

theorem macFrameBoundary_spec {s : State} {p : Fin 8} {o : OutFrame} (h0 : s.dev.chip.rd (portOd p 0x10) ≠ 0)
    (ht : (s.dev.chip.port p).timed = []) (hn : (s.dev.chip.port p).next = some o) : ∃ c : Chip, (c.port p).next = none ∧
      (∀ k, c.rd k = s.dev.chip.rd k) ∧ c.out = s.dev.chip.out ∧ execMacFrameBoundary p s = ok s (c.launch p o false) := by
  unfold execMacFrameBoundary
  extract_lets c y x idle rate now instant unset
  rw [if_neg (show c.rd (portOd p 0x10) ≠ 0 from h0), show x.timed = [] from ht]
  dsimp -zeta only
  rw [show x.next = some o from hn]
  dsimp -zeta only
  exact ⟨c.setPort p { x with timed := [], next := none }, congrArg OutPort.next (setPort_port ..), fun _ => rfl, rfl, rfl⟩

/-- A frame that the MAC takes leaves from a port that is up, and is counted as discarded on another (R335, R346). -/
theorem launch_spec (c : Chip) (p : Fin 8) (o : OutFrame) : (c.launch p o false).port p = c.port p ∧
    (c.rd (portOd p 0x10) = 2 → (c.launch p o false).out.head? = some (.ether p o.bytes)) ∧
    (c.rd (portOd p 0x10) ≠ 2 → (c.launch p o false).out = c.out ∧
      (c.launch p o false).rd (portOd p 0x12) = wrapObj (portOd p 0x12) (c.rd (portOd p 0x12) + 1)) := by
  have hports (c : Chip) (k n : Nat) : (c.bump k n).ports = c.ports ∧ (c.bump k n).out = c.out := by
    obtain ⟨o, ho⟩ := Chip.bump_frame c k n
    exact ⟨(congrArg Chip.ports ho :), (congrArg Chip.out ho :)⟩
  have hzero (c : Chip) (k : Nat) : c.bump k (b2n false) = c := if_pos rfl
  have hport {c d : Chip} (h : d.ports = c.ports) : d.port p = c.port p := by
    unfold Chip.port
    rw [h]
  unfold Chip.launch
  rw [hzero, hzero]
  dsimp only
  split
  · next h =>
    refine ⟨hport ((hports ..).1.trans (hports ..).1), fun _ => ?_, fun hn => absurd h hn⟩
    rw [(hports ..).2, (hports ..).2]
    rfl
  · next h => exact ⟨hport (hports ..).1, fun hn => absurd hn h, fun _ => ⟨(hports ..).2, bump_rd_same ..⟩⟩

end Sys2Proof.Machine
end

section
/-! PROOFS. Output ports. -/

namespace Sys2Proof
open Machine

/-- Settles O53: each clause is what its command does to the port, the readout or the frame slot that it names. -/
theorem outputPorts : Obligations.OutputPorts := by
  intro s p b x y n kind f k j js r o l z c key state counts free ready
  refine ⟨fun h1 h => ?_, fun h => ?_, fun h => ?_, fun h => ?_, fun h hb => ?_, fun h hs hk hn => ?_, fun h hs hj hz => ?_, fun hr hl h2 => ?_,
    fun hr hl h2 => ?_, fun hpeg hrole hoff hr hb ho hp hn => ?_, fun h h2 => ?_, fun h h2 => ?_⟩
  · refine runs_ok rfl ⟨?_, rfl, rfl⟩
    show (if c.rd (portOd p 1) ≠ 0 && c.rd (portOd p 0x10) = 1 then c.wr (portOd p 0x10) 2 else c).rd (portOd p 0x10) = 2
    rw [if_pos (by simp [show c.rd (portOd p 1) ≠ 0 from h1, show c.rd (portOd p 0x10) = 1 from h])]
    exact Chip.wr_rd_same _ _ _
  · obtain ⟨h1, h2⟩ := portLost_spec h
    exact runs_ok rfl ⟨h1, h2, rfl, rfl⟩
  · exact runs_done (d := s.dev) (if_pos h) rfl
  · exact runs_ok ((if_neg (not_not_intro h)).trans (if_pos rfl)) ⟨bump_rd_same .., rfl, rfl⟩
  · have hexec : execPortReceive p true b x y s = ok s (s.dev.chip.notPtp p) := by
      unfold execPortReceive
      extract_lets d
      rw [if_neg (not_not_intro h), if_neg (by decide), hb]
    refine runs_ok hexec ⟨?_, rfl, rfl⟩
    unfold Chip.notPtp
    dsimp only
    rw [if_pos p.isLt]
    exact bump_rd_same ..
  · obtain ⟨e, he, h1, h2⟩ := readoutStart_set h.1 h.2 hs hk hn
    exact runs_ok he ⟨h1, h2, rfl, rfl⟩
  · obtain ⟨e, he, h1, h2, h3⟩ := readoutStart_slot h.1 h.2 hs hj hz
    exact runs_ok he ⟨h1, h2, h3, rfl, rfl⟩
  · obtain ⟨e, he, h1, -⟩ := readoutEnd_spec hr hl
    exact runs_ok he ⟨(h1 h2).1, (h1 h2).2, rfl, rfl⟩
  · obtain ⟨e, he, -, h1⟩ := readoutEnd_spec hr hl
    exact runs_ok he ⟨h1 h2, rfl, rfl⟩
  · obtain ⟨e, he, h1, h2⟩ := frameSlot_spec hpeg hrole hoff hr hb ho hp hn
    exact runs_ok he ⟨h1, h2, rfl, rfl⟩
  · obtain ⟨e, hn, hrd, hout, he⟩ := macFrameBoundary_spec h.1 h.2.1 h.2.2
    obtain ⟨hp, hup, -⟩ := launch_spec e p o
    exact runs_ok he ⟨hup ((hrd _).trans h2), (congrArg OutPort.next hp).trans hn, rfl, rfl⟩
  · obtain ⟨e, hn, hrd, hout, he⟩ := macFrameBoundary_spec h.1 h.2.1 h.2.2
    obtain ⟨hp, -, hdown⟩ := launch_spec e p o
    obtain ⟨ho, hc⟩ := hdown fun hd => h2 ((hrd _).symm.trans hd)
    exact runs_ok he ⟨hc.trans (by rw [hrd]), (congrArg OutPort.next hp).trans hn, ho.trans hout, rfl, rfl⟩

end Sys2Proof
end

section
/-! SUPPORT. BDP requests: a new request of an open session, its answer, and what a rollback leaves (R376-R382). -/

namespace Sys2Proof.Machine

open Chip (Stirs)

/-! ### Sessions -/

theorem setSession_session (c : Chip) (k : Nat) (x : Session) : (c.setSession k x).session k = x := by
  unfold Chip.setSession Chip.session
  simp

theorem bump_dict' (c : Chip) (k n : Nat) : (c.bump k n).dict = c.dict := by
  obtain ⟨o, ho⟩ := Chip.bump_frame c k n
  exact (congrArg Chip.dict ho :)

theorem session_congr {c d : Chip} (h : d.dict.sessions = c.dict.sessions) (k : Nat) : d.session k = c.session k := by
  unfold Chip.session
  rw [h]

/-- The chip when a session's new request is carried out: the datagram counted, the session heard, its last request noted (R382). -/
def Chip.admitted (c : Chip) (q : Bdp) : Chip :=
  let k := q.session.toNat
  let c1 := (c.bump (od 0x1100 0x10) 1).hears k
  (c1.setSession k { c1.session k with lastId := some q.reqId, lastReply := [], repeats := [] }).wr (od (0x1220 + k) 3) q.reqId.toNat

/-- A datagram that the server takes is handled once it is counted. -/
theorem bdpArrives_handle {s : State} {q : Bdp} (h : s.receives q) (op : Nat) :
    s.dev.bdpArrives op q = ({ s.dev with chip := s.dev.chip.bump (od 0x1100 0x10) 1 } : Dev).bdpHandle op q := by
  obtain ⟨hserves, hwakes, haddr, hwf, hbusy, -⟩ := h
  have hbusy' : (s.dev.chip.bump (od 0x1100 0x10) 1).busy = false := by
    obtain ⟨o, ho⟩ := Chip.bump_frame s.dev.chip (od 0x1100 0x10) 1
    exact (congrArg Chip.busy ho :).trans hbusy
  unfold Dev.bdpArrives
  extract_lets c c1
  rw [if_neg (by simp [show c.wakes 2 = false from hwakes]),
    if_neg (by simp [show c.serves = true from hserves, show c.hasAddress q.v6 = true from haddr]), if_neg (by simp [hwf]),
    if_neg (by simp [show c1.busy = false from hbusy'])]

theorem bdpBarred_off {c : Chip} (h : c.on (od 0x1400 1) = false) (op : Nat) (q : Bdp) : c.bdpBarred op q = none := by
  unfold Chip.bdpBarred
  exact if_pos (by simp [h])

theorem counted_on (c : Chip) : (c.bump (od 0x1100 0x10) 1).on (od 0x1400 1) = c.on (od 0x1400 1) :=
  congrArg (· == 1) (bump_rd_ne _ _ (by decide))

/-- A new request of an open session is carried out (R382). -/
theorem bdpArrives_new {s : State} {q : Bdp} (h : s.receivesNew q) {op : Nat} (hop : op ≠ 1) :
    s.dev.bdpArrives op q = ({ s.dev with chip := s.dev.chip.admitted q } : Dev).bdpAct op q.session.toNat q := by
  obtain ⟨hr, hlo, hhi, hopen, hnew⟩ := h
  have hsess := session_congr (congrArg Dict.sessions (bump_dict' s.dev.chip (od 0x1100 0x10) 1)) q.session.toNat
  have hlive : (s.dev.chip.bump (od 0x1100 0x10) 1).liveSession op q = some q.session.toNat := by
    unfold Chip.liveSession
    exact if_pos (by simp [hop, hlo, hhi, hsess, hopen])
  rw [bdpArrives_handle hr]
  unfold Dev.bdpHandle
  extract_lets d c
  rw [show c.bdpBarred op q = none from bdpBarred_off ((counted_on _).trans hr.2.2.2.2.2) op q]
  dsimp -zeta only
  rw [if_neg hop, show c.liveSession op q = _ from hlive]
  dsimp -zeta only
  extract_lets c1 x c2
  rw [if_neg]
  · rfl
  · show (c1.session q.session.toNat).lastId ≠ _
    rw [show c1.session q.session.toNat = _ from setSession_session ..]
    exact fun he => hnew ((congrArg Session.lastId hsess).symm.trans he)

theorem admitted_session (c : Chip) (q : Bdp) : (c.admitted q).session q.session.toNat =
    { c.session q.session.toNat with heard := c.lc, lastId := some q.reqId, lastReply := [], repeats := [] } := by
  have h := setSession_session (c.bump (od 0x1100 0x10) 1) q.session.toNat
    { (c.bump (od 0x1100 0x10) 1).session q.session.toNat with heard := (c.bump (od 0x1100 0x10) 1).lc }
  obtain ⟨o, ho⟩ := Chip.bump_frame c (od 0x1100 0x10) 1
  refine (setSession_session ((c.bump (od 0x1100 0x10) 1).hears q.session.toNat) _ _).trans ?_
  unfold Chip.hears
  rw [h, session_congr (congrArg Dict.sessions (bump_dict' c _ 1)), show (c.bump (od 0x1100 0x10) 1).lc = c.lc from (congrArg Chip.lc ho :)]

/-- Only the count and the session change when a request is admitted. -/
theorem admitted_frame (c : Chip) (q : Bdp) : ∃ (o : SMap Nat) (l : Vector Session 9),
    c.admitted q = { c with obj := o, dict := { c.dict with sessions := l } } := by
  obtain ⟨o, ho⟩ := Chip.bump_frame c (od 0x1100 0x10) 1
  unfold Chip.admitted
  rw [ho]
  exact ⟨_, _, rfl⟩

theorem admitted_rd (c : Chip) (q : Bdp) {k : Nat} (h : k ≠ od 0x1100 0x10) (h' : k ≠ od (0x1220 + q.session.toNat) 3) :
    (c.admitted q).rd k = c.rd k := (Chip.wr_rd_ne _ _ _ h').trans (bump_rd_ne _ _ h)

theorem bdpOut_off {c : Chip} (hon : c.on (od 0x1400 1) = false) (op sess : Nat) (q : Bdp) (dg : List Byte) :
    c.bdpOut op sess q dg = c.send (.udp q.v6 q.ip q.port.toNat q.mac.toNat dg) := by
  unfold Chip.bdpOut
  rw [hon]
  simp

theorem admitted_txn (c : Chip) (q : Bdp) : (c.admitted q).dict.txn = c.dict.txn := by
  obtain ⟨o, l, hc⟩ := admitted_frame c q
  rw [hc]

theorem admitted_lc (c : Chip) (q : Bdp) : (c.admitted q).lc = c.lc := by
  obtain ⟨o, l, hc⟩ := admitted_frame c q
  rw [hc]

/-- A response of a session without authorization, none of its requests repeated yet: it is kept and sent (R377, R382). -/
theorem bdpReply_sends {c : Chip} {sess : Nat} (hon : c.on (od 0x1400 1) = false) (hlo : 1 ≤ sess) (hhi : sess ≤ 8)
    (hrep : (c.session sess).repeats = []) (op : Nat) (q : Bdp) (more : Bool) (st : Status) (body : List Byte) :
    ∃ x : Session, c.bdpReply op sess q more st body = (c.setSession sess x).send (bdpResponse q op sess more st body) ∧
      x = { c.session sess with lastReply := x.lastReply } := by
  unfold Chip.bdpReply
  extract_lets dg x c1
  rw [if_pos (by simp [hlo, hhi])]
  rw [show x.repeats = [] from hrep]
  refine ⟨{ x with lastReply := dg, repeats := [] }, ?_, by rw [← hrep]⟩
  rw [List.foldl_nil, bdpOut_off (show c1.on _ = false from hon)]
  unfold bdpResponse
  rw [← hon]

theorem reply_sends {c : Chip} {q : Bdp} (hon : c.on (od 0x1400 1) = false) (hlo : 1 ≤ q.session.toNat) (hhi : q.session.toNat ≤ 8)
    (hrep : (c.session q.session.toNat).repeats = []) {op : Nat} (hop : op ≠ 0x21) (st : Status) :
    ∃ x : Session, c.reply (.bdp op q) st = (c.setSession q.session.toNat x).send (bdpResponse q op q.session.toNat false st []) ∧
      x = { c.session q.session.toNat with lastReply := x.lastReply } := by
  unfold Chip.reply
  dsimp only
  rw [if_neg hop]
  exact bdpReply_sends hon hlo hhi hrep ..

/-! ### What a rollback and the end of a session leave -/

theorem event_out (c : Chip) (type : Nat) (payload : List Byte) : ∃ l, (c.event type payload).out = l ++ c.out := by
  have hb (c : Chip) (k n : Nat) : (c.bump k n).out = c.out := by
    obtain ⟨o, ho⟩ := Chip.bump_frame c k n
    exact (congrArg Chip.out ho :)
  unfold Chip.event
  extract_lets seq body dict c1 c2 ip auth d tag
  have h2 : c2.out = c.out := (hb c1 _ _).trans rfl
  split
  · exact ⟨[_], (hb ..).trans (congrArg (List.cons _) h2)⟩
  · exact ⟨[], h2⟩

theorem emptied_keeps (d : Dev) (k : Nat) : (d.emptied k).chip.out = d.chip.out ∧ (d.emptied k).chip.dict = d.chip.dict ∧
    (d.emptied k).chip.obj = d.chip.obj ∧ (d.emptied k).mem = d.mem := by
  unfold Dev.emptied
  extract_lets i n
  split
  · exact ⟨rfl, rfl, rfl, rfl⟩
  · exact ⟨rfl, rfl, rfl, rfl⟩

theorem foldl_emptied_keeps (d : Dev) (l : List Nat) : (l.foldl Dev.emptied d).chip.out = d.chip.out ∧
    (l.foldl Dev.emptied d).chip.dict = d.chip.dict ∧ (l.foldl Dev.emptied d).chip.obj = d.chip.obj ∧ (l.foldl Dev.emptied d).mem = d.mem := by
  induction l generalizing d with
  | nil => exact ⟨rfl, rfl, rfl, rfl⟩
  | cons k l ih =>
    obtain ⟨h1, h2, h3, h4⟩ := ih (d.emptied k)
    obtain ⟨e1, e2, e3, e4⟩ := emptied_keeps d k
    exact ⟨h1.trans e1, h2.trans e2, h3.trans e3, h4.trans e4⟩

theorem swapsAfter_keeps {α : Type} (g : Chip → α) (hg : ∀ c f x, g (Chip.setForme c f x) = g c) (c : Chip) (l : List Nat) (sp : Nat) :
    g (c.swapsAfter l sp) = g c := foldl_keeps g (fun c _ => hg c _ _) _ _

theorem closeTxn_keeps (c : Chip) : c.closeTxn.out = c.out ∧ c.closeTxn.dict = { c.dict with txn := none } ∧
    ∀ k, k ≠ od 0x1200 1 → k ≠ od 0x1200 2 → k ≠ od 0x1200 5 → k ≠ od 0x1200 0x0B → c.closeTxn.rd k = c.rd k := by
  refine ⟨rfl, rfl, fun k h1 h2 h5 hb => ?_⟩
  unfold Chip.closeTxn Chip.showStaging
  rw [Chip.wr_rd_ne _ _ _ hb, Chip.wr_rd_ne _ _ _ h5, Chip.wr_rd_ne _ _ _ h2, Chip.wr_rd_ne _ _ _ h1]
  rfl

theorem rollBack_keeps (d : Dev) : d.rollBack.chip.out = d.chip.out ∧ d.rollBack.chip.dict = { d.chip.dict with txn := none } ∧
    d.rollBack.mem = d.mem ∧
    ∀ k, k ≠ od 0x1200 1 → k ≠ od 0x1200 2 → k ≠ od 0x1200 5 → k ≠ od 0x1200 0x0B → d.rollBack.chip.rd k = d.chip.rd k := by
  unfold Dev.rollBack
  split
  · next h =>
    refine ⟨rfl, ?_, rfl, fun _ _ _ _ _ => rfl⟩
    rw [← h]
  · next t h =>
    extract_lets c
    obtain ⟨h1, h2, h3, h4⟩ := foldl_emptied_keeps { d with chip := c.swapsAfter t.direct (effectSpectrum c.fft c.reached) } t.direct
    obtain ⟨e1, e2, e3⟩ := closeTxn_keeps d.chip
    refine ⟨h1.trans ((swapsAfter_keeps Chip.out (fun _ _ _ => rfl) _ _ _).trans e1),
      h2.trans ((swapsAfter_keeps Chip.dict (fun _ _ _ => rfl) _ _ _).trans e2), h4, fun k k1 k2 k5 kb => ?_⟩
    refine (congrArg (fun o => sget objDefault o k) h3).trans ?_
    exact (congrArg (fun o => sget objDefault o k) (swapsAfter_keeps Chip.obj (fun _ _ _ => rfl) _ _ _)).trans (e3 k k1 k2 k5 kb)

/-- What the end of a session leaves (R371, R382). -/
theorem endSession_spec (d : Dev) (k : Nat) : ((d.endSession k).chip.session k).isOpen = false ∧
    (d.endSession k).chip.rd (od (0x1220 + k) 1) = 0 ∧ (d.endSession k).mem = d.mem ∧ ∃ l, (d.endSession k).chip.out = l ++ d.chip.out := by
  unfold Dev.endSession
  extract_lets own d1 c1 x free c2
  have hd : d1.chip.out = d.chip.out ∧ d1.mem = d.mem := by
    obtain ⟨h1, -, h2, -⟩ := rollBack_keeps d
    show (ite (own = true) _ _ : Dev).chip.out = _ ∧ (ite (own = true) _ _ : Dev).mem = _
    split
    · exact ⟨h1, h2⟩
    · exact ⟨rfl, rfl⟩
  have hc : ∃ l, c1.out = l ++ d1.chip.out := by
    show ∃ l, (ite (own = true) _ _ : Chip).out = _
    split
    · exact event_out ..
    · exact ⟨[], rfl⟩
  have hne : od (0x1220 + k) 1 ≠ od (0x1220 + k) 3 := by
    unfold od
    omega
  have ho : ∃ l, c2.out = l ++ d.chip.out := by
    rw [← hd.1]
    exact hc
  have hs : (c2.session k).isOpen = false := congrArg Session.isOpen (setSession_session ..)
  clear_value c2
  refine ⟨(congrArg Session.isOpen (session_congr (c := c2) rfl k)).trans hs, (Chip.wr_rd_ne _ _ _ hne).trans (Chip.wr_rd_same _ _ _), hd.2, ho⟩

/-- BEGIN with no transaction open opens one (R366). -/
theorem begin_spec {c : Chip} (h : c.dict.txn = none) (sess : Nat) : ∃ d : Chip, c.begin sess = (d, .ok) ∧
    d.dict = { c.dict with txn := some ⟨sess, c.lc, [], []⟩ } ∧ d.out = c.out ∧
    ∀ k, k ≠ od 0x1200 1 → k ≠ od 0x1200 2 → k ≠ od 0x1200 5 → k ≠ od 0x1200 0x0B → d.rd k = c.rd k := by
  unfold Chip.begin
  rw [h]
  refine ⟨_, rfl, rfl, rfl, fun k h1 h2 h5 hb => ?_⟩
  unfold Chip.showStaging
  rw [Chip.wr_rd_ne _ _ _ hb, Chip.wr_rd_ne _ _ _ h5, Chip.wr_rd_ne _ _ _ h2, Chip.wr_rd_ne _ _ _ h1]
  rfl

theorem commitBy_owner {c : Chip} {sess : Nat} (h : c.owner = some sess) (tick : Option Nat) (a : Asker) :
    c.commitBy sess tick a = ({ c with dict := { c.dict with validating := some ⟨sess, tick, a⟩ } }, none) := if_pos h

theorem rollbackBy_owner {d : Dev} {sess : Nat} (h : d.chip.owner = some sess) : d.rollbackBy sess = (d.rollBack, .ok) := if_pos h

/-! ### Requests of a session -/

section
variable (d : Dev) (sess : Nat) (q : Bdp)

theorem bdpAct_close : d.bdpAct 2 sess q = ({ d with chip := d.chip.reply (.bdp 2 q) .ok } : Dev).endSession sess := rfl
theorem bdpAct_keepalive : d.bdpAct 3 sess q = { d with chip := d.chip.reply (.bdp 3 q) .ok } := rfl
theorem bdpAct_read : d.bdpAct 0x10 sess q = d.bdpRead sess q := rfl
theorem bdpAct_write : d.bdpAct 0x11 sess q = d.bdpWrite sess q := rfl
theorem bdpAct_describe : d.bdpAct 0x14 sess q = { d with chip := d.chip.describe sess q } := rfl
theorem bdpAct_begin : d.bdpAct 0x20 sess q =
    { d with chip := (d.chip.beginRequest sess).1.reply (.bdp 0x20 q) (d.chip.beginRequest sess).2 } := rfl
theorem bdpAct_commit : d.bdpAct 0x21 sess q =
    { d with chip := (d.chip.commitRequest sess q).1.replyIf (.bdp 0x21 q) (d.chip.commitRequest sess q).2 } := rfl
theorem bdpAct_rollback : d.bdpAct 0x22 sess q =
    { (d.rollbackRequest sess).1 with chip := (d.rollbackRequest sess).1.chip.reply (.bdp 0x22 q) (d.rollbackRequest sess).2 } := rfl

end

section
variable {s : State} {q : Bdp} (h : s.receivesNew q)
include h

theorem admitted_off : (s.dev.chip.admitted q).on (od 0x1400 1) = false := by
  have hne : od 0x1400 1 ≠ od (0x1220 + q.session.toNat) 3 := by
    unfold od
    omega
  exact (congrArg (· == 1) (admitted_rd _ q (by decide) hne)).trans h.1.2.2.2.2.2

/-- The answer to a request that is carried out is kept and sent, whatever else the request changed (R377, R382). -/
theorem reply_admitted {d : Chip} (hs : d.dict.sessions = (s.dev.chip.admitted q).dict.sessions)
    (hon : d.rd (od 0x1400 1) = (s.dev.chip.admitted q).rd (od 0x1400 1)) {op : Nat} (hop : op ≠ 0x21) (st : Status) :
    ∃ x : Session, d.reply (.bdp op q) st = (d.setSession q.session.toNat x).send (bdpResponse q op q.session.toNat false st []) ∧
      x.heard = s.dev.chip.lc ∧ x.lastId = some q.reqId ∧ x.part = (s.dev.chip.session q.session.toNat).part := by
  have hsess := (session_congr hs q.session.toNat).trans (admitted_session ..)
  obtain ⟨x, hx, he⟩ := reply_sends (c := d) ((congrArg (· == 1) hon).trans (admitted_off h)) h.2.1 h.2.2.1
    (congrArg Session.repeats hsess) hop st
  rw [hsess] at he
  exact ⟨x, hx, (congrArg Session.heard he :), (congrArg Session.lastId he :), (congrArg Session.part he :)⟩

theorem closeSession_spec : (((s.dev.bdpArrives 2 q).chip.session q.session.toNat).isOpen = false) ∧
    bdpResponse q 0x02 q.session.toNat false .ok [] ∈ (s.dev.bdpArrives 2 q).chip.out := by
  obtain ⟨x, hx, -⟩ := reply_admitted h rfl rfl (op := 2) (by decide) .ok
  rw [bdpArrives_new h (by decide), bdpAct_close, hx]
  obtain ⟨h1, -, -, l, hl⟩ := endSession_spec ({ s.dev with
    chip := ((s.dev.chip.admitted q).setSession q.session.toNat x).send (bdpResponse q 2 q.session.toNat false .ok []) }) q.session.toNat
  refine ⟨h1, ?_⟩
  rw [hl]
  exact List.mem_append_right _ (List.mem_cons_self ..)

theorem keepalive_spec : ∃ e : Chip, s.dev.bdpArrives 3 q = { s.dev with chip := e } ∧
    e.out.head? = some (bdpResponse q 0x03 q.session.toNat false .ok []) ∧ (e.session q.session.toNat).heard = s.dev.chip.lc ∧
    (e.session q.session.toNat).lastId = some q.reqId := by
  obtain ⟨x, hx, hheard, hid, -⟩ := reply_admitted h rfl rfl (op := 3) (by decide) .ok
  have hsess := setSession_session (s.dev.chip.admitted q) q.session.toNat x
  refine ⟨_, (bdpArrives_new h (by decide)).trans (bdpAct_keepalive ..), ?_⟩
  rw [hx]
  exact ⟨rfl, (congrArg Session.heard hsess).trans hheard, (congrArg Session.lastId hsess).trans hid⟩

theorem admitted_modes : (s.dev.chip.admitted q).writable = s.dev.chip.writable ∧ (s.dev.chip.admitted q).shadow = s.dev.chip.shadow := by
  have hne {k : Nat} (hk : 0x1300 * 256 ≤ k) : k ≠ od (0x1220 + q.session.toNat) 3 := by
    have := h.2.2.1
    unfold od
    omega
  unfold Chip.writable Chip.bringUp Chip.shadow Chip.role
  rw [admitted_rd _ q (by decide) (hne (by decide)), admitted_rd _ q (by decide) (hne (by decide))]
  exact ⟨rfl, rfl⟩

theorem beginTxn_spec (hw : s.dev.chip.writable = true) (hsh : s.dev.chip.shadow = false) (ht : s.dev.chip.dict.txn = none) :
    ∃ e : Chip, s.dev.bdpArrives 0x20 q = { s.dev with chip := e } ∧
    e.dict.txn = some ⟨q.session.toNat, s.dev.chip.lc, [], []⟩ ∧ e.out.head? = some (bdpResponse q 0x20 q.session.toNat false .ok []) := by
  have hw' : (s.dev.chip.admitted q).beginRequest q.session.toNat = (s.dev.chip.admitted q).begin q.session.toNat := by
    unfold Chip.beginRequest
    rw [if_neg]
    simp [(admitted_modes h).1, (admitted_modes h).2, hw, hsh]
  refine ⟨_, (bdpArrives_new h (by decide)).trans (bdpAct_begin ..), ?_⟩
  rw [hw']
  obtain ⟨d, hd, hdict, hout, hrd⟩ := begin_spec ((admitted_txn s.dev.chip q).trans ht) q.session.toNat
  obtain ⟨x, hx, -⟩ := reply_admitted h (congrArg Dict.sessions hdict :) (hrd _ (by decide) (by decide) (by decide) (by decide)) (op := 0x20) (by decide) .ok
  rw [hd, hx]
  exact ⟨(congrArg Dict.txn hdict).trans (by rw [admitted_lc]), rfl⟩

theorem commit_spec (hsh : s.dev.chip.shadow = false) (ho : s.dev.chip.owner = some q.session.toNat) (hl : q.body.length = 12) :
    ∃ e : Chip, s.dev.bdpArrives 0x21 q = { s.dev with chip := e } ∧ e.dict.validating =
      some ⟨q.session.toNat, if bitAt (beAt q.body 0 1) 0 then some (beAt q.body 4 8) else none, .bdp 0x21 q⟩ := by
  have ho' : (s.dev.chip.admitted q).owner = some q.session.toNat := (congrArg (Option.map Txn.owner) (admitted_txn ..)).trans ho
  refine ⟨_, (bdpArrives_new h (by decide)).trans (bdpAct_commit ..), ?_⟩
  unfold Chip.commitRequest
  rw [if_neg (not_not_intro hl), if_neg (by simp [(admitted_modes h).2, hsh]), commitBy_owner ho']
  rfl

theorem rollback_spec (hsh : s.dev.chip.shadow = false) (ho : s.dev.chip.owner = some q.session.toNat) :
    (s.dev.bdpArrives 0x22 q).chip.dict.txn = none ∧ (s.dev.bdpArrives 0x22 q).mem = s.dev.mem ∧
    (s.dev.bdpArrives 0x22 q).chip.out.head? = some (bdpResponse q 0x22 q.session.toNat false .ok []) := by
  have ho' : (s.dev.chip.admitted q).owner = some q.session.toNat := (congrArg (Option.map Txn.owner) (admitted_txn ..)).trans ho
  have hr : ({ s.dev with chip := s.dev.chip.admitted q } : Dev).rollbackRequest q.session.toNat =
      (({ s.dev with chip := s.dev.chip.admitted q } : Dev).rollBack, .ok) := by
    unfold Dev.rollbackRequest
    rw [if_neg (by simp [(admitted_modes h).2, hsh])]
    exact rollbackBy_owner ho'
  obtain ⟨hout, hdict, hmem, hrd⟩ := rollBack_keeps { s.dev with chip := s.dev.chip.admitted q }
  obtain ⟨x, hx, -⟩ := reply_admitted h (congrArg Dict.sessions hdict :) (hrd _ (by decide) (by decide) (by decide) (by decide)) (op := 0x22) (by decide) .ok
  rw [bdpArrives_new h (by decide), bdpAct_rollback, hr, hx]
  exact ⟨(congrArg Dict.txn hdict :), hmem, rfl⟩

end

/-! ### OPEN -/

theorem openSession_arrives {s : State} {q : Bdp} (h : s.receives q) :
    s.dev.bdpArrives 1 q = { s.dev with chip := (s.dev.chip.bump (od 0x1100 0x10) 1).openSession q } := by
  rw [bdpArrives_handle h]
  unfold Dev.bdpHandle
  extract_lets d c
  rw [show c.bdpBarred 1 q = none from bdpBarred_off ((counted_on _).trans h.2.2.2.2.2) 1 q]
  rfl

theorem opened_spec (c : Chip) (k : Nat) (x : Session) (n : Nat) (host body : List Byte) (q : Bdp) :
    (((((c.setSession k x).wr (od (0x1220 + k) 1) n).wrDom (od (0x1220 + k) 2) host).wr (od (0x1220 + k) 3) 0).bdpReply 1 0 q false .ok
      body).session k = x ∧
    (((((c.setSession k x).wr (od (0x1220 + k) 1) n).wrDom (od (0x1220 + k) 2) host).wr (od (0x1220 + k) 3) 0).bdpReply 1 0 q false .ok
      body).rd (od (0x1220 + k) 1) = n := by
  have hne : od (0x1220 + k) 1 ≠ od (0x1220 + k) 3 := by
    unfold od
    omega
  exact ⟨(session_congr (c := c.setSession k x) rfl k).trans (setSession_session ..), (Chip.wr_rd_ne _ _ _ hne).trans (Chip.wr_rd_same _ _ _)⟩

/-- OPEN of a free server opens one session that was not (R382). -/
theorem openSession_spec {c : Chip} {q : Bdp} (hq : q.session.toNat = 0) (hl : q.body.length = 8) (hon : c.on (od 0x1400 1) = false)
    (hfree : ∃ j : Nat, 1 ≤ j ∧ j ≤ 8 ∧ (c.session j).isOpen = false) : ∃ j : Nat, 1 ≤ j ∧ j ≤ 8 ∧ (c.session j).isOpen = false ∧
    ((c.openSession q).session j).isOpen = true ∧ ((c.openSession q).session j).nonceH = q.body ∧
    ((c.openSession q).session j).heard = c.lc ∧ (c.openSession q).rd (od (0x1220 + j) 1) = 1 := by
  obtain ⟨i, hi1, hi8, hi⟩ := hfree
  unfold Chip.openSession
  extract_lets idle auth host
  have hmem {j : Nat} : j ∈ idle ↔ 1 ≤ j ∧ j ≤ 8 ∧ (c.session j).isOpen = false := by
    simp only [idle, List.mem_filterMap, List.mem_range]
    constructor
    · rintro ⟨a, ha, h⟩
      split at h
      · exact absurd h (by simp)
      · next hc =>
        obtain rfl := Option.some.inj h
        exact ⟨by omega, by omega, by simpa using hc⟩
    · rintro ⟨h1, h8, hj⟩
      refine ⟨j - 1, by omega, ?_⟩
      rw [Nat.sub_add_cancel h1, if_neg (by simp [hj])]
  have hne : idle ≠ [] := List.ne_nil_of_mem (hmem.mpr ⟨hi1, hi8, hi⟩)
  have hpos : 0 < idle.length := List.length_pos_of_ne_nil hne
  have hq' : q.session = 0 := BitVec.eq_of_toNat_eq hq
  rw [if_neg (by simp [hq', hne]), if_neg (not_not_intro hl)]
  have hk (a : Nat) : idle.getD (a % idle.length) 1 ∈ idle := by
    rw [List.getD_eq_getElem _ _ (Nat.mod_lt _ hpos)]
    exact List.getElem_mem _
  obtain ⟨h1, h8, hclosed⟩ := hmem.mp (hk (c.freeBits 8).1)
  refine ⟨_, h1, h8, hclosed, ?_⟩
  obtain ⟨hs, hr⟩ := opened_spec ((c.freeBits 8).2.freeBits 64).2 (idle.getD ((c.freeBits 8).1 % idle.length) 1)
    ⟨true, auth, q.body, beBytes 8 ((c.freeBits 8).2.freeBits 64).1, none, [], c.lc, host, none, [], false, []⟩ (1 + b2n auth) host
    (beBytes 2 (idle.getD ((c.freeBits 8).1 % idle.length) 1) ++ (List.replicate 6 0 ++ beBytes 8 ((c.freeBits 8).2.freeBits 64).1)) q
  exact ⟨(congrArg Session.isOpen hs :), (congrArg Session.nonceH hs :), (congrArg Session.heard hs :),
    hr.trans (by rw [show auth = false from hon]; rfl)⟩

end Sys2Proof.Machine
end

section
/-! PROOFS. BDP sessions, and what MGT answers for. -/

namespace Sys2Proof
open Machine

theorem mgtAnswer_own {c : Chip} {v6 : Bool} {ip : List Byte} {m : Nat} (h : c.ownMac v6 ip = some m) (kind : Nat) (sender : List Byte)
    (mac : Nat) (payload : List Byte) :
    c.mgtAnswer kind v6 ip sender mac payload = c.send (.mgt kind (beBytes 6 m ++ ip) sender mac payload) := by
  unfold Chip.mgtAnswer
  rw [h]

theorem mgtAnswer_none {c : Chip} {v6 : Bool} {ip : List Byte} (h : c.ownMac v6 ip = none) (kind : Nat) (sender : List Byte)
    (mac : Nat) (payload : List Byte) : c.mgtAnswer kind v6 ip sender mac payload = c := by
  unfold Chip.mgtAnswer
  rw [h]

/-- Settles O28: a request reaches its session as `Chip.admitted` says, and each operation is what the server does to that chip. -/
theorem sessionRequests : Obligations.SessionRequests := by
  constructor
  · intro s q c k
    refine ⟨fun h hk hl hfree => ?_, fun h => ?_, fun h => ?_, fun h hw hsh ht => ?_, fun h hsh ho hl => ?_, fun h hsh ho => ?_⟩
    · have hb := session_congr (congrArg Dict.sessions (bump_dict' c (od 0x1100 0x10) 1))
      obtain ⟨o, ho⟩ := Chip.bump_frame c (od 0x1100 0x10) 1
      have hlc : (c.bump (od 0x1100 0x10) 1).lc = c.lc := (congrArg Chip.lc ho :)
      obtain ⟨j, h1, h8, hclosed, hopen, hnonce, hheard, hrd⟩ := openSession_spec (c := c.bump (od 0x1100 0x10) 1) hk hl
        ((counted_on c).trans h.2.2.2.2.2) (by simpa only [hb] using hfree)
      exact runs_done (congrArg (done s) (openSession_arrives h))
        ⟨j, h1, h8, (congrArg Session.isOpen (hb j)).symm.trans hclosed, hopen, hnonce, hheard.trans hlc, hrd, rfl, rfl⟩
    · exact runs_done rfl (closeSession_spec h)
    · obtain ⟨e, he, h1, h2, h3⟩ := keepalive_spec h
      exact runs_done (congrArg (done s) he) ⟨h1, h2, h3, rfl, rfl⟩
    · obtain ⟨e, he, h1, h2⟩ := beginTxn_spec h hw hsh ht
      exact runs_done (congrArg (done s) he) ⟨h1, h2, rfl, rfl⟩
    · obtain ⟨e, he, h1⟩ := commit_spec h hsh ho hl
      exact runs_done (congrArg (done s) he) ⟨h1, rfl, rfl⟩
    · obtain ⟨h1, h2, h3⟩ := rollback_spec h hsh ho
      exact runs_done rfl ⟨h1, h3, h2⟩
  · intro s ip4 snd4 mac ip6 snd6 payload v6 m c
    refine ⟨fun h => ?_, fun h => ?_, fun h => ?_, fun h => ?_, fun h => ?_, fun h => ?_⟩
    · exact runs_ok (congrArg (ok s) (mgtAnswer_own h ..)) rfl
    · exact runs_ok (congrArg (ok s) (mgtAnswer_own h ..)) rfl
    · refine runs_ok (congrArg (ok s) (mgtAnswer_own h ..)) ?_
      cases v6 <;> rfl
    · exact runs_ok (congrArg (ok s) (mgtAnswer_none h ..)) rfl
    · exact runs_ok (congrArg (ok s) (mgtAnswer_none h ..)) rfl
    · exact runs_ok (congrArg (ok s) (mgtAnswer_none h ..)) rfl

end Sys2Proof
end

section
/-! SUPPORT. READ, WRITE and DESCRIBE over BDP (R378-R381). -/

namespace Sys2Proof.Machine

open Chip (Stirs)

theorem objRow_eventMask : ∃ r : ObjRow, objRow 0x1300 4 = some r ∧ r.ty.size = 4 := by
  refine ⟨_, rfl, ?_⟩
  decide

theorem setSession_twice (c : Chip) (k : Nat) (x y : Session) : (c.setSession k x).setSession k y = c.setSession k y := by
  unfold Chip.setSession
  simp

section
variable {d : Dev} {sess : Nat} {q : Bdp} {r : ObjRow} (hl : 8 ≤ q.body.length)
  (hr : objRow (keyIndex (od (beAt q.body 0 2) (beAt q.body 2 1))) (keySub (od (beAt q.body 0 2) (beAt q.body 2 1))) = some r)
  (hsize : r.ty.size = 0)
include hl hr hsize

/-- A first segment of a DOMAIN with more to come is kept (R380). -/
theorem bdpWrite_first (hoff : beAt q.body 4 4 = 0) (hmore : q.more = true) : ∃ x : Session,
    d.bdpWrite sess q = { d with chip := (d.chip.setSession sess x).reply (.bdp 0x11 q) .ok } ∧ x =
      { d.chip.session sess with part := some ⟨od (beAt q.body 0 2) (beAt q.body 2 1), q.body.drop 8, d.chip.lc⟩ } := by
  unfold Dev.bdpWrite
  extract_lets c key off data a refuse x c0 before
  rw [if_neg (by omega), show objRow (keyIndex key) (keySub key) = some r from hr]
  dsimp -zeta only
  rw [if_neg (not_not_intro hsize)]
  rw [show before = some [] from if_pos hoff]
  dsimp -zeta only
  rw [if_pos hmore]
  have hy : c0.session sess = { x with part := none } := setSession_session ..
  refine ⟨{ c0.session sess with part := some ⟨key, data, c.lc⟩ }, ?_, by rw [hy]⟩
  exact congrArg (fun e : Chip => ({ d with chip := e.reply a .ok } : Dev)) (setSession_twice ..)

/-- A segment of a DOMAIN at another offset, none before it, is refused (R380). -/
theorem bdpWrite_stray (hoff : beAt q.body 4 4 ≠ 0) (hpart : (d.chip.session sess).part = none) :
    d.bdpWrite sess q = { d with chip := (d.chip.setSession sess { d.chip.session sess with part := none }).reply (.bdp 0x11 q) .segment } := by
  unfold Dev.bdpWrite
  extract_lets c key off data a refuse x c0 before
  rw [if_neg (by omega), show objRow (keyIndex key) (keySub key) = some r from hr]
  dsimp -zeta only
  rw [if_neg (not_not_intro hsize)]
  have hb : before = none := by
    refine (if_neg hoff).trans ?_
    rw [show x.part = none from hpart]
  rw [hb]

end

section
variable {s : State} {q : Bdp} (h : s.receivesNew q)
include h

theorem read_eventMask_spec (hb : q.body = [0x13, 0x00, 0x04, 0, 0, 0, 0, 0]) (hg : s.dev.chip.readGate (od 0x1300 4) = .ok) :
    ∃ e : Chip, s.dev.bdpArrives 0x10 q = { s.dev with chip := e } ∧ e.out.head? =
      some (bdpResponse q 0x10 q.session.toNat false .ok (beBytes 4 4 ++ beBytes 4 (s.dev.chip.rd (od 0x1300 4)))) := by
  have hne {k : Nat} (hk : 0x1300 * 256 ≤ k) : k ≠ od (0x1220 + q.session.toNat) 3 := by
    have := h.2.2.1
    unfold od
    omega
  have hgate : (s.dev.chip.admitted q).readGate (od 0x1300 4) = .ok := by
    rw [← hg]
    unfold Chip.readGate Chip.domOpen Chip.domState
    rw [admitted_rd _ q (by decide) (hne (by decide))]
  have hread : (s.dev.chip.admitted q).rd (od 0x1300 4) = s.dev.chip.rd (od 0x1300 4) := admitted_rd _ q (by decide) (hne (by decide))
  obtain ⟨r, hr, hsize⟩ := objRow_eventMask
  have hval : ({ s.dev with chip := s.dev.chip.admitted q } : Dev).readVal (od 0x1300 4) =
      (beBytes 4 (s.dev.chip.rd (od 0x1300 4)), { s.dev with chip := s.dev.chip.admitted q }) := by
    rw [← hread]
    unfold Dev.readVal
    rw [show objRow (keyIndex (od 0x1300 4)) (keySub (od 0x1300 4)) = some r from hr]
    dsimp only
    rw [if_neg (by omega), hsize]
    rfl
  obtain ⟨x, hx, -⟩ := bdpReply_sends (admitted_off h) h.2.1 h.2.2.1 (congrArg Session.repeats (admitted_session ..)) 0x10 q false .ok
    (beBytes 4 4 ++ beBytes 4 (s.dev.chip.rd (od 0x1300 4)))
  have hact : ({ s.dev with chip := s.dev.chip.admitted q } : Dev).bdpRead q.session.toNat q =
      { s.dev with chip := (s.dev.chip.admitted q).bdpReply 0x10 q.session.toNat q false .ok (beBytes 4 4 ++ beBytes 4 (s.dev.chip.rd (od 0x1300 4))) } := by
    unfold Dev.bdpRead
    extract_lets d c key off refuse
    have hk : key = od 0x1300 4 := by
      dsimp only [key]
      rw [hb]
      rfl
    have ho : off = 0 := by
      dsimp only [off]
      rw [hb]
      rfl
    rw [if_neg (by rw [hb]; decide), hk, hgate, show objRow (keyIndex (od 0x1300 4)) (keySub (od 0x1300 4)) = some r from hr]
    dsimp -zeta only
    rw [if_pos (by omega), if_neg (not_not_intro ho), show ({ s.dev with chip := s.dev.chip.admitted q } : Dev).readVal (od 0x1300 4) = _ from hval]
    rfl
  refine ⟨_, (bdpArrives_new h (by decide)).trans ((bdpAct_read ..).trans hact), ?_⟩
  rw [hx]
  rfl

/-- A WRITE that sets its session's partial write is answered (R377, R380). -/
theorem reply_partial {part : Option PartialWrite} {x : Session}
    (hx : x = { (s.dev.chip.admitted q).session q.session.toNat with part := part }) (st : Status) : ∃ y : Session,
    ((s.dev.chip.admitted q).setSession q.session.toNat x).reply (.bdp 0x11 q) st =
      (((s.dev.chip.admitted q).setSession q.session.toNat x).setSession q.session.toNat y).send
        (bdpResponse q 0x11 q.session.toNat false st []) ∧ y.part = part := by
  have hs := setSession_session (s.dev.chip.admitted q) q.session.toNat x
  have hrep : x.repeats = [] := by
    rw [hx, admitted_session]
  obtain ⟨y, hy, he⟩ := reply_sends (c := (s.dev.chip.admitted q).setSession q.session.toNat x) (admitted_off h) h.2.1 h.2.2.1
    ((congrArg Session.repeats hs).trans hrep) (op := 0x11) (by decide) st
  refine ⟨y, hy, ?_⟩
  rw [hs, hx] at he
  exact (congrArg Session.part he :)

section
variable {r : ObjRow} (hl : 8 ≤ q.body.length)
  (hr : objRow (keyIndex (od (beAt q.body 0 2) (beAt q.body 2 1))) (keySub (od (beAt q.body 0 2) (beAt q.body 2 1))) = some r)
  (hsize : r.ty.size = 0)
include hl hr hsize

theorem write_first_spec (hoff : beAt q.body 4 4 = 0) (hmore : q.more = true) :
    ∃ e : Chip, s.dev.bdpArrives 0x11 q = { s.dev with chip := e } ∧
      (e.session q.session.toNat).part = some ⟨od (beAt q.body 0 2) (beAt q.body 2 1), q.body.drop 8, s.dev.chip.lc⟩ ∧
      e.out.head? = some (bdpResponse q 0x11 q.session.toNat false .ok []) := by
  obtain ⟨x, hx, he⟩ := bdpWrite_first (d := { s.dev with chip := s.dev.chip.admitted q }) (sess := q.session.toNat) hl hr hsize hoff hmore
  obtain ⟨y, hy, hp⟩ := reply_partial h he .ok
  refine ⟨_, (bdpArrives_new h (by decide)).trans ((bdpAct_write ..).trans hx), ?_⟩
  dsimp only
  rw [hy]
  refine ⟨(congrArg Session.part (setSession_session ..)).trans (hp.trans ?_), rfl⟩
  rw [admitted_lc]

theorem write_stray_spec (hoff : beAt q.body 4 4 ≠ 0) (hpart : (s.dev.chip.session q.session.toNat).part = none) :
    ∃ e : Chip, s.dev.bdpArrives 0x11 q = { s.dev with chip := e } ∧
      e.out.head? = some (bdpResponse q 0x11 q.session.toNat false .segment []) := by
  have hx := bdpWrite_stray (d := { s.dev with chip := s.dev.chip.admitted q }) (sess := q.session.toNat) hl hr hsize hoff
    ((congrArg Session.part (admitted_session ..)).trans hpart)
  obtain ⟨y, hy, -⟩ := reply_partial h rfl .segment
  refine ⟨_, (bdpArrives_new h (by decide)).trans ((bdpAct_write ..).trans hx), ?_⟩
  dsimp only
  rw [hy]
  rfl

end

theorem describe_spec {r : ObjRow} (hl : q.body.length = 4)
    (hr : objRow (keyIndex (od (beAt q.body 0 2) (beAt q.body 2 1))) (keySub (od (beAt q.body 0 2) (beAt q.body 2 1))) = some r) :
    ∃ (e : Chip) (b : List Byte), s.dev.bdpArrives 0x14 q = { s.dev with chip := e } ∧
      e.out.head? = some (bdpResponse q 0x14 q.session.toNat false .ok b) := by
  have hd : (s.dev.chip.admitted q).describe q.session.toNat q = (s.dev.chip.admitted q).bdpReply 0x14 q.session.toNat q false .ok
      ((s.dev.chip.admitted q).describeBody (od (beAt q.body 0 2) (beAt q.body 2 1)) r) := by
    unfold Chip.describe
    extract_lets key
    rw [if_neg (not_not_intro hl), show objRow (keyIndex key) (keySub key) = some r from hr]
  obtain ⟨x, hx, -⟩ := bdpReply_sends (admitted_off h) h.2.1 h.2.2.1 (congrArg Session.repeats (admitted_session ..)) 0x14 q false .ok
    ((s.dev.chip.admitted q).describeBody (od (beAt q.body 0 2) (beAt q.body 2 1)) r)
  refine ⟨_, (s.dev.chip.admitted q).describeBody (od (beAt q.body 0 2) (beAt q.body 2 1)) r, (bdpArrives_new h (by decide)).trans (bdpAct_describe ..), ?_⟩
  rw [hd, hx]
  rfl

end

end Sys2Proof.Machine
end

section
/-! PROOFS. READ, WRITE and DESCRIBE over BDP. -/

namespace Sys2Proof
open Machine

/-- Settles O29: each request is what its operation does to the chip that admitted it. -/
theorem objectRequests : Obligations.ObjectRequests := by
  intro s q r c k index sub
  refine ⟨fun h hb hg => ?_, fun h hl hr hs ho hm => ?_, fun h hl hr hs ho hp => ?_, fun h hl hr => ?_⟩
  · obtain ⟨e, he, h1⟩ := read_eventMask_spec h hb hg
    exact runs_done (congrArg (done s) he) ⟨h1, rfl, rfl⟩
  · obtain ⟨e, he, h1, h2⟩ := write_first_spec h hl hr hs ho hm
    exact runs_done (congrArg (done s) he) ⟨h1, h2, rfl, rfl⟩
  · obtain ⟨e, he, h1⟩ := write_stray_spec h hl hr hs ho hp
    exact runs_done (congrArg (done s) he) ⟨h1, rfl, rfl⟩
  · obtain ⟨e, b, he, h1⟩ := describe_spec h hl hr
    exact runs_done (congrArg (done s) he) ⟨⟨b, h1⟩, rfl, rfl⟩

end Sys2Proof
end

section
/-! PROOFS. Register writes: a clear command of a forme that is no beam. -/

namespace Sys2Proof
open Machine

/-- The chip after reset, READY, with its dictionary's domain running; none of its formes is a beam. -/
def readyChip : Chip := (State.reset.dev.chip.wr (od 0x5800 1) 5).wr (od 0x5102 3) 1

/-- The dictionary's row of a forme's clear command for its beam counters (R217). -/
def beamClearRow : ObjRow := ⟨0x3F, 1, .bool, .wo, 0, 0, 1, 1, none, [(51, 56)]⟩

theorem readyChip_gate : readyChip.gate false 0 (od 0x8000 0x3F) (.num 1) = .act := by decide

/-- A forme that is no beam refuses the objects of beams with STATE (R217). -/
theorem readyChip_refuses (d : Dev) (hd : d.chip = readyChip) (a : Asker) : d.writeNow 0 (od 0x8000 0x3F) (.num 1) a = (d, some .state) := by
  show d.writeNum 0 (od 0x8000 0x3F) 1 a = _
  unfold Dev.writeNum
  extract_lets i b c up upd upo
  rw [show objRow i b = some beamClearRow by decide]
  exact if_pos (by rw [show c = readyChip from hd]; decide)

/-- Refutes O32: the clear command of the beam counters of a forme that is no beam passes the server's checks and is answered STATE (R217),
so nothing is cleared. -/
theorem not_registerWrites : ¬ Obligations.RegisterWrites := by
  intro h
  let d : Dev := { State.reset.dev with chip := readyChip }
  obtain ⟨-, -, -, hclear, -⟩ := h { State.reset with dev := d } 0 0x8000 0x3F [1] (.num 1) .ok ⟨0, 0, [], []⟩ beamClearRow
  obtain ⟨t, ht, -, -, hok, -⟩ := hclear (by decide) (by decide) (by decide) readyChip_gate (by decide) (by decide)
  have hstate : exec (.clearCounters 0 0x8000 0x3F [1]) { State.reset with dev := d } =
      done { State.reset with dev := d } { d with chip := readyChip.answer 0 (od 0x8000 0x3F) .state } := by
    have hput := put_act (d := d) (.plain 0 (od 0x8000 0x3F)) (.write 0 (od 0x8000 0x3F) (.num 1)) (.inr (by decide)) readyChip_gate
    have haccept : d.accept 0 (od 0x8000 0x3F) (.num 1) (.plain 0 (od 0x8000 0x3F)) = (d, some .state) := by
      unfold Dev.accept
      rw [readyChip_refuses d rfl]
      rfl
    rw [haccept] at hput
    exact congrArg (done { State.reset with dev := d }) hput
  obtain rfl := Host.Outcome.next.inj (hstate.symm.trans ht)
  have hans := (answer_head readyChip 0 (od 0x8000 0x3F) .state).symm.trans hok
  exact absurd hans (by decide)

end Sys2Proof
end

section
/-! SUPPORT. What runs when a transaction's tick is reached and none of its writes is due yet (R39, R42). -/

namespace Sys2Proof.Machine

open Chip (Stirs)

/-- The objects that say when a write of the chase-period class is due, and whether HBM space moved. -/
def dueKeys : List Nat := [od 0x2C00 7, od 0x2800 2, od 0x4C00 2, od 0x3C00 0x0E]

/-- The part of the chip that says what of the schedule is due is as it was. -/
structure Chip.SameDue (c d : Chip) : Prop where
  still : ∃ (o : SMap Nat) (p : List Replaced) (l : SMap (List Byte)), d = { c with obj := o, past := p, dom := l }
  rd : ∀ k ∈ dueKeys, d.rd k = c.rd k

namespace Chip.SameDue

variable {c d : Chip} (h : Chip.SameDue c d)

theorem refl : Chip.SameDue c c := ⟨⟨_, _, _, rfl⟩, fun _ _ => rfl⟩

include h

theorem wr {k n : Nat} (hk : k ∉ dueKeys) : Chip.SameDue c (d.wr k n) := by
  obtain ⟨o, p, l, rfl⟩ := h.still
  exact ⟨⟨_, p, l, rfl⟩, fun j hj => (Chip.wr_rd_ne _ k n fun he => hk (he ▸ hj)).trans (h.rd j hj)⟩

theorem wrDom {k : Nat} {b : List Byte} : Chip.SameDue c (d.wrDom k b) := by
  obtain ⟨o, p, l, rfl⟩ := h.still
  exact ⟨⟨o, p, _, rfl⟩, h.rd⟩

theorem replaced {p : List Replaced} : Chip.SameDue c { d with past := p } := by
  obtain ⟨o, q, l, rfl⟩ := h.still
  exact ⟨⟨o, p, l, rfl⟩, h.rd⟩

theorem foldl {α : Type} {f : Chip → α → Chip} {l : List α} (hf : ∀ e x, x ∈ l → Chip.SameDue c e → Chip.SameDue c (f e x)) : Chip.SameDue c (l.foldl f d) := by
  induction l generalizing d with
  | nil => exact h
  | cons x l ih => exact ih (hf _ _ (List.mem_cons_self ..) h) fun e y hy => hf e y (List.mem_cons_of_mem _ hy)

theorem showCoef : Chip.SameDue c d.showCoef := h.wr (by decide)

theorem showTruss : Chip.SameDue c d.showTruss := (h.wr (by decide)).wr (by decide)

theorem showEnvelope : Chip.SameDue c d.showEnvelope := by
  unfold Chip.showEnvelope
  extract_lets sets l
  refine h.foldl fun e x hx he => he.wr ?_
  have hset {f : Nat} : formeOd f 0x11 ∉ dueKeys := by
    simp only [dueKeys, formeOd, od, List.mem_cons, List.not_mem_nil, or_false]
    omega
  rcases List.mem_append.mp hx with hx | hx
  · obtain ⟨f, -, rfl⟩ := List.mem_map.mp hx
    exact hset
  · have hkeys : ∀ k ∈ [od 0x3000 7, hbmOd 0x0C, hbmOd 0x0D, trigOd 0x0F, trigOd 0x10, trigOd 0x11, od 0x3400 3, od 0x4400 2, od 0x4400 3,
        od 0x3000 2], k ∉ dueKeys := by decide
    exact hkeys x.1 (List.mem_map_of_mem (f := Prod.fst) hx)

theorem showSchedule : Chip.SameDue c d.showSchedule := (h.wr (by decide)).foldl fun _ _ _ he => he.wrDom

theorem showStaging : Chip.SameDue c d.showStaging := (h.wr (by decide)).wr (by decide)

end Chip.SameDue

/-- A transaction of OD 2C00.02 whose tick is no start of a chase period. -/
def unaligned (begun : Bool) : Pending := ⟨1, 1, 0, 1, [(od 0x2C00 2, .num 1)], [], begun, 0⟩

def unalignedChip (begun : Bool) : Chip :=
  { State.reset.dev.chip with frontSeen := 1, frontAny := true, dict := { State.reset.dev.chip.dict with schedule := [unaligned begun] } }

def unalignedDev (begun : Bool) : Dev := { State.reset.dev with chip := unalignedChip begun }

theorem unaligned_due : (unalignedChip false).nextDue = some ⟨1, 0, 0⟩ := by decide

theorem unaligned_nextStep {d : Chip} (h : d.dict.schedule = [unaligned true]) :
    d.nextStep = some ⟨d.dueAt (unaligned true) (od 0x2C00 2) (.num 1), 1, 0⟩ := by
  unfold Chip.nextStep Chip.dueSteps
  rw [h]
  rfl

/-- The write waits for the start of its chase period. -/
theorem unaligned_later {d : Chip} (h : Chip.SameDue (unalignedChip true) d) : d.nextDue = none := by
  obtain ⟨⟨o, p, l, hd⟩, hrd⟩ := h
  have hT : d.chaseT = 16384 := (hrd (od 0x2C00 7) (by decide)).trans (by decide)
  have hF : d.fft = 4096 := (hrd (od 0x2800 2) (by decide)).trans (by decide)
  have hA : d.fa = (unalignedChip true).fa := hrd (od 0x4C00 2) (by decide)
  have hdue : d.dueAt (unaligned true) (od 0x2C00 2) (.num 1) = 67108864 := by
    unfold Chip.dueAt
    rw [hT, hF]
    rfl
  have hr : d.reached = (unalignedChip true).reached := by
    unfold Chip.reached Chip.front Chip.frontAt Chip.runFronts Chip.tickAt
    rw [hA, hF]
    rw [hd]
    rfl
  unfold Chip.nextDue
  rw [unaligned_nextStep (by rw [hd]; rfl), hr, hdue]
  decide

theorem unaligned_dueStep : (unalignedDev false).dueStep ⟨1, 0, 0⟩ =
    ({ ((unalignedDev true).applyWrites 1 []) with
      chip := ((unalignedDev true).applyWrites 1 []).chip.leaveSchedule } : Dev).startMigrations 18 := by
  rfl

theorem applyWrites_nil {d : Dev} (hp : d.chip.rd (od 0x3C00 0x0E) ≠ 0xFF) (t : Nat) : Chip.SameDue d.chip (d.applyWrites t []).chip := by
  have hshown : Chip.SameDue d.chip (((d.chip.replace t []).showCoef.showTruss).showEnvelope) :=
    Chip.SameDue.refl.replaced.showCoef.showTruss.showEnvelope
  have hmoved : (((d.chip.replace t []).showCoef.showTruss).showEnvelope).packMoved = d.chip.packMoved := by
    unfold Chip.packMoved
    rw [hshown.rd _ (by decide), if_neg hp, if_neg hp]
  unfold Dev.applyWrites
  extract_lets old vals acts timing d1 d2 d3 links c c1
  have hc : c = d.chip.replace t [] := rfl
  have h1 : c1 = ((d.chip.replace t []).showCoef.showTruss).showEnvelope := by rw [← hc]
  have hm : c1.packMoved = old.packMoved := by
    rw [h1]
    exact hmoved
  have hs : Chip.SameDue d.chip c1 := by
    rw [h1]
    exact hshown
  clear_value c1
  dsimp -zeta only
  rw [if_pos hm]
  exact hs

theorem leaveSchedule_same {d : Chip} (h : Chip.SameDue (unalignedChip true) d) : Chip.SameDue (unalignedChip true) d.leaveSchedule := by
  have hs : d.dict.schedule = [unaligned true] := by
    obtain ⟨⟨o, p, l, rfl⟩, -⟩ := h
    rfl
  have hall : (d.dict.schedule.filter fun p => !(p.begun && p.writes.isEmpty)) = d.dict.schedule := by
    rw [hs]
    rfl
  have hgone : (d.dict.schedule.filter fun p => p.begun && p.writes.isEmpty) = [] := by
    rw [hs]
    rfl
  unfold Chip.leaveSchedule
  rw [hall, hgone]
  exact h.showSchedule.showStaging.showCoef

theorem runSchedule_none {d : Dev} (h : d.chip.nextDue = none) (n : Nat) : d.runSchedule n = d := by
  cases n with
  | zero => rfl
  | succ n =>
    unfold Dev.runSchedule
    rw [h]

theorem runSchedule_some {d : Dev} {x : Due} (h : d.chip.nextDue = some x) (n : Nat) : d.runSchedule (n + 1) = (d.dueStep x).runSchedule n := by
  rw [Dev.runSchedule.eq_def]
  dsimp only
  rw [h]

theorem Chip.SameDue.dict {c d : Chip} (h : Chip.SameDue c d) : d.dict = c.dict := by
  obtain ⟨⟨o, p, l, rfl⟩, -⟩ := h
  rfl

theorem Chip.SameDue.hbm {c d : Chip} (h : Chip.SameDue c d) : d.hbm = c.hbm := by
  obtain ⟨⟨o, p, l, rfl⟩, -⟩ := h
  rfl

/-- The effect point is reached, and then nothing is due. -/
theorem stays_of_dueStep {d e : Dev} {x : Due} (hx : d.chip.nextDue = some x) (he : d.dueStep x = e.startMigrations 18)
    (h : Chip.SameDue (unalignedChip true) e.chip) : (d.runSchedule 2).chip.dict.schedule = [unaligned true] := by
  rw [runSchedule_some hx, he, startMigrations_idle (congrArg HbmCtl.waiting h.hbm), runSchedule_none (unaligned_later h), h.dict]
  rfl

theorem unaligned_runs : ((unalignedDev false).runSchedule 2).chip.dict.schedule = [unaligned true] :=
  stays_of_dueStep unaligned_due unaligned_dueStep
    (leaveSchedule_same (applyWrites_nil (d := unalignedDev true) (by decide) 1))

theorem transactionEffect_of_reached {s : State} {x : Due} (hx : s.dev.chip.nextStep = some x) (ht : x.tick ≤ s.dev.chip.reached) :
    execTransactionEffect s = done s (s.dev.runSchedule s.dev.chip.scheduleSteps) := by
  have hthere : s.dev.chip.untilFront x.tick = s.dev.chip := if_pos ht
  unfold execTransactionEffect
  dsimp only
  rw [hx]
  dsimp only
  rw [hthere]

end Sys2Proof.Machine
end

section
/-! PROOFS. Ends of transactions. -/

namespace Sys2Proof
open Machine

/-- Refutes O30: OD 2C00.02 takes effect at the start of a chase period (R39), so a transaction that writes it and whose effect tick lies
between two starts stays in the schedule when its tick is reached. -/
theorem not_transactionsEnd : ¬ Obligations.TransactionsEnd := by
  intro h
  obtain ⟨s, hs⟩ : ∃ s : State, s = { State.reset with dev := unalignedDev false } := ⟨_, rfl⟩
  have hc : s.dev.chip = unalignedChip false := by rw [hs]; rfl
  obtain ⟨-, heffect, -⟩ := h s ⟨0, none, .nobody⟩ ⟨0, 0, [], []⟩ (unaligned false) 0 ⟨0, [], 0⟩ 1
  obtain ⟨t, ht, -, hgone, -⟩ := heffect (by rw [hc]; rfl) rfl rfl (by rw [hc]; decide)
  have he := transactionEffect_of_reached (s := s) (x := ⟨1, 0, 0⟩) (by rw [hc]; decide) (by rw [hc]; decide)
  obtain rfl := Host.Outcome.next.inj (he.symm.trans ht)
  have hstays : (s.dev.runSchedule s.dev.chip.scheduleSteps).chip.dict.schedule = [unaligned true] := by
    rw [show s.dev.chip.scheduleSteps = 2 by rw [hc]; rfl, show s.dev = unalignedDev false by rw [hs]]
    exact unaligned_runs
  exact absurd (hstays.symm.trans hgone) (by decide)

end Sys2Proof
end

section
/-! SUPPORT. SDO transfers, and the transactions of CAN (R386-R390). -/

namespace Sys2Proof.Machine

open Chip (Stirs)

/-! ### SDO requests -/


theorem sdoArrives_handle {s : State} {f : List Byte} (h : s.receivesSdo f) : s.dev.sdoArrives f = s.dev.sdoHandle f := by
  obtain ⟨hon, hlen, hwakes, hserves, hbusy⟩ := h
  unfold Dev.sdoArrives
  extract_lets c
  rw [if_neg (by simp [show c.canOn = true from hon, hlen]), if_neg (by simp [show c.wakes 1 = false from hwakes]),
    if_neg (by simp [show c.serves = true from hserves]), if_neg (by simp [show c.busy = false from hbusy])]

theorem sdoUpload_eventMask {d : Dev} (hg : d.chip.readGate (od 0x1300 4) = .ok) : ∃ e : Chip, d.sdoUpload (od 0x1300 4) = { d with chip := e } ∧
    e.out.head? = some (.can (0x580 + d.chip.rd (od 0x1100 9)) ([0x43, 0x00, 0x13, 0x04] ++ leBytes 4 (d.chip.rd (od 0x1300 4)))) ∧
    e.dict.sdo = none := by
  obtain ⟨r, hr, hsize⟩ := objRow_eventMask
  have hval : ({ d with chip := d.chip.sdoClear } : Dev).readVal (od 0x1300 4) =
      (beBytes 4 (d.chip.rd (od 0x1300 4)), { d with chip := d.chip.sdoClear }) := by
    unfold Dev.readVal
    rw [show objRow (keyIndex (od 0x1300 4)) (keySub (od 0x1300 4)) = some r from hr]
    dsimp only
    rw [if_neg (by omega), hsize]
    rfl
  have horder (n : Nat) : sdoOrder (od 0x1300 4) (beBytes 4 n) = leBytes 4 n := by
    unfold sdoOrder
    rw [show objRow (keyIndex (od 0x1300 4)) (keySub (od 0x1300 4)) = some r from hr]
    exact if_neg (by omega)
  have hhead (n : Nat) : sdoHead (0x43 + 4 * (4 - (leBytes 4 n).length)) (od 0x1300 4) = [0x43, 0x00, 0x13, 0x04] := by
    rw [show (leBytes 4 n).length = 4 from rfl]
    decide
  have hpad (n : Nat) : padTo 4 (leBytes 4 n) = leBytes 4 n := by rfl
  unfold Dev.sdoUpload
  dsimp only
  rw [show d.chip.sdoClear.readGate (od 0x1300 4) = .ok from hg]
  dsimp only
  rw [show Dev.readVal _ (od 0x1300 4) = _ from hval]
  dsimp only
  rw [horder, if_pos (by rfl)]
  refine ⟨_, rfl, ?_, ?_⟩
  · refine (congrArg List.head? (bump_out ..)).trans ?_
    refine (congrArg (fun n => some (Sent.can (0x580 + n) _)) (Chip.wr_rd_ne _ _ _ (by decide))).trans ?_
    rw [hhead, hpad]
    rfl
  · rw [Chip.sdoDone, bump_dict']
    rfl

/-- The answer of an SDO frame on the chip's own identifier. -/
def sdoReply (c : Chip) (b : List Byte) : Sent := .can (0x580 + c.rd (od 0x1100 9)) b

theorem sdoDownload_segmented {d : Dev} {cmd key : Nat} {r : ObjRow} (he : bitAt cmd 1 = false) (hr : objRow (keyIndex key) (keySub key) = some r)
    (f : List Byte) : ∃ e : Chip, d.sdoDownload cmd key f = { d with chip := e } ∧ e.dict.sdo =
      some ⟨false, key, [], if bitAt cmd 0 then some (leVal (slice f 4 4)) else none, 0, false, d.chip.lc⟩ ∧
      e.out.head? = some (sdoReply d.chip (sdoHead 0x60 key ++ List.replicate 4 0)) := by
  unfold Dev.sdoDownload
  dsimp only
  rw [if_neg (by simp [he]), if_neg (by simp [hr])]
  exact ⟨_, rfl, rfl, rfl⟩

theorem sdoSegment_download {d : Dev} {x : SdoTransfer} {cmd : Nat} (hx : d.chip.dict.sdo = some x) (hu : x.upload = false)
    (ht : bitAt cmd 4 = x.toggle) (hl : bitAt cmd 0 = false) (f : List Byte) : ∃ e : Chip,
      d.sdoSegment false cmd f = { d with chip := e } ∧ e.dict.sdo =
      some { x with bytes := x.bytes ++ slice f 1 (7 - bits cmd 1 3), toggle := !x.toggle, since := d.chip.lc } := by
  unfold Dev.sdoSegment
  dsimp only
  rw [hx]
  dsimp only
  rw [if_neg (by simp [hu]), if_neg (not_not_intro ht), if_neg (by simp)]
  unfold Dev.sdoDownSegment
  dsimp only
  rw [if_neg (by simp [hl])]
  exact ⟨_, rfl, rfl⟩

theorem sdoClear_sdoAbort {c d : Chip} (h : d.rd (od 0x1100 9) = c.rd (od 0x1100 9)) (key code : Nat) :
    (d.sdoClear.sdoAbort key code).dict.sdo = none ∧
    (d.sdoClear.sdoAbort key code).out.head? = some (sdoReply c (sdoHead 0x80 key ++ leBytes 4 code)) := by
  unfold sdoReply
  rw [← h]
  exact ⟨rfl, rfl⟩

theorem sdoSegmentTimeout_spec {s : State} {x : SdoTransfer} (hx : s.dev.chip.dict.sdo = some x) : ∃ e : Chip,
    execSdoSegmentTimeout s = ok s e ∧ e.dict.sdo = none ∧
    e.out.head? = some (sdoReply s.dev.chip (sdoHead 0x80 x.key ++ leBytes 4 0x05040000)) := by
  have hs : Stirs .waiting s.dev.chip (s.dev.chip.untilLc (x.since + 1000000001)) := Stirs.refl.untilLc (by decide)
  unfold execSdoSegmentTimeout
  dsimp only
  rw [hx]
  exact ⟨_, rfl, sdoClear_sdoAbort (hs.rd _ (by decide)) ..⟩

/-- The command specifiers of CiA 301 that the statement speaks of (R387). -/
theorem sdoHandle_cases (d : Dev) (f : List Byte) : let cmd := beAt f 0 1
    let key := od (leVal (slice f 1 2)) (beAt f 3 1)
    (cmd / 32 = 0 → d.sdoHandle f = d.sdoSegment false cmd f) ∧ (cmd / 32 = 1 → d.sdoHandle f = d.sdoDownload cmd key f) ∧
    (cmd / 32 = 2 → d.sdoHandle f = d.sdoUpload key) ∧
    (cmd / 32 = 5 ∨ cmd / 32 = 6 → d.sdoHandle f = { d with chip := d.chip.sdoAbort key 0x05040001 }) := by
  intro cmd key
  unfold Dev.sdoHandle
  refine ⟨fun h => if_pos h, fun h => ?_, fun h => ?_, fun h => ?_⟩
  · rw [if_neg (by omega), if_pos h]
  · rw [if_neg (by omega), if_neg (by omega), if_pos h]
  · rw [if_neg (by omega), if_neg (by omega), if_neg (by omega), if_neg (by omega), if_neg (by omega)]

theorem writeNum_canBegin (d : Dev) (a : Asker) :
    d.writeNum 0 (od 0x1200 0x10) 1 a = ({ d with chip := (d.chip.begin 0).1 }, some (d.chip.begin 0).2) := by
  rfl

theorem writeNum_canCommit (d : Dev) (n : Nat) (a : Asker) :
    d.writeNum 0 (od 0x1200 0x11) n a = ({ d with chip := (d.chip.commitBy 0 (some n) a).1 }, (d.chip.commitBy 0 (some n) a).2) := by
  rfl

theorem writeNum_canCommitNow (d : Dev) (a : Asker) :
    d.writeNum 0 (od 0x1200 0x12) 1 a = ({ d with chip := (d.chip.commitBy 0 none a).1 }, (d.chip.commitBy 0 none a).2) := by
  rfl

theorem writeNum_canRollback (d : Dev) (a : Asker) : d.writeNum 0 (od 0x1200 0x13) 1 a = ((d.rollbackBy 0).1, some (d.rollbackBy 0).2) := by
  rfl

/-! ### The transactions of CAN -/

section
variable {s : State}

theorem canBegin_runs (ha : s.accepts 0 (od 0x1200 0x10) (.num 1)) (ht : s.dev.chip.dict.txn = none) : Runs .canBegin s fun t =>
    t.dev.chip.dict.txn = some ⟨0, s.dev.chip.lc, [], []⟩ ∧ t.answered 0 (od 0x1200 0x10) .ok ∧ t.coresAndMemoryOf s := by
  obtain ⟨d, hd, hdict, -, -⟩ := begin_spec ht 0
  have hnow : s.dev.writeNow 0 (od 0x1200 0x10) (.num 1) (.plain 0 (od 0x1200 0x10)) = ({ s.dev with chip := d }, some .ok) :=
    (writeNum_canBegin s.dev (.plain 0 (od 0x1200 0x10))).trans (by rw [hd])
  refine runs_write rfl ha (.inl (by decide)) hnow fun e he => ⟨?_, answer_head .., rfl, rfl⟩
  obtain ⟨b, t, o, rfl⟩ := he.frame
  exact (congrArg Dict.txn hdict :)

/-- A COMMIT of session 0's transaction begins its validation; it is answered when that ends (R368, R388). -/
theorem canCommit_put {k : Nat} {tick : Option Nat} {v : Val} (ha : s.accepts 0 k v) (hk : k ≠ powOd 2) (ho : s.dev.chip.owner = some 0)
    (hw : s.dev.writeNow 0 k v (.plain 0 k) =
      ({ s.dev with chip := (s.dev.chip.commitBy 0 tick (.plain 0 k)).1 }, (s.dev.chip.commitBy 0 tick (.plain 0 k)).2)) :
    ∃ c : Chip, s.dev.write 0 k v = { s.dev with chip := c } ∧ c.dict.validating = some ⟨0, tick, .plain 0 k⟩ := by
  rw [commitBy_owner ho] at hw
  have hacc : s.dev.accept 0 k v (.plain 0 k) = s.dev.writeNow 0 k v (.plain 0 k) := by
    unfold Dev.accept
    rw [hw]
    rfl
  unfold Dev.write
  rw [put_act _ _ (.inl hk) ha, hacc, hw]
  exact ⟨_, rfl, rfl⟩

theorem canRollback_runs {w : Txn} (ha : s.accepts 0 (od 0x1200 0x13) (.num 1)) (ht : s.dev.chip.dict.txn = some w) (hw : w.owner = 0) :
    Runs .canRollback s fun t =>
    t.dev.chip.dict.txn = none ∧ t.answered 0 (od 0x1200 0x13) .ok ∧ t.dev.mem = s.dev.mem := by
  have ho : s.dev.chip.owner = some 0 := by
    unfold Chip.owner
    rw [ht, ← hw]
    rfl
  obtain ⟨-, hdict, hmem, -⟩ := rollBack_keeps s.dev
  have hnow : s.dev.writeNow 0 (od 0x1200 0x13) (.num 1) (.plain 0 (od 0x1200 0x13)) = (s.dev.rollBack, some .ok) :=
    (writeNum_canRollback s.dev (.plain 0 (od 0x1200 0x13))).trans (by rw [rollbackBy_owner ho])
  refine runs_write rfl ha (.inl (by decide)) hnow fun e he => ⟨?_, answer_head .., hmem⟩
  obtain ⟨b, t, o, rfl⟩ := he.frame
  exact (congrArg Dict.txn hdict :)

end

end Sys2Proof.Machine
end

section
/-! PROOFS. CAN requests. -/

namespace Sys2Proof
open Machine

/-- Settles O31: each frame is what its command specifier says, and BEGIN, COMMIT and ROLLBACK are writes of session 0. -/
theorem canRequests : Obligations.CanRequests := by
  intro s f x r w tick c cmd key reply
  obtain ⟨hseg, hdown, hup, hblock⟩ := sdoHandle_cases s.dev f
  refine ⟨fun h hf hg => ?_, fun h hc he hr => ?_, fun h hx hu hc ht hl => ?_, fun h hc => ?_, fun hx => ?_, fun hon => ?_, fun hon hrd => ?_,
    fun ha ht => ?_, fun ha ho => ?_, fun ha ho => ?_, fun ha ht hw => ?_⟩
  · obtain ⟨e, he, hout, hsdo⟩ := sdoUpload_eventMask hg
    have hkey : key = od 0x1300 4 := by
      dsimp only [key]
      rw [hf]
      rfl
    have hcmd : cmd / 32 = 2 := by
      dsimp only [cmd]
      rw [hf]
      rfl
    have hexec : s.dev.sdoArrives f = { s.dev with chip := e } := by
      rw [sdoArrives_handle h, hup hcmd, show od (leVal (slice f 1 2)) (beAt f 3 1) = od 0x1300 4 from hkey, he]
    exact runs_done (congrArg (done s) hexec) ⟨hout, hsdo, rfl, rfl⟩
  · obtain ⟨e, he, hsdo, hout⟩ := sdoDownload_segmented he hr f (d := s.dev)
    exact runs_done (congrArg (done s) ((sdoArrives_handle h).trans ((hdown hc).trans he))) ⟨hsdo, hout, rfl, rfl⟩
  · obtain ⟨e, he, hsdo⟩ := sdoSegment_download hx hu ht hl f
    exact runs_done (congrArg (done s) ((sdoArrives_handle h).trans ((hseg hc).trans he))) ⟨hsdo, rfl, rfl⟩
  · exact runs_done (congrArg (done s) ((sdoArrives_handle h).trans (hblock hc))) ⟨rfl, rfl, rfl⟩
  · obtain ⟨e, he, h1, h2⟩ := sdoSegmentTimeout_spec hx
    exact runs_ok he ⟨h1, h2, rfl, rfl⟩
  · exact runs_ok (congrArg (ok s) (if_pos hon)) ⟨bump_rd_same .., rfl, rfl⟩
  · exact runs_ok (congrArg (ok s) ((if_neg hrd).trans (if_pos hon))) ⟨rfl, rfl, rfl⟩
  · exact canBegin_runs ha ht
  · obtain ⟨e, he, hv⟩ := canCommit_put ha (by decide) ho (writeNum_canCommit ..)
    exact runs_done (congrArg (done s) he) ⟨hv, rfl, rfl⟩
  · obtain ⟨e, he, hv⟩ := canCommit_put ha (by decide) ho (writeNum_canCommitNow ..)
    exact runs_done (congrArg (done s) he) ⟨hv, rfl, rfl⟩
  · exact canRollback_runs ha ht hw

end Sys2Proof
end

section
/-! SUPPORT. Twin operation: heartbeats, roles, pegs and snapshots (R430-R442). -/

namespace Sys2Proof.Machine

open Chip (Stirs)

theorem twinOd_ne {a b : Nat} (h : a ≠ b) : twinOd a ≠ twinOd b := by
  unfold twinOd od
  omega

theorem stirLevel_twinOd {sub : Nat} (hs : sub < 256) : stirLevel (twinOd sub) = 5 := by
  unfold stirLevel twinOd
  rw [keyIndex_od hs, keySub_od hs]
  rfl

theorem untilTick_stirs (c : Chip) (t : Nat) : Stirs .waiting c (c.untilTick t) := by
  unfold Chip.untilTick
  split
  · exact Stirs.refl
  · extract_lets there
    split
    · exact Stirs.refl.untilLc (by decide)
    · exact Stirs.refl

theorem stirs_role {a : Scope} {c d : Chip} (h : Stirs a c d) (ha : a.objects < 5) : d.role = c.role := h.rd (twinOd 0x10) ha

/-! ### Roles -/

/-- A side whose role changes shows it. -/
theorem setRole_role (c : Chip) (r : Nat) (sev : Severity) : (c.setRole r sev).role = r := by
  by_cases h : c.role = r
  · unfold Chip.setRole
    rwa [if_pos h]
  · exact (stirs_role (setRole_stirs sev h) (by decide)).trans (Chip.wr_rd_same _ _ _)

theorem setRole_rd (c : Chip) (r : Nat) (sev : Severity) {sub : Nat} (hs : sub ≠ 0x10) (hsub : sub < 256) :
    (c.setRole r sev).rd (twinOd sub) = c.rd (twinOd sub) := by
  by_cases h : c.role = r
  · unfold Chip.setRole
    rw [if_pos h]
  · refine ((setRole_stirs sev h).rd _ ?_).trans (roleTaken_rd c (twinOd_ne hs))
    rw [stirLevel_twinOd hsub]
    decide

theorem setRole_trigger (c : Chip) (r : Nat) (sev : Severity) : (c.setRole r sev).trigger = c.trigger := by
  by_cases h : c.role = r
  · unfold Chip.setRole
    rw [if_pos h]
  · exact (setRole_stirs sev h).trigger

theorem setRole_runs (c : Chip) (r : Nat) (sev : Severity) : (c.setRole r sev).twin.runs = c.twin.runs := by
  by_cases h : c.role = r
  · unfold Chip.setRole
    rw [if_pos h]
  · have hs := (setRole_stirs sev h).twin
    exact (congrArg Twin.runs hs).trans rfl

theorem bump_role (c : Chip) {k : Nat} (n : Nat) (h : k ≠ twinOd 0x10) : (c.bump k n).role = c.role := bump_rd_ne _ _ h.symm

theorem bump_twin (c : Chip) (k n : Nat) : (c.bump k n).twin = c.twin := by
  obtain ⟨o, ho⟩ := Chip.bump_frame c k n
  exact (congrArg Chip.twin ho :)

theorem sendHeartbeat_role (c : Chip) : c.sendHeartbeat.role = c.role := (Chip.Mirrors.refl.mirror _ _).rd _ (by decide)

/-- A heartbeat that is sent is counted (R434). -/
theorem sendHeartbeat_counts {c : Chip} (h : c.twinBundle.isSome = true) :
    c.sendHeartbeat.rd (twinOd 0x22) = wrapObj (twinOd 0x22) (c.rd (twinOd 0x22) + 1) := by
  obtain ⟨b, hb⟩ := Option.isSome_iff_exists.mp h
  unfold Chip.sendHeartbeat Chip.mirror
  rw [hb]
  exact bump_rd_same ..

/-! ### Pegs of a shadow -/

theorem toGroups_trigger (c : Chip) (p : Peg) : (c.toGroups p).trigger.standby = c.trigger.standby ∧ (c.toGroups p).trigger.seq = c.trigger.seq := by
  have hfold (l : List Nat) : (l.foldl (fun a g => a.setGroup g { a.group g with waiting := pegInsert p (a.group g).waiting }) c).trigger.standby =
      c.trigger.standby ∧
      (l.foldl (fun a g => a.setGroup g { a.group g with waiting := pegInsert p (a.group g).waiting }) c).trigger.seq = c.trigger.seq :=
    ⟨foldl_keeps (f := fun a g => a.setGroup g { a.group g with waiting := pegInsert p (a.group g).waiting }) (fun c => c.trigger.standby)
      (fun _ _ => rfl) l c, foldl_keeps (f := fun a g => a.setGroup g { a.group g with waiting := pegInsert p (a.group g).waiting })
      (fun c => c.trigger.seq) (fun _ _ => rfl) l c⟩
  unfold Chip.toGroups
  extract_lets hits late c1
  split
  · exact ⟨rfl, rfl⟩
  · split
    · exact hfold _
    · rw [bump_trigger]
      exact hfold _

/-- A peg that is spread leaves the pegs held back and the next number. -/
theorem spreadPeg_trigger (c : Chip) (p : Peg) : (c.spreadPeg p).trigger.standby = c.trigger.standby ∧ (c.spreadPeg p).trigger.seq = c.trigger.seq := by
  have hlog (c : Chip) (side : Nat) (own : Bool) : (c.logPeg p side own).trigger.standby = c.trigger.standby ∧
      (c.logPeg p side own).trigger.seq = c.trigger.seq := by
    unfold Chip.logPeg
    extract_lets n e g c1
    have hb := bump_trigger c1 (od 0x3800 0x1F) 1
    exact ⟨(congrArg Trigger.standby hb :), (congrArg Trigger.seq hb :)⟩
  have hsend (c : Chip) : (c.sendPeg p.bytes).trigger = c.trigger := by
    unfold Chip.sendPeg
    refine foldl_keeps Chip.trigger (fun a b => ?_) _ _
    extract_lets x
    split
    · exact bump_trigger ..
    · rfl
  unfold Chip.spreadPeg
  extract_lets c1 c2
  have h1 : c1.trigger.standby = c.trigger.standby ∧ c1.trigger.seq = c.trigger.seq := by
    unfold c1
    split
    · exact ⟨rfl, rfl⟩
    · exact toGroups_trigger c p
  have h2 := hlog c1 c.side true
  split
  · rw [hsend]
    exact ⟨h2.1.trans h1.1, h2.2.trans h1.2⟩
  · exact ⟨h2.1.trans h1.1, h2.2.trans h1.2⟩

theorem numberPeg_standby (c : Chip) (tick kind flags detail amp : Nat) : (c.numberPeg tick kind flags detail amp).trigger.standby = c.trigger.standby := by
  unfold Chip.numberPeg
  extract_lets n b g c1
  have h1 : c1.trigger.standby = c.trigger.standby := (spreadPeg_trigger ..).1.trans ((congrArg Trigger.standby (bump_trigger _ _ _)).trans rfl)
  split
  · obtain ⟨b, t, o, ho⟩ := (Chip.Mirrors.refl.mirror (c := c1) 0x12 (beBytes 1 1 ++ (beBytes 7 0 ++ b))).frame
    rw [ho]
    exact h1
  · exact h1

/-- The pegs held back get their numbers: none is held any more (R438). -/
theorem numberStandby_spec (c : Chip) : c.numberStandby.trigger.standby = [] ∧ Chip.Pegs c c.numberStandby := by
  unfold Chip.numberStandby
  extract_lets before l g
  refine ⟨foldl_keeps (f := fun (a : Chip) (e : Peg × Nat) => a.numberPeg e.1.tick e.1.kind e.1.flags e.1.detail e.1.amplitude)
    (fun c => c.trigger.standby) (fun _ _ => numberPeg_standby ..) _ _, (Chip.Pegs.refl.withTrigger _).foldl (fun _ _ => Chip.Pegs.refl.numberPeg ..) _⟩

/-- The pegs held back and the twin's own objects are as they were. -/
structure Chip.KeepsTwin (c d : Chip) : Prop where
  standby : d.trigger.standby = c.trigger.standby
  rd : ∀ sub < 0x20, d.rd (twinOd sub) = c.rd (twinOd sub)

namespace Chip.KeepsTwin

variable {c d : Chip} (h : Chip.KeepsTwin c d)

theorem refl : Chip.KeepsTwin c c := ⟨rfl, fun _ _ => rfl⟩

theorem foldl {α : Type} {f : Chip → α → Chip} (hf : ∀ e x, Chip.KeepsTwin c e → Chip.KeepsTwin c (f e x)) (l : List α) {d : Chip}
    (h : Chip.KeepsTwin c d) : Chip.KeepsTwin c (l.foldl f d) := by
  induction l generalizing d with
  | nil => exact h
  | cons x l ih => exact ih (hf d x h)

include h

theorem bump {k n : Nat} (hk : k < od 0x5400 0 ∨ od 0x5400 0x20 ≤ k) : Chip.KeepsTwin c (d.bump k n) := by
  refine ⟨(congrArg Trigger.standby (bump_trigger ..)).trans h.standby, fun sub hsub => (bump_rd_ne _ _ ?_).trans (h.rd sub hsub)⟩
  unfold twinOd
  unfold od at hk ⊢
  omega

theorem countFault {sev : Severity} {k n : Nat} (hk : k < od 0x5400 0 ∨ od 0x5400 0x20 ≤ k) : Chip.KeepsTwin c (d.countFault sev k n) := by
  have hb := h.bump (n := 1) hk
  have hs := countFault_stirs d sev k n
  refine ⟨(congrArg Trigger.standby hs.trigger).trans hb.standby, fun sub hsub => (hs.rd _ ?_).trans (hb.rd sub hsub)⟩
  rw [stirLevel_twinOd (by omega)]
  decide

theorem applyDecision (x : Decision) (source n : Nat) : Chip.KeepsTwin c (d.applyDecision x source n) := by
  unfold Chip.applyDecision
  extract_lets c0 a b merged r lo hi slot first g
  have h0 : Chip.KeepsTwin c c0 := ⟨h.standby, h.rd⟩
  clear_value c0
  split
  · exact h0.bump (by decide)
  · split
    · next k _ =>
      extract_lets g' c1 c2 c3
      have h1 : Chip.KeepsTwin c c1 := by
        refine ⟨h0.standby, fun sub hsub => (Chip.wr_rd_ne _ _ _ ?_).trans (h0.rd sub hsub)⟩
        unfold twinOd od
        omega
      clear_value c1
      have h2 : Chip.KeepsTwin c c2 := h1.bump (by decide)
      clear_value c2
      have h3 : Chip.KeepsTwin c c3 := by
        unfold c3
        split
        · exact h2.bump (by decide)
        · exact h2
      clear_value c3
      split
      · exact ⟨h3.standby, h3.rd⟩
      · exact h3
    · exact h0.countFault (by decide)

theorem sendDecision (x : Decision) (n : Nat) (twin : Bool) : Chip.KeepsTwin c (d.sendDecision x n twin) := by
  unfold Chip.sendDecision
  extract_lets c1
  have h1 : Chip.KeepsTwin c c1 := foldl (f := fun a b => a.queueControl b 0x02 n x.bytes) (fun e _ he => ⟨he.standby, he.rd⟩) _ h
  clear_value c1
  split
  · split
    · exact Chip.KeepsTwin.bump (d := c1.queueControl _ _ _ _) ⟨h1.standby, h1.rd⟩ (by decide)
    · exact h1
  · exact h1

theorem issue (x : Decision) : Chip.KeepsTwin c (d.issue x) := by
  unfold Chip.issue
  extract_lets n g c1
  have h1 : Chip.KeepsTwin c c1 :=
    (Chip.KeepsTwin.bump (d := { d with trigger := { d.trigger with msgId := (n + 1) % 2 ^ 48 } }) ⟨h.standby, h.rd⟩ (by decide)).applyDecision ..
  exact h1.sendDecision ..

theorem issueSuppressed : Chip.KeepsTwin c d.issueSuppressed :=
  foldl (fun _ _ he => he.issue _) _ ⟨h.standby, h.rd⟩

end Chip.KeepsTwin

/-! ### The partner is gone -/

/-- A shadow or a joining side takes over (R438). -/
theorem partnerGone_spec {c : Chip} (h : c.role = 3 ∨ c.role = 4) : c.partnerGone.role = 2 ∧ c.partnerGone.rd (twinOd 0x12) = 0 ∧
    c.partnerGone.trigger.standby = [] := by
  unfold Chip.partnerGone
  extract_lets c1 t c2
  have hr : c1.role = c.role := Chip.wr_rd_ne _ _ _ (by decide)
  have h12 : c2.rd (twinOd 0x12) = 0 := Chip.wr_rd_same c (twinOd 0x12) 0
  clear_value c2
  rw [if_pos (by rw [hr]; simpa using h)]
  obtain ⟨hnone, hpegs⟩ := numberStandby_spec c2
  have hkeep : Chip.KeepsTwin c2.numberStandby c2.numberStandby.issueSuppressed := Chip.KeepsTwin.refl.issueSuppressed
  refine ⟨(bump_role _ _ (by decide)).trans (setRole_role ..), (bump_rd_ne _ _ (by decide)).trans ((setRole_rd _ _ _ (by decide) (by decide)).trans
    ((hkeep.rd _ (by decide)).trans ((hpegs.rd _ (by decide) (by decide)).trans h12))), ?_⟩
  rw [bump_trigger, setRole_trigger, hkeep.standby]
  exact hnone

theorem takeOver_spec {s : State} {h : Nat} (hr : s.dev.chip.role = 3 ∨ s.dev.chip.role = 4) (hh : s.dev.chip.twin.heard = some h) :
    ∃ e : Chip, execTakeOver s = ok s e ∧ e.role = 2 ∧ e.rd (twinOd 0x12) = 0 ∧ e.trigger.standby = [] := by
  have hs : Stirs .waiting s.dev.chip (s.dev.chip.untilLc (h + s.dev.chip.rd (twinOd 6) * 1000)) := Stirs.refl.untilLc (by decide)
  unfold execTakeOver
  dsimp only
  rw [hh]
  dsimp only
  rw [if_pos (by omega)]
  have hr' := stirs_role hs (by decide)
  exact ⟨_, rfl, partnerGone_spec (by rw [hr']; exact hr)⟩

theorem startTimeout_spec {s : State} (h : s.dev.chip.role = 1) : ∃ e : Chip, execStartTimeout s = ok s e ∧ e.role = 2 := by
  unfold execStartTimeout
  dsimp only
  rw [if_pos h]
  exact ⟨_, rfl, setRole_role ..⟩

/-! ### Hand-over -/

theorem handOver_ok {c : Chip} (h : c.role = 2) : ∃ d : Chip, c.handOverWrite 1 = (d, .ok) ∧
    d.twin.swapAt = some (c.periodStart (c.periodFrom (c.tick + (c.fa + 49) / 50))) := by
  unfold Chip.handOverWrite
  rw [if_neg (by decide), if_neg (not_not_intro h)]
  exact ⟨_, rfl, rfl⟩

theorem answer_twin (c : Chip) (sess key : Nat) (st : Status) : (c.answer sess key st).twin = c.twin := (stirs_answer ..).twin

theorem handoverTick_lead {s : State} {h : Nat} (hh : s.dev.chip.twin.swapAt = some h) (hr : s.dev.chip.role = 2) :
    ∃ e : Chip, execHandoverTick s = ok s e ∧ e.role = 3 := by
  have hs := stirs_role (untilTick_stirs s.dev.chip h) (by decide)
  unfold execHandoverTick
  rw [hh]
  dsimp only
  rw [if_pos (hs.trans hr)]
  exact ⟨_, rfl, (sendHeartbeat_role _).trans ((bump_role _ _ (by decide)).trans (setRole_role ..))⟩

theorem handoverTick_shadow {s : State} {h : Nat} (hh : s.dev.chip.twin.swapAt = some h) (hr : s.dev.chip.role = 3) :
    ∃ e : Chip, execHandoverTick s = ok s e ∧ e.role = 2 ∧ e.twin.waiting = true := by
  have hs := stirs_role (untilTick_stirs s.dev.chip h) (by decide)
  unfold execHandoverTick
  rw [hh]
  dsimp only
  rw [if_neg (by omega), if_pos (hs.trans hr)]
  exact ⟨_, rfl, (bump_role _ _ (by decide)).trans (setRole_role ..), rfl⟩

/-! ### What the partner sends -/

section
variable {s : State} {b : Fin 256} {frame body : List Byte} {d : Chip}

theorem handover_spec (h : s.dev.chip.twinIn b 0x15 frame = (d, some body)) (hr : d.role = 3) :
    ∃ e : Chip, execHandover b frame s = ok s e ∧ e.twin.swapAt = some (beAt body 0 8) := by
  unfold execHandover
  rw [h]
  dsimp only
  rw [if_pos hr]
  exact ⟨_, rfl, rfl⟩

/-- A heartbeat of a lead gives its shadow the numbers (R434). -/
theorem heartbeatIn_shadow (hr : d.role = 3) (hb : beAt body 0 1 = 2) : (d.heartbeatIn body).role = 3 ∧
    (d.heartbeatIn body).trigger.seq = (beAt body 16 2 + 1) % 65536 ∧ (d.heartbeatIn body).trigger.msgId = (beAt body 18 6 + 1) % 2 ^ 48 ∧
    (d.heartbeatIn body).rd (twinOd 0x11) = 2 ∧ (d.heartbeatIn body).rd (twinOd 0x12) = 1 := by
  unfold Chip.heartbeatIn
  extract_lets was r from_ old t c1
  have h1 : c1.role = 3 := ((Chip.wr_rd_ne _ _ _ (by decide)).trans (Chip.wr_rd_ne _ _ _ (by decide))).trans hr
  have h11 : c1.rd (twinOd 0x11) = 2 := (Chip.wr_rd_ne _ _ _ (by decide)).trans ((Chip.wr_rd_same _ _ _).trans hb)
  have h12 : c1.rd (twinOd 0x12) = 1 := Chip.wr_rd_same _ _ _
  clear_value c1
  rw [h1]
  show (if r = 2 then c1.takeNumbers body else c1).role = 3 ∧ _
  rw [if_pos hb]
  exact ⟨h1, rfl, rfl, h11, h12⟩

theorem heartbeatIn_seeking (hr : d.role = 1) (hb : beAt body 0 1 = 1) (hp : d.preferred = true) : (d.heartbeatIn body).role = 2 := by
  unfold Chip.heartbeatIn
  extract_lets was r from_ old t c1
  have h1 : c1.role = 1 := ((Chip.wr_rd_ne _ _ _ (by decide)).trans (Chip.wr_rd_ne _ _ _ (by decide))).trans hr
  have hp1 : c1.preferred = true := by
    rw [← hp]
    unfold Chip.preferred Chip.side
    rw [show c1.rd (twinOd 3) = d.rd (twinOd 3) from (Chip.wr_rd_ne _ _ _ (by decide)).trans (Chip.wr_rd_ne _ _ _ (by decide)),
      show c1.rd (od 0x1080 2) = d.rd (od 0x1080 2) from (Chip.wr_rd_ne _ _ _ (by decide)).trans (Chip.wr_rd_ne _ _ _ (by decide))]
  clear_value c1
  rw [h1]
  show (if r = 2 then c1.enterJoining .note else if r = 1 && c1.preferred then c1.setRole 2 .note else c1).role = 2
  rw [if_neg (by omega), if_pos (by simp [r, hb, hp1])]
  exact setRole_role ..

theorem heartbeat_spec (h : s.dev.chip.twinIn b 0x13 frame = (d, some body)) (hr : d.role ≠ 0) :
    execHeartbeat b frame s = ok s (d.heartbeatIn body) := by
  unfold execHeartbeat
  rw [h]
  dsimp only
  rw [if_neg hr]

theorem pegs_spec (h : s.dev.chip.twinIn b 0x12 frame = (d, some body)) (hs : d.shadow = true) (hb : beAt body 0 1 = 1) :
    ∃ e : Chip, execPegs b frame s = ok s e ∧ e.trigger.seq = (beAt (slice body 8 16) 8 2 + 1) % 65536 := by
  unfold execPegs
  rw [h]
  dsimp only
  rw [if_pos (by simp [hs]), hb]
  exact ⟨_, rfl, (spreadPeg_trigger ..).2⟩

theorem mirrorWrite_spec (h : s.dev.chip.twinIn b 0x10 frame = (d, some body)) (hm : d.mirrors = true) (ho : beAt body 4 4 = 0)
    (hl : bitAt (beAt body 3 1) 6 = false) : ∃ e : Chip, execMirrorWrite b frame s = ok s e ∧ e.twin.part =
      some ⟨od (beAt body 0 2) (beAt body 2 1), body.drop 16, bitAt (beAt body 3 1) 7, beAt body 12 4⟩ := by
  have hseg : ∃ e : Chip, d.mirrorSegment body = (e, none) ∧ e.twin.part =
      some ⟨od (beAt body 0 2) (beAt body 2 1), body.drop 16, bitAt (beAt body 3 1) 7, beAt body 12 4⟩ := by
    unfold Chip.mirrorSegment
    dsimp only
    rw [if_pos ho]
    dsimp only
    rw [if_pos (by simp [hl])]
    exact ⟨_, rfl, rfl⟩
  obtain ⟨e, he, hp⟩ := hseg
  unfold execMirrorWrite
  rw [h]
  dsimp only
  rw [if_neg (by simp [hm]), he]
  exact ⟨_, rfl, hp⟩

theorem mirrorCommitIn_staged (x : Dev) : (x.mirrorCommitIn body).chip.twin.staged = [] := by
  unfold Dev.mirrorCommitIn
  extract_lets w c v c1
  split
  · rfl
  · dsimp only
    split
    · rfl
    · exact congrArg Twin.staged (bump_twin ..)

theorem mirrorCommit_spec (h : s.dev.chip.twinIn b 0x11 frame = (d, some body)) (hm : d.mirrors = true) :
    execMirrorCommit b frame s = done s (({ s.dev with chip := d } : Dev).mirrorCommitIn body) := by
  unfold execMirrorCommit
  rw [h]
  exact if_pos hm

theorem snapshot_spec (h : s.dev.chip.twinIn b 0x14 frame = (d, some body)) (hr : d.role = 4) (hs : d.twin.snapshot = true)
    (hb : beAt body 0 1 = 1) : ∃ e : Chip, execSnapshot b frame s = ok s e ∧ e.twin.snapshot = false ∧ e.twin.startAt.isSome = true ∧
      e.rd (twinOd 0x13) = beAt body 8 8 := by
  have hexec : execSnapshot b frame s = ok s (d.snapshotEnd (beAt body 8 8)) := by
    unfold execSnapshot
    rw [h]
    dsimp only
    rw [if_neg (not_not_intro hr), if_neg (by omega), if_pos (by simp [hb, hs])]
  refine ⟨_, hexec, ?_⟩
  unfold Chip.snapshotEnd
  extract_lets n t
  rw [bump_twin]
  exact ⟨rfl, rfl, (bump_rd_ne _ _ (by decide)).trans (Chip.wr_rd_same _ _ _)⟩

end

/-! ### Standby and joining -/

theorem standbyExpiry_spec (s : State) : ∃ e : Chip, execStandbyExpiry s = ok s e ∧
    ∀ x ∈ e.trigger.standby, x ∈ s.dev.chip.trigger.standby ∧ e.lc < x.2 + s.dev.chip.rd (twinOd 9) * 1000 := by
  unfold execStandbyExpiry
  extract_lets c0 held c old n g c1
  have hs : Stirs .waiting c0 c := by
    unfold c
    generalize held = l
    cases l with
    | nil => exact Stirs.refl
    | cons t r => exact Stirs.refl.untilLc (by decide)
  have h9 : c.rd (twinOd 9) = c0.rd (twinOd 9) := hs.rd _ (by decide)
  refine ⟨_, rfl, fun x hx => ?_⟩
  rw [bump_trigger] at hx
  have hlc : (c1.bump (twinOd 0x25) n).lc = c.lc := by
    obtain ⟨o, ho⟩ := Chip.bump_frame c1 (twinOd 0x25) n
    exact (congrArg Chip.lc ho :)
  obtain ⟨hmem, hold⟩ := List.mem_filter.mp hx
  have hnew : ¬ x.2 + c.rd (twinOd 9) * 1000 ≤ c.lc := by simpa [old] using hold
  rw [hlc]
  refine ⟨hs.trigger ▸ hmem, ?_⟩
  show c.lc < x.2 + c0.rd (twinOd 9) * 1000
  omega

theorem startStream_twin (c : Chip) (s sp : Nat) : (c.startStream s sp).twin = c.twin := by
  unfold Chip.startStream
  extract_lets x
  split
  · rfl
  · split
    · rfl
    · rfl

theorem wr_twin (c : Chip) (k n : Nat) : (c.wr k n).twin = c.twin := rfl

theorem showRunning_twin (c : Chip) : c.showRunning.twin = c.twin := by
  unfold Chip.showRunning
  split
  · rfl
  · rfl

theorem runEffect_on_twin (c : Chip) (sp : Nat) : (c.runEffect sp true).twin = c.twin := by
  unfold Chip.runEffect
  rw [if_pos rfl]
  extract_lets fe c1 c2
  have h1 : c1.twin = c.twin := rfl
  clear_value c1
  have h2 : c2.twin = (c1.readyFrom sp).twin := by
    refine foldl_keeps Chip.twin (fun a s => ?_) (List.range 1024) (c1.readyFrom sp)
    split
    · exact startStream_twin ..
    · rfl
  exact (wr_twin c2 (chanOd 9) 1).trans (h2.trans h1)

theorem runEffect_off_twin (c : Chip) (sp : Nat) : (c.runEffect sp false).twin = c.twin := by
  unfold Chip.runEffect
  rw [if_neg (by decide)]
  exact (showRunning_twin _).trans rfl

theorem runEffect_twin (c : Chip) (sp : Nat) (on : Bool) : (c.runEffect sp on).twin = c.twin := by
  cases on with
  | true => exact runEffect_on_twin c sp
  | false => exact runEffect_off_twin c sp

theorem trussEffect_twin (c : Chip) (n : Nat) (on : Bool) : (c.trussEffect n on).twin = c.twin := by
  have hopen (a : Chip) (n : Nat) : (if a.halfState (halfOf n) = 0 then a.openHalf (halfOf n) n else a).twin = a.twin := by
    split
    · rfl
    · rfl
  have hstop (a : Chip) (h : Fin 2) : (if a.halfState h = 1 && decide (n ≤ a.halfPeriod h) then a.idleHalf h else a).twin = a.twin := by
    split
    · rfl
    · rfl
  unfold Chip.trussEffect
  split
  · exact (hopen _ _).trans (hopen _ _)
  · exact (hstop _ _).trans (hstop _ _)

theorem xRunEffect_twin (c : Chip) (n : Nat) (on : Bool) : (c.xRunEffect n on).twin = c.twin := by
  have hforme (c : Chip) (f st : Nat) : (c.formeTo f st).twin = c.twin := by
    unfold Chip.formeTo
    extract_lets proofs
    exact foldl_keeps (f := fun (a : Chip) g => a.wr (formeOd g 0x10) st) Chip.twin (fun _ _ => rfl) _ _
  have hstop (c : Chip) : c.stopBreak.twin = c.twin := by
    unfold Chip.stopBreak
    extract_lets run c1 c2
    have h1 : c1.twin = c.twin := foldl_keeps (f := fun (a : Chip) f => a.bump (formeOd f 0x19) 1) Chip.twin (fun _ _ => bump_twin ..) _ _
    have h2 : c2.twin = c1.twin := foldl_keeps (f := fun (a : Chip) f => a.formeTo f (b2n (a.formeOn f))) Chip.twin (fun _ _ => hforme ..) _ _
    clear_value c2
    obtain ⟨v, hv⟩ := showBeams_wr (c2.wr (xOd 4) (b2n (c.on (xOd 1) && c.xe.halt.isNone)))
    rw [hv]
    exact h2.trans h1
  unfold Chip.xRunEffect
  split
  · split
    · rfl
    · rfl
  · split
    · exact hstop c
    · rfl

/-- The run objects that a joining side writes are not its list of them (R440). -/
theorem runAt_runs (c : Chip) (n : Nat) (keys : List Nat) (on : Bool) : (c.runAt n keys on).twin.runs = c.twin.runs := by
  have hput (w : List (Nat × Val)) (c : Chip) : (w.foldl Chip.put c).twin = c.twin := by
    refine foldl_keeps Chip.twin (fun c e => ?_) w c
    unfold Chip.put
    split
    · rfl
    · rfl
  unfold Chip.runAt
  extract_lets v l c1
  refine congrArg Twin.runs ((foldl_keeps (f := fun (a : Chip) k =>
    if k = chanOd 1 then a.runEffect (n * a.chaseT) on
    else if k = od 0x2C00 1 then a.trussEffect n on
    else if k = xOd 1 then a.xRunEffect n on else a) Chip.twin (fun a k => ?_) l c1).trans (hput _ c))
  split
  · exact runEffect_twin ..
  · split
    · exact trussEffect_twin ..
    · split
      · exact xRunEffect_twin ..
      · rfl

theorem joiningDataPathStart_spec {s : State} {h : Nat} (hs : s.dev.chip.twin.startAt = some h) (hr : s.dev.chip.role ≠ 0) :
    ∃ e : Chip, execJoiningDataPathStart s = ok s e ∧ e.twin.runs = [] := by
  have hsettle (c : Chip) : c.joinSettle.twin.runs = c.twin.runs := by
    unfold Chip.joinSettle
    split
    · exact setRole_runs ..
    · rfl
  unfold execJoiningDataPathStart
  dsimp only
  rw [hs]
  dsimp only
  rw [if_neg hr]
  exact ⟨_, rfl, (hsettle _).trans (runAt_runs ..)⟩

end Sys2Proof.Machine
end

section
/-! PROOFS. Twin operation. -/

namespace Sys2Proof
open Machine

/-- Settles O54: each clause is what its command does to the role, the numbers, the pegs held back or the snapshot. -/
theorem twinOperation : Obligations.TwinOperation := by
  intro s sess b frame body d h c key role heard pegBody
  refine ⟨fun hr => ?_, fun hr hb => ?_, fun hr => ?_, fun hr hh => ?_, fun ha hr => ?_, fun ha hr => ?_, fun hh hr => ?_, fun hh hr => ?_,
    fun hh hr => ?_, fun hh hr hb => ?_, fun hh hr hb hp => ?_, fun hh hs hb => ?_, ?_, fun hh hr => ?_, fun hh hm ho hl => ?_,
    fun hh hm => ?_, fun hh hr hs hb => ?_⟩
  · exact runs_ok (congrArg (ok s) (if_pos hr)) rfl
  · exact runs_ok (congrArg (ok s) (if_neg hr)) ⟨sendHeartbeat_counts hb, rfl, rfl⟩
  · obtain ⟨e, he, h1⟩ := startTimeout_spec hr
    exact runs_ok he ⟨h1, rfl, rfl⟩
  · obtain ⟨e, he, h1, h2, h3⟩ := takeOver_spec hr hh
    exact runs_ok he ⟨h1, h2, h3, rfl, rfl⟩
  · obtain ⟨e, he, h1⟩ := handOver_ok hr
    exact runs_request rfl ha he ⟨(congrArg Twin.swapAt (answer_twin ..)).trans h1, answer_head .., rfl, rfl⟩
  · have he : c.handOverWrite 1 = (c, .state) := by
      unfold Chip.handOverWrite
      rw [if_neg (by decide), if_pos hr]
    exact runs_request rfl ha he ⟨answer_head .., rfl, rfl⟩
  · obtain ⟨e, he, h1⟩ := handover_spec hh hr
    exact runs_ok he ⟨h1, rfl, rfl⟩
  · obtain ⟨e, he, h1⟩ := handoverTick_lead hh hr
    exact runs_ok he ⟨h1, rfl, rfl⟩
  · obtain ⟨e, he, h1, h2⟩ := handoverTick_shadow hh hr
    exact runs_ok he ⟨h1, h2, rfl, rfl⟩
  · obtain ⟨h1, h2, h3, h4, h5⟩ := heartbeatIn_shadow hr hb
    exact runs_ok (heartbeat_spec hh (by omega)) ⟨h1, h2, h3, h4, h5, rfl, rfl⟩
  · exact runs_ok (heartbeat_spec hh (by omega)) ⟨heartbeatIn_seeking hr hb hp, rfl, rfl⟩
  · obtain ⟨e, he, h1⟩ := pegs_spec hh hs hb
    exact runs_ok he ⟨h1, rfl, rfl⟩
  · obtain ⟨e, he, h1⟩ := standbyExpiry_spec s
    exact runs_ok he ⟨h1, rfl, rfl⟩
  · obtain ⟨e, he, h1⟩ := joiningDataPathStart_spec hh hr
    exact runs_ok he ⟨h1, rfl, rfl⟩
  · obtain ⟨e, he, h1⟩ := mirrorWrite_spec hh hm ho hl
    exact runs_ok he ⟨h1, rfl, rfl⟩
  · exact runs_done (mirrorCommit_spec hh hm) (mirrorCommitIn_staged _)
  · obtain ⟨e, he, h1, h2, h3⟩ := snapshot_spec hh hr hs hb
    exact runs_ok he ⟨h1, h2, h3, rfl, rfl⟩

end Sys2Proof
end

section
/-! PROOFS. Bring-up: a boot record while a COMMIT without its transaction is validated. -/

namespace Sys2Proof
open Machine

/-- A boot configuration of version 77 whose one record writes 775 to OD 1017.00 (R455). -/
def heartbeatImage : List Byte :=
  [0x64, 0x00, 0xB0, 0xC5, 1, 0, 0, 0, 0, 0, 0, 77, 0, 0, 0, 12, 80, 156, 248, 137] ++ List.replicate 12 0 ++
    [0x10, 0x17, 0, 0, 0, 0, 0, 2, 3, 7, 0, 0]

/-- A chip in CONFIG with the last commit failed, a COMMIT in validation and no transaction open. -/
def strayCommitChip : Chip :=
  let c := (State.reset.dev.chip.wr (od 0x5800 1) 4).wr (od 0x1200 6) 5
  { c with dict := { c.dict with validating := some ⟨0, none, .nobody⟩ } }

def strayCommitState : State := { State.reset with dev := { State.reset.dev with chip := strayCommitChip } }

theorem heartbeatImage_header : bootHeader (some heartbeatImage) = (1, 77, [0x10, 0x17, 0, 0, 0, 0, 0, 2, 3, 7, 0, 0]) := by decide +kernel

theorem strayCommit_gate : (strayCommitChip.wr (od 0x1080 6) 77).gate true 0 (od 0x1017 0) (.num 775) = .act := by decide

/-- The value of OD 5800.04 after a step; 0 where it does not answer a state. -/
def bootStatusOf : Host.Outcome State Fault Refusal → Nat
  | .next t => t.dev.chip.rd (od 0x5800 4)
  | _ => 0

/-- The record takes the last commit's status for its own, and the boot configuration fails. -/
theorem strayCommit_fails : bootStatusOf (execBootConfiguration (some heartbeatImage) strayCommitState) = 5 := by decide +kernel

/-- Refutes O26: the statement's boot record of OD 1017.00 does not say that no COMMIT is validated; where one is, without a transaction, the
record that writes waits for its end and gets the status of the commit before it, so the boot configuration ends in CONFIG_FAILED (R456). -/
theorem not_bringUp : ¬ Obligations.BringUp := by
  intro h
  obtain ⟨-, -, -, hconfig⟩ := h
  obtain ⟨-, hrecord⟩ := hconfig strayCommitState none heartbeatImage 77 3 7
  obtain ⟨t, ht, -, -, hok, -⟩ := hrecord (by decide) (by decide) heartbeatImage_header strayCommit_gate
  have hfails := strayCommit_fails
  rw [show execBootConfiguration (some heartbeatImage) strayCommitState = .next t from ht] at hfails
  exact absurd (hok.symm.trans hfails) (by decide)

end Sys2Proof
end
